-- ==== Sys2Proof/Word.lean ====
section
/-! DEFINITION. The word types of the module: a byte, and byte strings. Multi-byte values are
little-endian (R6); bit 0 is the least significant bit (R4). -/

namespace Sys2Proof

/-- One byte. -/
abbrev Byte := BitVec 8

/-- A string of bytes, lowest address first. -/
abbrev Bytes := List Byte

/-- A table with a default: entries in strictly rising key order, none equal to the default.
It holds everything the module has many of (registers, counters, pages), keyed by a number. -/
abbrev SMap (α : Type) := List (Nat × α)

/-- An exact value of a number format: NaN, an infinity, or `± m * 2^e`. A zero keeps its sign. -/
inductive FVal where
  | nan
  | inf (neg : Bool)
  | fin (neg : Bool) (m : Nat) (e : Int)
  deriving DecidableEq, Repr, Inhabited

/-- The wide floating formats of R48. -/
inductive WFmt where
  | fp32
  | bf16
  | fp16
  deriving DecidableEq, Repr, Inhabited

end Sys2Proof
end

