-- ==== Sys2Proof/Syntax.lean ====
section
/-! DEFINITION. The commands of the module: one constructor of `Instr` for each row of
spec/opcode_table.json, in the table's order, with the row's operands. A slot's fields are those
of the field tables the row's rule names; an event's operands say where it happens. -/

namespace Sys2Proof

/-- How a bundle reaches one gallery (R193 to R196): the logical gallery, the job tag of the
issuing program (0 for the main program), the bundle's address (for fault logs), the descriptor
bank of the running segment (R188), and the gallery's offsets in the bundle's set (R195). -/
structure SlotCtx where
  gal : Nat
  tag : Nat
  bundle : Nat
  bank : Nat
  moff : Nat
  roff : Nat
  xoff : Nat
  deriving DecidableEq, Repr, Inhabited

/-- MLOAD.W, in the order of R67. -/
structure MloadF where
  alcove : Nat
  first : Nat
  count : Nat
  fmt : Nat
  width : Nat
  lvl : Nat
  src : Nat
  arrStride : Nat
  scaleSrc : Nat
  deriving DecidableEq, Repr, Inhabited

/-- MSTREAM, in the order of R70; `nRows` is the field (rows minus one). -/
structure MstreamF where
  alcove : Nat
  first : Nat
  count : Nat
  bus : Nat
  group : Nat
  nRows : Nat
  rowDesc : Nat
  rowBase : Nat
  rowPitch : Nat
  passStride : Nat
  rowMask : Nat
  kMask : Nat
  advance : Nat
  wPassStride : Nat
  deriving DecidableEq, Repr, Inhabited

/-- MOPEN, in the order of R103; `anchor` is the 10-bit field as written. -/
structure MopenF where
  alcove : Nat
  first : Nat
  count : Nat
  group : Nat
  base : Nat
  rows : Nat
  fmt : Nat
  mode : Nat
  anchor : Nat
  deriving DecidableEq, Repr, Inhabited

/-- MCLOSE and MDRAIN (R106, R167, R197); MCLOSE has no clear bit. -/
structure DrainF where
  alcove : Nat
  first : Nat
  count : Nat
  group : Nat
  clear : Nat
  dst : Nat
  ofmt : Nat
  fmask : Nat
  deriving DecidableEq, Repr, Inhabited

/-- MSHIFT, in the order of R107; `kimm` is the 11-bit field as written. -/
structure MshiftF where
  alcove : Nat
  first : Nat
  count : Nat
  group : Nat
  row0 : Nat
  nrows : Nat
  ksrc : Nat
  kimm : Nat
  deriving DecidableEq, Repr, Inhabited

/-- The common fields of the V slot (R159), without the opcode, which the row gives. `a`, `b` and
`c` are the 18-bit operand specifiers of R156. -/
structure VecF where
  ntiles : Nat
  dst : Nat
  dstride : Nat
  a : Nat
  b : Nat
  c : Nat
  mask : Nat
  mzero : Nat
  fmt : Nat
  sat : Nat
  aux : Nat
  deriving DecidableEq, Repr, Inhabited

/-- VQNT (R113). -/
structure VqntF where
  src : Nat
  ntiles : Nat
  axis : Nat
  srcFmt : Nat
  desc : Nat
  kspan : Nat
  kvalid : Nat
  row0 : Nat
  dstElem : Nat
  dstScale : Nat
  dstOut : Nat
  rnd : Nat
  rng : Nat
  smode : Nat
  fscale : Nat
  deriving DecidableEq, Repr, Inhabited

/-- VDQN (R198). -/
structure VdqnF where
  ntiles : Nat
  dst : Nat
  dstride : Nat
  desc : Nat
  axis : Nat
  kspan : Nat
  kvalid : Nat
  srcElem : Nat
  srcScale : Nat
  srcOut : Nat
  ofmt : Nat
  unturn : Nat
  mask : Nat
  mzero : Nat
  deriving DecidableEq, Repr, Inhabited

/-- VLD and VST (R198). -/
structure VmemF where
  ntiles : Nat
  reg : Nat
  dstride : Nat
  addr : Nat
  pitch : Nat
  sfmt : Nat
  mask : Nat
  mzero : Nat
  layout : Nat
  deriving DecidableEq, Repr, Inhabited

/-- The D slot without its opcode (R199). -/
structure DslotF where
  loff : Nat
  token : Nat
  xdesc : Nat
  deriving DecidableEq, Repr, Inhabited

/-- The A slot without its opcode (R202). -/
structure AslotF where
  token : Nat
  adesc : Nat
  deriving DecidableEq, Repr, Inhabited

/-- A memory-side operation as it reaches a channel controller (R238): its job tag, element type
(R200), target logical address, source bytes and one poison bit for each 32 source bytes. -/
structure MemOpF where
  tag : Nat
  mtype : Nat
  addr : Nat
  data : Bytes
  poison : List Bool
  deriving DecidableEq, Repr, Inhabited

/-- A descriptor as its D slot names it, for the update passes (R314): the issuing gallery's
context and the slot. -/
structure DescF where
  ctx : SlotCtx
  slot : DslotF
  deriving DecidableEq, Repr, Inhabited

/-- A packet of the arcade (R269): the originating slot and hall, the destination slot, the virtual
channel, the detour mark, the 256-bit header, the data bytes, and one poison bit for each 16 data
bytes (R257). -/
structure Packet where
  src : Nat
  shall : Nat
  dst : Nat
  vc : Nat
  detour : Bool
  hop : Nat
  header : Nat
  data : Bytes
  poison : List Bool
  deriving DecidableEq, Repr, Inhabited

/-- A stream (R271) as a message about it names it at its source: the originating slot, the destination
slot, the hall of origin and the virtual channel, with a packet sequence. -/
structure StreamF where
  src : Nat
  dst : Nat
  shall : Nat
  vc : Nat
  pseq : Nat
  deriving DecidableEq, Repr, Inhabited

/-- A format-vote message (R145): sender's slot, step, epoch in force, round, and one proposal
record `(cset, rung, tracker)` for each cset of the group (`rung` is the held bit in round 2). -/
structure VoteF where
  slot : Nat
  step : Nat
  attempt : Nat
  epoch : Nat
  round : Nat
  items : List (Nat × Nat × Option Int)
  deriving DecidableEq, Repr, Inhabited

/-- An adoption agreement message (R409). -/
structure AgreeF where
  slot : Nat
  step : Nat
  attempt : Nat
  eo : Nat
  prop : Nat
  ok : Bool
  deriving DecidableEq, Repr, Inhabited

/-- Who sends a mailbox request: the port (0 A, 1 B) and the request's SEQ (R391). -/
structure ReqF where
  port : Nat
  seq : Nat
  deriving DecidableEq, Repr, Inhabited

/-- A portico request frame (R415): the source and destination addresses, the EtherType, whether the frame is tagged and
whether its FCS holds; whether it arrives while an earlier request is still being served (R418); VER, SVC, SEQ, INDEX,
SUB, LEN, OFFSET, XFER and the data. An address is a number whose highest byte is the octet received first, the order of
IEEE 802.3 (R6, log 64). -/
structure FrameF where
  src : Nat
  dst : Nat
  etherType : Nat
  tagged : Bool
  fcsOk : Bool
  waits : Bool
  ver : Nat
  svc : Nat
  seq : Nat
  index : Nat
  sub : Nat
  len : Nat
  offset : Nat
  xfer : Nat
  data : Bytes
  deriving DecidableEq, Repr, Inhabited

/-- OP and TAG of a message header (R380). -/
structure VmsgF where
  op : Nat
  tag : Nat
  deriving DecidableEq, Repr, Inhabited

/-- The plane an object write comes from (R398): the portico, the host plane through one vestibule,
or the debug access port. -/
inductive Plane where
  | portico
  | host
  | debug
  deriving DecidableEq, Repr, Inhabited

/-- A suite of R340 that found its unit wrong: the array suite, the landing suite, the banister or the vector suite. -/
inductive Suite where
  | array
  | landing
  | banister
  | vector
  deriving DecidableEq, Repr, Inhabited

/-- What the suites of R340 found: all passed; the array suite wrong in columns of an array (none of its columns where it
is wrong outside them); the landing suite wrong in an array; a banister unit wrong; the vector suite wrong in a quad. -/
inductive SuiteResult where
  | pass
  | columns (alc arr : Nat) (cols : List Nat)
  | landing (alc arr : Nat)
  | banister (alc : Nat)
  | vector (quad : Nat)
  deriving DecidableEq, Repr, Inhabited

/-- The result that a failed suite, its unit and the wrong columns name. -/
def SuiteResult.of (fails : Option Suite) (unit : Nat) (cols : List Nat) : SuiteResult :=
  match fails with
  | none => .pass
  | some .array => .columns (unit / 132) (unit % 132) cols
  | some .landing => .landing (unit / 132) (unit % 132)
  | some .banister => .banister unit
  | some .vector => .vector unit

/-- A sensor of R476 with its reading in tenths of a degree, or an electrical reading (R484). -/
structure SensorF where
  inputMv : Nat
  inputMa : Nat
  powerW : Nat
  avgPowerW : Nat
  hostW : Nat
  /-- 32 hall junctions, 8 arcade dies, 8 stacks, inlet, outlet, in tenths of a degree. -/
  temps : List Int
  deriving DecidableEq, Repr, Inhabited

/-- One command. Each constructor is a row of spec/opcode_table.json. -/
inductive Instr where
  | bundleIssue
  | mloadW (x : SlotCtx) (f : MloadF)
  | mstream (x : SlotCtx) (f : MstreamF)
  | landingWrite
  | mopen (x : SlotCtx) (f : MopenF)
  | mclose (x : SlotCtx) (f : DrainF)
  | mdrain (x : SlotCtx) (f : DrainF)
  | mshift (x : SlotCtx) (f : MshiftF)
  | landingOpRelease
  | drainStart
  | vadd (x : SlotCtx) (f : VecF)
  | vsub (x : SlotCtx) (f : VecF)
  | vmul (x : SlotCtx) (f : VecF)
  | vfma (x : SlotCtx) (f : VecF)
  | vmax (x : SlotCtx) (f : VecF)
  | vmin (x : SlotCtx) (f : VecF)
  | vabs (x : SlotCtx) (f : VecF)
  | vneg (x : SlotCtx) (f : VecF)
  | vsel (x : SlotCtx) (f : VecF)
  | vmov (x : SlotCtx) (f : VecF)
  | vtrn (x : SlotCtx) (f : VecF)
  | vand (x : SlotCtx) (f : VecF)
  | vor (x : SlotCtx) (f : VecF)
  | vxor (x : SlotCtx) (f : VecF)
  | vshl (x : SlotCtx) (f : VecF)
  | vshr (x : SlotCtx) (f : VecF)
  | vexp2 (x : SlotCtx) (f : VecF)
  | vlog2 (x : SlotCtx) (f : VecF)
  | vrcp (x : SlotCtx) (f : VecF)
  | vrsq (x : SlotCtx) (f : VecF)
  | vscale (x : SlotCtx) (f : VecF)
  | vred (x : SlotCtx) (f : VecF)
  | vsmax (x : SlotCtx) (f : VecF)
  | vcmp (x : SlotCtx) (f : VecF)
  | vmset (x : SlotCtx) (f : VecF)
  | vmlog (x : SlotCtx) (f : VecF)
  | vcvt (x : SlotCtx) (f : VecF)
  | vqnt (x : SlotCtx) (f : VqntF)
  | vdqn (x : SlotCtx) (f : VdqnF)
  | vrnd (x : SlotCtx) (f : VecF)
  | vld (x : SlotCtx) (f : VmemF)
  | vst (x : SlotCtx) (f : VmemF)
  | vflg (x : SlotCtx) (f : VecF)
  | vsolve (x : SlotCtx) (f : VecF)
  | dget (x : SlotCtx) (f : DslotF)
  | dput (x : SlotCtx) (f : DslotF)
  | dmov (x : SlotCtx) (f : DslotF)
  | add (f : MemOpF)
  | max (f : MemOpF)
  | xor (f : MemOpF)
  | updatePass1 (d : DescF)
  | updatePass2 (d : DescF)
  | queueHoldEnd
  /-- Descriptor `id` completes; `ok` is false when its unit failed it (no path, a rejection). -/
  | descriptorCompletion (id : Nat) (ok : Bool)
  | asendData (x : SlotCtx) (f : AslotF)
  | asendTokenOnly (x : SlotCtx) (f : AslotF)
  | aredReduceScatter (x : SlotCtx) (f : AslotF)
  | aredAllReduce (x : SlotCtx) (f : AslotF)
  | aredPhase2 (cid : Nat)
  | agathPush (x : SlotCtx) (f : AslotF)
  | agathReuse (x : SlotCtx) (f : AslotF)
  | swait (x : SlotCtx) (ctr value : Nat)
  | stallRelease
  | ssignal (x : SlotCtx) (ctr value target : Nat)
  | sbound
  | boundaryActions
  | connectivityRetry
  | voteTimeout
  | agreementTimeout
  | watchdogAbort
  | side (x : SlotCtx) (length mask ve : Nat)
  | sideSlicePlace (hall : Nat)
  | checked (x : SlotCtx) (alcoves quads : Nat)
  | cwake (x : SlotCtx) (mask ve : Nat)
  | galleryClockStop (gal : Nat)
  | galleryClockRestart (gal : Nat)
  | wakeHoldEnd
  | currentKeeperCycle
  | rampDownStart (gal alcove : Nat)
  | rampDownEnd (gal alcove : Nat)
  | rampUpEnd (gal alcove : Nat)
  | rampHoldEnd
  | fetchHoldEnd
  /-- Queue 0 to 49: a gallery's; 50 and 51: Hall A's and Hall B's. -/
  | errorQueuePop (queue : Nat)
  | rowRemap (stack chan bank row : Nat)
  | pageMigration (page : Nat)
  | channelCopy (stack chan : Nat)
  | channelCopyEnd (stack chan : Nat)
  /-- One pass of patrol scrub over a stack; `done` is false when it did not finish in its period. -/
  | patrolScrub (stack : Nat) (done : Bool)
  | dataFlit (link lane : Nat) (flit : Bytes) (uncorr : Bool)
  | idleFlit (link lane : Nat) (flit : Bytes) (uncorr : Bool)
  | nak (link lane count : Nat)
  | laneRetire (link lane reason : Nat)
  | laneJoin (link lane : Nat)
  | down (link reason : Nat)
  | spareLaneTrained (link : Nat)
  | beacon (link : Nat) (payload : Bytes)
  | beaconPeriod (link : Nat)
  | replayTimeout (link lseq : Nat)
  | lossOfSignal (link : Nat)
  | linkNoFlit (link : Nat)
  | laneLossOfLock (link lane : Nat)
  /-- The end of a second on a link: for each lane, uncorrectable codewords and corrected symbols. -/
  | laneErrorSecond (link : Nat) (counts : List (Nat × Nat × Nat))
  | laneNoFlit (link lane : Nat)
  | linkHoldExpiry (link : Nat) (signal : Bool)
  | linkTrainingDone (link lockedLanes : Nat)
  | linkTrainingTimeout (link : Nat)
  | alignDone (link lockedLanes : Nat)
  | alignTimeout (link : Nat)
  | mwrite (p : Packet)
  | rreq (p : Packet)
  | token (p : Packet)
  | streamAcknowledgement (t : StreamF)
  | streamAckPeriod
  | gapRequest (t : StreamF)
  | readyMessage (slot cid step attempt cepoch : Nat) (eloc : Int)
  | voteMessage (v : VoteF)
  | agreementMessage (a : AgreeF)
  | contextMessage (slot offset total : Nat) (data : Bytes)
  | portUpMessage (slot bits : Nat)
  /-- Relay `relay` reports no route onward for the stream's packet. -/
  | noRoute (relay : Nat) (t : StreamF)
  | mwriteRejection (slot cid pseq : Nat)
  | linkReset (plane : Plane) (link : Nat)
  | laneMode (plane : Plane) (mode : Nat)
  | vestibuleRead (port : Nat) (m : VmsgF) (addr len : Nat)
  | windowRegisterWrite (port addr : Nat) (data : Bytes)
  | vstRetryCntRead (port tag : Nat)
  | vstPoisonCntRead (port tag : Nat)
  | apertureRead (port tag addr len cls : Nat)
  | apertureWrite (port addr cls : Nat) (data : Bytes) (mask : List Bool)
  | programDoorbell (port n value : Nat)
  | collectiveDoorbellAnchor (port value : Nat)
  | collectiveDoorbellSums (port value : Nat)
  | vestibuleLinkDown (port : Nat)
  | vestibuleLinkUp (port : Nat)
  | objectRead (r : ReqF) (index sub offset count : Nat)
  | objectWrite (r : ReqF) (index sub offset : Nat) (data : Bytes)
  | digestQuery (r : ReqF)
  | programLoad (r : ReqF) (addr size : Nat)
  | start (r : ReqF)
  | replayStart (r : ReqF)
  | park (r : ReqF)
  | resume (r : ReqF)
  | save (r : ReqF) (addr : Nat)
  | restore (r : ReqF) (addr flags : Nat)
  | takeoverSlices (r : ReqF) (rank : Nat)
  | takeoverTwin (r : ReqF) (rank : Nat)
  | reMirror (r : ReqF)
  | warmReset (r : ReqF)
  | powerRequestDormant (r : ReqF)
  | powerRequestStandby (r : ReqF)
  | powerRequestReady (r : ReqF)
  | powerTransitionDone
  | attestationReport (r : ReqF) (nonce : Bytes)
  | debugToken (r : ReqF) (tok : Bytes)
  | firmwareStage (r : ReqF) (kind addr size : Nat)
  | firmwareActivate (r : ReqF)
  /-- `ok` is false when the processor failed to reach running on the staged set. -/
  | activationNextRestart (ok : Bool)
  | firmwareAbandon (r : ReqF)
  | porticoRead (f : FrameF)
  | porticoWrite (f : FrameF)
  | segmentStart (f : FrameF)
  | segment (f : FrameF)
  | segmentEnd (f : FrameF)
  | segmentAbort (f : FrameF)
  | segmentTimeout (xfer : Nat)
  | porticoDigestQuery (f : FrameF)
  | restoreDefaults (plane : Plane) (value : Nat)
  | clearPoisoned (plane : Plane) (page : Nat)
  | removeGuardBand (plane : Plane) (gal : Nat)
  | clearFloorMap (plane : Plane) (value : Nat)
  | galleryReset (plane : Plane) (gal : Nat)
  | clearLatchedBits (plane : Plane) (value : Nat)
  | ownerEnrolment (rec : Bytes)
  | lifecycleToReturned (rec : Bytes)
  | lifecycleToProvisioned (rec : Bytes)
  | generateIdentityKey (plane : Plane) (value : Nat)
  | installCertificateChain (plane : Plane) (chain : Bytes)
  | injectionArm (plane : Plane) (count : Nat)
  | bypass (bit : Bool)
  | idcode
  | extest (shiftIn : Bytes)
  | samplePreload (shiftIn : Bytes)
  | dbgobj (req : Bytes)
  | dbgmemRead (addr : Nat)
  | dbgmemWrite (addr data : Nat)
  | tapToken (tok : Bytes)
  /-- Processor 0 security, 1 power, 2 scheduler, 3 + n gallery control core n. -/
  | corectlHalt (proc : Nat)
  | corectlStep (proc : Nat)
  | corectlResume (proc : Nat)
  /-- PRST_N asserted for `ns` nanoseconds so far. -/
  | prstN (ns : Nat)
  /-- The slot straps as sampled (R482). -/
  | coldBoot (slotPins : Nat)
  /-- A falling edge of WAKE_N held for `ns` nanoseconds. -/
  | wakeN (ns : Nat)
  | inputApplied (mv : Nat)
  | brownout (aonLost : Bool)
  | railFault (rail : Nat)
  | hostFault
  | clockFault
  /-- Input current in amperes, above the limit for 50 µs. -/
  | eCurrent (amps : Nat)
  /-- A junction sensor and its reading in tenths of a degree. -/
  | eJunction (sensor : Nat) (temp : Int)
  | sensorPoll (r : SensorF)
  | curbedStepTimer
  | clockStepUp
  /-- The highest junction and the outlet, in tenths of a degree. -/
  | thermalTrip (junction outlet : Int)
  | processorWatchdog (proc : Nat)
  | lockstepMismatch (proc : Nat)
  /-- `ok` is false when the restarted processor failed to reach running (or its restart test). -/
  | processorRestartDone (proc : Nat) (ok : Bool)
  | gccHoldExpiry (gal : Nat)
  | hallBridgeVoteFail
  /-- A queued targeted sentinel of gallery `gal` runs, with the result of its suites (log 49): the suite that failed, if
  one did; its unit, which is array `alcove * 132 + array` of the gallery, an alcove or a quad; and the wrong columns. -/
  | targetedSentinel (gal : Nat) (fails : Option Suite) (unit : Nat) (badCols : List Nat)
  | marginSweep
  | sweepPoint (r : SuiteResult)
  | persistFlashWrite
  | floorMapRecordWrite
  | manifestSignature
  | cperNotify
  | linkSignalDetect (link : Nat)
  | crystalRunsAgain
  | hostSitePowerRequest (mv : Nat)
  | coordinatorBeaconLoss
  | adapterRetry (port : Nat)
  /-- `vote` is true for a dissenting lane set, false for a data flit's CRC. -/
  | hallBridgeCrcError (vote : Bool)
  deriving DecidableEq, Repr

end Sys2Proof
end

