-- ==== Sys2Proof/Decode.lean ====
section
/-! DEFINITION. The decoding of a table word. No row of spec/opcode_table.json gives its command any
bits: commands reach the module as slots of a bundle, register accesses, packets and events, so no
word spells one. -/

namespace Sys2Proof

/-- The command a word spells by the table's bits: none, because no row gives bits. -/
def decodeTableWord (_nbits _w : Nat) : Option Instr := none

end Sys2Proof
end

