-- ==== Sys2Proof/Machine/Bits.lean ====
section
/-! DEFINITION. Tables with a default, bit fields, little-endian byte strings (R4, R6) and the
integer helpers that the rest of the machine uses. -/

namespace Sys2Proof.Machine

/-- The entry of key `k`, or the default `d` where the table lists none. -/
def mapGet (d : α) : SMap α → Nat → α
  | [], _ => d
  | (k', v) :: r, k => if k' = k then v else mapGet d r k

/-- The table with entry `k` set to `v`; writing the default removes the entry. -/
def mapSet [DecidableEq α] (d : α) : SMap α → Nat → α → SMap α
  | [], k, v => if v = d then [] else [(k, v)]
  | (k', v') :: r, k, v =>
    if k' = k then (if v = d then mapSet d r k d else (k, v) :: r)
    else if k < k' ∧ v ≠ d then (k, v) :: (k', v') :: r
    else (k', v') :: mapSet d r k v

/-- `mapSet` with the entry computed from the present one. -/
def mapMod [DecidableEq α] (d : α) (m : SMap α) (k : Nat) (f : α → α) : SMap α :=
  mapSet d m k (f (mapGet d m k))

/-- The canonical form: keys strictly rising, no entry equal to the default. -/
def mapWf [DecidableEq α] (d : α) : SMap α → Bool
  | [] => true
  | (k, v) :: r => decide (v ≠ d) && (match r with | [] => true | (k', _) :: _ => decide (k < k')) && mapWf d r

/-- The entries whose keys satisfy `p`. -/
def mapFilter (p : Nat → Bool) (m : SMap α) : SMap α := m.filter (fun e => p e.1)

/-- Insert a number into a sorted list without repeats. -/
def setAdd : List Nat → Nat → List Nat
  | [], n => [n]
  | a :: r, n => if a = n then a :: r else if n < a then n :: a :: r else a :: setAdd r n

/-- Remove a number from a list. -/
def setDel (l : List Nat) (n : Nat) : List Nat := l.filter (fun a => a != n)

/-- Present or absent. -/
def setPut (l : List Nat) (n : Nat) (b : Bool) : List Nat := if b then setAdd l n else setDel l n

/-- Bits `[lo + w - 1 : lo]` of `x`. -/
def fld (x lo w : Nat) : Nat := (x >>> lo) % 2 ^ w

/-- Bit `n` of `x`, as a Bool. -/
def bit (x n : Nat) : Bool := (x >>> n) % 2 == 1

/-- `x` with bits `[lo + w - 1 : lo]` replaced by `v`. -/
def setFld (x lo w v : Nat) : Nat :=
  (x >>> (lo + w)) <<< (lo + w) + (v % 2 ^ w) <<< lo + x % 2 ^ lo

/-- `x` with bit `n` set or cleared. -/
def putBit (x n : Nat) (b : Bool) : Nat := setFld x n 1 (if b then 1 else 0)

/-- A Bool as a number. -/
def b2n (b : Bool) : Nat := if b then 1 else 0

/-- The two's-complement value of a `w`-bit field. -/
def signed (w x : Nat) : Int :=
  let y := x % 2 ^ w
  if y < 2 ^ (w - 1) then (y : Int) else (y : Int) - (2 ^ w : Nat)

/-- The `w`-bit field of an integer. -/
def unsigned (w : Nat) (x : Int) : Nat := (x % ((2 ^ w : Nat) : Int)).toNat

/-- Integer range limiter. -/
def clampI (lo hi x : Int) : Int := if x < lo then lo else if hi < x then hi else x

/-- Smaller of a number and an all-ones saturation value of `w` bits. -/
def satN (w x : Nat) : Nat := if x < 2 ^ w then x else 2 ^ w - 1

/-- Ceiling of a quotient. -/
def ceilDiv (a b : Nat) : Nat := (b - 1 + a) / b

/-- Position of the leading one bit of a positive number; 0 for 0. -/
def ilog2 (n : Nat) : Nat := Nat.log2 n

/-- One step of the binary square root: bits from high to low. -/
def isqrtGo (n : Nat) : Nat → Nat → Nat
  | 0, r => r
  | k + 1, r => let t := r + 2 ^ k; if t * t ≤ n then isqrtGo n k t else isqrtGo n k r

/-- Largest `r` with `r * r ≤ n`. -/
def isqrt (n : Nat) : Nat := isqrtGo n (ilog2 n / 2 + 1) 0

/-- The number a little-endian byte string spells (R6). -/
def leNat : Bytes → Nat
  | [] => 0
  | b :: r => b.toNat + 256 * leNat r

/-- The `n` little-endian bytes of a number. -/
def leBytes : Nat → Nat → Bytes
  | 0, _ => []
  | n + 1, x => BitVec.ofNat 8 x :: leBytes n (x / 256)

/-- The number a big-endian byte string spells (hashes and signatures). -/
def beNat (bs : Bytes) : Nat := bs.foldl (fun a b => a * 256 + b.toNat) 0

/-- The `n` big-endian bytes of a number. -/
def beBytes (n x : Nat) : Bytes := (leBytes n x).reverse

/-- Bytes `off` to `off + n - 1` of a string, zero beyond its end. -/
def slice (bs : Bytes) (off n : Nat) : Bytes :=
  let t := (bs.drop off).take n
  t ++ List.replicate (n - t.length) 0

/-- The little-endian number in bytes `off` to `off + n - 1`. -/
def leAt (bs : Bytes) (off n : Nat) : Nat := leNat (slice bs off n)

/-- `bs` with `new` written at `off`; the string grows with zeros where needed. -/
def splice (bs : Bytes) (off : Nat) (new : Bytes) : Bytes :=
  let pre := slice bs 0 off
  pre ++ new ++ bs.drop (off + new.length)

/-- A list of `n` zero bytes. -/
def zeros (n : Nat) : Bytes := List.replicate n 0

/-- Entry `i` of a list, or a default. -/
def nth (l : List α) (i : Nat) (d : α) : α := l.getD i d

/-- Replace entry `i` of a list. -/
def setNth : List α → Nat → α → List α
  | [], _, _ => []
  | _ :: r, 0, v => v :: r
  | a :: r, i + 1, v => a :: setNth r i v

/-- The numbers `a` to `a + n - 1`. -/
def range' (a n : Nat) : List Nat := (List.range n).map (· + a)

/-- Repeat a function `n` times. -/
def iter (f : σ → σ) : Nat → σ → σ
  | 0, s => s
  | n + 1, s => iter f n (f s)

/-- Apply a function for each element of a list, in order. -/
def forEach (l : List α) (f : α → σ → σ) (s : σ) : σ := l.foldl (fun s a => f a s) s

/-- The numbers of the set bits of a mask below `n`, rising. -/
def maskBits (n m : Nat) : List Nat := (List.range n).filter (fun i => bit m i)

/-- Number of set bits below `n`. -/
def popBelow (n m : Nat) : Nat := (maskBits n m).length

/-- Largest of a list of numbers, 0 for none. -/
def maxNat (l : List Nat) : Nat := l.foldl Nat.max 0

/-- The two low bits of x mod 7's multiplication table are not needed: x mod 7 of an integer,
from 0 to 6 (R110). -/
def mod7 (x : Int) : Nat := (x % 7).toNat

/-- `b ^ e mod m`. -/
def powMod (b m : Nat) : Nat → Nat
  | 0 => 1 % m
  | e + 1 => powMod b m e * b % m

end Sys2Proof.Machine
end

