-- ==== Sys2Proof/Machine/Float.lean ====
section
/-! DEFINITION. The arithmetic of the wide formats (R48 to R50, R56, R160, R161): exact values,
one rounding, flushing after rounding, canonical NaN. An operation answers its bits and the flag
bits it raises, in the layout of R169. -/

namespace Sys2Proof.Machine

/-! ## Flag bits (R169) -/

def fINV : Nat := 1
def fOVF : Nat := 2
def fUNF : Nat := 4
def fINX : Nat := 8
def fSAT : Nat := 16
def fFLOOR : Nat := 32
def fDZ : Nat := 64
def fPIV : Nat := 128

/-! ## Formats -/

/-- Mantissa bits stored. -/
def wfMb : WFmt → Nat
  | .fp32 => 23
  | .bf16 => 7
  | .fp16 => 10

/-- Exponent bits. -/
def wfEb : WFmt → Nat
  | .fp32 => 8
  | .bf16 => 8
  | .fp16 => 5

/-- Exponent bias. -/
def wfBias (w : WFmt) : Nat := 2 ^ (wfEb w - 1) - 1

/-- The place of the sign bit. -/
def wfSign (w : WFmt) : Nat := wfMb w + wfEb w

/-- The canonical quiet NaN (R49). -/
def wfNan (w : WFmt) : Nat := (2 ^ wfEb w - 1) * 2 ^ wfMb w + 2 ^ (wfMb w - 1)

/-- A signed infinity. -/
def wfInf (w : WFmt) (neg : Bool) : Nat :=
  b2n neg * 2 ^ wfSign w + (2 ^ wfEb w - 1) * 2 ^ wfMb w

/-- A signed zero. -/
def wfZero (w : WFmt) (neg : Bool) : Nat := b2n neg * 2 ^ wfSign w

/-- The value of a code; a subnormal reads as zero of the same sign (R48). -/
def wfVal (w : WFmt) (x : Nat) : FVal :=
  let neg := bit x (wfSign w)
  let e := fld x (wfMb w) (wfEb w)
  let m := fld x 0 (wfMb w)
  if e = 2 ^ wfEb w - 1 then (if m = 0 then .inf neg else .nan)
  else if e = 0 then .fin neg 0 0
  else .fin neg (2 ^ wfMb w + m) ((e : Int) - (wfBias w : Int) - (wfMb w : Int))

/-- Round `m * 2^e` to an integer, to nearest-even or toward zero; the second answer says whether
the value changed. `sticky` says that the value lies strictly between `m` and `m + 1` units. -/
def roundUnits (rtz : Bool) (m : Nat) (e : Int) (sticky : Bool) : Nat × Bool :=
  if 0 ≤ e then (m <<< e.toNat, sticky)
  else
    let sh := (-e).toNat
    let q := m >>> sh
    let rem := m % 2 ^ sh
    let half := 2 ^ (sh - 1)
    let inexact := rem != 0 || sticky
    let up := !rtz && (decide (half < rem) || (rem == half && (sticky || q % 2 == 1)))
    (q + b2n up, inexact)

/-- Round `± m * 2^e` (and a part below the unit where `sticky`) to a wide format, deciding
tininess after rounding (R48). A flush or an overflow also raises INX (log 14). -/
def wfRound (w : WFmt) (rtz : Bool) (neg : Bool) (m : Nat) (e : Int) (sticky : Bool) : Nat × Nat :=
  if m = 0 && !sticky then (wfZero w neg, 0)
  else
    -- at least two bits below the rounding position, so that a sticky part is counted right
    let m2 := m <<< (wfMb w + 3)
    let e2 := e - ((wfMb w + 3 : Nat) : Int)
    let top : Int := (ilog2 m2 : Int) + e2
    let unit : Int := top - (wfMb w : Int)
    let (q, inx) := roundUnits rtz m2 (e2 - unit) sticky
    let carry := decide (2 ^ (wfMb w + 1) ≤ q)
    let top' := if carry then top + 1 else top
    let mant := if carry then 0 else q - 2 ^ wfMb w
    let field := top' + (wfBias w : Int)
    if field < 1 then (wfZero w neg, fUNF ||| fINX)
    else if (2 ^ wfEb w - 1 : Int) ≤ field then
      (if rtz then wfInf w neg - 1 else wfInf w neg, fOVF ||| fINX)
    else (b2n neg * 2 ^ wfSign w + field.toNat * 2 ^ wfMb w + mant, if inx then fINX else 0)

/-- Write an exact value in a format. -/
def wfWrite (w : WFmt) (rtz : Bool) : FVal → Nat × Nat
  | .nan => (wfNan w, 0)
  | .inf neg => (wfInf w neg, 0)
  | .fin neg m e => wfRound w rtz neg m e false

/-! ## Exact values -/

/-- The signed integer `± m` shifted up to exponent `e0 ≤ e`. -/
def finAt (neg : Bool) (m : Nat) (e e0 : Int) : Int :=
  let n : Int := ((m <<< (e - e0).toNat : Nat) : Int)
  if neg then -n else n

/-- An integer scaled by a power of two as a value; zero takes the sign given. -/
def finOf (x : Int) (e : Int) (zeroNeg : Bool) : FVal :=
  if x = 0 then .fin zeroNeg 0 0 else .fin (decide (x < 0)) x.natAbs e

def isNan : FVal → Bool
  | .nan => true
  | _ => false

def isNeg : FVal → Bool
  | .nan => false
  | .inf n => n
  | .fin n _ _ => n

def isZero : FVal → Bool
  | .fin _ 0 _ => true
  | _ => false

/-- The value with its sign inverted. -/
def fvNeg : FVal → FVal
  | .nan => .nan
  | .inf n => .inf (!n)
  | .fin n m e => .fin (!n) m e

def fvAbs : FVal → FVal
  | .nan => .nan
  | .inf _ => .inf false
  | .fin _ m e => .fin false m e

/-- The exact product. `none` is 0 × ∞. -/
def fvMul : FVal → FVal → Option FVal
  | .nan, _ => some .nan
  | _, .nan => some .nan
  | .inf a, .inf b => some (.inf (a != b))
  | .inf a, .fin b m _ => if m = 0 then none else some (.inf (a != b))
  | .fin a m _, .inf b => if m = 0 then none else some (.inf (a != b))
  | .fin a m e, .fin b n f => some (.fin (a != b) (m * n) (e + f))

/-- The exact sum, an exact zero of unlike signs being +0. `none` is ∞ - ∞. -/
def fvAdd : FVal → FVal → Option FVal
  | .nan, _ => some .nan
  | _, .nan => some .nan
  | .inf a, .inf b => if a = b then some (.inf a) else none
  | .inf a, _ => some (.inf a)
  | _, .inf b => some (.inf b)
  | .fin a m e, .fin b n f =>
    if m = 0 ∧ n = 0 then some (.fin (a && b) 0 0)
    else if m = 0 then some (.fin b n f)
    else if n = 0 then some (.fin a m e)
    else
      let e0 := min e f
      some (finOf (finAt a m e e0 + finAt b n f e0) e0 false)

/-- Compare two values that are not NaN: -1, 0 or 1; -0 equals +0. -/
def fvCmp : FVal → FVal → Int
  | .inf a, .inf b => if a = b then 0 else if a then -1 else 1
  | .inf a, _ => if a then -1 else 1
  | _, .inf b => if b then 1 else -1
  | .fin a m e, .fin b n f =>
    let e0 := min e f
    let x := finAt a m e e0
    let y := finAt b n f e0
    if x < y then -1 else if y < x then 1 else 0
  | _, _ => 0

/-- INV for each NaN operand read as a number (R160). -/
def nanFlag (vs : List FVal) : Nat := if vs.any isNan then fINV else 0

/-- Write the answer of an exact operation; `none` is an invalid operation of IEEE 754. -/
def wfAnswer (w : WFmt) (vs : List FVal) : Option FVal → Nat × Nat
  | none => (wfNan w, fINV)
  | some .nan => (wfNan w, nanFlag vs)
  | some v => wfWrite w false v

/-- a + b, a - b, a × b and a × b + c, each rounded once (R160). -/
def f32Add (a b : Nat) : Nat × Nat :=
  let x := wfVal .fp32 a
  let y := wfVal .fp32 b
  wfAnswer .fp32 [x, y] (fvAdd x y)

def f32Sub (a b : Nat) : Nat × Nat :=
  let x := wfVal .fp32 a
  let y := wfVal .fp32 b
  wfAnswer .fp32 [x, y] (fvAdd x (fvNeg y))

def f32Mul (a b : Nat) : Nat × Nat :=
  let x := wfVal .fp32 a
  let y := wfVal .fp32 b
  wfAnswer .fp32 [x, y] (fvMul x y)

def f32Fma (a b c : Nat) : Nat × Nat :=
  let x := wfVal .fp32 a
  let y := wfVal .fp32 b
  let z := wfVal .fp32 c
  if [x, y, z].any isNan then
    (wfNan .fp32, fINV)
  else wfAnswer .fp32 [x, y, z] ((fvMul x y).bind (fun p => fvAdd p z))

/-- The quotient of two magnitudes: enough bits for one rounding, and whether any are left. -/
def quotBits (m n : Nat) : Nat × Bool := ((m <<< 64) / n, (m <<< 64) % n != 0)

/-- a / b, correctly rounded. -/
def wfDiv (w : WFmt) (x y : FVal) : Nat × Nat :=
  match x, y with
  | .nan, _ => (wfNan w, fINV)
  | _, .nan => (wfNan w, fINV)
  | .inf _, .inf _ => (wfNan w, fINV)
  | .inf a, .fin b _ _ => (wfInf w (a != b), 0)
  | .fin a _ _, .inf b => (wfZero w (a != b), 0)
  | .fin a m e, .fin b n f =>
    if n = 0 then (if m = 0 then (wfNan w, fINV) else (wfInf w (a != b), fDZ))
    else
      let k := ilog2 n
      let q := quotBits (m <<< k) n
      wfRound w false (a != b) q.1 (e - f - 64 - (k : Int)) q.2

def f32Div (a b : Nat) : Nat × Nat := wfDiv .fp32 (wfVal .fp32 a) (wfVal .fp32 b)

/-- VMAX and VMIN: +0 is larger than -0; a NaN gives the canonical NaN and INV (R160). -/
def f32MaxMin (isMax : Bool) (a b : Nat) : Nat × Nat :=
  let x := wfVal .fp32 a
  let y := wfVal .fp32 b
  if isNan x || isNan y then (wfNan .fp32, fINV)
  else
    let c := fvCmp x y
    let xLarger := if c = 0 then !(isNeg x) || isNeg y else decide (0 < c)
    let r := if xLarger == isMax then x else y
    ((wfWrite .fp32 false r).1, 0)

/-! ## Correctly rounded functions (R161) -/

/-- Fixed-point bits of the exp2 and log2 evaluations. -/
def fxBits : Nat := 256

/-- 2^(2^-(i)) in fixed point for i = 1, 2, …: each is the square root of the one before it. The
product over the set bits of the fraction `f / 2^n` is 2^(f / 2^n), low by less than 2^-240. -/
def exp2Go (f : Nat) : Nat → Nat → Nat → Nat
  | 0, _, acc => acc
  | n + 1, r, acc =>
    let r' := isqrt (r <<< fxBits)
    exp2Go f n r' (if bit f n then (acc * r') >>> fxBits else acc)

/-- VEXP2's function. -/
def f32Exp2 (a : Nat) : Nat × Nat :=
  match wfVal .fp32 a with
  | .nan => (wfNan .fp32, fINV)
  | .inf neg => if neg then (0, 0) else (wfInf .fp32 false, 0)
  | .fin neg m e =>
    if m = 0 then (wfWrite .fp32 false (.fin false 1 0)).1 |> fun b => (b, 0)
    else
      let top : Int := (ilog2 m : Int) + e
      -- beyond 2^8 in magnitude the result overflows or is flushed
      if 8 ≤ top then
        (if neg then (0, fUNF ||| fINX) else (wfInf .fp32 false, fOVF ||| fINX))
      -- below 2^-30 the result rounds to 1.0
      else if top < -30 then ((wfWrite .fp32 false (.fin false 1 0)).1, fINX)
      else
        let n : Nat := if 0 ≤ e then 0 else (-e).toNat
        let x : Int := finAt neg m e (-(n : Int))
        let whole : Int := x / ((2 ^ n : Nat) : Int)
        let f : Nat := (x % ((2 ^ n : Nat) : Int)).toNat
        let v := exp2Go f n (2 <<< fxBits) (1 <<< fxBits)
        wfRound .fp32 false false v (whole - (fxBits : Int)) (f != 0)

/-- Bits of log2 of `r / 2^256` in [1, 2), by repeated squaring. -/
def log2Go : Nat → Nat → Nat → Nat
  | 0, _, acc => acc
  | n + 1, r, acc =>
    let q := (r * r) >>> fxBits
    if 2 <<< fxBits ≤ q then log2Go n (q >>> 1) (2 * acc + 1) else log2Go n q (2 * acc)

/-- VLOG2's function. -/
def f32Log2 (a : Nat) : Nat × Nat :=
  match wfVal .fp32 a with
  | .nan => (wfNan .fp32, fINV)
  | .inf neg => if neg then (wfNan .fp32, fINV) else (wfInf .fp32 false, 0)
  | .fin neg m e =>
    if m = 0 then (wfInf .fp32 true, fDZ)
    else if neg then (wfNan .fp32, fINV)
    else
      let k := ilog2 m
      let whole : Int := (k : Int) + e
      if m = 2 ^ k then wfWrite .fp32 false (finOf whole 0 false)
      else
        let f := log2Go 120 (m <<< (fxBits - k)) 0
        let t : Int := whole * ((2 ^ 120 : Nat) : Int) + (f : Int)
        if 0 ≤ t then wfRound .fp32 false false t.toNat (-120) true
        else wfRound .fp32 false true (-t - 1).toNat (-120) true

/-- VRCP's function. -/
def f32Rcp (a : Nat) : Nat × Nat :=
  wfDiv .fp32 (.fin false 1 0) (wfVal .fp32 a)

/-- VRSQ's function. -/
def f32Rsq (a : Nat) : Nat × Nat :=
  match wfVal .fp32 a with
  | .nan => (wfNan .fp32, fINV)
  | .inf neg => if neg then (wfNan .fp32, fINV) else (0, 0)
  | .fin neg m e =>
    if m = 0 then (if neg then (wfNan .fp32, fINV) else (wfInf .fp32 false, fDZ))
    else if neg then (wfNan .fp32, fINV)
    else
      let odd := e % 2 != 0
      let m' := if odd then 2 * m else m
      let h : Int := (if odd then e - 1 else e) / 2
      -- r = floor(2^128 / sqrt m')
      let r := isqrt ((1 <<< 256) / m')
      wfRound .fp32 false false r (-128 - h) (r * r * m' != 1 <<< 256)

/-- VSCALE: exact apart from a flush (UNF) and an overflow (OVF) (R165). -/
def f32Scale (a : Nat) (k : Int) : Nat × Nat :=
  match wfVal .fp32 a with
  | .nan => (wfNan .fp32, fINV)
  | .inf neg => (wfInf .fp32 neg, 0)
  | .fin neg m e =>
    let k' := clampI (-1000) 1000 k
    let r := wfRound .fp32 false neg m (e + k') false
    (r.1, r.2 &&& (fUNF ||| fOVF))

/-! ## Integers and G64 (R50 to R54, R58) -/

/-- An integer into a wide format, RNE. -/
def wfOfInt (w : WFmt) (x : Int) : Nat × Nat := wfWrite w false (finOf x 0 false)

/-- A value to an integer of `bits` bits: saturates with SAT; NaN becomes 0 with INV (R58). -/
def intOfVal (bits : Nat) (rtz : Bool) : FVal → Int × Nat
  | .nan => (0, fINV)
  | .inf neg =>
    (if neg then -((2 ^ (bits - 1) : Nat) : Int) else ((2 ^ (bits - 1) : Nat) : Int) - 1, fSAT)
  | .fin neg m e =>
    let lo : Int := -((2 ^ (bits - 1) : Nat) : Int)
    let hi : Int := ((2 ^ (bits - 1) : Nat) : Int) - 1
    if 64 ≤ (ilog2 m : Int) + e ∧ m ≠ 0 then (if neg then lo else hi, fSAT)
    else
      let (q, inx) := roundUnits rtz m e false
      let x : Int := if neg then -(q : Int) else q
      if x < lo then (lo, fSAT) else if hi < x then (hi, fSAT) else (x, if inx then fINX else 0)

/-- The G64 NaN code (R51). -/
def g64Nan : Nat := 2 ^ 63

/-- Conversion into G64 at anchor `a` and headroom `h` (R52). -/
def g64OfVal (v : FVal) (a : Int) (h : Nat) : Nat × Nat :=
  match v with
  | .nan => (g64Nan, fINV)
  | .inf _ => (g64Nan, fINV)
  | .fin neg m e =>
    let lim : Int := ((2 ^ (63 - min h 24) : Nat) : Int) - 1
    if m = 0 then (0, 0)
    else if 64 ≤ (ilog2 m : Int) + (e - a) then
      (unsigned 64 (if neg then -lim else lim), fSAT ||| fINX)
    else
      let (q, inx) := roundUnits false m (e - a) false
      let g : Int := if neg then -(q : Int) else q
      if g < -lim then (unsigned 64 (-lim), fSAT ||| fINX)
      else if lim < g then (unsigned 64 lim, fSAT ||| fINX)
      else (unsigned 64 g, if inx then fINX else 0)

/-- The value of a G64 code at anchor `a`. -/
def g64Val (g : Nat) (a : Int) : FVal :=
  if g % 2 ^ 64 = g64Nan then .nan else finOf (signed 64 g) a false

/-- Conversion from G64 (R54). -/
def wfOfG64 (w : WFmt) (g : Nat) (a : Int) : Nat × Nat :=
  match g64Val g a with
  | .nan => (wfNan w, fINV)
  | v => wfWrite w false v

/-- The memory-side sum of two G64 values (R53). -/
def g64Add (x y : Nat) : Nat × Nat :=
  if x = g64Nan ∨ y = g64Nan then (g64Nan, 0)
  else
    let z := signed 64 x + signed 64 y
    if z < -(((2 ^ 63 : Nat) : Int) - 1) ∨ ((2 ^ 63 : Nat) : Int) - 1 < z then (g64Nan, fOVF)
    else (unsigned 64 z, 0)

end Sys2Proof.Machine
end

