-- ==== Sys2Proof/Machine/Formats.lean ====
section
/-! DEFINITION. Format codes and element formats (R34 to R47, R60, R61): legality and substitution,
decoding, packing, UE5M3 and E8M0 scales, and rounding to an element (R56, R57). -/

namespace Sys2Proof.Machine

/-! ## Format codes (R34, R35) -/

def isTread (f : Nat) : Bool := f == 0x10 || f == 0x11

def isElemFmt (f : Nat) : Bool := isTread f || (decide (0x20 ≤ f) && decide (f ≤ 0x25))

/-- The element format used for a code, and whether a code was substituted. -/
def elemFmt (f : Nat) : Nat × Bool := if isElemFmt f then (f, false) else (0x10, true)

/-- The landing format used for a code: true is ACC128. -/
def landFmt (f : Nat) : Bool × Bool := (f != 0x31, !(f == 0x30 || f == 0x31))

/-- A format field that takes the listed wide codes; any other is used as FP32. -/
def wideFmt (legal : List Nat) (f : Nat) : Nat × Bool :=
  if legal.contains f then (f, false) else (0x00, true)

/-- The floating format of a wide code. -/
def wfOf : Nat → WFmt
  | 0x01 => .bf16
  | 0x02 => .fp16
  | _ => .fp32

/-- Half-cycles for each streamed row at the format's matrix rate (R34, R75): 2, 3, 4 or 8. -/
def rateHalves (f : Nat) : Nat :=
  if f = 0x21 ∨ f = 0x22 then 3 else if f = 0x23 ∨ f = 0x24 then 4 else if f = 0x25 then 8 else 2

/-! ## Element formats -/

/-- Bits of an element. -/
def elemBits (f : Nat) : Nat :=
  if f = 0x21 ∨ f = 0x22 then 6 else if f = 0x23 ∨ f = 0x24 ∨ f = 0x25 then 8 else 4

/-- Elements of a block. -/
def blockLen (f : Nat) : Nat := if isTread f then 16 else 32

/-- Bytes of a block in memory (R61). -/
def blockBytes (f : Nat) : Nat := blockLen f * elemBits f / 8

/-- Exponent bits, mantissa bits and bias of a floating element type (R38, R45). -/
def elemShape (f : Nat) : Nat × Nat × Nat :=
  if f = 0x21 then (2, 3, 1) else if f = 0x22 then (3, 2, 3) else if f = 0x23 then (4, 3, 7)
  else if f = 0x24 then (5, 2, 15) else (2, 1, 1)

/-- Largest magnitude of a type as `m * 2^e` (the table before R126). -/
def elemMax (f : Nat) : Nat × Int :=
  if f = 0x11 then (7, 0) else if f = 0x21 then (15, -1) else if f = 0x22 then (28, 0)
  else if f = 0x23 then (448, 0) else if f = 0x24 then (57344, 0)
  else if f = 0x25 then (127, -6) else (6, 0)

/-- The magnitude code of the largest element. -/
def elemMaxCode (f : Nat) : Nat :=
  if f = 0x21 ∨ f = 0x22 then 0x1F else if f = 0x23 then 0x7E else if f = 0x24 then 0x7B else 7

/-- Integer element types. -/
def isIntElem (f : Nat) : Bool := f == 0x11 || f == 0x25

/-- The value of an element code without its scales (R38, R40, R45, R46); negative zero is zero. -/
def elemVal (f code : Nat) : FVal :=
  if f = 0x11 then finOf (signed 4 code) 0 false
  else if f = 0x25 then finOf (signed 8 code) (-6) false
  else
    let (eb, mb, bias) := elemShape f
    let neg := bit code (eb + mb)
    let e := fld code mb eb
    let m := fld code 0 mb
    if f = 0x23 ∧ fld code 0 7 = 0x7F then .nan
    else if f = 0x24 ∧ e = 31 then (if m = 0 then .inf neg else .nan)
    else if e = 0 then
      (if m = 0 then .fin false 0 0 else .fin neg m (1 - (bias : Int) - (mb : Int)))
    else .fin neg (2 ^ mb + m) ((e : Int) - (bias : Int) - (mb : Int))

/-- Element `i` of a packed block (R61). -/
def elemAt (f : Nat) (block : Bytes) (i : Nat) : Nat := fld (leNat block) (elemBits f * i) (elemBits f)

/-- The bytes of a block from its codes (R61). -/
def packCodes (w : Nat) (codes : List Nat) : Nat := codes.foldr (fun c r => c % 2 ^ w + 2 ^ w * r) 0

def packBlock (f : Nat) (codes : List Nat) : Bytes := leBytes (blockBytes f) (packCodes (elemBits f) codes)

/-! ## Scales (R41 to R44) -/

/-- A UE5M3 code other than 0xFF as `m * 2^e` (R41). -/
def ue5m3 (c : Nat) : Nat × Int :=
  let e := fld c 3 5
  let m := fld c 0 3
  if e = 0 then (m, -17) else (8 + m, (e : Int) - 18)

/-- The scale of a block as `m * 2^e`, or none for NaN (R41, R44). -/
def scaleVal (f c : Nat) : Option (Nat × Int) :=
  if c = 0xFF then none else if isTread f then some (ue5m3 c) else some (1, (c : Int) - 127)

/-- The level factor's exponent, 0 for MX codes; none is NaN (R37, R44). -/
def levelExp (f lvl : Nat) : Option Int :=
  if isTread f then (if lvl = 0xFF then none else some ((lvl : Int) - 127)) else some 0

/-- A dequantised element: code, scale and level (R37, R42 to R44). -/
def deqVal (f code scale lvl : Nat) : FVal :=
  match scaleVal f scale, levelExp f lvl with
  | some (sm, se), some le =>
    match elemVal f code with
    | .fin neg m e => if sm * m = 0 then .fin false 0 0 else .fin neg (m * sm) (e + se + le)
    | v => if isTread f && sm == 0 then .fin false 0 0 else v
  | _, _ => .nan

/-! ## Rounding to an element -/

/-- `a * 2^e ≤ b * 2^f` -/
def dyLe (a : Nat) (e : Int) (b : Nat) (f : Int) : Bool :=
  let e0 := min e f
  decide (a <<< (e - e0).toNat ≤ b <<< (f - e0).toNat)

/-- The two naturals whose quotient is `(a * 2^e) / (b * 2^f)`. -/
def dyRatio (a : Nat) (e : Int) (b : Nat) (f : Int) : Nat × Nat :=
  (a <<< (e - f).toNat, b <<< (f - e).toNat)

/-- floor(log2 (n / d)) for positive n and d. -/
def ratLog2 (n d : Nat) : Int :=
  let k : Int := (ilog2 n : Int) - (ilog2 d : Int)
  -- 2^k ≤ n / d, or one less
  if decide (d <<< k.toNat ≤ n <<< (-k).toNat) then k else k - 1

/-- ceil(log2 (n / d)) for positive n and d. -/
def ratClog2 (n d : Nat) : Int :=
  let k := ratLog2 n d
  if d <<< k.toNat = n <<< (-k).toNat then k else k + 1

/-- Rounding of `n / d` in units of `2^u`: `draw` is none for RNE, else the drawn `k` bits (R56).
Answers the count of units and whether the value was inexact. -/
def ratUnits (n d : Nat) (u : Int) (draw : Option (Nat × Nat)) : Nat × Bool :=
  let num := n <<< (-u).toNat
  let den := d <<< u.toNat
  let q := num / den
  let rem := num % den
  if rem = 0 then (q, false)
  else match draw with
    | none => (q + b2n (decide (den < 2 * rem) || (2 * rem == den && q % 2 == 1)), true)
    | some (k, r) => (q + b2n (decide (2 ^ k ≤ rem * 2 ^ k / den + r)), true)

/-- The exponent of the target's spacing at the binade of `n / d` (R56). DESIGN CHOICE (log 69): above
the target's largest value the spacing of a value's own binade goes on, which decides whether a value
that saturates is exact and draws. -/
def elemUnit (f n d : Nat) : Int :=
  if f = 0x11 then 0 else if f = 0x25 then -6
  else
    let (_, mb, bias) := elemShape f
    let top := ratLog2 n d
    let lo : Int := 1 - (bias : Int)
    (if top < lo then lo else top) - (mb : Int)

/-- Whether the magnitude `n / d` is inexact at the target, so that SR draws (R57). -/
def elemInexact (f n d : Nat) : Bool :=
  if n = 0 then false else (ratUnits n d (elemUnit f n d) none).2

/-- Bits an SR draw takes (R57). -/
def srBits (f : Nat) : Nat := if elemBits f = 4 then 3 else 4

/-- The code of `± n / d` in an element format: code, saturated, inexact. -/
def elemRound (f : Nat) (neg : Bool) (n d : Nat) (draw : Option (Nat × Nat)) : Nat × Bool × Bool :=
  if n = 0 then (0, false, false)
  else
    let u := elemUnit f n d
    let (q, inx) := ratUnits n d u draw
    let (em, ee) := elemMax f
    -- n / d > emax
    let sat := decide (d * (em <<< ee.toNat) < n <<< (-ee).toNat)
    if isIntElem f then
      let lim := if f = 0x11 then 7 else 127
      let q' := if sat then lim else min q lim
      let x : Int := if neg then -(q' : Int) else q'
      (unsigned (elemBits f) x, sat, inx)
    else
      let (eb, mb, bias) := elemShape f
      let steps := (u + (mb : Int) - (1 - (bias : Int))).toNat
      let mag := if sat then elemMaxCode f else min (steps * 2 ^ mb + q) (elemMaxCode f)
      (if mag = 0 then 0 else b2n neg * 2 ^ (eb + mb) + mag, sat, inx)

end Sys2Proof.Machine
end

