-- ==== Sys2Proof/Config.lean ====
section
/-! DEFINITION. What the spec leaves open: constants without a body, about which nothing can be
proved. Each is named in a row of notes/assumptions. -/

namespace Sys2Proof.Config

/-- A value the spec leaves undefined: argument 0 is the counter of free values that State holds,
so that every use has a value of its own (log 5). -/
opaque freeWord : Nat → Nat

/-- Whether a 32-byte unit of a descriptor's transfer moves when the descriptor issues (true) or
when it completes (false): R492 leaves it open (log 6). Arguments: descriptor serial, unit. -/
opaque raceEarly : Nat → Nat → Bool

/-- True random values of the security core: the `n`-th 256-bit draw (R452, log 7). -/
opaque trng : Nat → Nat

/-- The device identity private key's public point, as the `n`-th key generation makes it
(R444, log 7). -/
opaque identityPublic : Nat → Bytes

/-- An ECDSA P-521 signature by the device identity key of generation `n` over a digest: r then s,
132 bytes (R372, R449, log 7). -/
opaque identitySign : Nat → Bytes → Bytes

/-- Aqeisan's firmware signing public key in the ROM, x then y (R428, log 8). -/
opaque firmwareKey : Bytes

/-- Aqeisan's service public key in the ROM, x then y (R446, log 8). -/
opaque serviceKey : Bytes

/-- The module serial of 0x1100.01, provisioned (R423, log 8). -/
opaque serial : Bytes

/-- The portico MAC address of 0x1100.04, provisioned (R423, log 8). -/
opaque macAddress : Nat

/-- The host-die suffix of 0x1100.03, provisioned (R423, log 8). -/
opaque hostSuffix : Bytes

/-- The silicon level of 0x1100.05, fixed at manufacture (R423, log 8). -/
opaque siliconLevel : Nat

/-- The image of a kind in a set as provisioned, header and body (R427, log 8). -/
opaque provisionedImage : Nat → Nat → Bytes

/-- The slices that the side-slice part of an image spells: the spec gives the part no encoding
(R215, log 9). Each is its job tag, length, entry conditions and bundle bytes. -/
opaque sideSlices : Bytes → List (Nat × Nat × List (Nat × Nat) × Bytes)

/-- The page that a full page-map cache gives up: the spec names no order (R231, log 10).
Arguments: hall, number of misses so far. -/
opaque cacheVictim : Nat → Nat → Nat

/-- The keeper pattern of a dummy beat is discarded; the pattern itself is open (R89). -/
opaque keeperPattern : Nat → Nat

/-- The context of a rank that a holder at a slot keeps in its own store (R364, R368, log 94). Arguments: the counter of free
values, the slot. -/
opaque holderContext : Nat → Nat → Bytes

/-- The boundary-scan bits that EXTEST and SAMPLE/PRELOAD shift out: the chain's cells are not given
(R454, log 11). Argument: the counter of free values. -/
opaque boundaryScan : Nat → Bytes

/-- The base value of a gallery's core rail in millivolts, from the floor map (R468, log 12). -/
opaque galleryBaseMv : Nat → Nat

end Sys2Proof.Config
end

