-- ==== Sys2Proof/Machine/NormalTable.lean ====
section
/-! DEFINITION. The inversion table of normal variates (R183): entry i is the FP32 value nearest to
the exact quantile of 0.5 + i/512, and entry 256 is the fixed end point 4.0. -/

namespace Sys2Proof.Machine

/-- Entries 0 to 255 of object 0x2370. -/
def normalTable : List Nat :=
  [0x00000000, 0x3BA06CC3, 0x3C206D41, 0x3C70A51D, 0x3CA06F39, 0x3CC88CE0, 0x3CF0ABC2, 0x3D0C660F,
   0x3D20771A, 0x3D348922, 0x3D489C46, 0x3D5CB0A5, 0x3D70C660, 0x3D826ECB, 0x3D8C7B35, 0x3D96887B] ++
  [0x3DA096B0, 0x3DAAA5E2, 0x3DB4B622, 0x3DBEC781, 0x3DC8DA0D, 0x3DD2EDD9, 0x3DDD02F3, 0x3DE7196C,
   0x3DF13155, 0x3DFB4ABE, 0x3E02B2DC, 0x3E07C12A, 0x3E0CD050, 0x3E11E058, 0x3E16F14A, 0x3E1C032E] ++
  [0x3E21160D, 0x3E2629F0, 0x3E2B3EDE, 0x3E3054E1, 0x3E356C01, 0x3E3A8448, 0x3E3F9DBD, 0x3E44B86A,
   0x3E49D458, 0x3E4EF18F, 0x3E541019, 0x3E592FFE, 0x3E5E5149, 0x3E637401, 0x3E689831, 0x3E6DBDE1] ++
  [0x3E72E51C, 0x3E780DEA, 0x3E7D3856, 0x3E813234, 0x3E83C916, 0x3E8660D4, 0x3E88F975, 0x3E8B92FD,
   0x3E8E2D71, 0x3E90C8D6, 0x3E936532, 0x3E960289, 0x3E98A0E1, 0x3E9B403F, 0x3E9DE0A9, 0x3EA08223] ++
  [0x3EA324B3, 0x3EA5C85F, 0x3EA86D2C, 0x3EAB1320, 0x3EADBA40, 0x3EB06293, 0x3EB30C1D, 0x3EB5B6E6,
   0x3EB862F2, 0x3EBB1048, 0x3EBDBEEE, 0x3EC06EE9, 0x3EC32041, 0x3EC5D2FB, 0x3EC8871E, 0x3ECB3CB1] ++
  [0x3ECDF3B8, 0x3ED0AC3D, 0x3ED36644, 0x3ED621D5, 0x3ED8DEF7, 0x3EDB9DB0, 0x3EDE5E08, 0x3EE12006,
   0x3EE3E3B1, 0x3EE6A910, 0x3EE9702C, 0x3EEC390A, 0x3EEF03B4, 0x3EF1D030, 0x3EF49E88, 0x3EF76EC2] ++
  [0x3EFA40E7, 0x3EFD14FF, 0x3EFFEB13, 0x3F016195, 0x3F02CEA8, 0x3F043CC5, 0x3F05ABF1, 0x3F071C31,
   0x3F088D8A, 0x3F0A0000, 0x3F0B7397, 0x3F0CE855, 0x3F0E5E3F, 0x3F0FD55A, 0x3F114DAA, 0x3F12C736] ++
  [0x3F144201, 0x3F15BE13, 0x3F173B6F, 0x3F18BA1D, 0x3F1A3A21, 0x3F1BBB81, 0x3F1D3E43, 0x3F1EC26E,
   0x3F204806, 0x3F21CF14, 0x3F23579C, 0x3F24E1A6, 0x3F266D38, 0x3F27FA59, 0x3F298910, 0x3F2B1964] ++
  [0x3F2CAB5C, 0x3F2E3F00, 0x3F2FD456, 0x3F316B67, 0x3F33043B, 0x3F349ED9, 0x3F363B4A, 0x3F37D996,
   0x3F3979C6, 0x3F3B1BE3, 0x3F3CBFF4, 0x3F3E6605, 0x3F400E1D, 0x3F41B848, 0x3F43648D, 0x3F4512F8] ++
  [0x3F46C394, 0x3F487669, 0x3F4A2B84, 0x3F4BE2F0, 0x3F4D9CB8, 0x3F4F58E7, 0x3F51178A, 0x3F52D8AD,
   0x3F549C5C, 0x3F5662A6, 0x3F582B96, 0x3F59F73B, 0x3F5BC5A3, 0x3F5D96DD, 0x3F5F6AF7, 0x3F614200] ++
  [0x3F631C09, 0x3F64F922, 0x3F66D95C, 0x3F68BCC7, 0x3F6AA375, 0x3F6C8D7A, 0x3F6E7AE7, 0x3F706BD0,
   0x3F72604A, 0x3F745869, 0x3F765442, 0x3F7853ED, 0x3F7A577E, 0x3F7C5F0F, 0x3F7E6AB8, 0x3F803D49] ++
  [0x3F81475C, 0x3F8253A1, 0x3F836229, 0x3F847300, 0x3F858636, 0x3F869BDB, 0x3F87B3FE, 0x3F88CEB2,
   0x3F89EC08, 0x3F8B0C11, 0x3F8C2EE1, 0x3F8D548C, 0x3F8E7D26, 0x3F8FA8C6, 0x3F90D780, 0x3F92096D] ++
  [0x3F933EA6, 0x3F947743, 0x3F95B360, 0x3F96F318, 0x3F98368A, 0x3F997DD2, 0x3F9AC912, 0x3F9C186C,
   0x3F9D6C03, 0x3F9EC3FC, 0x3FA0207F, 0x3FA181B5, 0x3FA2E7CA, 0x3FA452EC, 0x3FA5C34B, 0x3FA7391C] ++
  [0x3FA8B495, 0x3FAA35EF, 0x3FABBD69, 0x3FAD4B43, 0x3FAEDFC4, 0x3FB07B36, 0x3FB21DE7, 0x3FB3C82C,
   0x3FB57A60, 0x3FB734E5, 0x3FB8F823, 0x3FBAC48B, 0x3FBC9A96, 0x3FBE7AC7, 0x3FC065AD, 0x3FC25BE3] ++
  [0x3FC45E10, 0x3FC66CEC, 0x3FC88940, 0x3FCAB3E9, 0x3FCCEDDA, 0x3FCF381F, 0x3FD193E1, 0x3FD4026C,
   0x3FD68531, 0x3FD91DD2, 0x3FDBCE22, 0x3FDE9835, 0x3FE17E6A, 0x3FE4837B, 0x3FE7AA8D, 0x3FEAF749] ++
  [0x3FEE6DFF, 0x3FF213CD, 0x3FF5EED2, 0x3FFA0683, 0x3FFE6409, 0x40018970, 0x400410D7, 0x4006D1C8,
   0x4009D915, 0x400D3887, 0x401109DC, 0x40157475, 0x401AB949, 0x40214FE9, 0x402A3E8C, 0x4038AE3E]

/-- Entry `i`, with the end point 4.0 at 256. -/
def normalEntry (i : Nat) : Nat := nth normalTable i 0x40800000

end Sys2Proof.Machine
end

