-- ==== Sys2Proof/Machine/State.lean ====
section
/-! DEFINITION. The state of the module as plain data: everything the spec gives it, grouped by
chapter, the queue of waiting commands, and `State.reset`. Tables (`SMap`) are keyed by the
numbers their comments give: `g` is a physical gallery 0-49, an array key is
`(g * 8 + alcove) * 132 + physical array`. -/

namespace Sys2Proof.Machine

/-! ## Outcomes -/

/-- Why a step stops the machine. -/
inductive Fault where
  /-- Raised by a command that names a unit the spec says does not exist (a physical gallery above
  49, a link above 17, a vestibule port above 1, a stack above 7, a hall above 1). Safe: no part
  of the module answers such a command. -/
  | noSuchUnit
  deriving DecidableEq, Repr, Inhabited

/-- Why a command has no meaning in the model. -/
inductive Refusal where
  /-- Raised by `exec` for a command whose meaning is not written yet. Safe. -/
  | notModelled (mnemonic : String)
  deriving DecidableEq, Repr, Inhabited

/-! ## Clocks and freezes (R209, R473, R474) -/

/-- The arithmetic clock and the local tick. `phase` counts the part of the present tick that has
passed, in units of 1/969 ns. -/
structure Clock where
  /-- Arithmetic cycles, those of a freeze included (R206 counts these). -/
  cycle : Nat
  /-- Arithmetic cycles outside freezes (R209); every fixed-timing due cycle counts these. -/
  fcyc : Nat
  /-- The local tick, 64 bits (R473). -/
  tick : Nat
  phase : Nat
  /-- The fixed-timing cycle in which the next bundle is due (R193). -/
  nextIssue : Nat
  /-- The count of issued bundles that the halls share (R23). -/
  issued : Nat
  /-- Stall and hold cycles of the step (0x6000.04). -/
  heldCycles : Nat
  deriving DecidableEq, Repr, Inhabited

/-- What freezes the module (R209, R335). -/
inductive HoldKind where
  | stall
  | queueHold
  | wakeHold
  | rampHold
  | fetchHold
  deriving DecidableEq, Repr, Inhabited

/-- A slot that waits for the end of a freeze. -/
inductive HeldSlot where
  /-- A slot, with the physical galleries of its set bundle where it acts once for all of them (R202, R214); with
  none it acts on the gallery of its context. -/
  | slot (i : Instr) (gals : List Nat)
  /-- A V slot whose opcode R159 does not list. -/
  | unlisted (x : SlotCtx)
  deriving DecidableEq, Repr

/-- A freeze in force: its kind, whether the bundle at the program's position waits for its end,
the slots that wait besides, and for a stall the physical galleries, counter and VALUE of the
SWAIT (R207). -/
structure Freeze where
  kind : HoldKind
  bundle : Bool
  held : List HeldSlot
  gals : List Nat
  ctr : Nat
  value : Nat
  deriving DecidableEq, Repr, Inhabited

/-! ## Matrix arrays (R64 to R91) -/

/-- One element of a weight tile: its code and poison. -/
structure PCode where
  code : Nat
  poison : Bool
  deriving DecidableEq, Repr, Inhabited

/-- What MSTREAM takes from the MLOAD.W that loaded an array's first tile (R70). -/
structure LoadParam where
  fmt : Nat
  width : Nat
  lvl : Nat
  src : Nat
  scaleSrc : Nat
  deriving DecidableEq, Repr, Inhabited

/-- One weight buffer (R64): format, width field, level byte, 256 elements column by column, 16
scale bytes, the banister byte and 16 outlier records with the poison of each byte (R124, R486).
`complete` is false while a load has not filled it (R68); `counted` that the ignored entries of its
records have been counted (R125). -/
structure WBuf where
  complete : Bool
  counted : Bool
  par : Option LoadParam
  fmt : Nat
  width : Nat
  lvl : Nat
  elems : List PCode
  scales : List PCode
  banister : Nat
  outliers : List (List (Byte × Bool))
  deriving DecidableEq, Repr, Inhabited

/-- A load on an array's weight port (R66, R487): the buffer it fills, its first cycle, and the
bytes read so far with their poison. -/
structure LoadJob where
  buf : Nat
  start : Nat
  par : LoadParam
  words : List (Byte × Bool)
  scaleBytes : List (Byte × Bool)
  banister : Nat
  outliers : List (List (Byte × Bool))
  deriving DecidableEq, Repr, Inhabited

/-- One array of a stream. -/
structure StrArr where
  arr : Nat
  /-- J of the stream's first tile (R124) and the parameters of its load (R70). -/
  j0 : Nat
  par : Option LoadParam
  /-- The active tile was incomplete when it became active (R68). -/
  under : Bool
  /-- The opening whose group the array held with the stream's S (R488), plus 1; 0: it lands nowhere. -/
  gid : Nat
  deriving DecidableEq, Repr, Inhabited

/-- A stream in progress (R70, R71, R488). `wfmt` is the weight format that sets its rate and `wload`
the longest load of its tiles (R71, R76). `passStart` is the cycle in which the present pass
starts, `ready` that its buffers have swapped; `arrays` are those still held; `got` and `scale`
what the row in progress has read so far. -/
structure Stream where
  id : Nat
  gal : Nat
  alc : Nat
  mirror : Bool
  ctx : SlotCtx
  f : MstreamF
  arrays : List StrArr
  s : Nat
  fmt : Nat
  wfmt : Nat
  wload : Nat
  lvl : Nat
  desc : Bytes
  npass : Nat
  pass : Nat
  passStart : Nat
  ready : Bool
  got : List (Byte × Bool)
  scale : Byte × Bool
  deriving DecidableEq, Repr, Inhabited

/-- One column's part of a contribution (R92 to R96): exact value `m * 2^e`, group exponent of each
non-zero term (the largest), whether the column window lost a bit, and the marks. The banister
terms are already in the sum; `active` is false above the tile's width (R78). -/
structure ColC where
  active : Bool
  m : Int
  e : Int
  g : Option Int
  lost : Bool
  invalid : Bool
  poison : Bool
  deriving DecidableEq, Repr, Inhabited

/-- A row's contribution to one array, on its way to the landing (R72). -/
structure Contrib where
  stream : Nat
  arr : Nat
  group : Nat
  slot : Nat
  lastBeat : Nat
  mulDone : Nat
  due : Nat
  /-- The opening whose group it lands in, plus 1; 0: none (R488). -/
  gid : Nat
  /-- Tread x Tread with its level bytes, for LEVEL mode (R98). -/
  tread : Option (Nat × Nat)
  ctx : SlotCtx
  cols : List ColC
  deriving DecidableEq, Repr, Inhabited

/-! ## Landings (R97 to R112) -/

/-- One landing element: its integer, marks and residue. -/
structure LElem where
  x : Int
  invalid : Bool
  poison : Bool
  sat : Bool
  res : Nat
  deriving DecidableEq, Repr, Inhabited

/-- One landing row, held under its first unit (R97). `defined` is false until MOPEN has opened a
group over it: its values and residues are undefined then (R112). -/
structure LRow where
  defined : Bool
  wide : Bool
  empty : Bool
  floor : Bool
  /-- The row's anchor follows the AUTO rules (R98). -/
  auto : Bool
  anchor : Int
  elems : List LElem
  deriving DecidableEq, Repr, Inhabited

/-- One accumulation group of one array (R103). `id` is the issue number of the MOPEN that opened it, so
that a later group of its number is another group (R108). `closeAt` is the issue cycle of an MCLOSE that is
not yet released: later beats are discarded (R108). -/
structure Group where
  id : Nat
  base : Nat
  s : Nat
  wide : Bool
  mode : Nat
  anchor : Int
  gsat : Bool
  closeAt : Option Nat
  deriving DecidableEq, Repr, Inhabited

/-- A row snapshot on its way through a drain (R106). -/
structure DrainRow where
  arr : Nat
  unit : Nat
  row : LRow
  gsat : Bool
  /-- A residue mismatch or a pair mismatch poisons the row (R111, R337). -/
  bad : Bool
  deriving DecidableEq, Repr, Inhabited

/-- A drain, waiting or running on a converter (R168). -/
structure DrainJob where
  gal : Nat
  alc : Nat
  ctx : SlotCtx
  f : DrainF
  isClose : Bool
  /-- The drain of the odd alcove of a pair: it is converted and compared, and writes nothing (R337). -/
  mirror : Bool
  order : Nat
  start : Nat
  next : Nat
  rows : List DrainRow
  deriving DecidableEq, Repr, Inhabited

/-- A landing operation held at the landing (R108): the arrays it acts on, those of the odd alcove of
a pair last, and the shifts MSHIFT has read, with their poison. It acts once every array has released it. -/
structure HeldOp where
  op : Instr
  gal : Nat
  alc : Nat
  pair : Bool
  issue : Nat
  order : Nat
  arrays : List Nat
  ks : List (Int × Bool)
  deriving DecidableEq, Repr

/-- Arrays, landings and banister units of the module. -/
structure Arrays where
  /-- Weight buffers, key `array * 2 + buffer`. -/
  wbuf : SMap WBuf
  /-- The active buffer of each array. -/
  active : SMap Nat
  /-- The load on each array's weight port. -/
  ports : SMap (Option LoadJob)
  streams : List Stream
  streamCount : Nat
  contribs : List Contrib
  /-- Landing rows, key `array * 64 + unit`. -/
  rows : SMap LRow
  /-- Open groups, key `array * 64 + group`. -/
  groups : SMap (Option Group)
  held : List HeldOp
  /-- Banister overflow count, key `g * 8 + alcove` (R125). -/
  banOverflow : SMap Nat
  /-- The keeper sink of each array that took a dummy beat (R64): nothing reads it. -/
  keeperSink : SMap Nat
  deriving DecidableEq, Repr, Inhabited

/-! ## Vector engines (R152 to R187) -/

/-- One element of a tile register (R153). -/
structure TElem where
  bits : BitVec 32
  poison : Bool
  deriving DecidableEq, Repr, Inhabited

/-- A V instruction in progress (R154, R155). `stop` is the cycle from which it processes no more
tiles. `mask` is the mask it names as it stood at issue and `maskBad` its mask-poison (R157, R338).
`data` is what it has read so far, tile by tile; of a VDQN, its results, computed from the planes it
read at issue, with their lane flags in `lanes`; of a VQNT, the descriptor's level exponent at issue in `lvl` (R129). -/
structure VJob where
  gal : Nat
  ctx : SlotCtx
  order : Nat
  issue : Nat
  pairing : Bool
  instr : Instr
  mask : Nat
  maskBad : Bool
  stop : Option Nat
  data : List (List TElem)
  lanes : List (List Nat)
  lvl : Nat
  deriving DecidableEq, Repr

/-- A result on its way to a tile register: readable from cycle `due`. `rank` 0 is a drain, 1 VLD,
2 any other (R155). Elements that keep their value are `none`. The `part`s that one instruction writes in a
cycle are one write (the status rows of a VSOLVE group, R173). -/
structure VWrite where
  part : Bool
  due : Nat
  gal : Nat
  rank : Nat
  order : Nat
  reg : Nat
  elems : List (Option TElem)
  deriving DecidableEq, Repr, Inhabited

/-- A result on its way to a mask register; bits outside `keep` are written. -/
structure MWrite where
  due : Nat
  gal : Nat
  order : Nat
  reg : Nat
  bits : Nat
  keep : Nat
  /-- The two quads of a pair differ: the register becomes mask-poisoned (R338). -/
  bad : Bool
  deriving DecidableEq, Repr, Inhabited

/-- Bytes on their way to the mezzanine (VST, VQNT): a read in cycle `due` or later sees them. -/
structure ZWrite where
  due : Nat
  gal : Nat
  addr : Nat
  data : List (Byte × Bool)
  deriving DecidableEq, Repr, Inhabited

/-- A quad's drain converter (R168). -/
structure Conv where
  cur : Option DrainJob
  waiting : List DrainJob
  deriving DecidableEq, Repr, Inhabited

/-- The vector engines. -/
structure Vec where
  /-- Tile registers, key `g * 64 + register`: 256 elements. -/
  tregs : SMap (List TElem)
  /-- Mask registers K1 to K7, key `g * 8 + k`, 256 bits. -/
  masks : SMap Nat
  /-- Mask-poisoned registers, `g * 8 + k` (R338). -/
  maskPoison : List Nat
  jobs : List VJob
  writes : List VWrite
  mwrites : List MWrite
  zwrites : List ZWrite
  /-- The cycle from which each gallery's issue port is free. -/
  portFree : SMap Nat
  issueOrder : Nat
  /-- Drain converters, key `g * 4 + quad`. -/
  convs : SMap Conv
  /-- Lane flag bytes, key `(g * 2 + bank) * 4 + quad`: 256 lanes (R169, R170). -/
  flags : SMap (List Nat)
  deriving DecidableEq, Repr, Inhabited

/-- The lane generators (R174): a bank holds the state reached from a seed unless it lists one.
Keys are `g * 1024 + 256 * quad + lane`; a state is `s0 + s1 * 2^64`. -/
structure Lanes where
  /-- The lane-mode seed of bank 0, or none when the registers are clear (R184). -/
  seed0 : Option Nat
  bank0 : SMap Nat
  seed1 : Option Nat
  bank1 : SMap Nat
  seedSnap : Option Nat
  snap : SMap Nat
  /-- Galleries whose bank 1 a gallery reset cleared (R375). -/
  clear1 : List Nat
  /-- Job tag 0 made a lane-mode draw since the program was loaded (R363), and in this step (R372). -/
  drawn : Bool
  drawnStep : Bool
  deriving DecidableEq, Repr, Inhabited

/-- A counter set (R131) with its level tracker (R129). -/
structure CSet where
  zeroed : Nat
  saturated : Nat
  bov : Nat
  lvlOvf : Nat
  tracker : Option Int
  deriving DecidableEq, Repr, Inhabited

/-! ## Mezzanines, tokens, keepers, gallery clocks -/

/-- The mezzanines: key `g * 2^23 + address`. -/
structure Mezz where
  bytes : List Host.Cell
  poison : List Nat
  deriving DecidableEq, Repr, Inhabited

/-- An increment recorded in a cycle (R206). -/
structure Incr where
  cycle : Nat
  key : Nat
  amount : Nat
  deriving DecidableEq, Repr, Inhabited

/-- Token counters, key `g * 256 + counter` (R206). A counter holds the increments of the present cycle too, and is
capped at the cycle's end. -/
structure Tokens where
  vals : SMap Nat
  incoming : List Incr
  /-- The values at the start of the step (R212). -/
  start : SMap Nat
  deriving DecidableEq, Repr, Inhabited

/-- The phase of an alcove's current keeper (R91). -/
inductive KPhase where
  | gated
  | steady
  | rampDown
  | rampUp
  deriving DecidableEq, Repr, Inhabited

/-- An alcove's current keeper (R89, R91): the last 1,024 counts of real beats (newest first), the
floor, the frozen floor, the length of the gap, the ramp position (0 to 17,000) and the dummy
beats of the present cycle. -/
structure Keeper where
  hist : List Nat
  floor : Nat
  frozen : Nat
  gap : Nat
  phase : KPhase
  ramp : Nat
  dummies : Nat
  deriving DecidableEq, Repr, Inhabited

/-- A gallery's clock (R218). -/
structure GClk where
  running : Bool
  restarting : Bool
  /-- Alcoves with a wake pending, and a VE wake pending. -/
  wakeAlcoves : Nat
  wakeVe : Bool
  deriving DecidableEq, Repr, Inhabited

/-- Per-gallery control of the data plane. -/
structure Gals where
  keepers : SMap Keeper
  clocks : SMap GClk
  /-- Dummy beats counted per gallery (R90). -/
  dummyBeats : SMap Nat
  /-- Checking modes in force (R217), and those a CHECKED sets from the next bundle. -/
  alcPair : Bool
  quadPair : Bool
  nextPair : Option (Bool × Bool)
  csets : SMap CSet
  deriving DecidableEq, Repr, Inhabited

/-! ## Error queues, logs and CPER (R29, R354) -/

/-- An error-queue entry: detector (R352), location word (R348), injected mark, job tag, logical
address, step and tick. -/
structure ErrEntry where
  detector : Nat
  loc : Nat
  injected : Bool
  tag : Nat
  addr : Nat
  step : Nat
  tick : Nat
  extra : Bytes
  sev : Nat
  /-- Its record has been made already: a fatal event reports at once (R336, R470). -/
  recorded : Bool
  deriving DecidableEq, Repr, Inhabited

/-- Kinds of logged fault that are no detector event. -/
inductive LogKind where
  | program
  | format
  | width
  | underrun
  | address
  | pageMap
  | arcade
  | control
  | side
  deriving DecidableEq, Repr, Inhabited

/-- A logged fault: kind, gallery (or 255), bundle or descriptor address, a detail number and the
job tag. -/
structure LogEntry where
  kind : LogKind
  gal : Nat
  place : Nat
  detail : Nat
  tag : Nat
  deriving DecidableEq, Repr, Inhabited

/-- A CPER record (R354, R355) before formatting. -/
structure Cper where
  code : Nat
  severity : Nat
  flags : Nat
  tag : Nat
  kind : Nat
  gaps : Nat
  step : Nat
  tick : Nat
  loc : Nat
  addr : Nat
  epoch : Nat
  lepoch : Nat
  id : Nat
  extra : Bytes
  deriving DecidableEq, Repr, Inhabited

/-- Error queues (0-49 galleries, 50 and 51 halls), the fault log and CPER stores. -/
structure Logs where
  queues : SMap (List ErrEntry)
  log : List LogEntry
  cper : List Cper
  fatal : List Cper
  /-- Fatal records in the buffer of R433: they wait for the security core. -/
  fatalWait : List Cper
  /-- Records made since provisioning (the record ID of R354). -/
  recId : Nat
  cperDue : Bool
  deriving DecidableEq, Repr, Inhabited

/-! ## Program and sequencing (R188 to R223) -/

/-- A slice of the side queue (R215). -/
structure SideSlice where
  tag : Nat
  len : Nat
  conds : List (Nat × Nat)
  bundles : Bytes
  deriving DecidableEq, Repr, Inhabited

/-- An open side window (R214), as one hall's side sequencer uses it, and the slice placed in it. `gals` are all its
galleries; `examine` that the sequencer has its queue still to examine (R215). -/
structure SideWin where
  hall : Nat
  start : Nat
  stop : Nat
  gals : List Nat
  alcoves : Nat
  ve : Bool
  examine : Bool
  /-- The slice being issued: its bytes not yet issued and the cycle its next bundle is due. -/
  slice : Option SideSlice
  due : Nat
  sliceEnd : Nat
  deriving DecidableEq, Repr, Inhabited

/-- A queued D descriptor or an issued A descriptor (R204). -/
structure Desc where
  id : Nat
  /-- 1 DGET, 2 DPUT, 3 DMOV, 11 ASEND, 12 ARED, 13 AGATH. -/
  op : Nat
  gal : Nat
  gals : List Nat
  ctx : SlotCtx
  slot : DslotF
  adesc : Nat
  token : Nat
  /-- The mop and passes still to be performed. -/
  performed : Bool
  failed : Bool
  deriving DecidableEq, Repr, Inhabited

/-- Program, sequencer and descriptor queues. -/
structure Prog where
  loaded : Bool
  started : Bool
  /-- Issue is permitted: started, not at a boundary, not halted or parked. -/
  issuing : Bool
  /-- The program buffers of the two halls, by byte offset, and their uncorrectable words. -/
  bufA : SMap Byte
  bufB : SMap Byte
  badA : List Nat
  badB : List Nat
  size : Nat
  /-- Logical address the image was loaded from (R335). -/
  source : Nat
  /-- Segment numbers of the run list still to issue, the present segment included. -/
  runList : List Nat
  /-- Bundles of the present segment already taken, and the byte offset of the next. -/
  segDone : Nat
  offset : Nat
  lastBank : Nat
  deriving DecidableEq, Repr, Inhabited

/-- Descriptor units as the program sees them. -/
structure Queues where
  descs : List Desc
  nextId : Nat
  /-- Descriptors a watchdog abort cancelled (R210). -/
  cancelled : Nat
  deriving DecidableEq, Repr, Inhabited

/-- The binding of the loaded program (R85, R220). -/
structure Binding where
  shapeA : Nat
  shapeB : Nat
  /-- Physical gallery of each bound logical gallery, plus 1 (0: unbound). -/
  gal : SMap Nat
  /-- Physical array of each logical array, key `(logical g * 8 + alcove) * 128 + array`, plus 1. -/
  arr : SMap Nat
  /-- Narrowed physical arrays in use by the binding: array key, faulty column plus 1 (R84). -/
  narrow : SMap Nat
  deriving DecidableEq, Repr, Inhabited

/-- Where the step boundary stands (R211, R435). -/
inductive BPhase where
  /-- The step runs. -/
  | none
  /-- SBOUND has issued; the step drains. -/
  | draining
  /-- Every gallery has retired SBOUND; actions are due from `next`. -/
  | actions
  /-- Step 7 without issuing: HALTED, parked or under-connected. -/
  | stopped
  deriving DecidableEq, Repr, Inhabited

/-- What an interrupted boundary waits for. -/
inductive BWait where
  | nothing
  | vote1
  | vote2
  | agreement
  deriving DecidableEq, Repr, Inhabited

/-- One cset's decision at a boundary (R140 to R148). -/
structure CDec where
  cset : Nat
  present : Nat
  proposal : Nat
  run : Nat
  need : Nat
  tripped : Bool
  clean : Bool
  storm : Bool
  ceil : Bool
  pin : Bool
  held : Bool
  /-- Reserve pages mapped for it in step 6 of R141, and those that a step down frees, as indices of the region. -/
  mapped : List Nat
  freed : List Nat
  /-- What a boundary that does not advance gives back (R142): the state word and `sinceDown`. -/
  word0 : Nat
  down0 : Nat
  deriving DecidableEq, Repr, Inhabited

/-- The boundary journal (R435) and what the actions have decided so far. -/
structure Boundary where
  phase : BPhase
  wait : BWait
  /-- The first action of R211 step 5 not yet complete: 0 is (a), 11 is (l). -/
  next : Nat
  /-- Step-status bits collected for the closing step (R213). -/
  bits : Nat
  /-- The snapshot of R27: values and domains. -/
  snapN : SMap Nat
  snapD : SMap Bytes
  sums : SMap CSet
  decs : List CDec
  /-- STORM of 0x2342.02 is in force, and the storm test of this boundary was met (R148). -/
  storm : Bool
  stormNow : Bool
  agreed : Bool
  prop : Nat
  advance : Bool
  /-- Boundaries since the last advancing one (R308). -/
  attempt : Nat
  votes : List VoteF
  agrees : List AgreeF
  splitFrom : List Nat
  /-- The boundary actions run for a resume or a start, not for a step (R365), and the request that
  waits for their outcome: its type, port and SEQ. -/
  resume : Bool
  req : Option (Nat × ReqF)
  sboundTick : Nat
  /-- The first step after a cset's last step-down, plus 1, and boundaries at rung 0 without a trip
  (R140). -/
  sinceDown : SMap Nat
  atZero : SMap Nat
  /-- Pages of the reserve region that are mapped: index in the region -> cset + 1 (R147). -/
  reserve : SMap Nat
  /-- 0x6082 at the snapshot that opened the step, and the digest of its context (R372). -/
  inputDigest : Bytes
  ctxDigest : Bytes
  /-- The part of the manifest that describes the step itself, formed before adoption (R372). -/
  manifest : Bytes
  /-- Committed blocks of this boundary and their pages (R324 to R326). -/
  commitPages : List Nat
  commitOk : Bool
  commitBlocks : Nat
  /-- Arcade objects in force have changed since the last route build. -/
  planChanged : Bool
  /-- SBOUND has completed but no bundle issues until a connectivity evaluation passes (R286). -/
  underConnWait : Bool
  deriving DecidableEq, Repr, Inhabited

/-! ## Memory (R224 to R252) -/

/-- A row under repair statistics: correctable events in this scrub period (R245). -/
structure MemFix where
  /-- Row keys `((stack * 136 + channel) * 32 + bank) * 8384 + row`. -/
  events : SMap Nat
  /-- Failing rows that wait for a spare (R245). -/
  failing : List Nat
  /-- Remapped row -> spare row + 1. -/
  remap : SMap Nat
  /-- Spare rows used per bank, key `(stack * 136 + channel) * 32 + bank`. -/
  spareUsed : SMap Nat
  /-- Spare rows retired, keys as `events`. -/
  spareRetired : List Nat
  /-- Retired frames, `group * 8320 + frame`, in the order they were retired. -/
  retired : List Nat
  /-- Reserve frames in use, same keys. -/
  reserveUsed : List Nat
  /-- Frames retired because of a channel's rows, key `stack * 136 + channel`. -/
  chanRetired : SMap Nat
  fencedChans : List Nat
  /-- Channel map, key `stack * 128 + logical channel`; physical channel + 1, 0 for the identity. -/
  chanMap : SMap Nat
  spareChanUsed : SMap Nat
  /-- Fenced channels that wait for their copy, and those being copied: channel key and its spare. -/
  standIn : List (Nat × Nat)
  copies : List (Nat × Nat)
  fencedGroups : List Nat
  /-- Frames to be retired, whose pages wait to migrate (R246). -/
  migrate : List Nat
  scrubBehind : List Nat
  /-- Where each stack's scrub goes on, in sectors: those of its frames, of its spare rows, and of its system area (R250). -/
  scrubPos : SMap Nat
  clearPoisonReq : List Nat
  deriving DecidableEq, Repr, Inhabited

/-- Logical memory as it lies in frames: a byte's key is
`(group * 8320 + frame) * 2^20 + page offset`; a sector's key is its byte key / 32. -/
structure Mem where
  bytes : List Host.Cell
  poison : List Nat
  /-- Wrong symbols standing in a sector (R227): 1 or 2 by an injection, 3 or 4 (one or two symbols)
  by a fault of the stack. -/
  symErr : SMap Nat
  /-- Page-map entries that differ from the entry cold boot builds (R231), as entry + 1. -/
  pmap : SMap Nat
  /-- The EPOCH of every entry that is not listed. -/
  pmapEpoch : Nat
  /-- Pages held by each hall's page-map cache. -/
  cacheA : List Nat
  cacheB : List Nat
  /-- Frames of pages that map elsewhere for now: a disabled cache slot's pages and the reserve pages
  that its frames back (R302), as frame + 1. -/
  ownFrames : SMap Nat
  misses : Nat
  /-- Adder and update-engine flags, tag 0 and side tags (R239, R240). -/
  flags0 : Nat
  flagsSide : Nat
  fix : MemFix
  deriving DecidableEq, Repr, Inhabited

/-! ## The parameter update (R314 to R332) -/

/-- One pass-2 descriptor in the update log (R323). -/
structure LogDesc where
  xdesc : Nat
  loff : Nat
  /-- Its range of pages written. -/
  pages : List Nat
  deriving DecidableEq, Repr, Inhabited

/-- One entry of a stack's update log (R323, R371). -/
structure UpdLog where
  stack : Nat
  upd : Nat
  early : Bool
  disagree : Bool
  nf : Bool
  /-- FP32 bits of the c used. -/
  c : Nat
  descs : List LogDesc
  check : Nat
  deriving DecidableEq, Repr, Inhabited

/-- The commit record (R325): state, step after the advance, layout epoch, entries
`(page, target SEL)`. -/
structure CommitRec where
  /-- The copy's digest is valid (R327). -/
  valid : Bool
  state : Nat
  step : Nat
  lepoch : Nat
  entries : List (Nat × Nat)
  deriving DecidableEq, Repr, Inhabited

/-- Update engines, commit record (two copies with the same content unless a reset falls between
their writes) and the freshness of the step size (R321). -/
structure Update where
  log : List UpdLog
  recA : CommitRec
  recB : CommitRec
  /-- A write of 0x6010.01 was accepted since the snapshot of the boundary that advanced last, the load or
  the restore. -/
  etaWritten : Bool
  /-- No step has opened since the load or context restore (R321). -/
  etaFirst : Bool
  /-- One was accepted since the snapshot of the boundary in progress. -/
  etaLate : Bool
  /-- The step size of the present step is fresh. -/
  etaFresh : Bool
  /-- The 16 hyperparameter sets in force in the step that closes, held while its boundary commits (R324). -/
  hypers : List Bytes
  /-- In the same way the working-copy descriptors of its blocks: number, the descriptor, and its turn seed. -/
  wdescs : List (Nat × Nat × Nat)
  /-- The FP32 bits of the η in use. -/
  eta : Nat
  checks : SMap Nat
  deriving DecidableEq, Repr, Inhabited

/-! ## The arcade (R253 to R289) -/

/-- A flit (R256, R257). -/
structure Flit where
  kind : Nat
  lseq : Nat
  ack : Nat
  ackv : Bool
  dst : Nat
  src : Nat
  shall : Nat
  vc : Nat
  hop : Nat
  detour : Bool
  first : Bool
  last : Bool
  bytes : Nat
  poison : Nat
  cvc : Nat
  cred : Nat
  payload : Bytes
  deriving DecidableEq, Repr, Inhabited

/-- A data flit that the transmitter holds until it is acknowledged (R258, R259). -/
structure TxFlit where
  flit : Flit
  /-- The descriptor that issued its packet, plus 1; 0 for none. -/
  desc : Nat
  lane : Nat
  laneCount : Nat
  resends : Nat
  /-- Its packet is sent again, ahead of the stream's new packets (R272, R282). -/
  again : Bool
  deriving DecidableEq, Repr, Inhabited

/-- One arcade link. -/
structure Link where
  state : Nat
  reason : Nat
  /-- The retraining hold has run out; the link trains on signal (R276). -/
  holdOver : Bool
  signal : Bool
  peerLink : Nat
  peerSlot : Nat
  /-- Lanes in use, lanes retired, and the spare training (R262, R263). -/
  active : Nat
  failed : Nat
  spareUsed : Bool
  spareTraining : Bool
  /-- The payload of the last beacon received (0x3330), and whether it has come since the link last trained. -/
  beacon : Bytes
  heard : Bool
  /-- Flits in the send queue, in order. -/
  wait : List TxFlit
  sent : List TxFlit
  /-- Virtual channels of the last 64 flit slots, newest first, and the place in the rotation of
  R235. -/
  slots : List Nat
  turn : Nat
  lastLane : Nat
  laneCount : SMap Nat
  /-- Flits received on each lane since training. -/
  rxCount : SMap Nat
  nextLseq : Nat
  credits : SMap Nat
  expLseq : Nat
  /-- A data flit has arrived since training. -/
  rxAny : Bool
  reorder : List Flit
  /-- The part of the packet that arrives on each VC. -/
  partials : SMap (List Flit)
  freed : SMap Nat
  /-- Counters of 0x3310, 0 to 6. -/
  counters : SMap Nat
  /-- The link has trained since reset: a further training counts as a retrain (R287). -/
  trained : Bool
  /-- Control entries for the peer from before flits flow: kind, lane, argument (R262, R263). -/
  tell : List (Nat × Nat × Nat)
  /-- What the last beacon said: lanes, flags, epoch, step, layout epoch (R277). -/
  told : List Nat
  /-- A data flit has arrived that no flit has acknowledged yet (R257). -/
  tellAck : Bool
  /-- Flits put on the lanes with their lane, oldest first; idle flits that tell nothing new are not listed (log 41). -/
  out : List (Nat × Flit)
  deriving DecidableEq, Repr, Inhabited

/-- A packet kept by its source (R272). -/
structure Kept where
  p : Packet
  link : Nat
  desc : Nat
  deriving DecidableEq, Repr, Inhabited

/-- The arcade dies. Streams: sent `(shall * 72 + dst) * 4 + vc`, those of another module that are forwarded with
`(src + 1) * 2^20` added; received `(src * 2 + shall) * 4 + vc`. -/
structure Arcade where
  links : SMap Link
  slot : Nat
  txSeq : SMap Nat
  rxSeq : SMap Nat
  /-- The path of each stream since the last route build: its first link, plus 18 on a detour, plus 1 (R273, R282). -/
  paths : SMap Nat
  /-- Packets performed since the last acknowledgement of a received stream. -/
  rxNew : List Nat
  retain : List Kept
  retainWait : List Kept
  retaining : List Nat
  /-- Streams on a detour. -/
  detours : List Nat
  /-- Ports of relays that a no-route message marked down (R283): relay slot and port. -/
  badRelays : List (Nat × Nat)
  /-- Links of the route table, and each stairwell peer's port-up bits (slot -> bits + 1). -/
  routes : List Nat
  peerPorts : SMap Nat
  sentPorts : Nat
  inbox : List (Nat × Bytes)
  /-- Packets to the module itself, not yet performed. -/
  loop : List Packet
  /-- Tick of each stream's last gap request, plus 1. -/
  gapTick : SMap Nat
  /-- The links came up anew, at a boot, a reset or out of Standby, and their first route build is due (R431). -/
  buildDue : Bool
  deriving DecidableEq, Repr, Inhabited

/-! ## Collectives (R290 to R313) -/

/-- A collective in progress. -/
structure Coll where
  desc : Nat
  cid : Nat
  /-- 11 ASEND, 12 ARED, 13 AGATH. -/
  op : Nat
  mode : Nat
  attempt : Nat
  step : Nat
  /-- Members (slots) in rank order, with their ranks. -/
  members : List (Nat × Nat)
  ready : List (Nat × Int)
  eloc : Int
  /-- 0 ready round, 1 waiting for the anchor doorbell, 2 phase 2, 3 waiting for the sums
  doorbell, 4 copies, 5 done. -/
  phase : Nat
  anchor : Int
  anchorSet : Bool
  /-- Elements contributed per shard, from the own stairwell and from others (R297). -/
  arrStair : SMap Nat
  arrFinal : SMap Nat
  /-- Bytes of each shard that arrived by copy. -/
  arrCopy : SMap Nat
  forwarded : List Nat
  /-- The copies of phase 4 have been sent. -/
  copied : Bool
  deriving DecidableEq, Repr, Inhabited

/-- The tag of a cache slot (R303). -/
structure CacheTag where
  cid : Nat
  step : Nat
  attempt : Nat
  epoch : Nat
  first : Nat
  pages : Nat
  deriving DecidableEq, Repr, Inhabited

/-- A ready message held for a collective not yet issued (R294): slot, CID, step, attempt, configuration epoch, E_loc. -/
structure HeldReady where
  slot : Nat
  cid : Nat
  step : Nat
  attempt : Nat
  cepoch : Nat
  eloc : Int
  deriving DecidableEq, Repr, Inhabited

/-- Collective state. -/
structure Colls where
  colls : List Coll
  heldReady : List HeldReady
  /-- Doorbells held, with the port of their ring, and those performed in this step: CID, phase, ATTEMPT (R386); and the
  CIDs whose ARED has ended in this step. -/
  heldBells : List ((Nat × Nat × Nat) × Nat)
  doneBells : List (Nat × Nat × Nat)
  doneReds : List Nat
  cache : SMap (Option CacheTag)
  /-- Issues of each ASEND descriptor since the boundary (R304). -/
  sendIndex : SMap Nat
  /-- Bits collected for 0x6052. -/
  bits : Nat
  reuses : Nat
  pulls : Nat
  /-- Rejections under R234 in this step: the descriptor plus 1, 0 where it has ended, and the rejecting slot (R310). -/
  rejects : List (Nat × Nat)
  /-- Collective descriptors that the loaded program uses as gathers, which name cache slots (R302). -/
  gathers : List Nat
  deriving DecidableEq, Repr, Inhabited

/-! ## Vestibules, store and portico -/

/-- A message a vestibule sends (R379, R380, R390). -/
inductive VMsg where
  | completion (tag cst space addr : Nat) (data : Bytes) (mask : List Bool)
  | alert (code seq step tick word : Nat)
  | sideband (pend : Nat)
  deriving DecidableEq, Repr, Inhabited

/-- An alert kept while the mainband is not active (R390). -/
structure HeldAlert where
  step : Nat
  tick : Nat
  word : Nat
  deriving DecidableEq, Repr, Inhabited

/-- One vestibule (R378 to R392). -/
structure Vport where
  link : Nat
  mods : Nat
  retrains : Nat
  repairs : Nat
  err : Nat
  pend : Nat
  alertEn : Nat
  retryCnt : Nat
  poisonCnt : Nat
  dbSeen : Nat
  dbmap : SMap Nat
  request : SMap Byte
  response : Bytes
  mbState : Nat
  /-- SEQ of the response held, plus 1; SEQ and type in service. -/
  heldSeq : Nat
  service : Option (Nat × Nat)
  alertSeq : Nat
  held : SMap (Option HeldAlert)
  /-- The link has been up since reset: a further training counts in RETRAINS. -/
  everUp : Bool
  out : List VMsg
  deriving DecidableEq, Repr, Inhabited

/-- A response or notify frame the portico sends (R415, R419). `eth` is its Ethernet header as sent: the destination
address, the module's address and the EtherType, in the byte order of IEEE 802.3 (R6). -/
structure OutFrame where
  eth : Bytes
  svc : Nat
  flags : Nat
  seq : Nat
  status : Nat
  index : Nat
  sub : Nat
  len : Nat
  offset : Nat
  xfer : Nat
  data : Bytes
  deriving DecidableEq, Repr, Inhabited

/-- An open segmented transfer (R417). -/
structure Xfer where
  id : Nat
  src : Nat
  index : Nat
  sub : Nat
  download : Bool
  total : Nat
  next : Nat
  data : Bytes
  /-- The value copied at the start, or read live when larger than 64 KiB (R402); and whether a value that is read
  live has changed since the start. -/
  live : Bool
  dirty : Bool
  deriving DecidableEq, Repr, Inhabited

/-- The portico (R414 to R420). -/
structure Portico where
  /-- Requests that wait to be served, oldest first, at most 16 (R418). -/
  queue : List FrameF
  last : List (Nat × Nat × OutFrame)
  xfers : List Xfer
  nextXfer : Nat
  notifySeq : Nat
  out : List OutFrame
  deriving DecidableEq, Repr, Inhabited

/-- A change of an F object that the vestibule mirrors do not show yet: the object, the tick of the change and
the value before it (R30). -/
structure MirrorChange where
  key : Nat
  tick : Nat
  old : Nat
  deriving DecidableEq, Repr, Inhabited

/-- The object dictionary store (R395 to R413). Keys are `index * 256 + sub`; an entry that is not
listed holds the object's default (each entry has its own, see Objects.lean). -/
structure Store where
  /-- Values of eight bytes or fewer; staged values for the digest set (R407). -/
  nums : SMap Nat
  /-- DOMAIN and STRING values. -/
  doms : SMap Bytes
  /-- Values in force of the digest set. -/
  forceN : SMap Nat
  forceD : SMap Bytes
  /-- The copy of persistent objects in flash (R404), and the keys not yet written. -/
  flashN : SMap Nat
  flashD : SMap Bytes
  unwritten : List Nat
  /-- Keys whose change a loss of power overtook: the previous value returns at the next boot (R404, R467). -/
  lost : List Nat
  /-- The configuration epoch kept in flash with the digest of the stored values. -/
  flashEpoch : Nat
  flashDigest : Bytes
  /-- Changes of F objects on their way to the mirrors, oldest first (R30). -/
  changes : List MirrorChange
  deriving DecidableEq, Repr, Inhabited

/-! ## Reliability, recovery, firmware, security, power -/

/-- A targeted sentinel waiting to run (R342): the alcoves and quads that the event names, its location and detector, and
boundaries passed since. -/
structure Target where
  gal : Nat
  alcs : List Nat
  quads : List Nat
  detector : Nat
  loc : Nat
  age : Nat
  deriving DecidableEq, Repr, Inhabited

/-- A margin sweep (R346). The gallery runs at the present point's core rail and clock, with the junction at the given
number of °C or above (0: as found). -/
structure Sweep where
  gal : Nat
  point : Nat
  failed : Nat
  reduced : Bool
  railMv : Nat
  clockKhz : Nat
  junction : Nat
  deriving DecidableEq, Repr, Inhabited

/-- A sentinel at work (R340): the suite (0 array, 1 landing, 2 vector), its alcove or quad, and the cycle it ends in. A
routine one runs in a side window (R341); the others are those of a targeted sentinel or a sweep point. -/
structure Sentinel where
  routine : Bool
  gal : Nat
  suite : Nat
  unit : Nat
  stop : Nat
  deriving DecidableEq, Repr, Inhabited

/-- The armed injection (R353): what was taken when it was armed, and how often it still fires.
0xA100.05 holds its status and fired count. -/
structure Inject where
  detector : Nat
  loc : Nat
  trigger : Nat
  left : Nat
  deriving DecidableEq, Repr, Inhabited

/-- Silent-error machinery (R333 to R358). -/
structure Rel where
  targets : List Target
  /-- Routine sentinels at work, and the suites that have run since the coverage period began. -/
  sentinels : List Sentinel
  covered : List Nat
  sinceCover : Nat
  sweep : Option Sweep
  sweptUpTo : Nat
  sweepUnfit : List Nat
  /-- Guard-band steps per gallery in force, and changes waiting for the boundary. -/
  guard : SMap Nat
  guardAdd : List Nat
  guardDel : List Nat
  guardZero : List Nat
  clockGuard : Bool
  clockGuardReq : Bool
  /-- Steps of the counted marginal events of each gallery, newest first. -/
  marginal : SMap (List Nat)
  /-- Floor map: location and information words, oldest first; records not yet in flash. -/
  floorMap : List (Nat × Nat)
  floorWait : List (Nat × Nat)
  /-- Records that a clear of the map took out: they stay in effect until the next cold boot. -/
  floorOld : List (Nat × Nat)
  /-- Units fenced or narrowed since the last load, which act at the next (R345). -/
  pendingFences : List Nat
  inject : Inject
  /-- Uncorrectable SRAM words seen in this step (R335). -/
  sramBad : List Nat
  deriving DecidableEq, Repr, Inhabited

/-- A range of memory that a takeover or re-mirror pulls (R368): the slot it comes from, its first
logical address here, its size and the bytes that have arrived. -/
structure Pull where
  slot : Nat
  addr : Nat
  size : Nat
  got : Nat
  deriving DecidableEq, Repr, Inhabited

/-- A takeover or re-mirror in progress: request type, port and SEQ, rank, the context to restore, the
ranges pulled, and whether the rebuild segment runs (R369). -/
structure TakeJob where
  typ : Nat
  req : Nat × Nat
  rank : Nat
  ctx : Bytes
  pulls : List Pull
  rebuild : Bool
  failed : Bool
  deriving DecidableEq, Repr, Inhabited

/-- Contexts, manifests, parking and replay (R359 to R377). -/
structure Recov where
  parkPending : Bool
  parkReqs : List (Nat × Nat)
  /-- Contexts held: owner slot to context bytes; the module's own under its slot. -/
  contexts : SMap Bytes
  /-- The parts of a context that has not all arrived. -/
  ctxParts : SMap (List (Nat × Bytes))
  /-- Holders that have not acknowledged the module's last context, with the PSEQ of its last packet (R364). -/
  ctxAwait : List (Nat × Nat)
  manifests : List Bytes
  signWait : List Nat
  replay : Bool
  replayManifest : Bytes
  job : Option TakeJob
  deriving DecidableEq, Repr, Inhabited

/-- What the objects that the halls produce read while the halls have no power: the parts of the state as Dormant
found them (R399). -/
structure Dark where
  arc : Arcade
  pmap : SMap Nat
  cper : List Cper
  marginal : SMap (List Nat)
  contexts : SMap Bytes
  manifests : List Bytes
  recA : CommitRec
  deriving DecidableEq, Repr, Inhabited

/-- A firmware processor (R425, R432). -/
structure Proc where
  running : Bool
  /-- Held in reset after failures, or halted through the TAP. -/
  held : Bool
  halted : Bool
  fails : Nat
  hold100 : Bool
  /-- It runs the image of the set that is not active (R439). -/
  staged : Bool
  deriving DecidableEq, Repr, Inhabited

/-- Flash and firmware (R427 to R442). Set 0 is A on device 0, set 1 is B on device 1. -/
structure Fw where
  procs : SMap Proc
  /-- Images, key set * 4 + kind. -/
  images : SMap Bytes
  generation : SMap Nat
  /-- Device counters, key device * 16 + counter; lifecycle count at 8 (R443). -/
  counters : SMap Nat
  /-- Pairing of each device: 0 no key, 1 this module's key, 2 another key. -/
  pairing : SMap Nat
  activeSet : Nat
  /-- Activation: processors (0 security, 1 power, 2 scheduler, 3 + n) still to restart, and the
  seq and port of the request. -/
  order : List Nat
  activating : Bool
  deferred : Bool
  staged : Bool
  waitSbound : Bool
  /-- Processors that a reverted activation has still to restart into the previous set (R439). -/
  reverting : List Nat
  req : Nat × Nat
  /-- The image of each kind as the processors of that kind loaded it, newest (R431, R449). -/
  loaded : SMap Bytes
  /-- Requests that wait for a processor that is restarting (R432). -/
  waiting : List Instr
  /-- Attestation requests taken while the security core restarts: the request and bytes 0 to 607 of its report, with
  the values in force when it was taken (R450). -/
  reports : List (ReqF × Bytes)
  deriving DecidableEq, Repr, Inhabited

/-- Security (R443 to R455) and the TAP. -/
structure Sec where
  identity : Nat
  idkDiscarded : Bool
  /-- The owner key and the count its record carries. -/
  owner : Bytes
  ownerCount : Nat
  /-- Values the challenge has taken so far (R452). -/
  draws : Nat
  /-- The count of the wipe-complete record, plus 1 (R445). -/
  wiped : Nat
  tapIr : Nat
  tapDr : Bytes
  tapOut : Bytes
  deriving DecidableEq, Repr, Inhabited

/-- Power, clocks, cooling and pins (R456 to R485). -/
structure Power where
  aon : Bool
  inReset : Bool
  inputOk : Bool
  inputMv : Nat
  /-- Rails on, by the order of R469: 0 none, 6 all. -/
  rails : Nat
  hostRails : Bool
  hcoreMv : Nat
  crystal : Bool
  /-- A transition in progress: source and target; the request's port, and its SEQ plus 1 (0: no mailbox
  request). -/
  trans : Option (Nat × Nat)
  transReq : Nat × Nat
  /-- What follows the transition: a start or resume request, a wake, Standby. -/
  startAfter : Option Instr
  wakeAfter : Bool
  standbyAfter : Bool
  readings : SensorF
  /-- After a thermal trip, the highest junction read since, in tenths of a degree; 0 once every junction is
  below 85 °C (R480). -/
  hotJunction : Int
  plcaOk : Bool
  /-- Polls for which the injection 0x18 still adds 20 °C to the power core's reading (R353). -/
  offsetPolls : Nat
  /-- A rail fault is in the log: its fatal record is due at the next boot (R471). -/
  fatalDue : Bool
  /-- Lockstep detectors latched in the always-on domain until the pair runs, with their injected mark (R334). -/
  lockLatch : List (Nat × Bool)
  deriving DecidableEq, Repr, Inhabited

/-- The module without the queue of waiting commands. `freeCtr` numbers the uses of free values (the model's own
field, log 5). -/
structure Block where
  clk : Clock
  freeze : Option Freeze
  arr : Arrays
  vec : Vec
  lanes : Lanes
  mezz : Mezz
  tok : Tokens
  gals : Gals
  logs : Logs
  prog : Prog
  queues : Queues
  bind : Binding
  side : List SideWin
  sideA : List SideSlice
  sideB : List SideSlice
  stoppedTags : List Nat
  bnd : Boundary
  mem : Mem
  upd : Update
  arc : Arcade
  colls : Colls
  portA : Vport
  portB : Vport
  portico : Portico
  store : Store
  rel : Rel
  recov : Recov
  fw : Fw
  sec : Sec
  pwr : Power
  dark : Option Dark
  freeCtr : Nat
  deriving DecidableEq, Repr, Inhabited

/-- The module and the commands that wait, first in, first out. -/
structure State extends Block where
  pending : List Instr
  deriving DecidableEq, Repr, Inhabited

/-! ## Reset

The parts of the state right after a cold reset that ended in Ready (log 26). -/

def clkReset : Clock :=
  { cycle := 0, fcyc := 0, tick := 0, phase := 0, nextIssue := 0, issued := 0, heldCycles := 0 }

def arrReset : Arrays :=
  { wbuf := [], active := [], ports := [], streams := [], streamCount := 0, contribs := [], rows := [], groups := [], held := [],
    banOverflow := [], keeperSink := [] }

def vecReset : Vec :=
  { tregs := [], masks := [], maskPoison := [], jobs := [], writes := [], mwrites := [], zwrites := [], portFree := [], issueOrder := 0,
    convs := [], flags := [] }

/-- The lane registers are clear (R184). -/
def lanesReset : Lanes :=
  { seed0 := none, bank0 := [], seed1 := none, bank1 := [], seedSnap := none, snap := [], clear1 := [], drawn := false, drawnStep := false }

/-- In Ready the galleries' clocks are stopped until woken (R456). -/
def galsReset : Gals :=
  { keepers := []
    clocks := (List.range 50).map (fun g => (g, { running := false, restarting := false, wakeAlcoves := 0, wakeVe := false }))
    dummyBeats := [], alcPair := false, quadPair := false, nextPair := none, csets := [] }

def progReset : Prog :=
  { loaded := false, started := false, issuing := false, bufA := [], bufB := [], badA := [], badB := [], size := 0, source := 0,
    runList := [], segDone := 0, offset := 0, lastBank := 0 }

def bndReset : Boundary :=
  { phase := .none, wait := .nothing, next := 0, bits := 0, snapN := [], snapD := [], sums := [], decs := [], storm := false,
    stormNow := false, agreed := false, prop := 0, advance := false, attempt := 0, votes := [], agrees := [], splitFrom := [],
    resume := false, req := none, sboundTick := 0, sinceDown := [], atZero := [], reserve := [], inputDigest := List.replicate 64 0,
    ctxDigest := List.replicate 64 0, manifest := [], commitPages := [], commitOk := false, commitBlocks := 0, planChanged := false,
    underConnWait := false }

def fixReset : MemFix :=
  { events := [], failing := [], remap := [], spareUsed := [], spareRetired := [], retired := [], reserveUsed := [], chanRetired := [],
    fencedChans := [], chanMap := [], spareChanUsed := [], standIn := [], copies := [], fencedGroups := [], migrate := [], scrubBehind := [],
    scrubPos := [], clearPoisonReq := [] }

/-- Memory is clean zeros under the page map of R231 (R250). -/
def memReset : Mem :=
  { bytes := [], poison := [], symErr := [], pmap := [], pmapEpoch := 0, cacheA := [], cacheB := [], ownFrames := [], misses := 0,
    flags0 := 0, flagsSide := 0, fix := fixReset }

/-- A system area that holds no commit record: its digest is not valid. -/
def recNone : CommitRec := { valid := false, state := 0, step := 0, lepoch := 0, entries := [] }

def updReset : Update :=
  { log := [], recA := recNone, recB := recNone, etaWritten := false, etaFirst := true, etaLate := false, etaFresh := false, hypers := [], wdescs := [], eta := 0, checks := [] }

/-- Every link is DOWN; the slot straps read 0 (log 26). -/
def arcReset : Arcade :=
  { links := [], slot := 0, txSeq := [], rxSeq := [], paths := [],
    rxNew := [], retain := [], retainWait := [], retaining := [], detours := [],
    badRelays := [], routes := [], peerPorts := [], sentPorts := 0, inbox := [], loop := [], gapTick := [], buildDue := true }

def collsReset : Colls :=
  { colls := [], heldReady := [], heldBells := [], doneBells := [], doneReds := [], cache := [], sendIndex := [], bits := 0, reuses := 0, pulls := 0,
    rejects := [], gathers := [] }

/-- The window registers at reset (R384, R387, R390). -/
def portReset : Vport :=
  { link := 0, mods := 0, retrains := 0, repairs := 0, err := 0, pend := 0, alertEn := 0xFFFFF7FE, retryCnt := 0, poisonCnt := 0,
    dbSeen := 0, dbmap := [], request := [], response := [], mbState := 0, heldSeq := 0, service := none, alertSeq := 0, held := [],
    everUp := false, out := [] }

def porticoReset : Portico := { queue := [], last := [], xfers := [], nextXfer := 1, notifySeq := 0, out := [] }

/-- Every object at its default. An empty `flashDigest` stands for the digest of the defaults. -/
def storeReset : Store :=
  { nums := [], doms := [], forceN := [], forceD := [], flashN := [], flashD := [], unwritten := [], lost := [], flashEpoch := 0, flashDigest := [],
    changes := [] }

def relReset : Rel :=
  { targets := [], sentinels := [], covered := [], sinceCover := 0, sweep := none, sweptUpTo := 0, sweepUnfit := [], guard := [], guardAdd := [],
    guardDel := [], guardZero := [], clockGuard := false, clockGuardReq := false, marginal := [], floorMap := [], floorWait := [],
    floorOld := [], pendingFences := [], inject := { detector := 0, loc := 0, trigger := 0, left := 0 }, sramBad := [] }

def recovReset : Recov :=
  { parkPending := false, parkReqs := [], contexts := [], ctxParts := [], ctxAwait := [], manifests := [], signWait := [], replay := false,
    replayManifest := [], job := none }

/-- Both devices without a pairing key: a Blank module (log 26). -/
def fwReset : Fw :=
  { procs := [], images := [], generation := [], counters := [], pairing := [], activeSet := 0, order := [], activating := false,
    deferred := false, staged := false, waitSbound := false, reverting := [], req := (0, 0), loaded := [], waiting := [], reports := [] }

def secReset : Sec :=
  { identity := 0, idkDiscarded := false, owner := [], ownerCount := 0, draws := 0, wiped := 0, tapIr := 1, tapDr := [], tapOut := [] }

/-- Every rail is up on a 60 V input (log 26). -/
def pwrReset : Power :=
  { aon := true, inReset := false, inputOk := true, inputMv := 60000, rails := 6, hostRails := true, hcoreMv := 600, crystal := true,
    trans := none, transReq := (0, 0), startAfter := none, wakeAfter := false, standbyAfter := false
    readings := { inputMv := 0, inputMa := 0, powerW := 0, avgPowerW := 0, hostW := 0, temps := [] }
    hotJunction := 0, plcaOk := false, offsetPolls := 0, fatalDue := false, lockLatch := [] }

/-- The module right after reset: a cold reset that ended in Ready (R431), every object at its default, no
program loaded. -/
def Block.reset : Block :=
  { clk := clkReset, freeze := none, arr := arrReset, vec := vecReset, lanes := lanesReset, mezz := { bytes := [], poison := [] },
    tok := { vals := [], incoming := [], start := [] }, gals := galsReset
    logs := { queues := [], log := [], cper := [], fatal := [], fatalWait := [], recId := 0, cperDue := false }
    prog := progReset, queues := { descs := [], nextId := 0, cancelled := 0 }
    bind := { shapeA := 0, shapeB := 0, gal := [], arr := [], narrow := [] }
    side := [], sideA := [], sideB := [], stoppedTags := [], bnd := bndReset, mem := memReset, upd := updReset, arc := arcReset,
    colls := collsReset, portA := portReset, portB := portReset, portico := porticoReset, store := storeReset, rel := relReset,
    recov := recovReset, fw := fwReset, sec := secReset, pwr := pwrReset, dark := none, freeCtr := 0 }

/-- The block after reset, with no command waiting. -/
def State.reset : State := { toBlock := Block.reset, pending := [] }

end Sys2Proof.Machine
end

