-- ==== Sys2Proof/Machine/ObjTable.lean ====
section
/-! DEFINITION. The object directory (R395 to R398, R422): every object with its type, access,
default, range and persistence, from the owning chapters' tables. A key is
`index * 256 + subindex`; an object with one value has subindex 0. -/

namespace Sys2Proof.Machine

/-- Access codes (R397). -/
inductive Acc where
  | const
  | ro
  | rw
  | wo
  deriving DecidableEq, Repr, Inhabited

/-- One object. `typ` is the type code of R396. For a number, `dflt` is its default and `lo`, `hi`
its range; for a STRING or DOMAIN, `dflt` is the length of an all-zero default and `hi` the
maximum length. `persist` objects lie in flash (R404); `digest` objects enter the digest (R405). -/
structure ObjDef where
  key : Nat
  typ : Nat
  acc : Acc
  dflt : Nat
  lo : Nat
  hi : Nat
  persist : Bool
  digest : Bool
  deriving DecidableEq, Repr, Inhabited

/-- A row of a table below. -/
def ob (key typ : Nat) (acc : Acc) (dflt lo hi : Nat) (persist digest : Bool) : ObjDef :=
  { key, typ, acc, dflt, lo, hi, persist, digest }

/-- A number only the module writes, over its whole type. -/
def obRo (key typ dflt : Nat) : ObjDef := ob key typ .ro dflt 0 (2 ^ 64 - 1) false false

/-- R423: identity, configuration, portico. -/
def objs17 : List ObjDef :=
  [ob 0x100000 4 .const 1312030976 0 4294967295 false false,
   obRo 0x101001 5 0,
   obRo 0x101002 5 0,
   obRo 0x101003 5 0,
   obRo 0x101004 5 0,
   ob 0x110001 12 .const 0 0 16 false false,
   ob 0x110002 11 .const 0 0 16 false false,
   ob 0x110003 11 .const 0 0 3 false false,
   ob 0x110004 12 .const 0 0 6 false false,
   ob 0x110005 2 .const 0 0 255 false false,
   obRo 0x1E0001 4 0,
   obRo 0x1E0002 4 0] ++
  [obRo 0x1E0003 4 0,
   ob 0x1F0001 12 .ro 0 0 64 false false,
   obRo 0x1F0002 4 0,
   ob 0x1F0003 12 .ro 0 0 64 false false,
   obRo 0x1F0004 3 0,
   ob 0x1F1001 12 .rw 64 0 64 true false,
   ob 0x1F1002 4 .rw 0 0 4294967295 true false,
   ob 0x1F1003 2 .rw 0 0 1 true false,
   ob 0x1F1004 5 .rw 0 0 18446744073709551615 true false,
   obRo 0x1F1005 4 0,
   ob 0x1F1006 4 .rw 50 1 10000 true false,
   ob 0x1F2000 2 .wo 0 0 1 false false] ++
  [ob 0x340001 2 .rw 0 0 254 true false,
   ob 0x340002 2 .rw 73 1 255 true false,
   ob 0x340003 2 .rw 32 1 255 true false,
   ob 0x340004 2 .rw 0 0 255 true false,
   ob 0x340005 2 .rw 128 1 255 true false,
   ob 0x340006 12 .rw 0 0 6 true false,
   ob 0x340007 1 .rw 1 0 1 true false,
   obRo 0x340101 4 0,
   obRo 0x340102 4 0,
   obRo 0x340103 4 0,
   obRo 0x340104 4 0,
   obRo 0x340105 4 0] ++
  [obRo 0x340106 2 0,
   ob 0x233000 2 .rw 8 0 24 true true]

/-- R149, R170, R185: precision, vector flags, seeds. -/
def objs06 : List ObjDef :=
  [ob 0x230001 4 .rw 262144 0 16777216 true true,
   ob 0x230002 4 .rw 256 0 16777216 true true,
   ob 0x230003 4 .rw 4096 0 16777216 true true,
   ob 0x230004 3 .rw 16 0 65535 true true,
   ob 0x230005 4 .rw 524288 0 16777216 true true,
   ob 0x230006 4 .rw 256 0 16777216 true true,
   ob 0x230007 4 .rw 4096 0 16777216 true true,
   ob 0x230008 3 .rw 16 0 65535 true true,
   ob 0x231001 2 .rw 0 0 2 true true,
   ob 0x231002 3 .rw 200 1 4095 true true,
   ob 0x231003 3 .rw 3200 1 4095 true true,
   ob 0x231004 2 .rw 128 0 255 true true] ++
  [ob 0x231005 4 .rw 50 1 10000 true true,
   ob 0x231100 12 .rw 1024 0 1024 true true,
   ob 0x234000 12 .ro 16384 0 16384 false false,
   ob 0x234100 12 .ro 4096 0 4096 false false,
   obRo 0x234201 5 0,
   obRo 0x234202 4 0,
   obRo 0x234203 4 0,
   obRo 0x234204 4 0,
   obRo 0x234205 4 0,
   obRo 0x234206 3 0,
   obRo 0x234207 4 0,
   ob 0x235001 4 .rw 0 0 262144 true true] ++
  [obRo 0x235002 4 0,
   obRo 0x236001 2 0,
   obRo 0x236002 2 0,
   ob 0x232000 12 .rw 2048 0 2048 true true,
   ob 0x232100 12 .rw 2048 0 2048 true true,
   ob 0x232201 5 .rw 0 0 18446744073709551615 true true,
   ob 0x232202 5 .rw 0 0 18446744073709551615 true true,
   ob 0x237000 12 .const 0 0 1024 false false]

/-- R223, R251: program and memory. -/
def objs09 : List ObjDef :=
  [obRo 0x600001 5 0,
   obRo 0x600002 4 0,
   obRo 0x600003 3 6168,
   obRo 0x600004 5 0,
   obRo 0x600005 3 0,
   ob 0x602000 4 .rw 2000 1 60000 true false,
   ob 0x602100 3 .rw 8 1 1000 true false,
   obRo 0x603001 2 0,
   ob 0x603002 12 .ro 64 0 64 false false,
   obRo 0x603003 3 6168,
   ob 0x510001 3 .rw 24 1 168 true true,
   ob 0x510002 2 .rw 3 1 16 true true] ++
  [ob 0x510003 3 .rw 64 1 1024 true true,
   obRo 0x511000 4 0,
   obRo 0x511101 5 0,
   obRo 0x511102 5 0,
   obRo 0x511103 4 0,
   obRo 0x511104 4 0,
   obRo 0x511105 4 0,
   obRo 0x511106 3 0,
   obRo 0x511107 4 0,
   obRo 0x511108 4 8192,
   obRo 0x511109 4 0,
   obRo 0x51110A 4 0] ++
  [ob 0x512000 12 .ro 0 0 2129920 false false,
   ob 0x512200 4 .wo 0 0 524287 false false,
   obRo 0x513001 2 0,
   obRo 0x513002 2 0,
   ob 0x514000 12 .ro 0 0 4194304 false false]

/-- R287: the arcade. -/
def objs11 : List ObjDef :=
  [ob 0x310000 12 .rw 0 0 2608 true true,
   ob 0x310100 12 .ro 0 0 64 false false,
   ob 0x311001 4 .rw 0 0 4294967295 true true,
   ob 0x311002 4 .rw 0 0 4294967295 true true,
   ob 0x311003 4 .rw 0 0 4294967295 true true,
   ob 0x311004 4 .rw 0 0 4294967295 true true,
   ob 0x311005 4 .rw 0 0 4294967295 true true,
   ob 0x311006 4 .rw 0 0 4294967295 true true,
   ob 0x311007 4 .rw 0 0 4294967295 true true,
   ob 0x311008 4 .rw 0 0 4294967295 true true,
   ob 0x311009 4 .rw 0 0 4294967295 true true,
   ob 0x31100A 4 .rw 0 0 4294967295 true true] ++
  [ob 0x312000 12 .rw 0 0 64 true true,
   ob 0x320001 2 .rw 7 0 8 true true,
   ob 0x320002 2 .rw 2 0 2 true true,
   ob 0x320003 2 .rw 12 1 24 true true,
   ob 0x320004 3 .rw 1 1 1000 true true,
   ob 0x320006 3 .rw 2000 500 20000 true true,
   ob 0x320007 2 .rw 8 1 64 true true,
   ob 0x320008 3 .rw 16 1 10000 true true,
   ob 0x320009 4 .rw 1048576 1 4294967295 true true,
   ob 0x32000A 3 .rw 100 1 60000 true true,
   ob 0x321000 2 .rw 0 0 4 false false,
   ob 0x321100 4 .rw 0 0 262143 true true] ++
  [ob 0x321200 2 .wo 0 0 17 false false,
   obRo 0x330001 4 0,
   obRo 0x330002 4 0,
   obRo 0x330003 4 0,
   obRo 0x330004 4 0,
   obRo 0x330005 4 0,
   obRo 0x330006 4 0,
   obRo 0x330007 4 0,
   obRo 0x330008 4 0,
   obRo 0x330009 4 0,
   obRo 0x33000A 4 0,
   obRo 0x33000B 4 0] ++
  [obRo 0x33000C 4 0,
   obRo 0x33000D 4 0,
   obRo 0x33000E 4 0,
   obRo 0x33000F 4 0,
   obRo 0x330010 4 0,
   obRo 0x330011 4 0,
   obRo 0x330012 4 0,
   ob 0x331001 12 .ro 56 0 56 false false,
   ob 0x331002 12 .ro 56 0 56 false false,
   ob 0x331003 12 .ro 56 0 56 false false,
   ob 0x331004 12 .ro 56 0 56 false false,
   ob 0x331005 12 .ro 56 0 56 false false] ++
  [ob 0x331006 12 .ro 56 0 56 false false,
   ob 0x331007 12 .ro 56 0 56 false false,
   ob 0x331008 12 .ro 56 0 56 false false,
   ob 0x331009 12 .ro 56 0 56 false false,
   ob 0x33100A 12 .ro 56 0 56 false false,
   ob 0x33100B 12 .ro 56 0 56 false false,
   ob 0x33100C 12 .ro 56 0 56 false false,
   ob 0x33100D 12 .ro 56 0 56 false false,
   ob 0x33100E 12 .ro 56 0 56 false false,
   ob 0x33100F 12 .ro 56 0 56 false false,
   ob 0x331010 12 .ro 56 0 56 false false,
   ob 0x331011 12 .ro 56 0 56 false false] ++
  [ob 0x331012 12 .ro 56 0 56 false false,
   obRo 0x332000 4 0,
   ob 0x333000 12 .ro 4320 0 4320 false false]

/-- R312, R331: collectives and the update. -/
def objs12 : List ObjDef :=
  [ob 0x604001 2 .rw 255 0 255 true true,
   obRo 0x604002 4 0,
   obRo 0x604003 4 0,
   ob 0x605000 12 .rw 0 0 8388624 false false,
   obRo 0x605100 3 0,
   obRo 0x605200 4 0,
   ob 0x601001 10 .rw 0 0 4294967295 false false,
   obRo 0x601002 5 0,
   ob 0x601101 12 .rw 0 0 16 true true,
   ob 0x601102 12 .rw 0 0 16 true true,
   ob 0x601103 12 .rw 0 0 16 true true,
   ob 0x601104 12 .rw 0 0 16 true true] ++
  [ob 0x601105 12 .rw 0 0 16 true true,
   ob 0x601106 12 .rw 0 0 16 true true,
   ob 0x601107 12 .rw 0 0 16 true true,
   ob 0x601108 12 .rw 0 0 16 true true,
   ob 0x601109 12 .rw 0 0 16 true true,
   ob 0x60110A 12 .rw 0 0 16 true true,
   ob 0x60110B 12 .rw 0 0 16 true true,
   ob 0x60110C 12 .rw 0 0 16 true true,
   ob 0x60110D 12 .rw 0 0 16 true true,
   ob 0x60110E 12 .rw 0 0 16 true true,
   ob 0x60110F 12 .rw 0 0 16 true true,
   ob 0x601110 12 .rw 0 0 16 true true] ++
  [ob 0x601201 5 .rw 0 0 549755813884 true true,
   ob 0x601202 2 .rw 0 0 1 true true,
   ob 0x601300 2 .rw 0 0 1 true true,
   obRo 0x606000 4 0,
   obRo 0x606101 5 0,
   obRo 0x606102 3 0,
   obRo 0x606103 3 0,
   obRo 0x606104 3 0,
   obRo 0x606105 4 0,
   ob 0x606200 12 .ro 0 0 2097280 false false]

/-- R357, R376: reliability and recovery. -/
def objs14 : List ObjDef :=
  [obRo 0x501001 4 0,
   obRo 0x501002 4 0,
   obRo 0x502000 4 0,
   ob 0x520001 2 .rw 2 0 2 true true,
   ob 0x520002 2 .rw 3 1 16 true true,
   ob 0x520003 4 .rw 100000 1 1000000000 true true,
   ob 0x520004 1 .rw 0 0 1 true true,
   ob 0x520100 12 .ro 100 0 100 false false,
   ob 0x521001 1 .rw 1 0 1 true true,
   ob 0x521002 3 .rw 4 1 1000 true true,
   ob 0x521003 4 .rw 1000 10 1000000 true true,
   ob 0x522001 1 .rw 1 0 1 true true] ++
  [ob 0x522002 3 .rw 168 24 8760 true true,
   ob 0x522003 2 .rw 95 60 105 true true,
   ob 0x522004 2 .rw 50 0 100 true true,
   ob 0x522005 2 .rw 5 0 10 true true,
   ob 0x523000 12 .ro 50 0 50 false false,
   obRo 0x523100 1 0,
   ob 0x523200 2 .wo 0 0 49 false false,
   ob 0x530000 12 .ro 0 0 16777216 false false,
   ob 0x530100 2 .wo 0 0 1 false false,
   obRo 0x530200 4 0,
   ob 0x540000 12 .ro 0 0 4194304 false false,
   obRo 0x540101 5 0] ++
  [obRo 0x540102 4 0,
   ob 0x540200 12 .ro 0 0 65536 false false,
   ob 0xA10001 2 .rw 0 1 25 false false,
   ob 0xA10002 5 .rw 0 0 18446744073709551615 false false,
   ob 0xA10003 2 .rw 0 0 1 false false,
   ob 0xA10004 3 .wo 0 0 1024 false false,
   obRo 0xA10005 4 0,
   obRo 0x607000 4 0,
   ob 0x607100 12 .rw 0 0 65536 true true,
   ob 0x607200 12 .ro 0 0 144 false false,
   obRo 0x607300 2 0,
   ob 0x607500 2 .wo 0 0 49 false false] ++
  [ob 0x608000 12 .ro 4096 0 4096 false false,
   ob 0x608100 12 .ro 0 0 1048576 false false,
   ob 0x608200 12 .rw 64 0 64 false false,
   ob 0x608300 12 .ro 32 0 32 false false,
   ob 0x608400 12 .rw 4096 0 4096 false false]

/-- R441, R462, R484: firmware, security, power. -/
def objs18 : List ObjDef :=
  [ob 0x800001 12 .ro 29 0 29 false false,
   ob 0x800002 12 .ro 29 0 29 false false,
   ob 0x800003 12 .ro 29 0 29 false false,
   ob 0x800004 12 .ro 29 0 29 false false,
   ob 0x800005 12 .ro 29 0 29 false false,
   ob 0x800006 12 .ro 29 0 29 false false,
   ob 0x800007 12 .ro 29 0 29 false false,
   ob 0x800008 12 .ro 29 0 29 false false,
   obRo 0x800100 2 0,
   obRo 0x800201 4 0,
   obRo 0x800202 4 0,
   obRo 0x800203 4 0] ++
  [obRo 0x800204 4 0,
   obRo 0x800205 4 0,
   obRo 0x801000 4 0,
   obRo 0x802100 2 0,
   obRo 0x803001 4 0,
   obRo 0x803002 4 0,
   obRo 0x803003 4 0,
   obRo 0x803004 4 0,
   obRo 0x803005 4 0,
   ob 0x803100 12 .ro 100 0 100 false false,
   obRo 0x401000 4 514,
   ob 0x401100 2 .wo 0 0 2 false false] ++
  [obRo 0x700001 2 0,
   obRo 0x700002 4 0,
   obRo 0x700003 2 0,
   ob 0x700100 12 .ro 0 0 132 false false,
   ob 0x700200 12 .ro 0 0 8192 false false,
   ob 0x710000 12 .ro 0 0 132 false false,
   ob 0x710100 12 .wo 0 0 328 false false,
   ob 0x710200 12 .ro 64 0 64 false false,
   ob 0x711000 12 .wo 0 0 196 false false,
   ob 0x712000 2 .wo 0 0 1 false false,
   ob 0x712100 12 .wo 0 0 8192 false false,
   ob 0x720000 12 .ro 32 0 32 false false] ++
  [obRo 0x720100 4 0,
   obRo 0x720200 4 0,
   obRo 0x402000 4 0,
   ob 0x402100 2 .wo 0 0 1 false false,
   obRo 0x403001 4 0,
   obRo 0x403002 4 0,
   obRo 0x403003 4 0,
   obRo 0x403004 4 0,
   ob 0x403100 12 .ro 100 0 100 false false,
   ob 0x410001 3 .rw 3500 1500 3500 true false,
   ob 0x410002 2 .rw 65 40 65 true false,
   ob 0x410003 2 .rw 100 80 105 true false] ++
  [ob 0x410004 2 .rw 45 20 50 true false,
   ob 0x410005 4 .rw 50000 46000 53000 true false,
   ob 0x410006 3 .rw 100 10 10000 true false,
   ob 0x410007 3 .rw 300 0 300 true false]

/-- The directory. -/
def objTable : List ObjDef :=
  objs17 ++ objs06 ++ objs09 ++ objs11 ++ objs12 ++ objs14 ++ objs18

/-- The definition of an object. -/
def objFind (key : Nat) : Option ObjDef := objTable.find? (fun o => o.key == key)

/-- Bytes of a fixed-size type, 0 for STRING and DOMAIN (R396). -/
def typSize : Nat → Nat
  | 0x01 | 0x02 | 0x06 => 1
  | 0x03 | 0x07 => 2
  | 0x04 | 0x08 | 0x0A => 4
  | 0x05 | 0x09 => 8
  | _ => 0

/-- The highest subindex of a record object, 0 where the object has one value (R395). -/
def objHighest (index : Nat) : Nat :=
  maxNat ((objTable.filter (fun o => o.key / 256 == index)).map (fun o => o.key % 256))

end Sys2Proof.Machine
end

