-- ==== Sys2Proof/Machine/Store.lean ====
section
/-! DEFINITION. Values of the object store (R395 to R407): defaults, reading and writing a number or
a byte string, clamping (R400), notifies (R419) and alerts (R390). Which plane may reach an object,
and what a write does besides storing, stands in Access.lean. -/

namespace Sys2Proof.Machine

/-! ## Defaults -/

/-- The default of a port object for a module in a slot (R265). -/
def portDflt (slot i : Nat) : Nat :=
  let p := slot % 9
  if i < 8 then 2 ^ i + 2 ^ (i + 8) + ((p + 1 + i) % 9) * 2 ^ 24
  else 2 ^ (8 + i) + p * 2 ^ 24

/-- The default of a number. -/
def numDflt (slot key : Nat) : Nat :=
  if 0x311001 ≤ key ∧ key ≤ 0x31100A then portDflt slot (key - 0x311001)
  else if key = 0x340001 then slot + 1
  else match objFind key with
    | some o => o.dflt
    | none => 0

/-- The entry of the default wiring plan for link `l` of slot `sl` (R266, R267). -/
def planEntry (sl l : Nat) : Nat :=
  let st := sl / 9
  let p := sl % 9
  if l < 8 then (9 * st + (p + 1 + l) % 9) * 32 + (7 - l)
  else if l < 16 then (9 * st + (p + 1 + (l - 8)) % 9) * 32 + (23 - l)
  else if l = 16 then (9 * ((st + 1) % 8) + p) * 32 + 17
  else (9 * ((st + 7) % 8) + p) * 32 + 16

/-- The default wiring plan (R266, R267). -/
def planDflt : Bytes :=
  leBytes 16 1 ++ (List.range 1296).flatMap (fun i => leBytes 2 (planEntry (i / 18) (i % 18)))

/-- The default rank table (R268). -/
def rankDflt : Bytes := (List.range 64).map (fun r => BitVec.ofNat 8 (9 * (r / 8) + r % 8))

/-- The default of a hyperparameter set (R331): 0.9, 0.99, 0.0, 1.0. -/
def hyperDflt : Bytes := [0x3F666666, 0x3F7D70A4, 0, 0x3F800000].flatMap (leBytes 4)

/-- The default of a STRING or DOMAIN. -/
def domDflt (key : Nat) : Bytes :=
  if key = 0x310000 then planDflt
  else if key = 0x312000 then rankDflt
  else if 0x601101 ≤ key ∧ key ≤ 0x601110 then hyperDflt
  else if key = 0x340006 then List.replicate 6 0xFF
  else if key = 0x110001 then Config.serial
  else if key = 0x110002 then [0x41, 0x51, 0x4E, 0x34, 0x54, 0x2D, 0x36, 0x30]
  else if key = 0x110003 then Config.hostSuffix
  else if key = 0x110004 then beBytes 6 Config.macAddress
  else if key = 0x237000 then normalTable.flatMap (leBytes 4)
  else match objFind key with
    | some o => zeros o.dflt
    | none => []

/-! ## Reading and writing values -/

/-- A number as the store holds it; of a digest-set object, the staged value (R407). -/
def num (s : Block) (key : Nat) : Nat := mapGet (numDflt s.arc.slot key) s.store.nums key

/-- A byte string as the store holds it. -/
def dom (s : Block) (key : Nat) : Bytes := mapGet (domDflt key) s.store.doms key

/-- Values in force of the digest set (R407). -/
def numF (s : Block) (key : Nat) : Nat := mapGet (numDflt s.arc.slot key) s.store.forceN key
def domF (s : Block) (key : Nat) : Bytes := mapGet (domDflt key) s.store.forceD key

/-- The same in the snapshot of the boundary (R27). -/
def numS (s : Block) (key : Nat) : Nat := mapGet (numDflt s.arc.slot key) s.bnd.snapN key
def domS (s : Block) (key : Nat) : Bytes := mapGet (domDflt key) s.bnd.snapD key

/-- Objects in the low mirror slots, from slot 0, and those from slot 32 (R388, R421). -/
def mirrorLow : List Nat :=
  [0x600002, 0x600003, 0x234202, 0x234206, 0x511000, 0x332000, 0x605100, 0x605200, 0x606000, 0x606101, 0x502000, 0x607000,
    0x1F0002, 0x1F1005, 0x1E0001]
def mirrorHigh : List Nat := [0x402000, 0x403003, 0x401000, 0x720100, 0x801000]

/-- Ticks after which a mirror entry shows a change: 2 µs (R30; that it takes the whole 2 µs is log 19). -/
def mirrorTicks : Nat := 50

/-- Note the value that the mirrors still show of an object whose value changes (R30). -/
def noteMirror (key old : Nat) (s : Block) : Block :=
  if mirrorLow.contains key || mirrorHigh.contains key then
    { s with store := { s.store with
      changes := s.store.changes.filter (fun c => decide (s.clk.tick < c.tick + mirrorTicks)) ++ [{ key, tick := s.clk.tick, old }] } }
  else s

/-- Store a number. -/
def setNum (key v : Nat) (s : Block) : Block :=
  let s := if num s key = v then s else noteMirror key (num s key) s
  { s with store := { s.store with nums := mapSet (numDflt s.arc.slot key) s.store.nums key v } }

/-- Transfers that read an object live note that it changes (R402). -/
def touched (key : Nat) (l : List Xfer) : List Xfer :=
  l.map (fun x => if x.live && x.index * 256 + x.sub == key then { x with dirty := true } else x)
def touch (key : Nat) (changed : Bool) (s : Block) : Block :=
  { s with portico := { s.portico with xfers := if changed then touched key s.portico.xfers else s.portico.xfers } }

/-- Store a byte string. -/
def setDom (key : Nat) (v : Bytes) (s : Block) : Block :=
  let s := touch key (dom s key != v) s
  { s with store := { s.store with doms := mapSet (domDflt key) s.store.doms key v } }

/-- Raise a counter of `w` bits that saturates. -/
def bumpNum (key w n : Nat) (s : Block) : Block := setNum key (satN w (num s key + n)) s

/-- The step number (0x6000.01). -/
def stepNo (s : Block) : Nat := num s 0x600001

/-- The configuration epoch in force (0x1F00.02). -/
def epochNo (s : Block) : Nat := num s 0x1F0002

/-- The layout epoch in force (0x6051). -/
def lepochNo (s : Block) : Nat := num s 0x605100

/-- The power state's code (0x4010, R456). -/
def pstate (s : Block) : Nat := fld (num s 0x401000) 0 3

/-- The clock step: 0, 1 or 2 (R464). -/
def clockStep (s : Block) : Nat := fld (num s 0x401000) 3 2

/-- Lifecycle state and debug level (0x7201). -/
def lifecycle (s : Block) : Nat := fld (num s 0x720100) 0 2
def debugLevel (s : Block) : Nat := fld (num s 0x720100) 2 2

/-- The module runs in Ready, Active or Curbed. -/
def halls (s : Block) : Bool := decide (2 ≤ pstate s)

/-! ## Firmware processors (R425, R432) -/

/-- A processor when nothing is wrong with it. -/
def procOk : Proc := { running := true, held := false, halted := false, fails := 0, hold100 := false, staged := false }

/-- Processor 0 security, 1 power, 2 scheduler, 3 + n gallery control core n. -/
def proc (s : Block) (n : Nat) : Proc := mapGet procOk s.fw.procs n
def setProc (n : Nat) (p : Proc) (s : Block) : Block := { s with fw := { s.fw with procs := mapSet procOk s.fw.procs n p } }
def procRuns (s : Block) (n : Nat) : Bool := (proc s n).running && !(proc s n).halted

/-! ## Notifies and alerts -/

/-- The Ethernet header of a frame that the portico sends (R6, R415): the destination, the module's MAC address and the
EtherType 0x88B5, each with its high octet first. -/
def ethHeader (dst : Nat) : Bytes := beBytes 6 dst ++ beBytes 6 Config.macAddress ++ beBytes 2 0x88B5

/-- Send a portico notify of an object (R419) to the address in 0x3400.06, whose six bytes are the address's octets
in the order of IEEE 802.3 (R6, log 64). `v` holds the first eight bytes of its value. -/
def notify (key : Nat) (v : Bytes) (s : Block) : Block :=
  let seq := (s.portico.notifySeq + 1) % 2 ^ 32
  let data := slice v 0 8 ++ leBytes 8 (stepNo s) ++ leBytes 8 s.clk.tick ++ leBytes 4 seq
  let fr : OutFrame :=
    { eth := ethHeader (beNat (slice (dom s 0x340006) 0 6)), svc := 7, flags := 0, seq := seq, status := 0,
      index := key / 256, sub := key % 256, len := 28, offset := 0, xfer := 0, data := data }
  let s := { s with portico := { s.portico with notifySeq := seq, out := s.portico.out ++ [fr] } }
  bumpNum 0x340105 32 1 (bumpNum 0x340102 32 1 s)

/-- Notify of a number. -/
def notifyNum (key : Nat) (s : Block) : Block := notify key (leBytes 8 (num s key)) s

/-- An alert on one port (R390). Its summary goes over the sideband (R379) while the port has power. -/
def alertPort (powered : Bool) (code word : Nat) (step tick : Nat) (p : Vport) : Vport :=
  let gained := !(bit p.pend code) && powered
  let p := { p with pend := putBit p.pend code true }
  let p := if gained then { p with out := p.out ++ [.sideband p.pend] } else p
  if !(bit p.alertEn code) then p
  else if fld p.link 0 2 = 2 then
    let seq := (p.alertSeq + 1) % 2 ^ 16
    { p with alertSeq := seq, out := p.out ++ [.alert code seq step tick word] }
  else { p with held := mapSet none p.held code (some { step, tick, word }) }

/-- Post an alert on both vestibules (R390). -/
def alert (code word : Nat) (s : Block) : Block :=
  let f := alertPort (decide (pstate s ≠ 0)) code word (stepNo s) s.clk.tick
  { s with portA := f s.portA, portB := f s.portB }

/-- Store a status word; when a bit of `notes` rises, send a notify, and when a bit of `alerts`
rises, also post the alert `code` with the word. -/
def setStatus (key v notes alerts code : Nat) (s : Block) : Block :=
  let old := num s key
  let rise := v - (v &&& old)
  let s := setNum key v s
  let s := if rise &&& notes != 0 then notifyNum key s else s
  if rise &&& alerts != 0 then alert code v s else s

/-- Memory status (R252): a notify when a bit of [7:4] rises. -/
def setMemBit (n : Nat) (b : Bool) (s : Block) : Block :=
  setStatus 0x511000 (putBit (num s 0x511000) n b) 0xF0 0 0 s

/-- Reliability status (R358): a notify and alert 0x07 when bit 1, 3 or 7 rises. -/
def setRelBit (n : Nat) (b : Bool) (s : Block) : Block :=
  setStatus 0x502000 (putBit (num s 0x502000) n b) 0x8A 0x8A 7 s

/-- Power and thermal status (R485): a notify whenever a bit rises. -/
def setPwrBits (v : Nat) (s : Block) : Block := setStatus 0x402000 v 0xFFFFFFFF 0 0 s
def setPwrBit (n : Nat) (b : Bool) (s : Block) : Block :=
  setPwrBits (putBit (num s 0x402000) n b) s

/-- Firmware status (R442): a notify and the reliability alert when bit 5, 7 or 8 rises. -/
def setFwBit (n : Nat) (b : Bool) (s : Block) : Block :=
  let old := num s 0x801000
  let v := putBit old n b
  let s := setStatus 0x801000 v 0x1A0 0 0 s
  if (v - (v &&& old)) &&& 0x1A0 != 0 then alert 7 (num s 0x502000) s else s

/-- Security status (R463): a notify whenever LIFECYCLE or DEBUG changes. -/
def setSec (v : Nat) (s : Block) : Block :=
  let old := num s 0x720100
  let s := setNum 0x720100 v s
  if fld v 0 4 ≠ fld old 0 4 then notifyNum 0x720100 s else s

/-- Declaration status (R424): a notify when bit 5 or a bit of [3:1] rises. -/
def setDecl (v : Nat) (s : Block) : Block := setStatus 0x1F1005 v 0x2E 0 0 s

/-- Set bits of the step status that the closing boundary will show (R213). -/
def stepBit (n : Nat) (s : Block) : Block :=
  { s with bnd := { s.bnd with bits := putBit s.bnd.bits n true } }

/-- A descriptor fails for a reason other than a rejection under R234 (R205, R310): DESC_FAIL, and a
mark above the twelve bits of R213. -/
def descFail (s : Block) : Block := stepBit 16 (stepBit 5 s)

/-! ## Clamping (R400) -/

/-- An F32 against its range: NaN takes the default. -/
def clampF32 (x lo hi dflt : Nat) : Nat :=
  let e := fld x 23 8
  let neg := bit x 31
  let mag := fld x 0 31
  if e = 255 ∧ fld x 0 23 ≠ 0 then dflt
  else if neg then (if mag = 0 ∧ lo = 0 then x else lo)
  else if mag < lo then lo else if hi < mag then hi else x

/-- One wiring-plan entry (R267). -/
def clampPlanEntry (e : Nat) : Nat :=
  let slot := fld e 5 7
  let link := fld e 0 5
  if 18 ≤ link then 0x7F * 32 else if 72 ≤ slot then 0x7F * 32 + link else fld e 0 12

/-- Clamp bytes in groups: apply `f` to each `n`-byte number of the string from `off`. -/
def clampWords (n : Nat) (f : Nat → Nat) : Nat → Bytes → Bytes
  | 0, bs => bs
  | k + 1, bs =>
    if bs.length < n then bs
    else leBytes n (f (leNat (bs.take n))) ++ clampWords n f k (bs.drop n)

/-- A hyperparameter set: β1, β2 and λ in 0 to 1, θ in 2^-64 to 2^64 (R331). -/
def clampHyper (bs : Bytes) : Bytes :=
  let b := slice bs 0 16
  let one := 0x3F800000
  let v := leBytes 4 (clampF32 (leAt b 0 4) 0 one 0x3F666666) ++
    leBytes 4 (clampF32 (leAt b 4 4) 0 one 0x3F7D70A4) ++
    leBytes 4 (clampF32 (leAt b 8 4) 0 one 0) ++
    leBytes 4 (clampF32 (leAt b 12 4) 0x1F800000 0x5F800000 one)
  v.take bs.length

/-- The stored form of a written number. -/
def clampNum (o : ObjDef) (v : Nat) : Nat :=
  if o.typ = 1 then (if v ≤ 1 then v else 1)
  else if o.typ = 10 then clampF32 v 0 0x3F800000 o.dflt
  else if 0x311001 ≤ o.key ∧ o.key ≤ 0x31100A then
    fld v 0 18 + (min (fld v 24 4) 8) * 2 ^ 24
  else if v < o.lo then o.lo else if o.hi < v then o.hi else v

/-- A pin byte (R149): the rung at most 2, the reserved bits [6:2] zero. -/
def clampPin (b : Byte) : Byte := BitVec.ofNat 8 (fld b.toNat 7 1 * 128 + min 2 (fld b.toNat 0 2))

/-- An entry of the slice directory (R359): rank, eighth and slot in their ranges, the reserved byte zero. -/
def clampSliceEntry (e : Nat) : Nat :=
  min 63 (fld e 0 8) + min 7 (fld e 8 8) * 2 ^ 8 + min 71 (fld e 16 8) * 2 ^ 16 + fld e 32 96 * 2 ^ 32

/-- An entry of a re-shard plan (R309): its six reserved bytes and bits [7:6] of its page-map entry (R231) are zero. -/
def clampPlanRow (e : Nat) : Nat := setFld (fld e 0 80) 38 2 0

/-- The reserved bytes of a step manifest, as offset and length (R372). -/
def mfReserved : List (Nat × Nat) := [(5, 3), (0x1B4, 4), (0x1EC, 4), (0x330, 0xC0C)]

/-- A manifest for replay: reserved bytes, and bits [15:3] of the flags, are zero (R372). -/
def clampManifest (v : Bytes) : Bytes :=
  let v := mfReserved.foldl (fun v r => splice v r.1 (zeros (min r.2 (v.length - r.1)))) v
  let v := if v.length < 3 then v else splice v 2 (leBytes 1 (leAt v 2 1 % 8))
  if v.length < 4 then v else splice v 3 (zeros 1)

/-- The stored form of a written byte string. -/
def clampDom (o : ObjDef) (v : Bytes) : Bytes :=
  let v := v.take o.hi
  if o.key = 0x310000 then
    v.take 2 ++ (v.drop 2 |>.take 14 |>.map (fun _ => (0 : Byte))) ++
      clampWords 2 clampPlanEntry 1296 (v.drop 16)
  else if o.key = 0x312000 then
    v.map (fun b => if b.toNat < 72 ∨ b = 0x7F then b else 0x7F)
  else if 0x601101 ≤ o.key ∧ o.key ≤ 0x601110 then clampHyper v
  else if o.key = 0x231100 then v.map clampPin
  else if o.key = 0x608400 then clampManifest v
  else if o.key = 0x607100 then clampWords 16 clampSliceEntry 4096 v
  else if o.key = 0x605000 then
    v.take 2 ++ ((v.drop 2).take 2).map (fun _ => (0 : Byte)) ++ (v.drop 4).take 12 ++ clampWords 16 clampPlanRow 524288 (v.drop 16)
  else v

/-! ## Free values -/

/-- A free value and the state whose counter has moved past it. -/
def fresh (s : Block) : Nat × Block := (Config.freeWord s.freeCtr, { s with freeCtr := s.freeCtr + 1 })

end Sys2Proof.Machine
end

