-- ==== Sys2Proof/Machine/Ops.lean ====
section
/-! DEFINITION. The shared operations on the module's state: numbers of galleries and arrays, fault
logs, detectors and CPER records (R29, R352 to R356), injections (R353), poison consumption (R241 to
R244), tile and mask registers (R153, R157), lane flags (R169, R170), mezzanines, token counters
(R206) and counter sets (R131). -/

namespace Sys2Proof.Machine

/-- A command has an effect on the block; the queue stays as it is. -/
def effect (f : Block → Block) (s : State) : Host.Outcome State Fault Refusal := .next { s with toBlock := f s.toBlock }

/-! ## Physical and logical numbers (R16, R220, R85) -/

/-- The physical gallery bound to a logical one. -/
def physOf (s : Block) (lg : Nat) : Option Nat :=
  match mapGet 0 s.bind.gal lg with
  | 0 => none
  | p + 1 => some p

/-- The logical gallery a physical one is bound to. -/
def logicalOf (s : Block) (g : Nat) : Option Nat :=
  (s.bind.gal.find? (fun e => e.2 == g + 1)).map (·.1)

/-- Bound logical galleries, rising. -/
def boundLogical (s : Block) : List Nat := s.bind.gal.map (·.1)

/-- Bound physical galleries. -/
def boundPhys (s : Block) : List Nat := s.bind.gal.filterMap (fun e => if e.2 = 0 then none else some (e.2 - 1))

/-- The key of a physical array. -/
def arrKey (g alc phys : Nat) : Nat := (g * 8 + alc) * 132 + phys

/-- Gallery, alcove and array number of an array key. -/
def arrGal (k : Nat) : Nat := k / 1056
def arrAlc (k : Nat) : Nat := k / 132 % 8
def arrPhys (k : Nat) : Nat := k % 132

/-- The physical array of a logical array of a bound gallery (R85). -/
def arrOf (s : Block) (lg alc a : Nat) : Nat :=
  match mapGet 0 s.bind.arr ((lg * 8 + alc) * 128 + a) with
  | 0 => a
  | p + 1 => p

/-! ## Locations (R348) -/

/-- A location word. -/
def locOf (dom gal alc arr col quad : Nat) : Nat :=
  dom <<< 60 + gal <<< 54 + alc <<< 51 + arr <<< 43 + col <<< 38 + quad <<< 36

/-- A memory location. -/
def memLoc (dom stack chan bank row : Nat) : Nat :=
  dom <<< 60 + stack <<< 33 + chan <<< 25 + bank <<< 20 + row <<< 6

/-- An arcade lane, a link (its lane field zero), a processor, and the units without fields. -/
def laneLoc (link lane : Nat) : Nat := 6 <<< 60 + link <<< 25 + lane <<< 20
def coreLoc (unit gal : Nat) : Nat := 7 <<< 60 + gal <<< 54 + unit
def domLoc (dom : Nat) : Nat := dom <<< 60

/-- The error queue an event goes to: a gallery's, or a hall's (R29). -/
def queueOf (loc : Nat) : Nat :=
  let d := fld loc 60 4
  if d ≤ 3 then fld loc 54 6
  else if d = 4 ∨ d = 5 ∨ d = 11 then 50 + fld loc 33 3 / 4
  else if d = 6 then (let l := fld loc 25 5; if l < 8 ∨ l = 16 then 50 else 51)
  else if d = 7 ∧ fld loc 0 6 = 3 then fld loc 54 6
  else 50

/-! ## Logs -/

/-- Log a fault (R352: program and format faults are no detector events). A program fault sets PROG_FAULT; a fault of
a side slice sets SIDE_FAULT (R213, R216). -/
def logFault (kind : LogKind) (gal place detail tag : Nat) (s : Block) : Block :=
  let s := { s with logs := { s.logs with log := s.logs.log ++ [{ kind, gal, place, detail, tag }] } }
  let s := if kind = .program then stepBit 1 s else s
  if kind = .side ∨ (kind = .program ∧ tag ≠ 0) then stepBit 3 s else s

/-- Log a fault of a slot. -/
def slotFault (kind : LogKind) (g : Nat) (x : SlotCtx) (detail : Nat) (s : Block) : Block :=
  logFault kind g x.bundle detail x.tag s

/-- Log a fault when a condition holds. -/
def slotFaultIf (b : Bool) (kind : LogKind) (g : Nat) (x : SlotCtx) (detail : Nat) (s : Block) : Block :=
  if b then slotFault kind g x detail s else s

/-! ## CPER records (R354 to R356) -/

/-- Severities of UEFI: recoverable 0, fatal 1, corrected 2, informational 3. -/
def sevOf (code : Nat) : Nat :=
  if [0x06, 0x08, 0x09, 0x0C, 0x0F, 0x19].contains code then 2
  else if [0x13, 0x14, 0x15, 0x16, 0xF0, 0xF1, 0xF2].contains code then 3
  else 0

/-! ## Write buffer (R433) -/

/-- The identity key is live: 0 signs, 1 no key, 2 discarded (R449). -/
def signMode (s : Block) : Nat :=
  if s.sec.identity = 0 ∨ lifecycle s = 0 then 1 else if s.sec.idkDiscarded then 2 else 0

/-- Bytes that records waiting for the security core take: 16 for a floor-map record, 1,024 for a fatal
record, 4,096 for a manifest. -/
def bufferUse (s : Block) : Nat := 16 * s.rel.floorWait.length + 1024 * s.logs.fatalWait.length +
  4096 * s.recov.signWait.length

/-- Drop the oldest manifest signature while the buffer is over its 256 KiB. Without a live key none is counted
(R450). -/
def dropSignature (s : Block) : Block :=
  if bufferUse s ≤ 262144 then s
  else match s.recov.signWait with
    | [] => s
    | _ :: r =>
      if signMode s ≠ 0 then { s with recov := { s.recov with signWait := r } }
      else setFwBit 6 true (bumpNum 0x803005 32 1 { s with recov := { s.recov with signWait := r } })

/-- While the security core restarts, what waits for it is bounded by the buffer. -/
def trimBuffer (s : Block) : Block := if procRuns s 0 then s else iter dropSignature s.recov.signWait.length s

/-- Write fatal records to flash, which keeps the last 64 (R356). -/
def flashFatal (rs : List Cper) (s : Block) : Block :=
  let l := s.logs.fatal ++ rs
  { s with logs := { s.logs with fatal := l.drop (l.length - 64) } }

/-- The security core writes the fatal records that waited for it (R433). -/
def flushFatal (s : Block) : Block :=
  flashFatal s.logs.fatalWait { s with logs := { s.logs with fatalWait := [] } }

/-- Make a record. The store keeps the last 4,096. The security core writes fatal ones to flash; while it does not run
they wait (R433). -/
def makeCper (code sev flags tag kind loc addr step tick : Nat) (extra : Bytes) (s : Block) : Block :=
  let id := s.logs.recId + 1
  let r : Cper :=
    { code, severity := sev, flags, tag, kind, gaps := num s (if queueOf loc < 50 then 0x501001 else 0x501002),
      step, tick, loc, addr, epoch := epochNo s, lepoch := lepochNo s, id, extra }
  let full := decide (4096 ≤ s.logs.cper.length)
  let keep := if full then s.logs.cper.drop 1 else s.logs.cper
  let s := { s with logs := { s.logs with cper := keep ++ [r], recId := id, cperDue := true } }
  let s := if sev ≠ 1 then s
    else if procRuns s 0 then flashFatal [r] s else trimBuffer { s with logs := { s.logs with fatalWait := s.logs.fatalWait ++ [r] } }
  let s := bumpNum 0x540101 64 1 s
  if full then bumpNum 0x540102 32 1 s else s

/-- A record made now, without an error-queue entry. -/
def cperNow (code sev flags tag kind loc addr : Nat) (extra : Bytes) (s : Block) : Block :=
  makeCper code sev flags tag kind loc addr (stepNo s) s.clk.tick extra s

/-! ## Detectors and injections -/

/-- Write an error-queue entry; a full queue drops it and counts a gap (R29). -/
def putEvent (q code sev loc : Nat) (injected recorded : Bool) (tag addr : Nat) (extra : Bytes) (s : Block) : Block :=
  let l := mapGet [] s.logs.queues q
  if 256 ≤ l.length then bumpNum (if q < 50 then 0x501001 else 0x501002) 32 1 s
  else
    let e : ErrEntry :=
      { detector := code, loc, injected, tag, addr, step := stepNo s, tick := s.clk.tick, extra, sev, recorded }
    { s with logs := { s.logs with queues := mapSet [] s.logs.queues q (l ++ [e]) } }

/-- An event of a detector in a given queue, with the severity of R352. -/
def detectAt (q code loc : Nat) (injected : Bool) (tag addr : Nat) (extra : Bytes) (s : Block) : Block :=
  putEvent q code (sevOf code) loc injected false tag addr extra s

/-- A fatal event: its record is made at once, and its entry is queued (R336, R352, R470). -/
def detectFatal (code loc : Nat) (injected : Bool) (s : Block) : Block :=
  putEvent (queueOf loc) code 1 loc injected true 0 0 [] (cperNow code 1 (b2n injected) 0 0 loc 0 [] s)

/-- An event in the queue its location gives. -/
def detect (code loc : Nat) (injected : Bool) (tag addr : Nat) (extra : Bytes) (s : Block) : Block :=
  detectAt (queueOf loc) code loc injected tag addr extra s

/-- An injection is armed (0xA100.05). -/
def armed (s : Block) : Bool := fld (num s 0xA10005) 0 2 == 1

/-- One injection fires: its count falls, the fired count rises, and at zero it is idle (R353). -/
def injectFire (s : Block) : Block :=
  let left := s.rel.inject.left - 1
  let w := num s 0xA10005
  let w := setFld w 16 16 (satN 16 (fld w 16 16 + 1))
  let w := if left = 0 then setFld w 0 2 0 else w
  setNum 0xA10005 w { s with rel := { s.rel with inject := { s.rel.inject with left := left } } }

/-- Whether an operation of a detector's injection point at a location is hit (R353, trigger 0). -/
def injects (s : Block) (code loc : Nat) : Bool :=
  armed s && s.rel.inject.detector == code && s.rel.inject.loc == loc && s.rel.inject.trigger == 0

/-- Fire the injection if the operation matches it. -/
def inject (code loc : Nat) (s : Block) : Bool × Block :=
  if injects s code loc then (true, injectFire s) else (false, s)

/-! ## Poison consumption (R241 to R244) -/

/-- Work of a tag consumes poison at a logical address or register. -/
def consume (tag addr : Nat) (s : Block) : Block :=
  let s := cperNow 0 0 0 tag 0 (domLoc 10) addr [] s
  if tag = 0 then descFail (bumpNum 0x511109 32 1 s)
  else
    let s := bumpNum 0x51110A 32 1 s
    stepBit 3 { s with
      sideA := s.sideA.filter (fun q => q.tag != tag)
      sideB := s.sideB.filter (fun q => q.tag != tag)
      stoppedTags := setAdd s.stoppedTags tag }

/-! ## Tile and mask registers -/

/-- A clear tile register. -/
def tregZero : List TElem := List.replicate 256 { bits := 0, poison := false }

/-- The elements of a tile register; register numbers wrap modulo 64 (R153). -/
def treg (s : Block) (g r : Nat) : List TElem := mapGet tregZero s.vec.tregs (g * 64 + r % 64)

/-- An SRAM event of a gallery (R335): an armed injection fires at its next write (log 82). `word` names the word: a
mezzanine word, or 2^20 and above a pair of elements of a tile register. The answer says that it is uncorrectable. -/
def sramEventAt (g word : Nat) (s : Block) : Bool × Block :=
  let loc := locOf 3 g 0 0 0 0
  let (h9, s) := inject 0x09 loc s
  let s := if h9 then detect 0x09 loc true 0 0 (leBytes 4 word) s else s
  let (hA, s) := inject 0x0A loc s
  (hA, if hA then detect 0x0A loc true 0 0 (leBytes 4 word) s else s)

/-- Write a tile register whole. -/
def setTreg (g r : Nat) (v : List TElem) (s : Block) : Block :=
  { s with vec := { s.vec with tregs := mapSet tregZero s.vec.tregs (g * 64 + r % 64) v } }

/-- All ones of a mask register. -/
def maskOnes : Nat := 2 ^ 256 - 1

/-- A mask register; K0 always reads as all ones (R157). -/
def maskReg (s : Block) (g k : Nat) : Nat :=
  if k % 8 = 0 then maskOnes else mapGet 0 s.vec.masks (g * 8 + k % 8)

/-- Write a mask register; a write to K0 is ignored (R157). -/
def setMask (g k v : Nat) (s : Block) : Block :=
  if k % 8 = 0 then s
  else { s with vec := { s.vec with masks := mapSet 0 s.vec.masks (g * 8 + k % 8) (v % 2 ^ 256) } }

/-- Whether a mask is mask-poisoned (R338). -/
def maskBad (s : Block) (g k : Nat) : Bool := k % 8 != 0 && s.vec.maskPoison.contains (g * 8 + k % 8)

/-! ## Lane flags (R169, R170) -/

/-- The bank a job tag collects into. -/
def flagBank (tag : Nat) : Nat := if tag = 0 then 0 else 1

def flagZero : List Nat := List.replicate 256 0

/-- Flag bytes of a quad's lanes. -/
def laneFlags (s : Block) (g bank quad : Nat) : List Nat :=
  mapGet flagZero s.vec.flags ((g * 2 + bank) * 4 + quad)

/-- OR events into a quad's lanes, one flag byte for each lane. -/
def orFlags (g tag quad : Nat) (fl : List Nat) (s : Block) : Block :=
  if fl.all (· == 0) then s
  else
    let k := (g * 2 + flagBank tag) * 4 + quad
    let v := List.zipWith (· ||| ·) (mapGet flagZero s.vec.flags k) fl
    { s with vec := { s.vec with flags := mapSet flagZero s.vec.flags k v } }

/-! ## Mezzanines -/

/-- The key of a mezzanine byte; addresses wrap modulo 8 MiB (R195). -/
def mezzKey (g a : Nat) : Nat := g * 2 ^ 23 + a % 2 ^ 23

/-- One byte with its poison mark. -/
def mezzByte (s : Block) (g a : Nat) : Byte × Bool :=
  (mapGet (0 : Byte) s.mezz.bytes (mezzKey g a), s.mezz.poison.contains (mezzKey g a))

/-- `n` bytes from an address. -/
def mezzRead (s : Block) (g a n : Nat) : List (Byte × Bool) :=
  (List.range n).map (fun i => mezzByte s g (a + i))

/-- Write one byte with its poison mark. -/
def mezzPut (g a : Nat) (b : Byte × Bool) (z : Mezz) : Mezz :=
  { bytes := mapSet (0 : Byte) z.bytes (mezzKey g a) b.1
    poison := setPut z.poison (mezzKey g a) b.2 }

/-- Write bytes from an address. -/
def mezzPuts (g : Nat) : Nat → List (Byte × Bool) → Mezz → Mezz
  | _, [], z => z
  | a, b :: r, z => mezzPuts g (a + 1) r (mezzPut g a b z)

/-- Poison the 64-bit word that holds an address. -/
def mezzPoisonWord (g a : Nat) (z : Mezz) : Mezz :=
  { z with poison := (List.range 8).foldl (fun p i => setPut p (mezzKey g (a / 8 * 8 + i)) true) z.poison }

/-- Write bytes into the mezzanine of a gallery. An uncorrectable SRAM event poisons the first word written. -/
def mezzWrite (g a : Nat) (bs : List (Byte × Bool)) (s : Block) : Block :=
  let (hit, s) := sramEventAt g (a % 2 ^ 23 / 8) s
  let z := mezzPuts g a bs s.mezz
  { s with mezz := if hit then mezzPoisonWord g a z else z }

/-- The bytes alone, and whether any is poisoned. -/
def plain (bs : List (Byte × Bool)) : Bytes := bs.map (·.1)
def anyPoison (bs : List (Byte × Bool)) : Bool := bs.any (·.2)

/-! ## Token counters (R206) -/

/-- The key of a token counter of a physical gallery. -/
def tokKey (g ctr : Nat) : Nat := g * 256 + ctr % 256

/-- The value with every recorded increment: the sum of the present cycle, and what the counter becomes, which the cap
of R206 limits. -/
def tokSum (s : Block) (g ctr : Nat) : Nat := mapGet 0 s.tok.vals (tokKey g ctr)
def tokVal (s : Block) (g ctr : Nat) : Nat := satN 32 (tokSum s g ctr)

/-- The value an SWAIT sees: increments of the last two cycles are not yet visible (R206). -/
def tokVisible (s : Block) (g ctr : Nat) : Nat :=
  let hid := (s.tok.incoming.filter (fun i => i.key == tokKey g ctr && decide (s.clk.cycle < i.cycle + 2))).map (·.amount)
  tokSum s g ctr - hid.foldl (· + ·) 0

/-- Record an increment. -/
def tokAdd (g ctr n : Nat) (s : Block) : Block :=
  if n = 0 then s
  else { s with tok := { s.tok with
    vals := mapSet 0 s.tok.vals (tokKey g ctr) (tokSum s g ctr + n)
    incoming := s.tok.incoming ++ [{ cycle := s.clk.cycle, key := tokKey g ctr, amount := n }] } }

/-- Subtract a consumption. -/
def tokSub (g ctr n : Nat) (s : Block) : Block :=
  { s with tok := { s.tok with vals := mapMod 0 s.tok.vals (tokKey g ctr) (· - n) } }

/-- A firmware write of the token counters takes place only at a load or during boundary actions, while no bundle issues
(R28). -/
def tokWritable (load : Bool) (s : Block) : Bool := load || (s.bnd.phase == .actions && !s.prog.issuing)

/-- A firmware write of token counters to `vals`. At any other time it is discarded, and the gallery control core of
each gallery it names logs a control fault (R28). -/
def tokWrite (load : Bool) (vals : SMap Nat) (s : Block) : Block :=
  if tokWritable load s then { s with tok := { s.tok with vals, incoming := [] } }
  else forEach (vals.foldl (fun l e => setAdd l (e.1 / 256)) []) (fun g s => logFault .control g 0 0x28 0 s) s

/-- A counter at the end of a cycle: what passes 2^32 - 1 is dropped from the increments of the cycle, with a program
fault that names the counter. -/
def tokCapOne (key : Nat) (s : Block) : Block :=
  let v := mapGet 0 s.tok.vals key
  if v < 2 ^ 32 then s
  else
    let now := fun (i : Incr) => i.key == key && i.cycle == s.clk.cycle
    let n := ((s.tok.incoming.filter now).map (·.amount)).foldl (· + ·) 0
    logFault .program (key / 256) key 0x206 0 { s with tok := { s.tok with
      vals := mapSet 0 s.tok.vals key (2 ^ 32 - 1)
      incoming := s.tok.incoming.filter (fun i => !(now i)) ++ [{ cycle := s.clk.cycle, key, amount := n - (v + 1 - 2 ^ 32) }] } }

/-- The counters that took an increment in the present cycle are capped (R206). -/
def tokCap (s : Block) : Block :=
  forEach ((s.tok.incoming.filter (fun i => i.cycle == s.clk.cycle)).map (·.key)) tokCapOne s

/-- Increments that every SWAIT sees are no longer kept apart. -/
def tokAge (s : Block) : Block :=
  { s with tok := { s.tok with
    incoming := s.tok.incoming.filter (fun i => decide (s.clk.cycle < i.cycle + 2)) } }

/-! ## Counter sets (R129, R131) -/

def csetZero : CSet := { zeroed := 0, saturated := 0, bov := 0, lvlOvf := 0, tracker := none }

/-- Larger of two trackers. -/
def maxT : Option Int → Option Int → Option Int
  | none, b => b
  | a, none => a
  | some a, some b => some (max a b)

/-- Sum of two sets; every counter saturates at its all-ones value. -/
def csetAdd (a b : CSet) : CSet :=
  { zeroed := satN 32 (a.zeroed + b.zeroed)
    saturated := satN 32 (a.saturated + b.saturated)
    bov := satN 32 (a.bov + b.bov)
    lvlOvf := satN 16 (a.lvlOvf + b.lvlOvf)
    tracker := maxT a.tracker b.tracker }

/-- Count into a gallery's set; side programs neither count nor track. -/
def countCset (g tag cset : Nat) (c : CSet) (s : Block) : Block :=
  if tag ≠ 0 then s
  else { s with gals := { s.gals with
    csets := mapMod csetZero s.gals.csets (g * 1024 + cset % 1024) (fun a => csetAdd a c) } }

/-! ## Descriptor fields -/

/-- The transfer, tensor and other tables are read as little-endian numbers. -/
def imgNum (s : Block) (off n : Nat) : Nat :=
  leNat ((List.range n).map (fun i => mapGet (0 : Byte) s.prog.bufA (off + i)))

/-- Offset and size of part `i` of the loaded image (R490). -/
def partOff (s : Block) (i : Nat) : Nat := imgNum s (64 + 8 * i) 4
def partSize (s : Block) (i : Nat) : Nat := imgNum s (68 + 8 * i) 4

/-- Tensor descriptor `d` of a bank, 512 bits (R201). -/
def tensorDesc (s : Block) (bank d : Nat) : Nat := imgNum s (partOff s 4 + (bank % 1024 * 64 + d % 64) * 64) 64

/-- Fields of a tensor descriptor (R201). -/
def tdFmt (d : Nat) : Nat := fld d 0 8
def tdLvl (d : Nat) : Nat := fld d 8 8
def tdAnchor (d : Nat) : Int := signed 10 (fld d 16 10)
def tdHead (d : Nat) : Nat := min (fld d 26 5) 24
def tdLvlMode (d : Nat) : Nat := fld d 31 1
def tdTurn (d : Nat) : Nat := fld d 32 3
def tdTseed (d : Nat) : Nat := fld d 35 8
def tdRho (d : Nat) : Nat := fld d 43 8
def tdCset (d : Nat) : Nat := fld d 51 10
def tdSseed (d : Nat) : Nat := fld d 61 8
def tdTtag (d : Nat) : Nat := fld d 69 16
def tdElemBase (d : Nat) : Nat := fld d 85 39
def tdElemPitch (d : Nat) : Nat := fld d 124 24
def tdScaleBase (d : Nat) : Nat := fld d 148 39
def tdScalePitch (d : Nat) : Nat := fld d 187 20
def tdOutBase (d : Nat) : Nat := fld d 207 39
def tdOutPitch (d : Nat) : Nat := fld d 246 20

/-- ρ as used: 0x00 off, 0x01 to 0x77 as 0x78, above 0xA8 as 0xA8 (R114). -/
def rhoUsed (r : Nat) : Nat := if r = 0 then 0 else if r < 0x78 then 0x78 else if 0xA8 < r then 0xA8 else r

/-! ## Seeds -/

/-- Entry `i` of the turn seed table and of the SR seed table in force (R179). -/
def turnSeed (s : Block) (i : Nat) : Nat := leAt (domF s 0x232000) (8 * i) 8
def srSeed (s : Block) (i : Nat) : Nat := leAt (domF s 0x232100) (8 * i) 8

end Sys2Proof.Machine
end

