-- ==== Sys2Proof/Machine/Operands.lean ====
section
/-! DEFINITION. Operand forms of the vector engine: register steps and broadcast (R156), the quad and
the processing cycle of a tile (R154, R217), formats held in a register (R153), and the fields of an
operand specifier. -/

namespace Sys2Proof.Machine

/-! ## Registers of a run (R156) -/

/-- Register steps of a stride code: 0 none, 1 and 3 one, 2 two. -/
def strideStep (code : Nat) : Nat := if code % 4 = 0 then 0 else if code % 4 = 2 then 2 else 1

/-- The register of tile `t`; `unit` is 2 for a register pair (R166). -/
def runReg (base code unit t : Nat) : Nat := (base + unit * strideStep code * t) % 64

/-- Fields of an operand specifier. -/
def opReg (spec : Nat) : Nat := fld spec 12 6
def opStride (spec : Nat) : Nat := fld spec 10 2
def opBcast (spec : Nat) : Nat := fld spec 8 2
def opIdx (spec : Nat) : Nat := fld spec 0 8

/-- A clear element, and a tile of them. -/
def elemZero : TElem := { bits := 0, poison := false }

/-- Row `i` of a tile. -/
def tileRow (v : List TElem) (i : Nat) : List TElem := (v.drop (16 * i)).take 16

/-- A tile as the broadcast code presents it. -/
def bcastTile (code idx : Nat) (v : List TElem) : List TElem :=
  if code = 0 then v
  else if code = 1 then (List.replicate 16 (tileRow v (idx % 16))).flatten
  else if code = 2 then
    (List.range 16).flatMap (fun i => List.replicate 16 (nth (tileRow v i) (idx % 16) elemZero))
  else List.replicate 256 (nth v (idx % 256) elemZero)

/-- The operand of a specifier for tile `t`. -/
def operand (s : Block) (g spec t : Nat) : List TElem :=
  bcastTile (opBcast spec) (opIdx spec) (treg s g (runReg (opReg spec) (opStride spec) 1 t))

/-- The low (`half` 0) or high (`half` 1) register of a pair operand (R153, R166). -/
def operandPair (s : Block) (g spec t half : Nat) : List TElem :=
  bcastTile (opBcast spec) (opIdx spec) (treg s g (runReg (opReg spec) (opStride spec) 2 t + half))

/-- The transpose of a tile. -/
def tileTrn (v : List TElem) : List TElem :=
  (List.range 256).map (fun l => nth v (16 * (l % 16) + l / 16) elemZero)

/-! ## Quads and cycles (R154, R217) -/

/-- The quad that processes tile `t`. -/
def quadOf (pairing : Bool) (t : Nat) : Nat := if pairing then 2 * (t % 2) else t % 4

/-- How many tiles of its quad come before tile `t`. -/
def quadTurn (pairing : Bool) (t : Nat) : Nat := if pairing then t / 2 else t / 4

/-- How many turns a run of `n` tiles takes. -/
def quadTurns (pairing : Bool) (n : Nat) : Nat := if pairing then ceilDiv n 2 else ceilDiv n 4

/-! ## Formats in a register (R153) -/

/-- An element held in a wide format: what a write stores. -/
def heldAs (fmt x : Nat) : Nat :=
  if fmt = 0x01 ∨ fmt = 0x02 then x % 2 ^ 16
  else if fmt = 0x04 then unsigned 32 (signed 8 x)
  else x % 2 ^ 32

/-- Bytes of an element in memory. -/
def wideBytes (fmt : Nat) : Nat :=
  if fmt = 0x01 ∨ fmt = 0x02 then 2 else if fmt = 0x04 then 1 else if fmt = 0x05 then 8 else 4

/-- The floating value of a register element of a floating format. -/
def wideVal (fmt x : Nat) : FVal :=
  wfVal (wfOf fmt) (if fmt = 0x01 ∨ fmt = 0x02 then x % 2 ^ 16 else x)

/-- The value written for a poisoned result: the canonical NaN of its format (R172). -/
def poisonBits (fmt : Nat) : Nat :=
  if fmt = 0x01 then 0x7FC0 else if fmt = 0x02 then 0x7E00 else if fmt = 0x04 then 0 else 0x7FC00000

/-- The mask bits of a register, element by element. -/
def maskList (m : Nat) : List Bool := (List.range 256).map (bit m)

/-- A mask from its bits. -/
def maskOf (l : List Bool) : Nat := l.foldr (fun b r => b2n b + 2 * r) 0

end Sys2Proof.Machine
end

