-- ==== Sys2Proof/Machine/Slots.lean ====
section
/-! DEFINITION. How a slot reaches its gallery (R193 to R196, R209, R218): a frozen module holds it,
a stopped gallery clock raises a wake hold, an unbound gallery discards it. -/

namespace Sys2Proof.Machine

/-- The fixed-timing cycle: every due cycle of the data plane counts these (R209). -/
def cyc (s : Block) : Nat := s.clk.fcyc

/-- A gallery's clock when nothing has stopped it. -/
def clkRuns : GClk := { running := true, restarting := false, wakeAlcoves := 0, wakeVe := false }

/-- The clock of a physical gallery. -/
def gclk (s : Block) (g : Nat) : GClk := mapGet clkRuns s.gals.clocks g

/-- Change the clock of a gallery. -/
def setGclk (g : Nat) (c : GClk) (s : Block) : Block :=
  { s with gals := { s.gals with clocks := mapSet clkRuns s.gals.clocks g c } }

/-- Freeze the module (R209). A queue hold sets QUEUE_HOLD in the step status (R204). -/
def freezeFor (kind : HoldKind) (bundle : Bool) (held : List HeldSlot) (gals : List Nat) (ctr value : Nat)
    (s : Block) : Block :=
  let s := if kind = .queueHold then stepBit 2 s else s
  { s with freeze := some { kind, bundle, held, gals, ctr, value } }

/-- The freeze in force gains a slot. -/
def holdSlot (h : HeldSlot) (z : Freeze) (s : Block) : Block := { s with freeze := some { z with held := z.held ++ [h] } }

/-- A slot reaches galleries whose clocks are stopped: they restart, and a wake hold freezes the module (R218). -/
def wakeFreeze (bundle : Bool) (held : List HeldSlot) (gals : List Nat) (s : Block) : Block :=
  freezeFor .wakeHold bundle held gals 0 0 (forEach gals (fun g s => setGclk g { gclk s g with restarting := true } s) s)

/-- The galleries of a list whose clocks are stopped. -/
def stoppedGals (s : Block) (gals : List Nat) : List Nat := gals.filter (fun g => !(gclk s g).running)

/-- Let a slot reach physical galleries. `f` is its effect on them. -/
def reach (h : HeldSlot) (x : SlotCtx) (gals : List Nat) (f : Block → Block) (s : Block) : Block :=
  match s.freeze with
  | some z => holdSlot h z s
  | none =>
    if gals = [] then logFault .program 255 x.bundle 0x194 x.tag s
    else if stoppedGals s gals = [] then f s
    else wakeFreeze false [h] (stoppedGals s gals) s

/-- Let a slot reach the gallery of its context. `f` is its effect on the physical gallery. -/
def withHeld (h : HeldSlot) (x : SlotCtx) (f : Nat → Block → Block) (s : Block) : Block :=
  match s.freeze with
  | some z => holdSlot h z s
  | none =>
    match physOf s x.gal with
    | none => logFault .program 255 x.bundle 0x194 x.tag s
    | some g => if (gclk s g).running then f g s else wakeFreeze false [h] [g] s
def withSlot (i : Instr) (x : SlotCtx) (f : Nat → Block → Block) (s : Block) : Block := withHeld (.slot i []) x f s

/-- The next number of the issue order within the vector engines and landings (R155, R196). -/
def nextOrder (s : Block) : Nat := s.vec.issueOrder
def bumpOrder (s : Block) : Block := { s with vec := { s.vec with issueOrder := s.vec.issueOrder + 1 } }

end Sys2Proof.Machine
end

