-- ==== Sys2Proof/Machine/Landing.lean ====
section
/-! DEFINITION. The landings: rows, anchors and residues (R97 to R102, R110), accumulation groups
(R103 to R107), the order of landing operations and contributions (R108), drains (R106, R111, R167,
R168) and their comparison under alcove pairing (R337). -/

namespace Sys2Proof.Machine

/-! ## Elements and rows -/

/-- A cleared element. -/
def lelemZero : LElem := { x := 0, invalid := false, poison := false, sat := false, res := 0 }

/-- A row as it is at reset: nothing has opened a group over it (R112). -/
def lrowReset : LRow :=
  { defined := false, wide := true, empty := true, floor := false, auto := false, anchor := 0
    elems := List.replicate 16 lelemZero }

/-- A row as MOPEN clears it (R103). -/
def lrowClear (wide : Bool) : LRow := { lrowReset with defined := true, wide := wide }

/-- Bits of an element, and D of R98. -/
def accW (wide : Bool) : Nat := if wide then 128 else 64
def accD (wide : Bool) : Int := if wide then 99 else 48

/-- The largest value an element holds. -/
def accMax (wide : Bool) : Int := ((2 ^ (accW wide - 1) : Nat) : Int) - 1

/-- Outside the range of R99. -/
def accOut (wide : Bool) (e : LElem) : Bool := !e.sat && (decide (e.x < -accMax wide) || decide (accMax wide < e.x))

/-- Saturate an element that cannot be held (R100). -/
def satElem (wide : Bool) (e : LElem) : LElem :=
  if accOut wide e then
    let v := if e.x < 0 then -accMax wide else accMax wide
    { e with x := v, sat := true, res := mod7 v }
  else e

/-- Shift an element right by `k` (R99 raise, R110): the element, and whether a bit was lost. -/
def elemRaise (k : Nat) (e : LElem) : LElem × Bool :=
  if e.sat then (e, false)
  else
    let p : Int := ((2 ^ k : Nat) : Int)
    let q := e.x / p
    let d := e.x % p
    ({ e with x := q, res := mod7 (((e.res : Int) - d % 7) * ((powMod 4 7 (k % 3 + 3) : Nat) : Int)) }, d != 0)

/-- Raise a row's elements by `k` and its anchor with them. -/
def rowShiftDown (k : Nat) (r : LRow) : LRow :=
  let es := r.elems.map (elemRaise k)
  { r with elems := es.map (·.1), floor := r.floor || es.any (·.2), anchor := r.anchor + k }

/-- `raise` of R99: the anchor never passes 511. -/
def rowRaise (k : Int) (r : LRow) : LRow :=
  let k := if 511 < r.anchor + k then 511 - r.anchor else k
  if k ≤ 0 then r else rowShiftDown k.toNat r

/-- Smallest shift that brings a value into range. -/
def needShift (lim x : Int) : Nat → Nat → Nat
  | 0, k => k
  | n + 1, k =>
    let v := x / ((2 ^ k : Nat) : Int)
    if -lim ≤ v ∧ v ≤ lim then k else needShift lim x n (k + 1)

/-- Saturate what does not fit; answers whether any element is saturated in the row. -/
def rowSaturate (r : LRow) : LRow := { r with elems := r.elems.map (satElem r.wide) }
def rowSat (r : LRow) : Bool := r.elems.any (·.sat)

/-- A column's contribution that counts: an invalid or a poisoned one marks its element and nothing else (R47, R80,
log 34). -/
def colCounts (c : ColC) : Bool := c.active && !c.invalid && !c.poison

/-- Add one column's contribution to an element at an anchor (R99, R110): element, lost bit. -/
def elemAdd (anchor : Int) (c : ColC) (e : LElem) : LElem × Bool :=
  let e := { e with invalid := e.invalid || (c.active && c.invalid), poison := e.poison || (c.active && c.poison) }
  if !(colCounts c) || e.sat || c.m == 0 then (e, false)
  else
    let sh := c.e - anchor
    let q := if 0 ≤ sh then c.m * ((2 ^ sh.toNat : Nat) : Int) else c.m / ((2 ^ (-sh).toNat : Nat) : Int)
    let lost := decide (sh < 0) && c.m % ((2 ^ (-sh).toNat : Nat) : Int) != 0
    ({ e with x := e.x + q, res := (e.res + mod7 q) % 7 }, lost)

/-- Largest group exponent of a landing write (R98). -/
def writeG (cols : List ColC) : Option Int :=
  cols.foldl (fun g c => if colCounts c then maxT g c.g else g) none

/-- The first anchor of a row (R98, R99). `tread` holds the level bytes of a Tread × Tread pair. -/
def firstAnchor (grp : Group) (tread : Option (Nat × Nat)) (g : Int) : Int × Bool :=
  let auto := (clampI (-512) 511 (g - accD grp.wide), true)
  if grp.mode = 2 then (grp.anchor, false)
  else if grp.mode = 0 ∧ grp.wide then
    match tread with
    | some (la, lb) => (clampI (-512) 511 ((la : Int) - 127 + ((lb : Int) - 127) - 36), false)
    | none => auto
  else auto

/-- One landing write (R99). -/
def rowLand (grp : Group) (tread : Option (Nat × Nat)) (cols : List ColC) (r : LRow) : LRow :=
  let lost := cols.any (fun c => colCounts c && c.lost)
  let r := { r with floor := r.floor || lost }
  match writeG cols with
  | none => { r with elems := List.zipWith (fun c e => (elemAdd r.anchor { c with m := 0 } e).1) cols r.elems }
  | some g =>
    let fa := firstAnchor grp tread g
    let r : LRow := if r.empty then { r with anchor := fa.1, auto := fa.2, empty := false } else r
    let r : LRow := if r.auto && decide (r.anchor < g - accD r.wide) then rowRaise (g - accD r.wide - r.anchor) r else r
    let es := List.zipWith (elemAdd r.anchor) cols r.elems
    let r : LRow := { r with elems := es.map (·.1), floor := r.floor || es.any (·.2) }
    let out := r.elems.filter (accOut r.wide)
    if out.isEmpty then r
    else
      let r : LRow := if r.auto then
          rowRaise (maxNat (out.map (fun (e : LElem) => needShift (accMax r.wide) e.x 192 0))) r
        else r
      rowSaturate r

/-- MSHIFT of one row by `k` (R107). -/
def rowShift (k : Int) (r : LRow) : LRow :=
  if r.empty then r
  else
    let k := clampI (-1023) 1023 k
    let a := r.anchor + k
    if a < -512 then
      { rowShiftDown (-512 - a).toNat r with anchor := -512 }
    else if 511 < a then
      let n := (a - 511).toNat
      let es := r.elems.map (fun e => if e.sat then e else
        { e with x := e.x * ((2 ^ n : Nat) : Int), res := (e.res * powMod 2 7 (n % 3 + 3)) % 7 })
      rowSaturate { r with elems := es, anchor := 511 }
    else { r with anchor := a }

/-! ## Storage -/

/-- The row kept under unit `u` of an array. -/
def lrow (s : Block) (arr u : Nat) : LRow := mapGet lrowReset s.arr.rows (arr * 64 + u)

/-- Store a row. -/
def setLrow (arr u : Nat) (r : LRow) (s : Block) : Block :=
  { s with arr := { s.arr with rows := mapSet lrowReset s.arr.rows (arr * 64 + u) r } }

/-- The group of an array, open or draining after an MCLOSE. -/
def lgroup (s : Block) (arr grp : Nat) : Option Group := mapGet none s.arr.groups (arr * 64 + grp % 64)

/-- Store or remove a group. -/
def setLgroup (arr grp : Nat) (g : Option Group) (s : Block) : Block :=
  { s with arr := { s.arr with groups := mapSet none s.arr.groups (arr * 64 + grp % 64) g } }

/-- A group that is open: not closed by an MCLOSE (R108). -/
def openGroup (s : Block) (arr grp : Nat) : Option Group :=
  match lgroup s arr grp with
  | some g => if g.closeAt.isNone then some g else none
  | none => none

/-- Unit of slot row `i`, and the first unit past a slot. -/
def slotUnit (g : Group) (i : Nat) : Nat := g.base + i * (if g.wide then 2 else 1)
def slotEnd (g : Group) : Nat := slotUnit g g.s

/-- Groups of an array as `(number, group)`. -/
def groupsOf (s : Block) (arr : Nat) : List (Nat × Group) :=
  s.arr.groups.filterMap (fun e => if e.1 / 64 = arr then e.2.map (fun g => (e.1 % 64, g)) else none)

/-! ## MOPEN (R103, R104) -/

/-- Base, S and format that an MOPEN takes, and how many program and format faults it logs. -/
def openPlan (f : MopenF) : Nat × Nat × Bool × Nat × Nat :=
  let (wide, bad) := landFmt f.fmt
  let base0 := f.base % 64
  let base := if wide then base0 / 2 * 2 else base0
  let per := if wide then 2 else 1
  let s0 := f.rows % 64 + 1
  let s1 := if wide then min s0 32 else s0
  let room := (64 - base) / per
  let n := min s1 room
  (base, n, wide, b2n (base != base0) + b2n (s1 != s0) + b2n (n != s1), b2n bad)

/-- Split a wide row of which one unit is taken: what is left stands as narrow rows (log 27). -/
def splitWide (arr u : Nat) (s : Block) : Block :=
  let e := u / 2 * 2
  let r := lrow s arr e
  if r.defined && r.wide then
    let half := fun (n : Nat) =>
      let es := ((r.elems.drop (8 * n)).take 8).flatMap (fun (x : LElem) =>
        let raw := unsigned 128 x.x
        [{ x with x := signed 64 raw }, { lelemZero with x := signed 64 (raw / 2 ^ 64) }])
      { r with wide := false, elems := es }
    setLrow arr (e + 1) (half 1) (setLrow arr e (half 0) s)
  else s

/-- Open a group in one array; `id` is the MOPEN's issue number. -/
def openOn (x : SlotCtx) (f : MopenF) (id arr : Nat) (s : Block) : Block :=
  let (base, n, wide, _, _) := openPlan f
  let g : Group :=
    { id, base, s := n, wide, mode := f.mode % 4, anchor := signed 10 f.anchor, gsat := false, closeAt := none }
  let hit := (groupsOf s arr).filter (fun e =>
    e.1 == f.group % 64 || (decide (e.2.base < slotEnd g) && decide (base < slotEnd e.2)))
  let s := forEach hit (fun e s => slotFault .program (arrGal arr) x 0x104 (setLgroup arr e.1 none s)) s
  let s := forEach (List.range n) (fun i s =>
    let u := slotUnit g i
    if wide then setLrow arr (u + 1) lrowReset (setLrow arr u (lrowClear true) s)
    else setLrow arr u (lrowClear false) (splitWide arr u s)) s
  setLgroup arr f.group (some g) s

/-! ## Drains (R106, R111, R167, R168) -/

/-- What the drain of an element delivers: bits and flags (R106). -/
def drainElem (w : WFmt) (r : LRow) (bad : Bool) (e : LElem) : TElem × Nat :=
  if bad || e.poison then ({ bits := BitVec.ofNat 32 (wfNan w), poison := true }, 0)
  else if e.invalid then ({ bits := BitVec.ofNat 32 (wfNan w), poison := false }, fINV)
  else if e.sat then ({ bits := BitVec.ofNat 32 (wfInf w (decide (e.x < 0))), poison := false }, fOVF)
  else if r.empty || e.x == 0 then (elemZero, 0)
  else
    let v := wfWrite w false (finOf e.x r.anchor false)
    ({ bits := BitVec.ofNat 32 v.1, poison := false }, v.2)

/-- A drained row: sixteen elements with their flags; the floor and saturation flags are recorded in
every lane of the row (R169). -/
def drainRow (w : WFmt) (d : DrainRow) : List (TElem × Nat) :=
  d.row.elems.map (fun e =>
    let v := drainElem w d.row d.bad e
    (v.1, v.2 ||| (if d.row.floor then fFLOOR else 0) ||| (if d.gsat then fSAT else 0)))

/-! ## Narrowed arrays (R84) -/

/-- The physical column of logical column `j`: a narrowed array passes its faulty column by. The faulty
column stands for logical column 15, which is never computed (R87). -/
def physCol (s : Block) (arr j : Nat) : Nat :=
  let b := mapGet 0 s.bind.narrow arr
  if b = 0 ∨ j + 1 < b then j else if j = 15 then b - 1 else j + 1

/-- The logical column that a physical column holds. -/
def logCol (s : Block) (arr c : Nat) : Nat :=
  let b := mapGet 0 s.bind.narrow arr
  if b = 0 ∨ c + 1 < b then c else if c + 1 = b then 15 else c - 1

/-- Elements whose residue does not match (R111). -/
def residueBad (r : LRow) : List Nat :=
  (r.elems.zipIdx.filter (fun e => decide (mod7 e.1.x ≠ e.1.res))).map (·.2)

/-- Check a row before it drains: a mismatch poisons the row and is reported (R111), with the first of its elements that
does not match (log 85). Only an injection makes one, so the entry is marked injected. -/
def residueCheck (tag arr u : Nat) (s : Block) : Block :=
  let r := lrow s arr u
  match residueBad r with
  | [] => s
  | c :: _ =>
    let s := setLrow arr u { r with elems := r.elems.map (fun e => { e with poison := true }) } s
    let p := physCol s arr c
    detect 0x01 (locOf 0 (arrGal arr) (arrAlc arr) (arrPhys arr) p 0) true tag 0 (leBytes 2 (u + 64 * p)) s

/-- Rows of a group of one array, in slot-row order. -/
def drainRows (s : Block) (arr : Nat) (g : Group) : List DrainRow :=
  (List.range g.s).map (fun i =>
    { arr, unit := slotUnit g i, row := lrow s arr (slotUnit g i), gsat := g.gsat, bad := false })

/-- Rows that an MCLOSE or MDRAIN drains from the arrays it names: those that hold the group. -/
def collectRows (tag grp : Nat) (arrs : List Nat) (s : Block) : List DrainRow × Block :=
  arrs.foldl (fun (acc : List DrainRow × Block) arr =>
    match openGroup acc.2 arr grp with
    | none => acc
    | some g =>
      let s := forEach (List.range g.s) (fun i s => residueCheck tag arr (slotUnit g i) s) acc.2
      (acc.1 ++ drainRows s arr g, s)) ([], s)

/-- The output format of a drain. -/
def drainFmt (f : DrainF) : WFmt := wfOf (wideFmt [0, 1] f.ofmt).1

/-- The row and the two converted values that a pair event reports (R355): those of the first element that differs. An
injection flips the lowest bit of the odd alcove's first element. -/
def pairExtra (hit : Bool) (row : Nat) (a b : List TElem) : Bytes :=
  let v := fun (l : List TElem) i => ((l[i]?).map (fun e => e.bits.toNat)).getD 0
  let i := if hit then 0 else ((List.zip a b).findIdx? (fun e => e.1 != e.2)).getD 0
  leBytes 4 row ++ leBytes 4 (v a i) ++ leBytes 4 (if hit then v a 0 ^^^ 1 else v b i)

/-- Compare the rows of a pair (R337): a difference in converted bits, marks or floor flag poisons the
row, a difference of the saturation flag every row. An injection makes one row differ. -/
def pairRows (g alc tag : Nat) (w : WFmt) (even odd : List DrainRow) (s : Block) : List DrainRow × Block :=
  let loc := locOf 1 g alc 0 0 0
  let (hit, s) := inject 0x10 loc s
  let gdiff := (List.zip even odd).any (fun p => p.1.gsat != p.2.gsat)
  let rows := (List.zip even odd).zipIdx.map (fun p =>
    let a := p.1.1
    let b := p.1.2
    let marks := fun (r : DrainRow) => r.row.elems.map (fun (e : LElem) => (e.invalid, e.poison, e.sat))
    let diff := gdiff || (hit && p.2 == 0) ||
      decide ((drainRow w a).map (·.1) ≠ (drainRow w b).map (·.1)) ||
      decide (marks a ≠ marks b) || a.row.floor != b.row.floor
    ({ a with bad := a.bad || diff }, diff, pairExtra (hit && p.2 == 0) p.2 ((drainRow w a).map (·.1)) ((drainRow w b).map (·.1))))
  let s := forEach rows.zipIdx (fun r s =>
    if r.1.2.1 then detect 0x10 loc (hit && r.2 == 0) tag 0 r.1.2.2 s else s) s
  (rows.map (·.1), s)

def convIdle : Conv := { cur := none, waiting := [] }

/-- The converter of quad `alc mod 4` (R168). -/
def conv (s : Block) (g alc : Nat) : Conv := mapGet convIdle s.vec.convs (g * 4 + alc % 4)
def setConv (g alc : Nat) (c : Conv) (s : Block) : Block :=
  { s with vec := { s.vec with convs := mapSet convIdle s.vec.convs (g * 4 + alc % 4) c } }

/-- Tiles a drain fills. -/
def drainTiles (j : DrainJob) : Nat := ceilDiv j.rows.length 16

/-- Start waiting drains of a converter that is free in the present cycle. -/
def convStart (g q : Nat) (s : Block) : Block :=
  let c := conv s g q
  let free := match c.cur with
    | none => true
    | some j => decide (j.start + drainTiles j ≤ cyc s)
  if free then
    match c.waiting with
    | [] => setConv g q { c with cur := none } s
    | j :: r => setConv g q { cur := some { j with start := cyc s, next := 0 }, waiting := r } s
  else s

/-- Hand a drain to its converter. -/
def convPut (j : DrainJob) (s : Block) : Block :=
  let c := conv s j.gal j.alc
  convStart j.gal j.alc (setConv j.gal j.alc { c with waiting := c.waiting ++ [j] } s)

/-- A converter that holds four waiting drains takes no further one (R168). -/
def convFull (s : Block) (g alc : Nat) : Bool :=
  let c := conv s g alc
  let busy := match c.cur with
    | none => false
    | some j => decide (cyc s < j.start + drainTiles j)
  busy && decide (4 ≤ c.waiting.length)

/-- Clear the rows of a group after an MDRAIN with its clear bit (R106). -/
def clearRows (arr grp : Nat) (s : Block) : Block :=
  match openGroup s arr grp with
  | none => s
  | some g =>
    let s := forEach (List.range g.s) (fun i s => setLrow arr (slotUnit g i) (lrowClear g.wide) s) s
    setLgroup arr grp (some { g with gsat := false }) s

/-- MCLOSE, issued in cycle `c`, closes its group: later beats are discarded, the units stay held until
the last row has been read (R108, R168). -/
def markClose (arrs : List Nat) (grp c : Nat) (s : Block) : Block :=
  forEach arrs (fun arr s =>
    match openGroup s arr grp with
    | some g => setLgroup arr grp (some { g with closeAt := some c }) s
    | none => s) s

/-- MCLOSE and MDRAIN act at the landing. `arrs` are the arrays of the alcove named, `odd` those of the
odd alcove of a pair. A full converter leaves the group open (R168). An illegal output format is a fault whether or not
the drain is performed (R35, R167); arrays in which the group is not open take no part, without a fault (log 86). -/
def drainOn (x : SlotCtx) (f : DrainF) (isClose : Bool) (g issue order : Nat) (arrs odd : List Nat)
    (s : Block) : Block :=
  let s := slotFaultIf (wideFmt [0, 1] f.ofmt).2 .format g x f.ofmt s
  if !((arrs ++ odd).any (fun a => (openGroup s a f.group).isSome)) then s
  else if convFull s g f.alcove || (!odd.isEmpty && convFull s g (f.alcove + 1)) then
    slotFault .program g x 0x168 s
  else
    let (rows, s) := collectRows x.tag f.group arrs s
    let (mrows, s) := collectRows x.tag f.group odd s
    let (rows, s) := if odd.isEmpty then (rows, s) else pairRows g f.alcove x.tag (drainFmt f) rows mrows s
    let job : DrainJob :=
      { gal := g, alc := f.alcove, ctx := x, f, isClose, mirror := false, order, start := 0, next := 0, rows }
    let s := convPut job s
    let s := if odd.isEmpty then s
      else convPut { job with alc := f.alcove + 1, mirror := true, rows := mrows } s
    if isClose then markClose (arrs ++ odd) f.group issue s
    else if f.clear % 2 == 1 then forEach (arrs ++ odd) (fun arr s => clearRows arr f.group s) s
    else s

/-- One tile of a drain: its rows fill tile register dst + next (R167). -/
def drainTile (j : DrainJob) (s : Block) : Block :=
  let w := drainFmt j.f
  let rows := (j.rows.drop (16 * j.next)).take 16
  let cells := rows.flatMap (drainRow w)
  let full := cells ++ List.replicate (256 - cells.length) (elemZero, 0)
  let lastTile := decide (j.next + 1 = drainTiles j)
  let s := if j.mirror then s
    else
      let s := orFlags j.gal j.ctx.tag (j.alc % 4) (full.map (·.2)) s
      { s with vec := { s.vec with writes := s.vec.writes ++
          [{ part := false, due := cyc s + 4, gal := j.gal, rank := 0, order := j.order, reg := (j.f.dst + j.next) % 64
             elems := full.map (fun c => some c.1) }] } }
  if !lastTile then s
  else
    let s := if j.mirror || j.f.fmask % 8 == 0 then s
      else
        let hit := fun (r : Nat) => j.rows.zipIdx.any (fun d => d.2 % 16 == r && d.1.row.floor)
        let bits := (List.range 16).foldl (fun m r => if hit r then m + 65535 * 2 ^ (16 * r) else m) 0
        { s with vec := { s.vec with mwrites := s.vec.mwrites ++
          [{ due := cyc s + 4, gal := j.gal, order := j.order, reg := j.f.fmask % 8, bits, keep := 0, bad := false }] } }
    -- the units of a closed group are released when its last row has been read
    if j.isClose then
      forEach (j.rows.foldl (fun l d => setAdd l d.arr) []) (fun arr s =>
        match lgroup s arr j.f.group with
        | some gr => if gr.closeAt.isSome then setLgroup arr j.f.group none s else s
        | none => s) s
    else s

/-- Every converter reads the tile of the present cycle. -/
def convCycle (s : Block) : Block :=
  forEach (s.vec.convs.map (·.1)) (fun k s =>
    let c := mapGet convIdle s.vec.convs k
    match c.cur with
    | some j =>
      if j.next < drainTiles j ∧ j.start + j.next ≤ cyc s then
        let s := setConv (k / 4) (k % 4) { c with cur := some { j with next := j.next + 1 } } s
        drainTile j s
      else s
    | none => s) s

/-- At the start of a cycle, converters that have finished take their next drain. -/
def convStarts (s : Block) : Block :=
  forEach (s.vec.convs.map (·.1)) (fun k s => convStart (k / 4) (k % 4) s) s

/-! ## MSHIFT on one array (R107) -/

/-- The slot rows that MSHIFT names. -/
def shiftRows (f : MshiftF) : List Nat := (List.range (f.nrows % 64 + 1)).map (· + f.row0 % 64)

/-- MSHIFT reads a poisoned shift amount: of a row that lies in the slot of an open group (R107, R241). -/
def shiftPoisoned (f : MshiftF) (ks : List (Int × Bool)) (arrs : List Nat) (s : Block) : Bool :=
  arrs.any (fun arr => match openGroup s arr f.group with
    | none => false
    | some g => (shiftRows f).any (fun i => decide (i < g.s) && (nth ks i (0, false)).2))

/-- An array in which the group is not open takes no part, without a fault (log 86). -/
def shiftOn (f : MshiftF) (ks : List (Int × Bool)) (arr : Nat) (s : Block) : Block :=
  match openGroup s arr f.group with
  | none => s
  | some g =>
    forEach (shiftRows f) (fun i s =>
      if i < g.s then
        let r := rowShift (nth ks i (0, false)).1 (lrow s arr (slotUnit g i))
        let s := setLrow arr (slotUnit g i) r s
        if rowSat r then
          match lgroup s arr f.group with
          | some g => setLgroup arr f.group (some { g with gsat := true }) s
          | none => s
        else s
      else s) s

/-! ## Landing operations and their order (R108) -/

/-- Arrays of the even alcove of an operation, and of the odd one of a pair. -/
def opArrays (h : HeldOp) : List Nat × List Nat :=
  if h.pair then (h.arrays.filter (fun a => arrAlc a == h.alc), h.arrays.filter (fun a => arrAlc a != h.alc))
  else (h.arrays, [])

/-- A landing operation acts at the landing. -/
def performOp (h : HeldOp) (s : Block) : Block :=
  let (ev, od) := opArrays h
  match h.op with
  | .mopen x f => forEach h.arrays (openOn x f h.order) s
  | .mclose x f => drainOn x f true h.gal h.issue h.order ev od s
  | .mdrain x f => drainOn x f false h.gal h.issue h.order ev od s
  | .mshift x f =>
    let s := if shiftPoisoned f h.ks h.arrays s then consume x.tag (f.ksrc % 128) s else s
    forEach h.arrays (shiftOn f h.ks) s
  | _ => s

/-- Two lists of arrays have one in common. -/
def shares (a b : List Nat) : Bool := a.any (fun x => b.contains x)

/-- Contributions that an operation waits for. -/
def opWaits (s : Block) (h : HeldOp) : Bool :=
  s.arr.contribs.any (fun c => decide (c.lastBeat ≤ h.issue) && h.arrays.contains c.arr)

/-- Release held operations in issue order: one that an earlier one on a common array holds back waits. -/
def releaseGo : List HeldOp → List HeldOp → Block → List HeldOp × Block
  | kept, [], s => (kept, s)
  | kept, h :: r, s =>
    if opWaits s h || kept.any (fun k => shares k.arrays h.arrays) then releaseGo (kept ++ [h]) r s
    else releaseGo kept r (performOp h s)

def releaseOps (s : Block) : Block :=
  let (kept, s) := releaseGo [] s.arr.held s
  { s with arr := { s.arr with held := kept } }

/-- An injected residue error: the three bits of the element's residue are inverted (R352, log 35). -/
def residueInject (arr u : Nat) (s : Block) : Block :=
  let g := arrGal arr
  let hitCol := (List.range 16).find? (fun c => injects s 0x01 (locOf 0 g (arrAlc arr) (arrPhys arr) (physCol s arr c) 0))
  match hitCol with
  | none => s
  | some c =>
    let s := injectFire s
    let r := lrow s arr u
    let e := nth r.elems c lelemZero
    setLrow arr u { r with elems := setNth r.elems c { e with res := 7 - e.res } } s

/-- A contribution lands (R99), or is discarded with a program fault (R108). -/
def landOne (c : Contrib) (s : Block) : Block :=
  let gone := slotFault .program (arrGal c.arr) c.ctx 0x108 s
  if c.gid = 0 then s
  else
    match lgroup s c.arr c.group with
    | none => gone
    | some g =>
      let closed := match g.closeAt with | some k => decide (k < c.lastBeat) | none => false
      if closed || g.id + 1 != c.gid || decide (g.s ≤ c.slot) then gone
      else
        let u := slotUnit g c.slot
        let r := rowLand g c.tread c.cols (lrow s c.arr u)
        let s := setLrow c.arr u r s
        let s := if rowSat r && !g.gsat then setLgroup c.arr c.group (some { g with gsat := true }) s else s
        residueInject c.arr u s

/-- A held operation that must act before a contribution. -/
def contribWaits (s : Block) (c : Contrib) : Bool :=
  s.arr.held.any (fun h => decide (h.issue < c.lastBeat) && h.arrays.contains c.arr)

/-- Contributions due in the present cycle land, in the order of their beats. -/
def landGo : List Contrib → Block → List Contrib × Block
  | [], s => ([], s)
  | c :: r, s =>
    if c.due ≤ cyc s ∧ !(contribWaits s c) then landGo r (landOne c s)
    else
      let (k, s) := landGo r s
      (c :: k, s)

def landDue (s : Block) : Block :=
  let (kept, s) := landGo s.arr.contribs s
  { s with arr := { s.arr with contribs := kept } }

/-- Landings and releases of a cycle: landing lets an operation go, which lets later ones land. -/
def landAll (s : Block) : Block := iter (fun s => releaseOps (landDue s)) (s.arr.held.length + 1) (landDue s)

/-- Landing operations act at the landing in order with the contributions: an operation issued in a
cycle acts in it, once that cycle's last beats are known, unless it waits for contributions. -/
def submitOp (h : HeldOp) (s : Block) : Block := { s with arr := { s.arr with held := s.arr.held ++ [h] } }

/-! ## The commands MOPEN, MCLOSE, MDRAIN, MSHIFT -/

/-- Logical arrays first to first + count, none above 127 (R67). -/
def namedArrays (s : Block) (lg g alc first count : Nat) : List Nat :=
  (range' (first % 128) (min (count % 128) (127 - first % 128) + 1)).map
    (fun a => arrKey g alc (arrOf s lg alc a))

/-- The alcoves an M slot acts on: the one named, and its odd partner under alcove pairing (R83). -/
def pairAlcove (s : Block) (x : SlotCtx) (alc : Nat) : Bool := s.gals.alcPair && x.tag == 0 && alc % 2 == 0

/-- Arrays that an M slot acts on; under alcove pairing those of the odd alcove too, of an MSHIFT as of the slots that R83
lists (log 87). -/
def slotArrays (s : Block) (x : SlotCtx) (g alc first count : Nat) : List Nat :=
  namedArrays s x.gal g alc first count ++
    (if pairAlcove s x alc then namedArrays s x.gal g (alc + 1) first count else [])

/-- The program fault of an array range past 127 (R67). -/
def rangeFault (g : Nat) (x : SlotCtx) (first count : Nat) (s : Block) : Block :=
  slotFaultIf (decide (127 < first % 128 + count % 128)) .program g x 0x67 s

/-- Build the operation and submit it. -/
def landOp (i : Instr) (x : SlotCtx) (g alc first count : Nat) (ks : List (Int × Bool)) (s : Block) : Block :=
  let s := rangeFault g x first count s
  let h : HeldOp :=
    { op := i, gal := g, alc := alc % 8, pair := pairAlcove s x (alc % 8), issue := cyc s, order := nextOrder s
      arrays := slotArrays s x g (alc % 8) first count, ks }
  submitOp h (bumpOrder s)

def doMopen (x : SlotCtx) (f : MopenF) (s : Block) : Block :=
  withSlot (.mopen x f) x (fun g s =>
    let (_, _, _, np, nf) := openPlan f
    let s := iter (slotFault .program g x 0x104) np s
    let s := iter (slotFault .format g x f.fmt) nf s
    landOp (.mopen x f) x g f.alcove f.first f.count [] s) s

def doMclose (x : SlotCtx) (f : DrainF) (s : Block) : Block :=
  withSlot (.mclose x f) x (fun g s => landOp (.mclose x f) x g f.alcove f.first f.count [] s) s

def doMdrain (x : SlotCtx) (f : DrainF) (s : Block) : Block :=
  withSlot (.mdrain x f) x (fun g s => landOp (.mdrain x f) x g f.alcove f.first f.count [] s) s

/-- The k of each slot row: element s of a tile register, read at issue, a poisoned one marked and 0
(R107, R241), or the immediate; none for a reserved ksrc. -/
def shiftKs (f : MshiftF) (g : Nat) (s : Block) : Option (List (Int × Bool)) :=
  let src := f.ksrc % 128
  if src = 0x7F then some (List.replicate 64 (signed 11 f.kimm, false))
  else if 64 ≤ src then none
  else some (((treg s g src).take 64).map (fun e => if e.poison then (0, true) else (signed 32 e.bits.toNat, false)))

def doMshift (x : SlotCtx) (f : MshiftF) (s : Block) : Block :=
  withSlot (.mshift x f) x (fun g s =>
    match shiftKs f g s with
    | none => slotFault .program g x 0x107 s
    | some ks => landOp (.mshift x f) x g f.alcove f.first f.count ks s) s

def execMopen (x : SlotCtx) (f : MopenF) (s : State) : Host.Outcome State Fault Refusal := effect (doMopen x f) s
def execMclose (x : SlotCtx) (f : DrainF) (s : State) : Host.Outcome State Fault Refusal := effect (doMclose x f) s
def execMdrain (x : SlotCtx) (f : DrainF) (s : State) : Host.Outcome State Fault Refusal := effect (doMdrain x f) s
def execMshift (x : SlotCtx) (f : MshiftF) (s : State) : Host.Outcome State Fault Refusal := effect (doMshift x f) s

/-! ## The step boundary (R109) -/

/-- The program fault of a group that is open when its step ends, and the open-group bit. -/
def openFault (key : Nat) (s : Block) : Block := stepBit 4 (logFault .program (arrGal (key / 64)) key 0x109 0 s)

/-- The groups that a held MOPEN has still to open and that no later MCLOSE closes; empty for any other operation. -/
def unopened (later : List HeldOp) (h : HeldOp) : List Nat :=
  match h.op with
  | .mopen _ f =>
    if later.any (fun k => match k.op with
      | .mclose _ c => c.group == f.group && shares k.arrays h.arrays
      | _ => false) then []
    else h.arrays.map (fun a => a * 64 + f.group % 64)
  | _ => []

/-- Take from the held operations each MOPEN whose group would stay open: those groups are open at the end of the step. -/
def dropUnopened : List HeldOp → List HeldOp × List Nat
  | [] => ([], [])
  | h :: r =>
    let (kept, keys) := dropUnopened r
    match unopened r h with
    | [] => (h :: kept, keys)
    | ks => (kept, ks ++ keys)

/-- Every open group is discarded with a program fault and the open-group bit. A group that an MCLOSE has closed is not
open: it drains on. -/
def discardOpen (s : Block) : Block :=
  let (kept, keys) := dropUnopened s.arr.held
  let s := forEach keys openFault { s with arr := { s.arr with held := kept } }
  forEach s.arr.groups (fun e s =>
    match e.2 with
    | some g => if g.closeAt.isNone then openFault e.1 (setLgroup (e.1 / 64) (e.1 % 64) none s) else s
    | none => s) s

/-! ## The landing at Balcony (R112) -/

/-- The row that unit `u` belongs to, under its first unit. -/
def unitRow (s : Block) (arr u : Nat) : Nat × LRow :=
  let e := u / 2 * 2
  let r := lrow s arr e
  if r.defined && r.wide then (e, r) else (u, lrow s arr u)

/-- The unit word. -/
def unitWord (s : Block) (arr u : Nat) : Nat :=
  let (_, r) := unitRow s arr u
  let grp := (groupsOf s arr).find? (fun e => decide (e.2.base ≤ u) && decide (u < slotEnd e.2))
  let gw := match grp with
    | some (n, g) =>
      n * 2 ^ 18 + (if g.closeAt.isNone then 2 ^ 17 else 0) + g.mode * 2 ^ 12 + (if g.gsat then 2 ^ 10 else 0)
    | none => 0
  gw + (if r.wide then 0 else 2 ^ 16) + (if r.empty then 2 ^ 15 else 0) + (if r.floor then 2 ^ 14 else 0)
    + unsigned 10 r.anchor

/-- Byte `i` of the values image, by physical columns; none where nothing has opened a group over it. -/
def valueByte (s : Block) (arr i : Nat) : Option Byte :=
  let (u0, r) := unitRow s arr (i / 128 % 64)
  if !r.defined then none
  else
    let off := i - 128 * u0
    let w := if r.wide then 16 else 8
    let e := nth r.elems (logCol s arr (off / w)) lelemZero
    some (BitVec.ofNat 8 (fld (unsigned (8 * w) e.x) (8 * (off % w)) 8))

/-- Byte `i` of the element marks; the residue of an element that nothing has opened is none. -/
def markByte (s : Block) (arr i : Nat) : Nat × Bool :=
  let (u0, r) := unitRow s arr (i / 16 % 64)
  let pos := i - 16 * u0
  if !r.defined then (0, false)
  else if r.wide && pos % 2 == 1 then (0, true)
  else
    let e := nth r.elems (logCol s arr (if r.wide then pos / 2 else pos)) lelemZero
    (b2n e.sat * 32 + b2n e.poison * 16 + b2n e.invalid * 8 + e.res % 8, true)

end Sys2Proof.Machine
end

