-- ==== Sys2Proof/Machine/Random.lean ====
section
/-! DEFINITION. Random numbers: the lane generators and their seeding (R174 to R177), coordinate
mode (R178) and the variates of VRND (R182, R183). -/

namespace Sys2Proof.Machine

/-! ## Lane mode -/

/-- One step of a lane's generator: next state and output. A state is `s0 + s1 * 2^64` (R175). -/
def laneStep (st : Nat) : Nat × Nat :=
  let x := st % 2 ^ 64
  let y := st / 2 ^ 64
  let x := x ^^^ (x <<< 23) % 2 ^ 64
  let s1 := x ^^^ y ^^^ (x >>> 17) ^^^ (y >>> 26)
  (y + s1 * 2 ^ 64, (s1 + y) % 2 ^ 64)

/-- A linear map of GF(2)^128 as its 128 columns: the images of the single bits, bit 0 first. -/
abbrev GMat := List Nat

/-- Apply a map to a state. -/
def gmApply : GMat → Nat → Nat
  | [], _ => 0
  | c :: r, v => (if v % 2 = 1 then c else 0) ^^^ gmApply r (v / 2)

/-- A map applied twice. -/
def gmSquare (m : GMat) : GMat := m.map (gmApply m)

/-- One generator step as a map: the state update is linear (R175). -/
def gmStep : GMat := (List.range 128).map (fun i => (laneStep (2 ^ i)).1)

/-- 2^64 steps, and its repeated squares: entry `k` is 2^(64 + k) steps. -/
def gmJumps : List GMat :=
  (List.range 15).foldl (fun acc _ => match acc with
    | [] => []
    | m :: r => gmSquare m :: m :: r) [iter gmSquare 64 gmStep] |>.reverse

/-- The state reached from `base` after `n * 2^64` steps. -/
def laneJumpGo : List GMat → Nat → Nat → Nat
  | [], _, v => v
  | m :: r, n, v => laneJumpGo r (n / 2) (if n % 2 = 1 then gmApply m v else v)

/-- The state of logical lane `n` seeded from `seed` (R176). -/
def laneSeeded (seed n : Nat) : Nat :=
  let s := seed % 2 ^ 64
  laneJumpGo gmJumps n ((s ^^^ 0x6B2F0D39A5E74C81) + (s ^^^ 0xA3C59F2B6E41D817) * 2 ^ 64)

/-- The logical lane number of a lane of a physical gallery (R176). -/
def laneNumber (s : Block) (key : Nat) : Nat :=
  1024 * (logicalOf s (key / 1024)).getD 0 + key % 1024

/-- The state of a lane in a bank: listed, or what its seed gives, or clear. -/
def laneLook (s : Block) (m : SMap Nat) (seed : Option Nat) (key : Nat) : Nat :=
  match m.find? (fun e => e.1 == key) with
  | some e => e.2
  | none => match seed with
    | some v => laneSeeded v (laneNumber s key)
    | none => 0

/-- The registers of a lane (R174). -/
def lane0 (s : Block) (key : Nat) : Nat := laneLook s s.lanes.bank0 s.lanes.seed0 key
def lane1 (s : Block) (key : Nat) : Nat :=
  if s.lanes.clear1.contains (key / 1024) && !(s.lanes.bank1.any (fun e => e.1 == key)) then 0
  else laneLook s s.lanes.bank1 s.lanes.seed1 key
def laneSnap (s : Block) (key : Nat) : Nat := laneLook s s.lanes.snap s.lanes.seedSnap key

/-- A draw of a lane in lane mode (R174, R175). A lane of a gallery keeps its state from then on. -/
def laneDraw (g tag lane : Nat) (s : Block) : Nat × Block :=
  let key := g * 1024 + lane
  if tag = 0 then
    let (st, o) := laneStep (lane0 s key)
    (o, { s with lanes := { s.lanes with
      bank0 := mapSet (2 ^ 128) s.lanes.bank0 key st, drawn := true, drawnStep := true } })
  else
    let (st, o) := laneStep (lane1 s key)
    (o, { s with lanes := { s.lanes with bank1 := mapSet (2 ^ 128) s.lanes.bank1 key st } })

/-- Seed bank 0 at a load (R176) or after a restore with NOLANES (R186). -/
def laneSeed0 (s : Block) : Block :=
  { s with lanes := { s.lanes with seed0 := some (numF s 0x232201), bank0 := [] } }

/-- Seed bank 1 at a load or a restore (R177). -/
def laneSeed1 (s : Block) : Block :=
  { s with lanes := { s.lanes with seed1 := some (numF s 0x232202), bank1 := [], clear1 := [] } }

/-- The lane action of R184. -/
def laneAction (advance : Bool) (s : Block) : Block :=
  if advance then { s with lanes := { s.lanes with snap := s.lanes.bank0, seedSnap := s.lanes.seed0 } }
  else { s with lanes := { s.lanes with bank0 := s.lanes.snap, seed0 := s.lanes.seedSnap } }

/-- A warm or cold reset clears the three registers (R184). -/
def laneClear (s : Block) : Block :=
  { s with lanes := { seed0 := none, bank0 := [], seed1 := none, bank1 := [], seedSnap := none,
                      snap := [], clear1 := [], drawn := false, drawnStep := false } }

/-! ## Coordinate mode -/

/-- One round of `cmix`. -/
def cmixRound (v : Nat × Nat × Nat) : Nat × Nat × Nat :=
  let (a, b, k) := v
  let a := ((a ^^^ k) * 0xA3C59F2B6E41D817) % 2 ^ 64
  let a := a ^^^ (a >>> 29)
  let b := ((b + a) * 0x8E1D52B7C40F936B) % 2 ^ 64
  let b := b ^^^ (b >>> 32)
  (a ^^^ b, b, (k + 0x6B2F0D39A5E74C81) % 2 ^ 64)

/-- The coordinate-mode output (R178). -/
def cmix (seed tag c0 c1 step : Nat) : Nat :=
  let a := c0 % 2 ^ 32 + (c1 % 2 ^ 32) * 2 ^ 32
  let b := step % 2 ^ 48 + (tag % 2 ^ 16) * 2 ^ 48
  let (a, b, _) := iter cmixRound 4 (a, b, seed % 2 ^ 64)
  (a + b) % 2 ^ 64

/-- The turn sign of position `k`: true is -1 (R118, R180). -/
def turnSignOf (seed tseed k : Nat) : Bool := bit (cmix seed tseed k 0 0) 0
def turnSign (s : Block) (tseed k : Nat) : Bool := turnSignOf (turnSeed s tseed) tseed k

/-! ## Variates of VRND (R182, R183) -/

/-- A uniform FP32 variate. -/
def uniformVar (o : Nat) : Nat := (wfWrite .fp32 false (.fin false (o >>> 40) (-24))).1

/-- A normal FP32 variate: bits and the flags its rounding raises. -/
def normalVar (o : Nat) : Nat × Nat :=
  let i := fld o 55 8
  let f := (wfWrite .fp32 false (.fin false (fld o 39 16) (-16))).1
  let (d, f1) := f32Sub (normalEntry (i + 1)) (normalEntry i)
  let (z, f2) := f32Fma f d (normalEntry i)
  (if bit o 63 ∧ fld z 0 31 ≠ 0 then putBit z 31 (!(bit z 31)) else z, f1 ||| f2)

/-- The variate of a kind: 0 uniform, 1 normal, 2 raw. -/
def variate (kind o : Nat) : Nat × Nat :=
  if kind = 1 then normalVar o else if kind = 2 then (o >>> 32, 0) else (uniformVar o, 0)

end Sys2Proof.Machine
end

