-- ==== Sys2Proof/Machine/Flags.lean ====
section
/-! DEFINITION. What one lane computes and which flags it raises (R159 to R166, R169): each function
answers result bits and flag bits of R169. -/

namespace Sys2Proof.Machine

/-- What one element of a tile becomes: a write, or none where it keeps its value, and its flags. -/
abbrev LaneOut := Option TElem × Nat

/-- A poisoned result (R172): no flag. -/
def poisonOut (canon : Nat) : LaneOut := (some { bits := BitVec.ofNat 32 canon, poison := true }, 0)

/-- A clean result. -/
def cleanOut (r : Nat × Nat) : LaneOut := (some { bits := BitVec.ofNat 32 r.1, poison := false }, r.2)

/-- The treatment of a masked-off element (R157). -/
def maskedOut (mzero : Nat) : LaneOut :=
  (if mzero % 2 = 1 then some elemZero else none, 0)

/-- One lane of an elementwise instruction: mask, mask-poison (R338), poison (R172), function. -/
def laneOp (mzero canon : Nat) (bad : Bool) (f : Nat → Nat → Nat → Nat × Nat)
    (m : Bool) (a b c : TElem) : LaneOut :=
  if bad then poisonOut canon
  else if !m then maskedOut mzero
  else if a.poison || b.poison || c.poison then poisonOut canon
  else cleanOut (f a.bits.toNat b.bits.toNat c.bits.toNat)

/-- `laneOp` over a tile. -/
def tileOp (mzero canon : Nat) (bad : Bool) (f : Nat → Nat → Nat → Nat × Nat) :
    List Bool → List TElem → List TElem → List TElem → List LaneOut
  | m :: ms, a :: as, b :: bs, c :: cs =>
    laneOp mzero canon bad f m a b c :: tileOp mzero canon bad f ms as bs cs
  | _, _, _, _ => []

/-! ## Integer results (R50, R160) -/

/-- An INT32 result: wraps, or saturates with SAT when `sat` is set. -/
def intResult (sat : Nat) (x : Int) : Nat × Nat :=
  let lo : Int := -((2 ^ 31 : Nat) : Int)
  let hi : Int := ((2 ^ 31 : Nat) : Int) - 1
  if lo ≤ x ∧ x ≤ hi then (unsigned 32 x, 0)
  else if sat % 2 = 1 then (unsigned 32 (clampI lo hi x), fSAT)
  else (unsigned 32 x, 0)

/-- FP32 or INT32 arithmetic by the format used. -/
def laneAdd (isInt : Bool) (sat a b : Nat) : Nat × Nat :=
  if isInt then intResult sat (signed 32 a + signed 32 b) else f32Add a b
def laneSub (isInt : Bool) (sat a b : Nat) : Nat × Nat :=
  if isInt then intResult sat (signed 32 a - signed 32 b) else f32Sub a b
def laneMul (isInt : Bool) (sat a b : Nat) : Nat × Nat :=
  if isInt then intResult sat (signed 32 a * signed 32 b) else f32Mul a b
def laneFma (isInt : Bool) (sat a b c : Nat) : Nat × Nat :=
  if isInt then intResult sat (signed 32 a * signed 32 b + signed 32 c) else f32Fma a b c
def laneMax (isInt : Bool) (a b : Nat) : Nat × Nat :=
  if isInt then (unsigned 32 (max (signed 32 a) (signed 32 b)), 0) else f32MaxMin true a b
def laneMin (isInt : Bool) (a b : Nat) : Nat × Nat :=
  if isInt then (unsigned 32 (min (signed 32 a) (signed 32 b)), 0) else f32MaxMin false a b

/-- An FP32 operand as arithmetic reads it: subnormals flushed, NaN canonical with INV. -/
def f32Read (a : Nat) : Nat × Nat :=
  match wfVal .fp32 a with
  | .nan => (wfNan .fp32, fINV)
  | v => wfWrite .fp32 false v

/-- VABS and VNEG: the sign bit cleared or inverted; in FP32 a NaN becomes canonical (R159). -/
def laneAbs (isInt : Bool) (a : Nat) : Nat × Nat :=
  if isInt then (putBit (a % 2 ^ 32) 31 false, 0)
  else if isNan (wfVal .fp32 a) then (wfNan .fp32, fINV)
  else (putBit (f32Read a).1 31 false, 0)
def laneNeg (isInt : Bool) (a : Nat) : Nat × Nat :=
  let flip := fun x => putBit x 31 (!(bit x 31))
  if isInt then (flip (a % 2 ^ 32), 0)
  else if isNan (wfVal .fp32 a) then (wfNan .fp32, fINV)
  else (flip (f32Read a).1, 0)

/-- VSHL and VSHR: shifts by b mod 32; VSHR is arithmetic. -/
def laneShl (a b : Nat) : Nat × Nat := ((a <<< (b % 32)) % 2 ^ 32, 0)
def laneShr (a b : Nat) : Nat × Nat := (unsigned 32 (signed 32 a / ((2 ^ (b % 32) : Nat) : Int)), 0)

/-- VEXP2: exp2 (round (round (a × b) - c)) (R164). -/
def laneExp2 (a b c : Nat) : Nat × Nat :=
  let (t, f1) := f32Mul a b
  let (u, f2) := f32Sub t c
  let (y, f3) := f32Exp2 u
  (y, f1 ||| f2 ||| f3)

/-! ## Comparison (R158) -/

/-- A condition of VCMP: 0 EQ, 1 NE, 2 LT, 3 LE, 4 GT, 5 GE, 6 UN, 7 used as EQ. -/
def condHolds (cond : Nat) (un : Bool) (c : Int) : Bool :=
  if cond % 8 = 6 then un
  else if un then false
  else match cond % 8 with
    | 1 => decide (c ≠ 0)
    | 2 => decide (c < 0)
    | 3 => decide (c ≤ 0)
    | 4 => decide (0 < c)
    | 5 => decide (0 ≤ c)
    | _ => decide (c = 0)

/-- One bit of VCMP. -/
def laneCmp (isInt : Bool) (cond a b : Nat) : Bool :=
  if isInt then
    let x := signed 32 a
    let y := signed 32 b
    condHolds cond false (if x < y then -1 else if y < x then 1 else 0)
  else
    let x := wfVal .fp32 a
    let y := wfVal .fp32 b
    condHolds cond (isNan x || isNan y) (fvCmp x y)

/-- One bit of VMSET at row `i`, column `j` (R158). -/
def msetBit (pattern : Nat) (off : Int) (lo hi i j : Nat) : Bool :=
  match pattern with
  | 1 => false
  | 2 => decide ((j : Int) - i ≤ off)
  | 3 => decide (lo ≤ i ∧ i ≤ hi)
  | 4 => decide (lo ≤ j ∧ j ≤ hi)
  | _ => true

/-- VMLOG on two masks: AND, OR, XOR, ANDN. -/
def maskLogic (op ka kb : Nat) : Nat :=
  match op % 4 with
  | 0 => ka &&& kb
  | 1 => ka ||| kb
  | 2 => ka ^^^ kb
  | _ => ka &&& (maskOnes ^^^ kb)

/-! ## Reductions (R162) -/

/-- The identity of a reduction: 0 SUM, 1 MAX, 2 MIN, 3 SUMSQ. -/
def redIdent (isInt : Bool) (op : Nat) : Nat :=
  match op % 4 with
  | 1 => if isInt then 2 ^ 31 else 0xFF800000
  | 2 => if isInt then 2 ^ 31 - 1 else 0x7F800000
  | _ => 0

/-- Combine two values of a reduction. -/
def redComb (isInt : Bool) (sat op x y : Nat) : Nat × Nat :=
  match op % 4 with
  | 1 => laneMax isInt x y
  | 2 => laneMin isInt x y
  | _ => laneAdd isInt sat x y

/-- One level of the pairwise tree over adjacent values. -/
def redLevel (isInt : Bool) (sat op : Nat) : List Nat → List Nat × Nat
  | x :: y :: r =>
    let (v, f) := redComb isInt sat op x y
    let (vs, fs) := redLevel isInt sat op r
    (v :: vs, f ||| fs)
  | l => (l, 0)

/-- The four levels of the tree over a line of sixteen values. -/
def redTree (isInt : Bool) (sat op : Nat) (v : List Nat) : Nat × Nat :=
  let (v, f1) := redLevel isInt sat op v
  let (v, f2) := redLevel isInt sat op v
  let (v, f3) := redLevel isInt sat op v
  let (v, f4) := redLevel isInt sat op v
  (nth v 0 0, f1 ||| f2 ||| f3 ||| f4)

/-- A line of sixteen elements with their mask bits: value, poison, flags. -/
def redLine (isInt : Bool) (sat op : Nat) (line : List (Bool × TElem)) : Nat × Bool × Nat :=
  let bad := line.any (fun e => e.1 && e.2.poison)
  let vf := line.map (fun e =>
    if !e.1 then (redIdent isInt op, 0)
    else if op % 4 = 3 then laneMul isInt sat e.2.bits.toNat e.2.bits.toNat
    else (e.2.bits.toNat, 0))
  let (v, f) := redTree isInt sat op (vf.map (·.1))
  (v, bad, if bad then 0 else (vf.map (·.2)).foldl (· ||| ·) f)

/-! ## Running maxima (R163) -/

/-- ceil of an FP32 value, exact; infinities and NaN unchanged. -/
def f32Ceil (a : Nat) : Nat :=
  match wfVal .fp32 a with
  | .fin neg m e =>
    if 0 ≤ e then a
    else
      let d := 2 ^ e.natAbs
      let x : Int := if neg then -((m / d : Nat) : Int) else ((ceilDiv m d : Nat) : Int)
      (wfOfInt .fp32 x).1
  | _ => a

/-- floor (x - y) of two finite FP32 values, limited below to -2^31. -/
def f32FloorDiff (x y : FVal) : Int :=
  match fvAdd x (fvNeg y) with
  | some (.fin neg m e) =>
    let v : Int :=
      if 0 ≤ e then (if neg then -((m <<< e.natAbs : Nat) : Int) else ((m <<< e.natAbs : Nat) : Int))
      else
        let d := 2 ^ e.natAbs
        if neg then -((ceilDiv m d : Nat) : Int) else ((m / d : Nat) : Int)
    max v (-((2 ^ 31 : Nat) : Int))
  | _ => -((2 ^ 31 : Nat) : Int)

/-- M_new and k of a row from its largest product and M_old: M_new, k, flags. `free` stands for k where
M_old and M_new are both +∞: their difference is not a number, and the rule states no k (log 28). -/
def smaxRow (ci mOld : Nat) (free : Int) : Nat × Int × Nat :=
  if isNan (wfVal .fp32 ci) || isNan (wfVal .fp32 mOld) then (wfNan .fp32, 0, fINV)
  else
    let mNew := (f32MaxMin true mOld (f32Ceil ci)).1
    match wfVal .fp32 mOld, wfVal .fp32 mNew with
    | .inf true, _ => (mNew, 0, 0)
    | .inf false, _ => (mNew, free, fINV)
    | x, y => (mNew, f32FloorDiff x y, 0)

/-! ## Conversions (R58, R166) -/

/-- The pairs R58 lists for VCVT, equal codes besides. -/
def cvtPair (sf df : Nat) : Bool :=
  let fp := [0x00, 0x01, 0x02]
  let int := [0x03, 0x04]
  sf == df || (sf == 0x00 && (df == 0x01 || df == 0x02)) || ((sf == 0x01 || sf == 0x02) && df == 0x00)
    || (fp.contains sf && int.contains df) || (int.contains sf && fp.contains df)
    || ((fp.contains sf || sf == 0x03) && df == 0x05) || (sf == 0x05 && (df == 0x00 || df == 0x01))

/-- A source element that is NaN. -/
def cvtNan (sf : Nat) (anchor : Int) (x : Nat) : Bool :=
  if sf = 0x05 then isNan (g64Val x anchor) else sf != 0x03 && sf != 0x04 && isNan (wideVal sf x)

/-- Convert one element: 64 result bits and flags. `x` holds the source bits (64 for G64). Equal codes copy the bits,
and a NaN read raises INV all the same (R160). -/
def cvtElem (sf df : Nat) (rtz : Bool) (anchor : Int) (head x : Nat) : Nat × Nat :=
  if !(cvtPair sf df) then (0, fINV)
  else if sf = df then (if sf = 0x05 then x else heldAs sf x, if cvtNan sf anchor x then fINV else 0)
  else if sf = 0x05 then
    wfOfG64 (wfOf df) x anchor
  else
    let isInt := sf == 0x03 || sf == 0x04
    let n := signed (if sf = 0x04 then 8 else 32) x
    let v := if isInt then finOf n 0 false else wideVal sf x
    if df = 0x05 then g64OfVal v anchor head
    else if df = 0x03 ∨ df = 0x04 then
      let (y, f) := intOfVal (if df = 0x04 then 8 else 32) rtz v
      (unsigned 32 y, f)
    else
      let (y, f) := wfWrite (wfOf df) (rtz && !isInt) v
      (y, f ||| nanFlag [v])

end Sys2Proof.Machine
end

