-- ==== Sys2Proof/Machine/Image.lean ====
section
/-! DEFINITION. The loaded program image: header (R490) and its tables (R188, R189, R192, R195, R200),
read from the program buffer. -/

namespace Sys2Proof.Machine

/-- Header fields (R490). -/
def imgMagic (s : Block) : Nat := imgNum s 0 4
def imgVersion (s : Block) : Nat := imgNum s 4 2
def imgShapeA (s : Block) : Nat := imgNum s 8 1
def imgShapeB (s : Block) : Nat := imgNum s 9 1
def imgRebuild (s : Block) : Nat := imgNum s 10 2
def imgSize (s : Block) : Nat := imgNum s 12 4
def imgStart (s : Block) : Nat := imgNum s 16 8
def imgResBase (s : Block) : Nat := imgNum s 24 8
def imgResPages (s : Block) : Nat := imgNum s 32 4

/-- The twelve entry sizes of the parts; 1 where a part has no entries of a fixed size. -/
def partEntry : List Nat := [1, 8, 4, 392, 4096, 32, 32, 32, 16, 1, 1, 1]

/-- Entries of a part. -/
def partCount (s : Block) (i : Nat) : Nat := partSize s i / nth partEntry i 1

/-- Segment table (R188): bank, count, offset. -/
def segWord (s : Block) (n : Nat) : Nat := imgNum s (partOff s 1 + 8 * n) 8
def segBank (s : Block) (n : Nat) : Nat := fld (segWord s n) 52 10
def segCount (s : Block) (n : Nat) : Nat := fld (segWord s n) 32 20
def segOffset (s : Block) (n : Nat) : Nat := fld (segWord s n) 0 32

/-- Run template entry (R189). -/
def runWord (s : Block) (n : Nat) : Nat := imgNum s (partOff s 2 + 4 * n) 4

/-- Gallery-set table (R195): mask, and the offset record of a logical gallery. -/
def setMaskOf (s : Block) (n : Nat) : Nat := if n < partCount s 3 then imgNum s (partOff s 3 + 392 * n) 6 else 0
def setRec (s : Block) (n g : Nat) : Nat := imgNum s (partOff s 3 + 392 * n + 8 + 8 * g) 8
def recMoff (r : Nat) : Nat := fld r 0 23
def recRoff (r : Nat) : Nat := fld r 23 22
def recXoff (r : Nat) : Nat := fld r 45 12

/-- A transfer descriptor (R200). -/
def xferDesc (s : Block) (n : Nat) : Nat :=
  if n % 4096 < partCount s 5 then imgNum s (partOff s 5 + 32 * (n % 4096)) 32 else 0
def xdSaddr (d : Nat) : Nat := fld d 179 39
def xdUpd (d : Nat) : Nat := fld d 167 12
def xdMtype (d : Nat) : Nat := fld d 163 4
def xdMop (d : Nat) : Nat := fld d 159 4
def xdMpitch (d : Nat) : Nat := fld d 136 23
def xdLpitch (d : Nat) : Nat := fld d 104 32
def xdRows (d : Nat) : Nat := max 1 (fld d 84 20)
def xdRowBytes (d : Nat) : Nat := fld d 64 20
def xdClass (d : Nat) : Nat := fld d 62 2
def xdMaddr (d : Nat) : Nat := fld d 39 23
def xdLaddr (d : Nat) : Nat := fld d 0 39

/-- A precision-table entry (R192); a cset beyond the table is disabled (R490). -/
def precWord (s : Block) (cset : Nat) : Nat :=
  if cset < partCount s 6 then imgNum s (partOff s 6 + 32 * cset) 32 else 0
def precElems (s : Block) (cset rung : Nat) : Nat := fld (precWord s cset) (48 * rung) 48
def precPages (s : Block) (cset rung : Nat) : Nat :=
  if rung = 0 then 0 else fld (precWord s cset) (144 + 32 * (rung - 1)) 32
def precEnabled (s : Block) (cset : Nat) : Bool := bit (precWord s cset) 223
def precGradient (s : Block) (cset : Nat) : Bool := bit (precWord s cset) 222
def precPriority (s : Block) (cset : Nat) : Nat := fld (precWord s cset) 208 10
def precFmt0 (s : Block) (cset : Nat) : Nat :=
  let f := fld (precWord s cset) 224 8
  if f = 0x11 then 0x11 else 0x10
def precGroup (s : Block) (cset : Nat) : Nat := fld (precWord s cset) 232 8

/-- Enabled csets of the loaded program. -/
def precSets (s : Block) : List Nat := (List.range (min 1024 (partCount s 6))).filter (precEnabled s)

/-- A product-table entry (R192): its csets and the segment of a pair of rungs. -/
def prodRow (s : Block) (n : Nat) : Nat := fld (imgNum s (partOff s 7 + 32 * n) 2) 0 10
def prodWeight (s : Block) (n : Nat) : Nat := fld (imgNum s (partOff s 7 + 32 * n + 2) 2) 0 10
def prodSeg (s : Block) (n r w : Nat) : Nat := imgNum s (partOff s 7 + 32 * n + 4 + 2 * (3 * r + w)) 2

/-- The rack slots of a vote group (R192); group 0 is the module alone. -/
def voteMembers (s : Block) (g : Nat) : List Nat :=
  if g = 0 then [] else maskBits 72 (imgNum s (partOff s 8 + 16 * g) 9)

/-- The width map's bit of a logical array (R85): bits in rising order of gallery, alcove and array, lowest bit of a byte
first (log 92). -/
def narrowCapable (s : Block) (lg alc a : Nat) : Bool :=
  let n := (lg * 8 + alc) * 128 + a
  bit (imgNum s (partOff s 9 + n / 8) 1) (n % 8)

/-- Initial token count of a counter of a logical gallery (R188). -/
def initTok (s : Block) (lg ctr : Nat) : Nat := imgNum s (partOff s 10 + 4 * (lg * 256 + ctr)) 4

/-! ## Bundles as words (R193, R194) -/

/-- Bytes of the program buffer. -/
def bufBytes (s : Block) (off n : Nat) : Bytes := (List.range n).map (fun i => mapGet (0 : Byte) s.prog.bufA (off + i))

/-- Sizes in bytes of the slots M0, M1, V, D, A, S, C. -/
def slotSizes : List Nat := [32, 32, 24, 8, 8, 8, 8]

/-- The length in words that PRESENT implies. -/
def impliedLen (present : Nat) : Nat := 1 + (((maskBits 7 present).map (fun i => nth slotSizes i 0 / 8)).foldl (· + ·) 0)

/-- The slots present in a bundle: class and raw bits. -/
def rawSlots (present : Nat) (b : Bytes) : List (Nat × Nat) :=
  ((maskBits 7 present).foldl (fun (acc : List (Nat × Nat) × Nat) i =>
    let n := nth slotSizes i 0
    (acc.1 ++ [(i, leAt b acc.2 n)], acc.2 + n)) ([], 8)).1

/-- The bundle's slots are discarded (R194). -/
def bundleBad (h : Nat) : Bool := fld h 0 8 != impliedLen (fld h 8 7) || (!(bit h 22) && decide (47 < fld h 16 6))

/-- The collective descriptors that the AGATH slots (R202) of a run of bundles name. -/
def runGathers (s : Block) : Nat → Nat → List Nat → List Nat
  | 0, _, l => l
  | n + 1, off, l =>
    let h := leNat (bufBytes s off 8)
    let slots := if bundleBad h then [] else rawSlots (fld h 8 7) (bufBytes s off (8 * fld h 0 8))
    runGathers s n (off + 8 * max 1 (fld h 0 8))
      ((slots.filter (fun c => c.1 == 4 && fld c.2 0 8 == 3)).foldl (fun l c => setAdd l (fld c.2 8 10)) l)

/-- The collective descriptors that the image's segments use as gathers: those that name cache slots (R302). -/
def imgGathers (s : Block) : List Nat :=
  (List.range (partCount s 1)).foldl (fun l n => runGathers s (segCount s n) (partOff s 0 + segOffset s n) l) []

end Sys2Proof.Machine
end

