-- ==== Sys2Proof/Machine/Quant.lean ====
section
/-! DEFINITION. Quantisation: the turn stage (R117 to R119), outlier extraction (R121 to R123), scale
choice (R126 to R128), rounding (R130), counters and trackers (R129, R131, R136), for VQNT and for
the update engines (R133), and the dequantisation of VDQN (R166). -/

namespace Sys2Proof.Machine

/-! ## The turn (R117 to R119) -/

/-- An FP32 value with the flags its lane has raised. -/
abbrev FlagVal := Nat × Nat

/-- log2 of a turn code's size, 0 for none, and whether a code was substituted (R114). -/
def turnLog (code : Nat) : Nat × Bool :=
  if code = 0 then (0, false) else if code ≤ 5 then (code + 3, false) else (0, true)

/-- s = ceil(log2 n / 2). -/
def turnShift (lg : Nat) : Nat := ceilDiv lg 2

/-- One butterfly of two values. -/
def bflyAdd (x y : FlagVal) : FlagVal := let r := f32Add x.1 y.1; (r.1, x.2 ||| r.2)
def bflySub (x y : FlagVal) : FlagVal := let r := f32Sub x.1 y.1; (r.1, y.2 ||| r.2)

/-- One butterfly stage at distance `h` over `n` groups of `2h` values. -/
def bflyStage (h : Nat) : Nat → List FlagVal → List FlagVal
  | 0, v => v
  | n + 1, v =>
    let a := v.take h
    let b := (v.drop h).take h
    List.zipWith bflyAdd a b ++ List.zipWith bflySub a b ++ bflyStage h n (v.drop (2 * h))

/-- The stages at distances 1, 2, 4, … (log 16). -/
def butterflies (lg : Nat) (v : List FlagVal) : List FlagVal :=
  (List.range lg).foldl (fun v i => bflyStage (2 ^ i) (2 ^ (lg - 1 - i)) v) v

/-- Multiply by a power of two, exact apart from flushing. -/
def scaleFlag (k : Int) (x : FlagVal) : FlagVal := let r := f32Scale x.1 k; (r.1, x.2 ||| r.2)

/-- Invert the sign of a value that is not NaN. -/
def signFlip (d : Bool) (x : FlagVal) : FlagVal :=
  if d && !(isNan (wfVal .fp32 x.1)) then (putBit x.1 31 (!(bit x.1 31)), x.2) else x

/-- The turn of one block of `2^lg` values (R117). `signs` is true where d[k] is -1. -/
def turnBlock (lg : Nat) (signs : List Bool) (v : List FlagVal) : List FlagVal :=
  (butterflies lg (List.zipWith signFlip signs v)).map (scaleFlag (-(turnShift lg : Int)))

/-- The inverse turn of one block (R166). -/
def unturnBlock (lg : Nat) (signs : List Bool) (v : List FlagVal) : List FlagVal :=
  List.zipWith signFlip signs ((butterflies lg v).map (scaleFlag ((turnShift lg : Int) - lg)))

/-- Apply a block function over whole blocks of `n`; what is left passes unchanged (R117). -/
def overBlocks (n : Nat) (f : List Bool → List FlagVal → List FlagVal) :
    Nat → List Bool → List FlagVal → List FlagVal
  | 0, _, v => v
  | k + 1, d, v =>
    if v.length < n then v
    else f (d.take n) (v.take n) ++ overBlocks n f k (d.drop n) (v.drop n)

/-- Poison of a whole block spreads over it (R172). -/
def spreadPoison (n : Nat) : Nat → List Bool → List Bool
  | 0, p => p
  | k + 1, p =>
    if p.length < n then p
    else List.replicate n ((p.take n).any id) ++ spreadPoison n k (p.drop n)

/-! ## One row of a run (R116) -/

/-- Parameters of a row. -/
structure QParam where
  fmt : Nat
  lvl : Nat
  lg : Nat
  signs : List Bool
  rho : Nat
  fixed : Option Nat
  sr : Bool
  /-- The rung-0 format whose emax the tracker uses for MX blocks (R136); none: MX is not tracked. -/
  track : Option Nat
  deriving DecidableEq, Repr, Inhabited

/-- A quantised row: codes and scale of each block, its poison, the outlier record, the flags of each
position and what it counts. -/
structure QRow where
  blocks : List (List Nat × Nat × Bool)
  record : Bytes
  flags : List Nat
  count : CSet
  deriving DecidableEq, Repr, Inhabited

/-- Magnitude bits of an FP32 value, and the magnitude as a dyadic. -/
def f32Mag (x : Nat) : Nat := fld x 0 31
def f32Dy (x : Nat) : Nat × Int :=
  match wfVal .fp32 x with
  | .fin _ m e => (m, e)
  | _ => (0, 0)

/-- Not finite. -/
def f32Bad (x : Nat) : Bool := decide (fld x 23 8 = 255)

/-- Split into chunks of `n`. -/
def chunks (n : Nat) : Nat → List α → List (List α)
  | 0, _ => []
  | k + 1, l => if l.isEmpty then [] else l.take n :: chunks n k (l.drop n)

/-- Keep the five largest, in falling order. -/
def topInsert : Nat → List Nat → List Nat
  | x, [] => [x]
  | x, a :: r => if a < x then x :: a :: r else a :: topInsert x r

/-- The fifth-largest magnitude, 0 for fewer than five values (R121). -/
def fifthLargest (l : List Nat) : Nat :=
  nth (l.foldl (fun top x => (topInsert x top).take 5) []) 4 0

/-- A candidate of extraction: position and FP32 bits. -/
def candBetter (a b : Nat × Nat) : Bool :=
  decide (f32Mag b.2 < f32Mag a.2) || (f32Mag a.2 == f32Mag b.2 && decide (a.1 < b.1))

/-- Extraction of a span (R121, R122). Values come with a mark for positions of invalid or poisoned
blocks. Answers the values left with flags, the extracted `(position, BF16)` in rising position, and
the number of clamped candidates. -/
def extractSpan (rho : Nat) (v : List (FlagVal × Bool)) : List FlagVal × List (Nat × Nat) × Nat :=
  let m5 := fifthLargest ((v.filter (fun e => !e.2)).map (fun e => f32Mag e.1.1))
  if rho = 0 ∨ m5 = 0 then (v.map (·.1), [], 0)
  else
    let (rm, re) := ue5m3 rho
    let (mm, me) := f32Dy m5
    let thr := (rm * mm, re + me)
    let idx := v.zipIdx
    let cand : List (Nat × Nat) := idx.filterMap (fun e =>
      let (d, x) := f32Dy e.1.1.1
      if !e.1.2 && !(dyLe d x thr.1 thr.2) then some (e.2, e.1.1.1) else none)
    let chosen : List (Nat × Nat) := cand.filterMap (fun c =>
      let better := (cand.filter (fun b => b.1 / 16 == c.1 / 16 && candBetter b c)).length
      let r := wfWrite .bf16 false (wfVal .fp32 c.2)
      if better < 2 ∧ fld r.1 7 8 ≠ 0 then some (c.1, r.1) else none)
    let (cl, cf) := wfRound .fp32 false false thr.1 thr.2 false
    let out := idx.map (fun e =>
      let k := e.2
      let x := e.1.1
      if chosen.any (fun c => c.1 == k) then
        (0, x.2 ||| (wfWrite .bf16 false (wfVal .fp32 x.1)).2)
      else if cand.any (fun c => c.1 == k) then (cl + (if bit x.1 31 then 2 ^ 31 else 0), x.2 ||| cf)
      else x)
    (out, chosen, cand.length - chosen.length)

/-- The outlier record of a span (R123). -/
def outlierRecord (l : List (Nat × Nat)) : Bytes :=
  slice (l.flatMap (fun e => leBytes 2 e.2)) 0 8 ++ slice (l.map (fun e => BitVec.ofNat 8 e.1)) 0 4 ++
    [BitVec.ofNat 8 l.length, 0, 0, 0]

/-- The scale of a block whose largest magnitude is `a = m * 2^e` (R126): code, level overflow. -/
def chooseScale (fmt lvl m : Nat) (e : Int) : Nat × Bool :=
  if m = 0 then (0, false)
  else
    let (em, ee) := elemMax fmt
    if isTread fmt then
      let a := e - ((lvl : Int) - 127)
      match (range' 1 254).find? (fun c =>
          let (sm, se) := ue5m3 c
          dyLe m a (sm * em) (se + ee)) with
      | some c => (c, false)
      | none => (0xFE, true)
    else
      let (n, d) := dyRatio m e em ee
      let x := ratClog2 n d + 127
      if 254 < x then (254, true) else (x.toNat, false)

/-- Round the values of one block in order; `draw` gives the output of the lane of a position.
Answers code, saturated, inexact for each. -/
def roundBlock (p : QParam) (sm : Nat) (se : Int) (draw : Nat → Block → Nat × Block) :
    Nat → List Nat → Block → List (Nat × Bool × Bool) × Block
  | _, [], s => ([], s)
  | k, x :: r, s =>
    let (m, e) := f32Dy x
    let neg := bit x 31
    let (n, d) := dyRatio m e sm se
    let (res, s) :=
      if p.sr && elemInexact p.fmt n d then
        let (o, s) := draw k s
        let b := srBits p.fmt
        (elemRound p.fmt neg n d (some (b, o >>> (64 - b))), s)
      else (elemRound p.fmt neg n d none, s)
    let (rest, s) := roundBlock p sm se draw (k + 1) r s
    (res :: rest, s)

/-- The level tracker of a group of values (R129, R136): ceil(log2(max / emax)) (log 17). -/
def trackOf (fmt : Nat) (v : List Nat) : Option Int :=
  let m := maxNat (v.map f32Mag)
  let (d, e) := f32Dy m
  if d = 0 then none
  else
    let (em, ee) := elemMax fmt
    let (n, k) := dyRatio d e em ee
    some (ratClog2 n k)

/-- One block (R126 to R131): codes, scale, flags of its positions, counts. `nz` marks elements that
were not zero after the turn and were not extracted. DESIGN CHOICE (log 71): a saturating element
raises SAT alone, not INX with it. -/
def quantBlock (p : QParam) (k : Nat) (v : List Nat) (nz : List Bool)
    (draw : Nat → Block → Nat × Block) (s : Block) : (List Nat × Nat × List Nat × CSet) × Block :=
  let m := maxNat (v.map f32Mag)
  let (dm, de) := f32Dy m
  let tracker :=
    if isTread p.fmt then trackOf p.fmt v
    else match p.track with
      | some f => (chunks 16 2 v).foldl (fun t g => maxT t (trackOf f g)) none
      | none => none
  let zeroOut := (List.replicate v.length 0, 0, List.replicate v.length 0, { csetZero with tracker := tracker })
  match p.fixed, dm with
  | none, 0 => (zeroOut, s)
  | fx, _ =>
    let (code, lov) := match fx with
      | some c => (c, false)
      | none => chooseScale p.fmt p.lvl dm de
    let (sm, se) := (scaleVal p.fmt code).getD (1, 0)
    let se := se + (levelExp p.fmt p.lvl).getD 0
    let (rs, s) := roundBlock p sm se draw k v s
    let codes := rs.map (·.1)
    let zero := rs.map (fun r => decide (isZero (elemVal p.fmt r.1)))
    let fl := rs.map (fun r => if r.2.1 then fSAT else if r.2.2 then fINX else 0)
    let zeroed := (List.zipWith (· && ·) zero nz).filter id |>.length
    let sat := (rs.filter (fun r => r.2.1)).length
    let scale := if isTread p.fmt && zero.all id then 0 else code
    ((codes, scale, fl, { zeroed := zeroed, saturated := sat, bov := 0, lvlOvf := b2n lov, tracker }), s)

/-- Blocks of a row in order. -/
def quantBlocks (p : QParam) (draw : Nat → Block → Nat × Block) :
    Nat → List (List (Nat × Bool × Bool × Bool)) → Block →
      (List (List Nat × Nat × Bool) × List (List Nat) × CSet) × Block
  | _, [], s => (([], [], csetZero), s)
  | k, b :: r, s =>
    let n := b.length
    -- each entry: value, nz, invalid block, poisoned block
    let bad := b.any (fun e => e.2.2.1)
    let poi := b.any (fun e => e.2.2.2)
    let ((codes, scale, fl, c), s) :=
      if poi then ((List.replicate n 0, 0xFF, List.replicate n 0, csetZero), s)
      else if bad then ((List.replicate n 0, 0xFF, List.replicate n fINV, csetZero), s)
      else quantBlock p k (b.map (·.1)) (b.map (fun e => e.2.1)) draw s
    let ((bs, fs, cs), s) := quantBlocks p draw (k + n) r s
    (((codes, scale, poi) :: bs, fl :: fs, csetAdd c cs), s)

/-- Quantise a row: source FP32 values with flags and poison, padding excluded (R116). `draw k` is the
generator output of position `k`. -/
def quantRow (p : QParam) (x : List (FlagVal × Bool)) (draw : Nat → Block → Nat × Block)
    (s : Block) : QRow × Block :=
  let bl := blockLen p.fmt
  let n := 2 ^ p.lg
  let poi := x.map (·.2)
  let poi := if p.lg = 0 then poi else spreadPoison n 16 poi
  if isTread p.fmt && p.lvl == 0xFF then
    let marks := (chunks bl 16 poi).map (fun c => (c.length, c.any id))
    ({ blocks := marks.map (fun c => (List.replicate c.1 0, 0xFF, c.2))
       record := zeros 16, flags := marks.flatMap (fun c => List.replicate c.1 (if c.2 then 0 else fINV))
       count := csetZero }, s)
  else
    let src := x.map (fun e => if e.2 then (0, 0) else e.1)
    let y := if p.lg = 0 then src else overBlocks n (turnBlock p.lg) 16 p.signs src
    let blocks := chunks bl 16 (List.zip y poi)
    let marks := blocks.flatMap (fun b =>
      let pz := b.any (·.2)
      let iv := !pz && b.any (fun e => f32Bad e.1.1)
      List.replicate b.length (iv, pz))
    let ex := extractSpan p.rho (List.zipWith (fun v m => (v, m.1 || m.2)) y marks)
    let nz := y.zipIdx.map (fun e => f32Mag e.1.1 != 0 && !(ex.2.1.any (fun c => c.1 == e.2)))
    let rows := List.zipWith (fun v m => (v, m)) (List.zip ex.1 nz) marks
    let ((bs, fl, c), s) := quantBlocks p draw 0
      (chunks bl 16 (rows.map (fun e => (e.1.1.1, e.1.2, e.2.1, e.2.2)))) s
    let flags := List.zipWith (fun a m => if m.2 then 0 else a) 
      (List.zipWith (fun (v : FlagVal) f => v.2 ||| f) ex.1 fl.flatten) marks
    ({ blocks := bs, record := outlierRecord ex.2.1, flags,
       count := { c with bov := satN 32 (c.bov + ex.2.2) } }, s)

/-! ## Dequantisation (R166) -/

/-- One row of VDQN before the inverse turn: value with flags, and poison. `codes` and `scales` come
with their poison; the outlier record is none when rho is off. -/
def dequantRow (fmt lvl width : Nat) (elem scale : List (Byte × Bool))
    (rec : Option (List (Byte × Bool))) : List (FVal × Bool) :=
  let bl := blockLen fmt
  let w := elemBits fmt
  let bb := blockBytes fmt
  let base := (List.range width).map (fun k =>
    let j := k / bl
    let i := k % bl
    let blk := (elem.drop (j * bb)).take bb
    let code := elemAt fmt (plain blk) i
    let sb := nth scale j (0, false)
    let first := w * i / 8
    let last := (w * i + w - 1) / 8
    let pe := anyPoison ((blk.drop first).take (last + 1 - first))
    (deqVal fmt code sb.1.toNat lvl, pe || sb.2))
  match rec with
  | none => base
  | some r =>
    let rb := plain r
    let cnt := min 4 (leAt rb 12 1 % 8)
    let outs := (List.range cnt).map (fun i =>
      (leAt rb (8 + i) 1, wfVal .bf16 (leAt rb (2 * i) 2)))
    let pr := anyPoison r
    base.zipIdx.map (fun e => match outs.find? (fun o => o.1 == e.2) with
      | some o => (o.2, pr)
      | none => e.1)

end Sys2Proof.Machine
end

