-- ==== Sys2Proof/Machine/Arrays.lean ====
section
/-! DEFINITION. The matrix arrays: weight loads (R64 to R68, R486, R487), streams (R69 to R77, R488),
what a row contributes (R47, R78 to R80, R92 to R96), the banister unit (R124, R125). -/

namespace Sys2Proof.Machine

/-! ## Weight buffers -/

/-- A buffer that no load has filled. DESIGN CHOICE (log 73): its format is TF4, its width 16 columns and
its level 0x7F, so that an underrun of such a buffer marks every column. -/
def wbufEmpty : WBuf :=
  { complete := false, counted := false, par := none, fmt := 0x10, width := 15, lvl := 0x7F
    elems := List.replicate 256 { code := 0, poison := false }
    scales := List.replicate 16 { code := 0, poison := false }
    banister := 0, outliers := List.replicate 16 (List.replicate 16 (0, false)) }

/-- Buffer `b` of an array. -/
def wbuf (s : Block) (arr b : Nat) : WBuf := mapGet wbufEmpty s.arr.wbuf (arr * 2 + b % 2)
def setWbuf (arr b : Nat) (w : WBuf) (s : Block) : Block :=
  { s with arr := { s.arr with wbuf := mapSet wbufEmpty s.arr.wbuf (arr * 2 + b % 2) w } }

/-- The active buffer of an array; the other one is the loading buffer. -/
def activeBuf (s : Block) (arr : Nat) : Nat := mapGet 0 s.arr.active arr
def activeWbuf (s : Block) (arr : Nat) : WBuf := wbuf s arr (activeBuf s arr)
def loadingWbuf (s : Block) (arr : Nat) : WBuf := wbuf s arr (1 - activeBuf s arr)

/-- Exchange the buffers. -/
def swapBufs (arr : Nat) (s : Block) : Block :=
  { s with arr := { s.arr with active := mapSet 0 s.arr.active arr (1 - activeBuf s arr) } }

/-- The load on an array's weight port. -/
def portJob (s : Block) (arr : Nat) : Option LoadJob := mapGet none s.arr.ports arr
def setPort (arr : Nat) (j : Option LoadJob) (s : Block) : Block :=
  { s with arr := { s.arr with ports := mapSet none s.arr.ports arr j } }

/-! ## Loads -/

/-- Cycles of a load (R66). -/
def loadTime (fmt : Nat) : Nat := 8 * elemBits fmt

/-- Start a load into the loading buffer; a load still on the port is abandoned (R68). -/
def startLoad (arr : Nat) (p : LoadParam) (s : Block) : Block :=
  let b := 1 - activeBuf s arr
  let s := match portJob s arr with
    | some j => setWbuf arr j.buf { wbuf s arr j.buf with complete := false } s
    | none => s
  let s := setWbuf arr b { wbufEmpty with par := some p, fmt := p.fmt, width := p.width, lvl := p.lvl } s
  setPort arr (some { buf := b, start := cyc s, par := p, words := [], scaleBytes := [], banister := 0, outliers := [] }) s

/-- The buffer a finished load has filled: elements column by column, 16 to a column (R67). -/
def loadedBuf (j : LoadJob) : WBuf :=
  let w := elemBits j.par.fmt
  let bits := leNat (plain j.words)
  let elems := (List.range 256).map (fun i =>
    let first := w * i / 8
    let last := (w * i + w - 1) / 8
    { code := fld bits (w * i) w, poison := anyPoison ((j.words.drop first).take (last + 1 - first)) })
  { complete := true, counted := false, par := some j.par, fmt := j.par.fmt, width := j.par.width, lvl := j.par.lvl, elems
    scales := j.scaleBytes.map (fun b => { code := b.1.toNat, poison := b.2 })
    banister := j.banister
    outliers := j.outliers ++ List.replicate (16 - j.outliers.length) (List.replicate 16 (0, false)) }

/-- The reads of a load in the present cycle (R487). -/
def loadReads (g : Nat) (s : Block) (j : LoadJob) : LoadJob :=
  let k := cyc s - j.start
  let j := if k < loadTime j.par.fmt then { j with words := j.words ++ mezzRead s g (j.par.src + 4 * k) 4 } else j
  let j := if k < 16 then { j with scaleBytes := j.scaleBytes ++ mezzRead s g (j.par.scaleSrc + k) 1 } else j
  let j := if k = 16 then { j with banister := (mezzByte s g (j.par.scaleSrc + 16)).1.toNat } else j
  if 16 ≤ k ∧ k < 32 ∧ bit j.banister 7 then
    { j with outliers := j.outliers ++ [mezzRead s g (j.par.scaleSrc + 32 + 16 * (k - 16)) 16] }
  else j

/-- One array's load in the present cycle. An injected parity error poisons an element (R335). -/
def loadStep (arr : Nat) (j : LoadJob) (s : Block) : Block :=
  let g := arrGal arr
  let j := loadReads g s j
  if cyc s + 1 < j.start + loadTime j.par.fmt then setPort arr (some j) s
  else
    let loc := locOf 0 g (arrAlc arr) (arrPhys arr) 0 0
    let (hit, s) := inject 0x0B loc s
    let w := loadedBuf j
    let w := if hit then
        { w with elems := match w.elems with | [] => [] | e :: r => { e with poison := true } :: r }
      else w
    let s := if hit then detect 0x0B loc true 0 0 [] s else s
    setPort arr none (setWbuf arr j.buf w s)

/-- Every weight port in the present cycle. -/
def loadCycle (s : Block) : Block :=
  forEach s.arr.ports (fun e s => match e.2 with | some j => loadStep e.1 j s | none => s) s

/-! ## Groups as the operations issued so far leave them (R488) -/

/-- Open groups of an array after the landing operations still held: number, base, end, S, and the
opening's issue number. -/
def groupsAfter (s : Block) (arr : Nat) : List (Nat × Nat × Nat × Nat × Nat) :=
  let now := (groupsOf s arr).filterMap (fun e =>
    if e.2.closeAt.isNone then some (e.1, e.2.base, slotEnd e.2, e.2.s, e.2.id) else none)
  s.arr.held.foldl (fun l h =>
    if h.arrays.contains arr then
      match h.op with
      | .mopen _ f =>
        let (base, n, wide, _, _) := openPlan f
        let e := base + n * (if wide then 2 else 1)
        l.filter (fun v => v.1 != f.group % 64 && !(decide (v.2.1 < e) && decide (base < v.2.2.1)))
          ++ [(f.group % 64, base, e, n, h.order)]
      | .mclose _ f => l.filter (fun v => v.1 != f.group % 64)
      | _ => l
    else l) now

/-- S of a group an array holds open, and its opening. -/
def slotCountAfter (s : Block) (arr grp : Nat) : Option (Nat × Nat) :=
  ((groupsAfter s arr).find? (fun v => v.1 == grp % 64)).map (fun v => v.2.2.2)

/-! ## Streams: timing -/

/-- Half-cycles of a row, and how many of them carry its elements: 4 bytes each (R69, R75, R76). -/
def rowHalves (t : Stream) : Nat := max (rateHalves t.fmt) (rateHalves t.wfmt)
def rowChunks (t : Stream) : Nat := elemBits t.fmt / 2

/-- Rows of the present pass (R71). -/
def passRows (t : Stream) : Nat :=
  if t.pass + 1 = t.npass then t.f.nRows % 2 ^ 20 + 1 - t.pass * t.s else t.s

/-- Cycles of the present pass: one followed by new tiles lasts at least their longest load. -/
def passCycles (t : Stream) : Nat :=
  let d := ceilDiv (passRows t * rowHalves t) 2
  if t.f.advance % 2 = 1 ∧ t.pass + 1 < t.npass then max d t.wload else d

/-- The row and chunk of half-cycle `h` of the present pass, where a row is fed. A row that takes more cycles than beats
has its beats first (log 88). -/
def halfRow (t : Stream) (h : Nat) : Option (Nat × Nat) :=
  let r := h / rowHalves t
  let i := h % rowHalves t
  if r < passRows t ∧ i < rowChunks t ∧ bit t.f.rowMask r then some (r, i) else none

/-- A stream feeds a real beat in cycle `c`. -/
def feedsAt (t : Stream) (c : Nat) : Bool :=
  decide (t.passStart ≤ c) &&
    ((halfRow t (2 * (c - t.passStart))).isSome || (halfRow t (2 * (c - t.passStart) + 1)).isSome)

/-- Reduction positions fed in the present pass (R71). -/
def passKmask (t : Stream) : Nat :=
  if t.pass + 1 = t.npass ∨ t.f.advance % 2 = 0 then t.f.kMask % 2 ^ 16 else 0xFFFF

/-! ## Outlier records (R123 to R125) -/

/-- Entries of a record for tread index `i`: the two lowest slots as `(position, value, poison)`, and how
many more there are. A slot is poisoned with a byte of its value, its position or the count (log 76). -/
def recEntries (rec : List (Byte × Bool)) (i : Nat) : List (Nat × FVal × Bool) × Nat :=
  let b := plain rec
  let n := min 4 (leAt b 12 1 % 8)
  let poi := fun (j : Nat) => (nth rec j (0, false)).2
  let l := (List.range n).filterMap (fun k =>
    let p := leAt b (8 + k) 1
    if p / 16 = i then some (p % 16, wfVal .bf16 (leAt b (2 * k) 2), poi (2 * k) || poi (2 * k + 1) || poi (8 + k) || poi 12)
    else none)
  (l.take 2, l.length - 2)

/-- A value that is no finite number. -/
def fvBad : FVal → Bool
  | .fin _ _ _ => false
  | _ => true

/-- A finite value as a signed dyadic. -/
def fvDy : FVal → Int × Int
  | .fin neg m e => (if neg then -(m : Int) else m, e)
  | _ => (0, 0)

/-- Sum and product of signed dyadics. -/
def dyAdd (a b : Int × Int) : Int × Int :=
  if a.1 = 0 then b else if b.1 = 0 then a
  else
    let e := min a.2 b.2
    (a.1 * ((2 ^ (a.2 - e).toNat : Nat) : Int) + b.1 * ((2 ^ (b.2 - e).toNat : Nat) : Int), e)
def dyMul (a b : Int × Int) : Int × Int := (a.1 * b.1, a.2 + b.2)

/-- Leading binade of a non-zero dyadic. -/
def dyLead (a : Int × Int) : Int := (ilog2 a.1.natAbs : Int) + a.2

/-! ## The column group (R92) -/

/-- Sum of sixteen exact products kept in the 40-bit window, with t and whether a bit was lost. -/
def columnGroup (p : List (Int × Int)) : (Int × Int) × Option Int × Bool :=
  let nz := p.filter (fun x => x.1 != 0)
  match nz with
  | [] => ((0, 0), none, false)
  | _ =>
    let t := nz.foldl (fun t x => max t (dyLead x)) (-100000)
    let low := t - 39
    let cut := fun (x : Int × Int) =>
      if low ≤ x.2 then (x, false)
      else
        let n := 2 ^ (low - x.2).toNat
        let m := x.1.natAbs / n
        (((if x.1 < 0 then -(m : Int) else m), low), x.1.natAbs % n != 0)
    let ks := nz.map cut
    let sum := ks.foldl (fun a x => dyAdd a x.1) (0, 0)
    (sum, if sum.1 = 0 then none else some t, ks.any (·.2))

/-! ## One row against one array -/

/-- A row as it is fed: element codes with poison, scale code with poison. -/
structure FedRow where
  fmt : Nat
  lvl : Nat
  codes : List (Nat × Bool)
  scale : Nat × Bool
  kmask : Nat
  rho : Bool
  deriving DecidableEq, Repr, Inhabited

/-- Exponent part of a scale for the group exponent (R94). -/
def scaleE (fmt c : Nat) : Int :=
  match scaleVal fmt c with
  | some (_, e) => if isTread fmt then e + 3 else e
  | none => 0

/-- What a row contributes to the sixteen columns of an array's active tile (R47, R77 to R80, R92 to
R96, R125). `rowRec` holds the entries of the row's record for the pass's tread with their poison.
DESIGN CHOICE (log 68): an invalid row leaves the columns above the tile's width as they are. -/
def rowColumns (r : FedRow) (w : WBuf) (under narrowed : Bool) (rowRec : List (Nat × FVal × Bool)) : List ColC :=
  let ks := maskBits 16 r.kmask
  let rlv := (levelExp r.fmt r.lvl)
  let wlv := (levelExp w.fmt w.lvl)
  let xs := r.codes.map (fun c => elemVal r.fmt c.1)
  let rents := rowRec.filter (fun e => bit r.kmask e.1)
  let rsc := scaleVal r.fmt r.scale.1
  let rowInv := rsc.isNone || rlv.isNone || ks.any (fun k => fvBad (nth xs k .nan)) || rents.any (fun e => fvBad e.2.1)
  let rowPoi := r.scale.2 || ks.any (fun k => (nth r.codes k (0, false)).2) || rents.any (fun e => e.2.2)
  let tile := r.rho && bit w.banister 7
  (List.range 16).map (fun c =>
    let active := decide (c ≤ w.width)
    let dead : ColC := { active, m := 0, e := 0, g := none, lost := false, invalid := false, poison := false }
    let bad := under || (narrowed && c == 15)
    if ks.isEmpty || !active then { dead with invalid := bad }
    else
      let col := (w.elems.drop (16 * c)).take 16
      let sc := nth w.scales c { code := 0, poison := false }
      let tents := if tile then (recEntries (nth w.outliers c []) (w.banister % 16)).1.filter (fun e => bit r.kmask e.1) else []
      let ws := col.map (fun (e : PCode) => elemVal w.fmt e.code)
      let wsc := scaleVal w.fmt sc.code
      let colInv := wsc.isNone || wlv.isNone || ks.any (fun k => fvBad (nth ws k .nan)) || tents.any (fun e => fvBad e.2.1)
      let colPoi := sc.poison || ks.any (fun k => (nth col k { code := 0, poison := false }).poison) || tents.any (fun e => e.2.2)
      let base := { dead with invalid := bad || rowInv || colInv, poison := rowPoi || colPoi }
      if bad || rowInv || colInv then base
      else
        let (rm, re) := rsc.getD (0, 0)
        let (wm, we) := wsc.getD (0, 0)
        let lv := rlv.getD 0 + wlv.getD 0
        let prods := ks.map (fun k => dyMul (fvDy (nth xs k .nan)) (fvDy (nth ws k .nan)))
        let (sum, t, lost) := columnGroup prods
        let main : Int × Int := (sum.1 * (rm * wm : Nat), sum.2 + re + we + lv)
        let gMain := if main.1 = 0 then none
          else t.map (fun t => t + scaleE r.fmt r.scale.1 + scaleE w.fmt sc.code + lv)
        -- banister terms (R125)
        let deq := fun (v : FVal) (m : Nat) (e lv : Int) =>
          let d := fvDy v
          ((d.1 * (m : Int), d.2 + e + lv) : Int × Int)
        let terms := ks.filterMap (fun k =>
          let ox := rents.find? (fun e => e.1 == k)
          let ow := tents.find? (fun e => e.1 == k)
          match ox, ow with
          | none, none => none
          | _, _ =>
            let x := match ox with
              | some o => fvDy o.2.1
              | none => deq (nth xs k .nan) rm re (rlv.getD 0)
            let v := match ow with
              | some o => fvDy o.2.1
              | none => deq (nth ws k .nan) wm we (wlv.getD 0)
            let p := dyMul x v
            if p.1 = 0 then none else some p)
        let total := terms.foldl dyAdd main
        let g := terms.foldl (fun g p => maxT g (some (dyLead p))) gMain
        { base with m := total.1, e := total.2, g := g, lost := lost })

/-! ## Streams: set-up of a pass (R71) -/

/-- Count ignored outlier entries: the alcove's count and the set of the row descriptor (R125). -/
def countIgnored (t : Stream) (n : Nat) (s : Block) : Block :=
  if n = 0 then s
  else
    let s := { s with arr := { s.arr with banOverflow := mapMod 0 s.arr.banOverflow (t.gal * 8 + t.alc) (fun v => satN 32 (v + n)) } }
    if t.mirror then s else countCset t.gal t.ctx.tag (tdCset (leNat t.desc)) { csetZero with bov := n } s

/-- A tile that does not fit the narrowed array it reaches (R87). -/
def tooWide (s : Block) (arr : Nat) (w : WBuf) : Bool := decide (mapGet 0 s.bind.narrow arr ≠ 0) && w.width == 15

/-- Count the ignored entries of an active tile's records, once for each load of the tile: in the first
stream whose row descriptor makes the banister unit read them (R124, R125). The records of columns above the width are
not read, so their entries do not count (log 91). -/
def countTile (t : Stream) (arr : Nat) (s : Block) : Block :=
  let w := activeWbuf s arr
  if rhoUsed (tdRho (leNat t.desc)) ≠ 0 ∧ bit w.banister 7 ∧ !w.counted then
    countIgnored t (((w.outliers.take (w.width + 1)).map (fun o => (recEntries o (w.banister % 16)).2)).foldl (· + ·) 0)
      (setWbuf arr (activeBuf s arr) { w with counted := true } s)
  else s

/-- Set up one array for a pass: swap, underrun, width fault, the next tile's load. Each array counts its treads from
the J of its own first tile (log 90), and one whose first tile no MLOAD.W loaded loads no next tile (log 89). -/
def setupArr (t : Stream) (a : StrArr) (s : Block) : StrArr × Block :=
  let adv := t.f.advance % 2 == 1
  let (a, s) :=
    if t.pass = 0 ∨ adv then
      let s := swapBufs a.arr s
      let w := activeWbuf s a.arr
      let under := !w.complete
      let s := slotFaultIf under .underrun t.gal t.ctx a.arr s
      let s := slotFaultIf (tooWide s a.arr w) .width t.gal t.ctx a.arr s
      let a := { a with under := under }
      let a := if t.pass = 0 then { a with j0 := w.banister % 16, par := w.par } else a
      (a, countTile t a.arr s)
    else (a, s)
  match adv && decide (t.pass + 1 < t.npass), a.par with
  | true, some p =>
    let d := (t.pass + 1) * t.f.wPassStride
    (a, startLoad a.arr { p with src := p.src + d, scaleSrc := p.scaleSrc + d } s)
  | _, _ => (a, s)

/-- Set up every array of a stream. -/
def setupGo (t : Stream) : List StrArr → Block → List StrArr × Block
  | [], s => ([], s)
  | a :: r, s =>
    let (a, s) := setupArr t a s
    let (r, s) := setupGo t r s
    (a :: r, s)

def setupPass (t : Stream) (s : Block) : Stream × Block :=
  let (as, s) := setupGo t t.arrays s
  ({ t with arrays := as, ready := true, got := [], scale := (0, false) }, s)

/-! ## Streams: beats -/

/-- Mezzanine address of a row (R71), and of its scale byte (R69). DESIGN CHOICE (log 74): with an element
pitch of 0 the plane is one row. -/
def rowAddr (t : Stream) (r : Nat) : Nat :=
  (t.f.rowBase + t.ctx.moff + t.pass * t.f.passStride + r * t.f.rowPitch) % 2 ^ 23
def rowScaleAddr (t : Stream) (r : Nat) : Nat :=
  let d := leNat t.desc
  let e := (tdElemBase d % 2 ^ 23 + t.ctx.moff) % 2 ^ 23
  let o := (rowAddr t r + 2 ^ 23 - e) % 2 ^ 23
  let p := tdElemPitch d
  let b := blockBytes t.fmt
  let sb := tdScaleBase d % 2 ^ 23 + t.ctx.moff
  if p = 0 then sb + o / b else sb + (o / p) * tdScalePitch d + (o % p) / b

/-- The row-side record of an array in the present pass (R124): address, tread index. -/
def rowRecAddr (t : Stream) (a : StrArr) (r : Nat) : Nat × Nat :=
  let d := leNat t.desc
  let tau := a.j0 + t.pass
  (tdOutBase d % 2 ^ 23 + t.ctx.moff + r * tdOutPitch d + 16 * (tau / 16), tau % 16)

/-- Row records whose tread the present pass reaches first: an array whose tiles started further on has
reached the later treads before (R125: once for each stream that feeds the row). -/
def newRecs (t : Stream) (r : Nat) : List (Nat × Nat) :=
  ((t.arrays.filter (fun a => !(t.arrays.any (fun b => decide (a.j0 < b.j0) && decide (b.j0 ≤ a.j0 + t.pass))))).map
    (fun a => rowRecAddr t a r)).foldl (fun l x => if l.contains x then l else l ++ [x]) []

/-- The contributions of a row whose last beat is in the present cycle. Its outlier record is read in this cycle
(log 24). -/
def rowContribs (t : Stream) (r : Nat) (s : Block) : List Contrib × Block :=
  let d := leNat t.desc
  let rho := rhoUsed (tdRho d) != 0
  let w := elemBits t.fmt
  let bits := leNat (plain t.got)
  let codes := (List.range 16).map (fun i =>
    let first := w * i / 8
    let last := (w * i + w - 1) / 8
    (fld bits (w * i) w, anyPoison ((t.got.drop first).take (last + 1 - first))))
  let row : FedRow :=
    { fmt := t.fmt, lvl := t.lvl, codes, scale := (t.scale.1.toNat, t.scale.2), kmask := passKmask t, rho }
  let slow := t.fmt == 0x25 || t.wfmt == 0x25
  -- ignored row entries, once for each record read
  let recs := if rho then newRecs t r else []
  let ign := (recs.map (fun x => (recEntries (mezzRead s t.gal x.1 16) x.2).2)).foldl (· + ·) 0
  let s := countIgnored t ign s
  let cs := t.arrays.map (fun a =>
    let b := activeWbuf s a.arr
    let rr := if rho then
        let (ad, i) := rowRecAddr t a r
        (recEntries (mezzRead s t.gal ad 16) i).1
      else []
    { stream := t.id, arr := a.arr, group := t.f.group % 64, slot := r, lastBeat := cyc s
      mulDone := cyc s + (if slow then 4 else 1), due := cyc s + (if slow then 9 else 6), gid := a.gid
      tread := if isTread t.fmt && isTread b.fmt then some (t.lvl, b.lvl) else none
      ctx := t.ctx, cols := rowColumns row b a.under (tooWide s a.arr b) rr })
  (cs, s)

/-- One half-cycle of a stream: it reads a chunk of a row, and its scale with the first one. -/
def streamHalf (h : Nat) (t : Stream) (s : Block) : Stream × Block :=
  match halfRow t h with
  | none => (t, s)
  | some (r, i) =>
    let t := if i = 0 then { t with got := [], scale := mezzByte s t.gal (rowScaleAddr t r) } else t
    let t := { t with got := t.got ++ mezzRead s t.gal (rowAddr t r + 4 * i) 4 }
    if i + 1 = rowChunks t then
      let (cs, s) := rowContribs t r s
      (t, { s with arr := { s.arr with contribs := s.arr.contribs ++ cs } })
    else (t, s)

/-- A stream in the present cycle. -/
def streamStep (t : Stream) (s : Block) : Stream × Block :=
  if t.ready ∧ t.passStart ≤ cyc s then
    let h := 2 * (cyc s - t.passStart)
    let (t, s) := streamHalf h t s
    streamHalf (h + 1) t s
  else (t, s)

/-- Every stream in the present cycle. -/
def streamGo : List Stream → Block → List Stream × Block
  | [], s => ([], s)
  | t :: r, s =>
    let (t, s) := streamStep t s
    let (r, s) := streamGo r s
    (t :: r, s)

def streamCycle (s : Block) : Block :=
  let (ts, s) := streamGo s.arr.streams s
  { s with arr := { s.arr with streams := ts } }

/-- At the start of a cycle: streams that have ended leave, passes that start are set up. -/
def streamTurn : List Stream → Block → List Stream × Block
  | [], s => ([], s)
  | t :: r, s =>
    let isOver := t.passStart + passCycles t ≤ cyc s
    if t.arrays.isEmpty then streamTurn r s
    else if isOver ∧ t.pass + 1 = t.npass then streamTurn r s
    else
      let (t, s) := if isOver then
          setupPass { t with pass := t.pass + 1, passStart := t.passStart + passCycles t } s
        else (t, s)
      let (r, s) := streamTurn r s
      (t :: r, s)

def streamStarts (s : Block) : Block :=
  let (ts, s) := streamTurn s.arr.streams s
  { s with arr := { s.arr with streams := ts } }

/-! ## The commands MLOAD.W and MSTREAM -/

/-- MLOAD.W on one alcove. -/
def loadOn (x : SlotCtx) (f : MloadF) (g alc : Nat) (s : Block) : Block :=
  let (fmt, _) := elemFmt f.fmt
  let arrs := namedArrays s x.gal g alc f.first f.count
  forEach arrs.zipIdx (fun e s =>
    startLoad e.1 { fmt, width := f.width % 16, lvl := f.lvl % 256
                    src := f.src + x.moff + e.2 * f.arrStride
                    scaleSrc := f.scaleSrc + x.moff + e.2 * f.arrStride } s) s

def doMloadW (x : SlotCtx) (f : MloadF) (s : Block) : Block :=
  withSlot (.mloadW x f) x (fun g s =>
    let s := rangeFault g x f.first f.count s
    let s := slotFaultIf (elemFmt f.fmt).2 .format g x f.fmt s
    let alc := f.alcove % 8
    let s := loadOn x f g alc s
    if pairAlcove s x alc then loadOn x f g (alc + 1) s else s) s

/-- A later stream takes arrays from an earlier one: rows not yet past the multiply stage are lost (R74).
DESIGN CHOICE (log 75): a stream that has lost its bus, or all its arrays, ends at once. -/
def takeArrays (lost : List (Nat × Nat)) (s : Block) : Block :=
  -- pairs (stream, array)
  { s with arr := { s.arr with
    streams := s.arr.streams.map (fun t =>
      { t with arrays := t.arrays.filter (fun a => !(lost.contains (t.id, a.arr))) })
    contribs := s.arr.contribs.filter (fun c =>
      !(lost.contains (c.stream, c.arr)) || decide (c.mulDone ≤ cyc s)) } }

/-- The weight formats of the tiles a stream's arrays start with. -/
def tileFmts (s : Block) (arrs : List Nat) : List Nat := arrs.map (fun a => (loadingWbuf s a).fmt)

/-- The format among them with the most half-cycles a row (R76), and the longest load (R71). DESIGN CHOICE
(log 72): arrays with tiles of several formats stream at the rate of the slowest. -/
def slowestFmt (l : List Nat) : Nat := l.foldl (fun m f => if rateHalves m < rateHalves f then f else m) 0x10
def longestLoad (l : List Nat) : Nat := maxNat (l.map loadTime)

/-- MSTREAM on one alcove. -/
def streamOn (x : SlotCtx) (f : MstreamF) (g alc : Nat) (mirror : Bool) (s : Block) : Block :=
  let arrs := namedArrays s x.gal g alc f.first f.count
  let lost := s.arr.streams.flatMap (fun t =>
    let busHit := t.gal == g && t.alc == alc && t.f.bus % 4 == f.bus % 4
    t.arrays.filterMap (fun a => if busHit || arrs.contains a.arr then some (t.id, a.arr) else none))
  let s := slotFaultIf (!lost.isEmpty) .program g x 0x74 s
  let s := takeArrays lost s
  let d := tensorDesc s x.bank f.rowDesc
  let (fmt, bad) := elemFmt (tdFmt d)
  let s := slotFaultIf (bad && !mirror) .format g x (tdFmt d) s
  let held := arrs.map (fun a => (a, slotCountAfter s a f.group))
  let n := max 1 ((held.findSome? (fun e => e.2.map (·.1))).getD 1)
  let gid := fun (e : Option (Nat × Nat)) => match e with
    | some v => if v.1 = n then v.2 + 1 else 0
    | none => 0
  let s := slotFaultIf (held.any (fun e => gid e.2 == 0)) .program g x 0x488 s
  let fmts := tileFmts s arrs
  let t : Stream :=
    { id := s.arr.streamCount, gal := g, alc, mirror, ctx := x, f
      arrays := held.map (fun e => { arr := e.1, j0 := 0, par := none, under := false, gid := gid e.2 })
      s := n, fmt, wfmt := slowestFmt fmts, wload := longestLoad fmts, lvl := tdLvl d, desc := leBytes 64 d
      npass := ceilDiv (f.nRows % 2 ^ 20 + 1) n, pass := 0, passStart := cyc s, ready := false
      got := [], scale := (0, false) }
  let (t, s) := setupPass t s
  { s with arr := { s.arr with streams := s.arr.streams ++ [t], streamCount := s.arr.streamCount + 1 } }

def doMstream (x : SlotCtx) (f : MstreamF) (s : Block) : Block :=
  withSlot (.mstream x f) x (fun g s =>
    let s := rangeFault g x f.first f.count s
    let alc := f.alcove % 8
    let s := streamOn x f g alc false s
    if pairAlcove s x alc then streamOn x f g (alc + 1) true s else s) s

def execMloadW (x : SlotCtx) (f : MloadF) (s : State) : Host.Outcome State Fault Refusal := effect (doMloadW x f) s
def execMstream (x : SlotCtx) (f : MstreamF) (s : State) : Host.Outcome State Fault Refusal := effect (doMstream x f) s

end Sys2Proof.Machine
end

