-- ==== Sys2Proof/Machine/Vector.lean ====
section
/-! DEFINITION. The vector engine: issue (R155), the processing of each tile in its cycle (R154), and
what every V instruction computes (R159 to R173, R113 to R133, R182). The commands of the V slot stand
at the end. -/

namespace Sys2Proof.Machine

/-! ## Fields -/

/-- Tiles of the run of a V instruction. -/
def vTilesOf : Instr → Nat
  | .vqnt _ f => f.ntiles % 16 + 1
  | .vdqn _ f => f.ntiles % 16 + 1
  | .vld _ f => f.ntiles % 16 + 1
  | .vst _ f => f.ntiles % 16 + 1
  | .vadd _ f | .vsub _ f | .vmul _ f | .vfma _ f | .vmax _ f | .vmin _ f | .vabs _ f | .vneg _ f
  | .vsel _ f | .vmov _ f | .vtrn _ f | .vand _ f | .vor _ f | .vxor _ f | .vshl _ f | .vshr _ f
  | .vexp2 _ f | .vlog2 _ f | .vrcp _ f | .vrsq _ f | .vscale _ f | .vred _ f | .vsmax _ f
  | .vcvt _ f | .vrnd _ f | .vsolve _ f => f.ntiles % 16 + 1
  | _ => 1

/-- Cycles of a tile in its quad: 4 for VLOG2, VRCP and VRSQ, 160 for VSOLVE (R154, R173). -/
def vRate : Instr → Nat
  | .vlog2 .. | .vrcp .. | .vrsq .. => 4
  | .vsolve .. => 160
  | _ => 1

/-- The mask register and mzero bit a V instruction names; VQNT names none. -/
def vMaskOf : Instr → Nat × Nat
  | .vdqn _ f => (f.mask, f.mzero)
  | .vld _ f => (f.mask, f.mzero)
  | .vst _ f => (f.mask, f.mzero)
  | .vadd _ f | .vsub _ f | .vmul _ f | .vfma _ f | .vmax _ f | .vmin _ f | .vabs _ f | .vneg _ f
  | .vsel _ f | .vmov _ f | .vtrn _ f | .vand _ f | .vor _ f | .vxor _ f | .vshl _ f | .vshr _ f
  | .vexp2 _ f | .vlog2 _ f | .vrcp _ f | .vrsq _ f | .vscale _ f | .vred _ f | .vsmax _ f
  | .vcmp _ f | .vmset _ f | .vmlog _ f | .vcvt _ f | .vrnd _ f | .vflg _ f | .vsolve _ f =>
    (f.mask, f.mzero)
  | _ => (0, 0)

/-- The processing cycle of tile `t` (R154, R173, R217). -/
def vProcCycle (j : VJob) (t : Nat) : Nat := j.issue + vRate j.instr * quadTurn j.pairing t

/-- Port cycles of an instruction (R154, R159). -/
def vPortCycles (i : Instr) (pairing : Bool) : Nat :=
  match i with
  | .vcmp .. | .vmset .. | .vmlog .. | .vflg .. => 1
  | _ => vRate i * quadTurns pairing (vTilesOf i)

/-! ## Writes on their way -/

/-- Put a register write on its way. -/
def vWriteAt (due g rank order reg : Nat) (e : List (Option TElem)) (s : Block) : Block :=
  { s with vec := { s.vec with writes := s.vec.writes ++ [{ part := false, due, gal := g, rank, order, reg := reg % 64, elems := e }] } }

/-- Put a part of a register write on its way. -/
def vPartAt (due g order reg : Nat) (e : List (Option TElem)) (s : Block) : Block :=
  { s with vec := { s.vec with writes := s.vec.writes ++ [{ part := true, due, gal := g, rank := 2, order, reg := reg % 64, elems := e }] } }

/-- Put a mask write on its way: bits outside `keep` take `bits`. -/
def mWriteAt (due g order reg bits keep : Nat) (bad : Bool) (s : Block) : Block :=
  { s with vec := { s.vec with mwrites := s.vec.mwrites ++ [{ due, gal := g, order, reg := reg % 8, bits, keep, bad }] } }

/-- Put mezzanine bytes on their way. -/
def zWriteAt (due g addr : Nat) (d : List (Byte × Bool)) (s : Block) : Block :=
  { s with vec := { s.vec with zwrites := s.vec.zwrites ++ [{ due, gal := g, addr, data := d }] } }

/-- Poison the first written element of a tile: an injected quad-pair mismatch (R338, log 31). -/
def poisonFirst : List LaneOut → List LaneOut
  | [] => []
  | (some _, f) :: r => (some { bits := 0x7FC00000#32, poison := true }, f) :: r
  | x :: r => x :: poisonFirst r

/-- Under quad pairing, whether a tile's results differ (R338): two quads that compute the same function differ only
where detector 0x11 is injected. -/
def pairHit (j : VJob) (t : Nat) (s : Block) : Bool × Block :=
  if j.pairing then inject 0x11 (locOf 2 j.gal 0 0 0 (quadOf true t)) s else (false, s)

/-- The entry of a mismatch: its row and the two results (R355), of which the injection flips the lowest bit. -/
def pairLog (j : VJob) (t row v : Nat) (s : Block) : Block :=
  detect 0x11 (locOf 2 j.gal 0 0 0 (quadOf true t)) true j.ctx.tag 0 (leBytes 4 row ++ leBytes 4 v ++ leBytes 4 (v ^^^ 1)) s

/-- The comparison of a tile whose first written result is `v` in row `row`. -/
def pairCheck (j : VJob) (t row v : Nat) (s : Block) : Bool × Block :=
  let (hit, s) := pairHit j t s
  (hit, if hit then pairLog j t row v s else s)

/-- The row and the bits of a tile's first written result. -/
def firstOut (out : List LaneOut) : Nat × Nat :=
  let i := (out.findIdx? (fun o => o.1.isSome)).getD 0
  (i / 16, match out[i]? with
    | some (some e, _) => e.bits.toNat
    | _ => 0)

/-- Write a tile's results, raise its flags. -/
def vEmit (j : VJob) (t rank lat reg : Nat) (out : List LaneOut) (s : Block) : Block :=
  let (hit, s) := pairCheck j t (firstOut out).1 (firstOut out).2 s
  let out := if hit then poisonFirst out else out
  let s := orFlags j.gal j.ctx.tag (quadOf j.pairing t) (out.map (·.2)) s
  vWriteAt (cyc s + lat) j.gal rank j.order reg (out.map (·.1)) s

/-! ## Elementwise instructions -/

/-- The fmt field as arithmetic uses it: INT32, or FP32 for every other code (R159). -/
def vIsInt (f : VecF) : Bool := f.fmt == 0x03

/-- A format fault for a code that arithmetic does not take (R35). -/
def vFmtCheck (f : VecF) (g : Nat) (x : SlotCtx) (s : Block) : Block :=
  slotFaultIf (f.fmt != 0x00 && f.fmt != 0x03) .format g x f.fmt s

/-- A tile that no lane reads. -/
def noTile : List TElem := List.replicate 256 elemZero

/-- One tile of an elementwise instruction: operands named by `useB` and `useC`, latency, function. -/
def vElemwise (j : VJob) (f : VecF) (t lat : Nat) (useB useC : Bool)
    (fn : Nat → Nat → Nat → Nat × Nat) (s : Block) : Block :=
  let a := operand s j.gal f.a t
  let b := if useB then operand s j.gal f.b t else noTile
  let c := if useC then operand s j.gal f.c t else noTile
  let out := tileOp f.mzero 0x7FC00000 j.maskBad fn (maskList j.mask) a b c
  vEmit j t 2 lat (runReg f.dst f.dstride 1 t) out s

/-- VTRN: each element reads its transpose. -/
def vTranspose (j : VJob) (f : VecF) (t : Nat) (s : Block) : Block :=
  let a := tileTrn (operand s j.gal f.a t)
  let out := tileOp f.mzero 0x7FC00000 j.maskBad (fun x _ _ => (x, 0)) (maskList j.mask) a noTile noTile
  vEmit j t 2 4 (runReg f.dst f.dstride 1 t) out s

/-- VSEL: every element is written, mzero ignored (R159). -/
def vSelect (j : VJob) (f : VecF) (t : Nat) (s : Block) : Block :=
  let a := operand s j.gal f.a t
  let b := operand s j.gal f.b t
  let pick := fun (m : Bool) (ab : TElem × TElem) =>
    let e := if m then ab.1 else ab.2
    if j.maskBad || e.poison then poisonOut 0x7FC00000 else ((some e, 0) : LaneOut)
  vEmit j t 2 2 (runReg f.dst f.dstride 1 t) (List.zipWith pick (maskList j.mask) (List.zip a b)) s

/-- VSCALE: a poisoned shift amount is consumed and the shift is performed with k = 0 (R241, log 29). -/
def vScaleTile (j : VJob) (f : VecF) (t : Nat) (s : Block) : Block :=
  let ms := maskList j.mask
  let a := operand s j.gal f.a t
  let b := operand s j.gal f.b t
  let hit := (List.zipWith (fun m (e : TElem) => m && e.poison) ms b).any id
  let s := if hit then consume j.ctx.tag (runReg (opReg f.b) (opStride f.b) 1 t) s else s
  let b := b.map (fun e => if e.poison then elemZero else e)
  let out := tileOp f.mzero 0x7FC00000 j.maskBad (fun x k _ => f32Scale x (signed 32 k)) ms a b noTile
  vEmit j t 2 4 (runReg f.dst f.dstride 1 t) out s

/-! ## VRED (R162) -/

/-- Line `n` of a tile's elements: a row (axis 0) or a column (axis 1). -/
def lineOf (axis n : Nat) (v : List α) (d : α) : List α :=
  if axis = 0 then (v.drop (16 * n)).take 16
  else (List.range 16).map (fun i => nth v (16 * i + n) d)

/-- The line and the place within it of an element. -/
def linePos (axis l : Nat) : Nat × Nat := if axis = 0 then (l / 16, l % 16) else (l % 16, l / 16)

/-- One tile of VRED. -/
def vReduce (j : VJob) (f : VecF) (t : Nat) (s : Block) : Block :=
  let isInt := vIsInt f
  let op := fld f.aux 0 2
  let axis := fld f.aux 2 1
  let place := fld f.aux 3 1
  let idx := fld f.aux 4 4
  let acc := bit f.aux 8
  let ms := maskList j.mask
  let a := List.zip ms (operand s j.gal f.a t)
  let lines := (List.range 16).map (fun n => redLine isInt f.sat op (lineOf axis n a (false, elemZero)))
  let reg := runReg f.dst f.dstride 1 t
  let old := treg s j.gal reg
  let out : List LaneOut := (List.zip ms old).zipIdx.map (fun e =>
    let (n, p) := linePos axis e.2
    let (v, bad, fl) := nth lines n (0, false, 0)
    let own := if e.1.1 then fl else 0
    if place = 1 ∧ p ≠ idx then (none, own)
    else if j.maskBad || bad || (acc && e.1.2.poison) then
      (some { bits := 0x7FC00000#32, poison := true }, own)
    else if acc then
      let r := redComb isInt f.sat op e.1.2.bits.toNat v
      (some { bits := BitVec.ofNat 32 r.1, poison := false }, own ||| r.2)
    else (some { bits := BitVec.ofNat 32 v, poison := false }, own))
  vEmit j t 2 6 reg out s

/-! ## VSMAX (R163) -/

/-- The products of one tile: masked-off elements stand as -∞. -/
def vSmaxTile (j : VJob) (f : VecF) (t : Nat) (s : Block) : List LaneOut :=
  let a := operand s j.gal f.a t
  let b := operand s j.gal f.b t
  List.zipWith (fun m (ab : TElem × TElem) =>
    if !m then ((some { bits := 0xFF800000#32, poison := false }, 0) : LaneOut)
    else laneOp 0 0x7FC00000 j.maskBad (fun x y _ => f32Mul x y) true ab.1 ab.2 elemZero)
    (maskList j.mask) (List.zip a b)

/-- The larger of two products; NaN wins, without a flag of its own. -/
def smaxJoin (x y : Nat) : Nat := (f32MaxMin true x y).1

/-- Row results once every tile has been read. `data` holds the c tile, then the products. -/
def vSmaxEnd (j : VJob) (f : VecF) (s : Block) : Block :=
  let n := vTilesOf j.instr
  let cT := nth j.data 0 noTile
  let prods := (j.data.drop 1).take n
  let (free, s1) := fresh s
  let rows := (List.range 16).map (fun i =>
    let row := prods.flatMap (fun v => tileRow v i)
    let c0 := nth (tileRow cT i) 0 elemZero
    let bad := j.maskBad || c0.poison || row.any (·.poison)
    let ci := row.foldl (fun m e => smaxJoin m e.bits.toNat) 0xFF800000
    (bad, smaxRow ci c0.bits.toNat (signed 32 free)))
  let used := rows.any (fun r => !r.1 && decide (r.2.2.1 = signed 32 free))
  let s := if used then s1 else s
  let kr := fld f.aux 0 6
  let krow := fld f.aux 6 4
  let mOut : List LaneOut := (List.range 256).map (fun l =>
    let (bad, mNew, _, fl) := nth rows (l / 16) (false, 0, 0, 0)
    if bad then poisonOut 0x7FC00000
    else (some { bits := BitVec.ofNat 32 mNew, poison := false }, if l % 16 = 0 then fl else 0))
  let kOut : List (Option TElem) := (List.range 256).map (fun l =>
    if l / 16 = krow then
      let (bad, _, k, _) := nth rows (l % 16) (false, 0, 0, 0)
      if bad then some { bits := 0x7FC00000#32, poison := true }
      else some { bits := BitVec.ofNat 32 (unsigned 32 k), poison := false }
    else none)
  let s := vEmit j (n - 1) 2 8 f.dst mOut s
  vWriteAt (cyc s + 8) j.gal 2 j.order kr kOut s

/-! ## Masks (R158) -/

/-- Put the result of a mask instruction on its way; the governing mask decides which bits it writes. -/
def vMaskWrite (j : VJob) (f : VecF) (bits : Nat) (s : Block) : Block :=
  let (hit, s) := pairCheck j 0 0 (fld bits 0 32) s
  let keep := if f.mzero % 2 = 1 then 0 else maskOnes ^^^ j.mask
  mWriteAt (cyc s + 2) j.gal j.order (fld f.dst 0 3) (bits &&& j.mask) keep hit s

/-- VCMP: a poisoned operand is consumed and its bit written as 0 (R241). -/
def vCompare (j : VJob) (f : VecF) (s : Block) : Block :=
  let a := operand s j.gal f.a 0
  let b := operand s j.gal f.b 0
  let ms := maskList j.mask
  let pa := (List.zipWith (fun m (e : TElem) => m && e.poison) ms a).any id
  let pb := (List.zipWith (fun m (e : TElem) => m && e.poison) ms b).any id
  let s := if pa then consume j.ctx.tag (opReg f.a) s else s
  let s := if pb then consume j.ctx.tag (opReg f.b) s else s
  let isInt := vIsInt f
  let bits := maskOf (List.zipWith (fun m (ab : TElem × TElem) =>
    m && !ab.1.poison && !ab.2.poison &&
      laneCmp isInt (fld f.aux 0 3) ab.1.bits.toNat ab.2.bits.toNat) ms (List.zip a b))
  vMaskWrite j f bits s

/-- VMSET. -/
def vMaskSet (j : VJob) (f : VecF) (s : Block) : Block :=
  let p := fld f.aux 0 3
  let off := signed 16 f.b
  let bits := maskOf ((List.range 256).map (fun l =>
    msetBit p off (fld f.aux 4 4) (fld f.aux 8 4) (l / 16) (l % 16)))
  vMaskWrite j f bits s

/-- VMLOG. -/
def vMaskLogic (j : VJob) (f : VecF) (s : Block) : Block :=
  vMaskWrite j f (maskLogic (fld f.aux 0 2) (maskReg s j.gal (fld f.a 0 3)) (maskReg s j.gal (fld f.b 0 3))) s

/-! ## VCVT (R166) -/

/-- The wide codes VCVT takes. -/
def cvtCodes : List Nat := [0, 1, 2, 3, 4, 5]

/-- One tile of VCVT. -/
def vConvert (j : VJob) (f : VecF) (t : Nat) (s : Block) : Block :=
  let sf := (wideFmt cvtCodes f.fmt).1
  let df := (wideFmt cvtCodes (fld f.aux 0 8)).1
  let td := tensorDesc s j.ctx.bank (fld f.aux 9 6)
  let lo := if sf = 0x05 then operandPair s j.gal f.a t 0 else operand s j.gal f.a t
  let hi := if sf = 0x05 then operandPair s j.gal f.a t 1 else noTile
  let canon := if df = 0x05 then g64Nan else poisonBits df
  let wide : List (Option (Nat × Bool) × Nat) :=
    List.zipWith (fun m (e : TElem × TElem) =>
      if j.maskBad then (some (canon, true), 0)
      else if !m then (if f.mzero % 2 = 1 then some (0, false) else none, 0)
      else if e.1.poison || e.2.poison then (some (canon, true), 0)
      else
        let r := cvtElem sf df (bit f.aux 8) (tdAnchor td) (tdHead td)
          (e.1.bits.toNat + e.2.bits.toNat * 2 ^ 32)
        (some (r.1, false), r.2)) (maskList j.mask) (List.zip lo hi)
  let half := fun (sh : Nat) => wide.map (fun e =>
    ((e.1.map (fun v => ({ bits := BitVec.ofNat 32 (v.1 >>> sh), poison := v.2 } : TElem)), e.2) : LaneOut))
  if df = 0x05 then
    let reg := runReg f.dst f.dstride 2 t
    let s := vEmit j t 2 4 reg (half 0) s
    vWriteAt (cyc s + 4) j.gal 2 j.order (reg + 1) ((half 32).map (·.1)) s
  else vEmit j t 2 4 (runReg f.dst f.dstride 1 t) (half 0) s

/-- Faults of a VCVT at issue. -/
def vConvertCheck (f : VecF) (g : Nat) (x : SlotCtx) (s : Block) : Block :=
  let (sf, b1) := wideFmt cvtCodes f.fmt
  let (df, b2) := wideFmt cvtCodes (fld f.aux 0 8)
  let s := slotFaultIf b1 .format g x f.fmt s
  let s := slotFaultIf b2 .format g x (fld f.aux 0 8) s
  slotFaultIf (!(cvtPair sf df)) .format g x (sf * 256 + df) s

/-! ## VRND (R182, R183) -/

/-- One element's draw. -/
def vDraw (j : VJob) (f : VecF) (t l : Nat) (s : Block) : Nat × Block :=
  if bit f.aux 2 then
    let c0 := 16 * (fld f.b 0 18 + j.ctx.roff / 16) + l / 16
    let c1 := 16 * fld f.c 0 18 + 16 * t + l % 16
    (cmix (srSeed s (fld f.aux 4 8)) (fld f.a 0 16) c0 c1 (if bit f.aux 3 then 0 else stepNo s), s)
  else laneDraw j.gal j.ctx.tag (256 * quadOf j.pairing t + l) s

/-- Elements of a tile in order. -/
def vRandGo (j : VJob) (f : VecF) (t : Nat) : List Bool → Nat → Block → List LaneOut × Block
  | [], _, s => ([], s)
  | m :: ms, l, s =>
    let (o, s) :=
      if j.maskBad then (poisonOut 0x7FC00000, s)
      else if !m then (maskedOut f.mzero, s)
      else
        let (v, s) := vDraw j f t l s
        (cleanOut (variate (let k := fld f.aux 0 2; if k = 3 then 0 else k) v), s)
    let (r, s) := vRandGo j f t ms (l + 1) s
    (o :: r, s)

def vRandom (j : VJob) (f : VecF) (t : Nat) (s : Block) : Block :=
  let (out, s) := vRandGo j f t (maskList j.mask) 0 s
  vEmit j t 2 (if bit f.aux 2 then 6 else 5) (runReg f.dst f.dstride 1 t) out s

/-! ## VLD and VST (R168) -/

/-- Stored formats. -/
def memCodes : List Nat := [0, 1, 2, 3, 4]

/-- The mezzanine address of element `l` of tile `t`. -/
def vmemAddr (f : VmemF) (moff w t l : Nat) : Nat :=
  let i := l / 16
  let j := l % 16
  if f.layout % 2 = 0 then f.addr + moff + i * f.pitch + (16 * t + j) * w
  else f.addr + moff + (16 * t + i) * f.pitch + j * w

/-- One tile of VLD. -/
def vLoad (j : VJob) (f : VmemF) (t : Nat) (s : Block) : Block :=
  let fmt := (wideFmt memCodes f.sfmt).1
  let w := wideBytes fmt
  let out := (maskList j.mask).zipIdx.map (fun e =>
    if j.maskBad then poisonOut (poisonBits fmt)
    else if !e.1 then maskedOut f.mzero
    else
      let bs := mezzRead s j.gal (vmemAddr f j.ctx.moff w t e.2) w
      if anyPoison bs then poisonOut (poisonBits fmt)
      else ((some { bits := BitVec.ofNat 32 (heldAs fmt (leNat (plain bs))), poison := false }, 0) : LaneOut))
  vEmit j t 1 6 (runReg f.reg f.dstride 1 t) out s

/-- One tile of VST. -/
def vStore (j : VJob) (f : VmemF) (t : Nat) (s : Block) : Block :=
  let fmt := (wideFmt memCodes f.sfmt).1
  let w := wideBytes fmt
  let v := treg s j.gal (runReg f.reg f.dstride 1 t)
  let (hit, s) := pairCheck j t 0 ((v.map (fun e => e.bits.toNat)).headD 0) s
  let due := cyc s + 4
  forEach (List.zip (maskList j.mask) v).zipIdx (fun e s =>
    if e.1.1 || j.maskBad then
      let bad := e.1.2.poison || j.maskBad || (hit && e.2 == 0)
      zWriteAt due j.gal (vmemAddr f j.ctx.moff w t e.2)
        ((leBytes w e.1.2.bits.toNat).map (fun b => (b, bad))) s
    else s) s

/-! ## VFLG (R171) -/

/-- VFLG copies the flag bytes of the job's bank, and clears what it copied when aux[0] is set. -/
def vFlagCopy (j : VJob) (f : VecF) (s : Block) : Block :=
  let bank := flagBank j.ctx.tag
  let (hit, s) := pairCheck j 0 0 (nth (laneFlags s j.gal bank 0) 0 0) s
  let ms := maskList j.mask
  forEach (List.range 4) (fun q s =>
    let fl := laneFlags s j.gal bank q
    let out := List.zipWith (fun m v =>
      (if j.maskBad then poisonOut 0x7FC00000
       else if m then cleanOut (v, 0)
       else maskedOut f.mzero)) ms fl
    let out := if hit && q == 0 then poisonFirst out else out
    let s := vWriteAt (cyc s + 2) j.gal 2 j.order (f.dst + q) (out.map (·.1)) s
    if bit f.aux 0 then
      let left := List.zipWith (fun (m : Bool) v => if m then 0 else v) ms fl
      { s with vec := { s.vec with
        flags := mapSet flagZero s.vec.flags ((j.gal * 2 + bank) * 4 + q) left } }
    else s) s

/-! ## VSOLVE (R173) -/

/-- A system as it is worked on: rows of M and of X, the status words, and the flags by lane, those of the work on
M apart from those of the work on X. -/
abbrev Solve := List (List Nat) × List (List Nat) × List Int × List Nat × List Nat

/-- OR a flag into a lane. -/
def laneOr (fl : List Nat) (l v : Nat) : List Nat := if v = 0 then fl else setNth fl l (nth fl l 0 ||| v)

/-- Magnitude order of pivots: NaN counts as largest, subnormals as zero. -/
def pivMag (x : Nat) : Nat :=
  let m := fld x 0 31
  if 0x7F800000 < m then 2 ^ 32 else if m < 0x800000 then 0 else m

/-- The row of the pivot among rows `j` to 15: the largest, the lowest on a tie. -/
def pivRow (m : List (List Nat)) (j : Nat) : Nat :=
  (range' j (16 - j)).foldl (fun p i =>
    if pivMag (nth (nth m p []) j 0) < pivMag (nth (nth m i []) j 0) then i else p) j

/-- Exchange two entries of a list. -/
def swapAt (l : List (List Nat)) (i j : Nat) : List (List Nat) :=
  setNth (setNth l i (nth l j [])) j (nth l i [])

/-- fma(-l, a, b) with its lane. -/
def solveFma (l a b : Nat) : Nat × Nat := f32Fma (putBit l 31 (!(bit l 31))) a b

/-- A row with `fma(-l, src, row)` in columns from `lo`, and the flags of its lanes. -/
def solveRow (l lo : Nat) (src row : List Nat) : List (Nat × Nat) :=
  (List.zip src row).zipIdx.map (fun e => if e.2 < lo then (e.1.2, 0) else solveFma l e.1.1 e.1.2)

/-- OR the flags of a row of lanes. -/
def rowOr (fl : List Nat) (i : Nat) (r : List (Nat × Nat)) : List Nat :=
  r.zipIdx.foldl (fun fl e => laneOr fl (16 * i + e.2) e.1.2) fl

/-- The replaced pivot of mode 1. -/
def newPivot (piv tau : Nat) : Nat :=
  let m := Nat.max (fld tau 0 31) 0x00800000
  let neg := bit piv 31 && decide (0x800000 ≤ fld piv 0 31)
  (if neg then 2 ^ 31 else 0) + m

/-- Elimination below column `j`. -/
def solveElim (j : Nat) (v : Solve) : Solve :=
  let piv := nth (nth v.1 j []) j 0
  (range' (j + 1) (15 - j)).foldl (fun (v : Solve) i =>
    let (m, x, st, fa, fx) := v
    let (l, f) := f32Div (nth (nth m i []) j 0) piv
    let mr := solveRow l (j + 1) (nth m j []) (nth m i [])
    let xr := solveRow l 0 (nth x j []) (nth x i [])
    (setNth m i (mr.map (·.1)), setNth x i (xr.map (·.1)), st, rowOr (laneOr fa (16 * i + j) f) i mr, rowOr fx i xr)) v

/-- Columns from `j`; the answer is none when the procedure returns early. -/
def solveCols (tau mode : Nat) : Nat → Nat → Solve → Solve × Bool
  | 0, _, v => (v, true)
  | n + 1, j, (m, x, st, fa, fx) =>
    let p := pivRow m j
    let m := swapAt m j p
    let x := swapAt x j p
    let st := setNth st j (p : Int)
    let piv := nth (nth m j []) j 0
    if 0x7F800000 < fld piv 0 31 then ((m, x, st, laneOr fa (17 * j) fINV, fx), false)
    else if pivMag piv ≤ fld tau 0 31 ∧ fld tau 0 31 ≤ 0x7F800000 then
      let st := setNth st j ((p : Int) - ((2 ^ 31 : Nat) : Int))
      let fa := laneOr fa (17 * j) fPIV
      if mode = 0 then ((m, x, st, laneOr fa (17 * j) fINV, fx), false)
      else
        let m := setNth m j (setNth (nth m j []) j (newPivot piv tau))
        solveCols tau mode n (j + 1) (solveElim j (m, x, st, fa, fx))
    else solveCols tau mode n (j + 1) (solveElim j (m, x, st, fa, fx))

/-- Back substitution of row `i`. -/
def solveBack (i : Nat) (v : Solve) : Solve :=
  let (m, x, st, fa, fx) := v
  let mi := nth m i []
  let row := (range' (i + 1) (15 - i)).foldl (fun (r : List (Nat × Nat)) k =>
    let xk := nth x k []
    r.zipIdx.map (fun e =>
      let w := solveFma (nth mi k 0) (nth xk e.2 0) e.1.1
      (w.1, e.1.2 ||| w.2))) ((nth x i []).map (fun a => (a, 0)))
  let row := row.map (fun e => let d := f32Div e.1 (nth mi i 0); (d.1, e.2 ||| d.2))
  (m, setNth x i (row.map (·.1)), st, fa, rowOr fx i row)

/-- Solve one system: X, status, and the flags of the work on M and on X. -/
def solveSys (tau mode : Nat) (a b : List (List Nat)) (fa fx : List Nat) : List (List Nat) × List Int × List Nat × List Nat :=
  let ((m, x, st, fa, fx), ok) := solveCols tau mode 16 0 (a, b, List.replicate 16 (-1), fa, fx)
  if !ok then (List.replicate 16 (List.replicate 16 0x7FC00000), st, fa, fx)
  else
    let (_, x, st, fa, fx) := (List.range 16).foldl (fun v i => solveBack (15 - i) v) (m, x, st, fa, fx)
    (x, st, fa, fx)

/-- τ as used: a negative one is 0. -/
def tauUsed (t : Nat) : Nat :=
  if 0x7F800000 < fld t 0 31 then t else if bit t 31 ∨ fld t 0 31 < 0x800000 then 0 else t

/-- A masked-off element reads no operand (R157): in VSOLVE, whose results depend on every element, a free value
stands in its place (log 30). -/
def freeMasked : List Bool → List TElem → Block → List TElem × Block
  | m :: ms, e :: es, s =>
    let (e, s) := if m then (e, s) else let r := fresh s; ({ bits := BitVec.ofNat 32 r.1, poison := false }, r.2)
    let (es, s) := freeMasked ms es s
    (e :: es, s)
  | _, _, s => ([], s)

/-- One system of VSOLVE, in its start cycle. A poisoned column of B poisons that column of X and raises nothing
there; what the work on A raises stands. The status of a pivot column depends on A's columns up to it and on τ (R172). -/
def vSolveTile (j : VJob) (f : VecF) (t : Nat) (s : Block) : Block :=
  let ms := maskList j.mask
  let (a, s) := freeMasked ms (operand s j.gal f.a t) s
  let (b, s) := freeMasked ms (operand s j.gal f.b t) s
  let tau := nth (operand s j.gal f.c 0) (opIdx f.c) elemZero
  let rows := fun (v : List TElem) => (List.range 16).map (fun i => (tileRow v i).map (fun e => e.bits.toNat))
  let badTau := j.maskBad || tau.poison
  let badA := badTau || a.any (·.poison)
  let badSt := (List.range 16).map (fun k => badTau || (List.range (k + 1)).any (fun c => (lineOf 1 c a elemZero).any (·.poison)))
  let badCol := (List.range 16).map (fun c => badA || (lineOf 1 c b elemZero).any (·.poison))
  let nanF := fun (x : Nat) => if 0x7F800000 < fld x 0 31 then fINV else 0
  let fa := List.zipWith (fun m (e : TElem) => if m then nanF e.bits.toNat ||| nanF tau.bits.toNat else 0) ms a
  let fx := List.zipWith (fun m (e : TElem) => if m then nanF e.bits.toNat else 0) ms b
  let (x, st, fa, fx) := solveSys (tauUsed tau.bits.toNat) (fld f.aux 7 1) (rows a) (rows b) fa fx
  let fl := (List.zip fa fx).zipIdx.map (fun e =>
    if badA then 0 else if nth badCol (e.2 % 16) false then e.1.1 else e.1.1 ||| e.1.2)
  let out := List.zipWith (fun m (e : Nat × Nat) =>
      if j.maskBad then ((some { bits := 0x7FC00000#32, poison := true }, 0) : LaneOut)
      else if !m then maskedOut f.mzero
      else if nth badCol (e.2 % 16) false then (some { bits := 0x7FC00000#32, poison := true }, e.1)
      else (some { bits := BitVec.ofNat 32 (nth (nth x (e.2 / 16) []) (e.2 % 16) 0), poison := false }, e.1)) ms fl.zipIdx
  let s := vEmit j t 2 164 (runReg f.dst f.dstride 1 t) out s
  if bit f.aux 6 then
    let row : List (Option TElem) := (List.range 256).map (fun l =>
      if l / 16 = t then
        let bad := nth badSt (l % 16) false
        some { bits := if bad then 0x7FC00000#32 else BitVec.ofNat 32 (unsigned 32 (nth st (l % 16) (-1))), poison := bad }
      else none)
    vPartAt (cyc s + 164) j.gal j.order (fld f.aux 0 6) row s
  else s

/-! ## VQNT (R113 to R131) -/

/-- Tile and lane of position `k` of row `r` (R113). -/
def runLane (axis r k : Nat) : Nat × Nat :=
  (k / 16, if axis % 2 = 0 then 16 * r + k % 16 else 16 * (k % 16) + r)

/-- The descriptor a slot names, of the bank of the running segment. -/
def slotDesc (s : Block) (x : SlotCtx) (d : Nat) : Nat := tensorDesc s x.bank d

/-- Latency of VQNT (R115). -/
def vqntLat (f : VqntF) (lg : Nat) : Nat := 2 + lg + 4 + 2 + (2 + f.rng % 2) + 1

/-- The fixed scale used (R128), and whether it was substituted. -/
def fixedScale (fmt c : Nat) : Nat × Bool :=
  if isTread fmt then (if c = 0x00 ∨ c = 0xFF then (0x78, true) else (c, false))
  else if c = 0xFF then (0x7F, true) else (c, false)

/-- Faults of a VQNT at issue. -/
def vqntCheck (f : VqntF) (g : Nat) (x : SlotCtx) (s : Block) : Block :=
  let d := slotDesc s x f.desc
  let (fmt, b1) := elemFmt (tdFmt d)
  let s := slotFaultIf b1 .format g x (tdFmt d) s
  let s := slotFaultIf (turnLog (tdTurn d)).2 .format g x (tdTurn d) s
  let s := slotFaultIf (wideFmt [0, 1, 2] f.srcFmt).2 .format g x f.srcFmt s
  slotFaultIf (f.smode % 2 == 1 && (fixedScale fmt f.fscale).2) .format g x f.fscale s

/-- Valid elements of a row (R113). -/
def kvalidUsed (kvalid n : Nat) : Nat := min kvalid (16 * n)

/-- The source of row `r`: FP32 values with flags and poison (R116). -/
def vqntSource (f : VqntF) (tiles : List (List TElem)) (kv r : Nat) : List (FlagVal × Bool) :=
  let fmt := (wideFmt [0, 1, 2] f.srcFmt).1
  (List.range kv).map (fun k =>
    let (t, l) := runLane f.axis r k
    let e := nth (nth tiles t []) l elemZero
    let v := wideVal fmt e.bits.toNat
    let w := wfWrite .fp32 false v
    ((w.1, w.2 ||| nanFlag [v]), e.poison))

/-- Pad the blocks of a row to the run's blocks and pack them: element bytes and scale bytes. -/
def packRow (fmt nb pad : Nat) (bs : List (List Nat × Nat × Bool)) :
    List (Byte × Bool) × List (Byte × Bool) :=
  let full := bs ++ List.replicate (nb - bs.length) ([], pad, false)
  (full.flatMap (fun b => (packBlock fmt (b.1 ++ List.replicate (blockLen fmt - b.1.length) 0)).map
      (fun y => (y, b.2.2))),
   full.map (fun b => (BitVec.ofNat 8 b.2.1, b.2.2)))

/-- Under quad pairing, the comparison of a run's results, tile by tile: the positions whose results differ (R338,
log 31). -/
def vqntPairs (j : VJob) : List Nat → Block → List Nat × Block
  | [], s => ([], s)
  | t :: r, s =>
    let (hit, s) := pairHit j t s
    let (l, s) := vqntPairs j r s
    (if hit then 16 * t :: l else l, s)

/-- Poison the bytes of the elements at some positions of a packed row. -/
def poisonAt (w : Nat) (ks : List Nat) (row : List (Byte × Bool)) : List (Byte × Bool) :=
  row.zipIdx.map (fun e => (e.1.1, e.1.2 || ks.any (fun k => decide (w * k / 8 ≤ e.2) && decide (e.2 ≤ (w * k + w - 1) / 8))))

/-- One row of a VQNT: quantise, put its bytes on their way, raise its flags, count. `bad` are positions whose
results differ between the quads of a pair. -/
def vqntRow (j : VJob) (f : VqntF) (d : Nat) (p : QParam) (kv n : Nat) (bad : List Nat) (r : Nat) (s : Block) : Block :=
  let draw := fun (k : Nat) (s : Block) =>
    if f.rng % 2 = 1 then
      (cmix (srSeed s (tdSseed d)) (tdTtag d) ((f.row0 + j.ctx.roff) % 2 ^ 22 + r) (256 * f.kspan + k) (stepNo s), s)
    else
      let (t, l) := runLane f.axis r k
      laneDraw j.gal j.ctx.tag (256 * quadOf j.pairing t + l) s
  let (q, s) := quantRow p (vqntSource f j.data kv r) draw s
  let nb := ceilDiv (16 * n) (blockLen p.fmt)
  let pad := if isTread p.fmt && p.lvl == 0xFF then 0xFF else 0
  let (eb, sb) := packRow p.fmt nb pad q.blocks
  let eb := if r = 0 then poisonAt (elemBits p.fmt) bad eb else eb
  let code := fun (k : Nat) => nth (q.blocks.flatMap (fun b => b.1)) k 0
  let s := if r = 0 then forEach bad (fun k s => pairLog j (k / 16) 0 (code k) s) s else s
  let due := j.issue + vqntLat f p.lg
  let s := zWriteAt due j.gal (f.dstElem + j.ctx.moff + r * tdElemPitch d) eb s
  let s := zWriteAt due j.gal (f.dstScale + j.ctx.moff + r * tdScalePitch d) sb s
  let s := if p.rho ≠ 0 then
      zWriteAt due j.gal (f.dstOut + j.ctx.moff + r * tdOutPitch d) (q.record.map (fun b => (b, false))) s
    else s
  let s := countCset j.gal j.ctx.tag (tdCset d) q.count s
  forEach (List.range n) (fun t s =>
    let fl := (List.range 256).map (fun l =>
      let k := 16 * t + (if f.axis % 2 = 0 then l % 16 else l / 16)
      let row := if f.axis % 2 = 0 then l / 16 else l % 16
      if row = r ∧ k < kv then nth q.flags k 0 else 0)
    orFlags j.gal j.ctx.tag (quadOf j.pairing t) fl s) s

/-- The whole run, in its last port cycle (R155). -/
def vqntRun (j : VJob) (f : VqntF) (s : Block) : Block :=
  let d := slotDesc s j.ctx f.desc
  let n := f.ntiles % 16 + 1
  let kv := kvalidUsed f.kvalid n
  let fmt := (elemFmt (tdFmt d)).1
  let lg := (turnLog (tdTurn d)).1
  let p : QParam :=
    { fmt, lvl := j.lvl, lg
      signs := if lg = 0 then [] else (List.range kv).map (fun k => turnSign s (tdTseed d) (256 * f.kspan + k))
      rho := rhoUsed (tdRho d)
      fixed := if f.smode % 2 = 1 then some (fixedScale fmt f.fscale).1 else none
      sr := f.rnd % 2 == 1
      track := if precEnabled s (tdCset d) then some (precFmt0 s (tdCset d)) else none }
  let (bad, s) := vqntPairs j (List.range n) s
  forEach (List.range 16) (fun r s => vqntRow j f d p kv n bad r s) s

/-! ## VDQN (R166) -/

/-- Latency of VDQN (R159). -/
def vdqnLat (s : Block) (x : SlotCtx) (f : VdqnF) : Nat := 4 + (turnLog (tdTurn (slotDesc s x f.desc))).1

/-- Faults of a VDQN at issue. -/
def vdqnCheck (f : VdqnF) (g : Nat) (x : SlotCtx) (s : Block) : Block :=
  let d := slotDesc s x f.desc
  let s := slotFaultIf (elemFmt (tdFmt d)).2 .format g x (tdFmt d) s
  let s := slotFaultIf (turnLog (tdTurn d)).2 .format g x (tdTurn d) s
  slotFaultIf (wideFmt [0, 1] f.ofmt).2 .format g x f.ofmt s

/-- Row `r` of a VDQN, read in the issue cycle: bits, poison and flags of each position. DESIGN CHOICE
(log 70): a value beyond the largest finite FP32 is written as infinity and raises OVF, and a NaN
element raises INV. -/
def vdqnRow (s : Block) (g : Nat) (x : SlotCtx) (f : VdqnF) (r : Nat) : List (Nat × Bool × Nat) :=
  let d := slotDesc s x f.desc
  let n := f.ntiles % 16 + 1
  let width := 16 * n
  let kv := kvalidUsed f.kvalid n
  let fmt := (elemFmt (tdFmt d)).1
  let lg := (turnLog (tdTurn d)).1
  let nb := ceilDiv width (blockLen fmt)
  let elem := mezzRead s g (f.srcElem + x.moff + r * tdElemPitch d) (nb * blockBytes fmt)
  let scale := mezzRead s g (f.srcScale + x.moff + r * tdScalePitch d) nb
  let rec? := if rhoUsed (tdRho d) = 0 then none
    else some (mezzRead s g (f.srcOut + x.moff + r * tdOutPitch d) 16)
  let ofmt := (wideFmt [0, 1] f.ofmt).1
  let row := (dequantRow fmt (tdLvl d) width elem scale rec?).take kv
  let turned := f.unturn % 2 == 1 && lg != 0
  let vals : List (Nat × Bool × Nat) :=
    if turned then
      let signs := (List.range kv).map (fun k => turnSign s (tdTseed d) (256 * f.kspan + k))
      let f32 : List FlagVal := row.map (fun e =>
        if e.2 then (0, 0) else let w := wfWrite .fp32 false e.1; (w.1, w.2 ||| nanFlag [e.1]))
      let y := overBlocks (2 ^ lg) (unturnBlock lg) 16 signs f32
      let poi := spreadPoison (2 ^ lg) 16 (row.map (·.2))
      List.zipWith (fun (v : FlagVal) p =>
        let w := wfWrite (wfOf ofmt) false (wfVal .fp32 v.1)
        (w.1, p, v.2 ||| w.2)) y poi
    else row.map (fun e => let w := wfWrite (wfOf ofmt) false e.1; (w.1, e.2, w.2 ||| nanFlag [e.1]))
  vals.map (fun v => if v.2.1 then (poisonBits ofmt, true, 0) else v) ++ List.replicate (width - kv) (0, false, 0)

/-- Every tile of a VDQN with its lane flags, as computed at issue. -/
def vdqnTiles (s : Block) (g : Nat) (x : SlotCtx) (f : VdqnF) : List (List TElem) × List (List Nat) :=
  let rows := (List.range 16).map (vdqnRow s g x f)
  let n := f.ntiles % 16 + 1
  let cell := fun (t l : Nat) =>
    let r := if f.axis % 2 = 0 then l / 16 else l % 16
    let k := 16 * t + (if f.axis % 2 = 0 then l % 16 else l / 16)
    nth (nth rows r []) k (0, false, 0)
  ((List.range n).map (fun t => (List.range 256).map (fun l =>
      let c := cell t l
      { bits := BitVec.ofNat 32 c.1, poison := c.2.1 })),
   (List.range n).map (fun t => (List.range 256).map (fun l => (cell t l).2.2)))

/-- One tile of a VDQN in its processing cycle. -/
def vdqnTile (j : VJob) (f : VdqnF) (t : Nat) (s : Block) : Block :=
  let v := nth j.data t []
  let fl := nth j.lanes t []
  let out := List.zipWith (fun m (e : TElem × Nat) =>
    if j.maskBad then poisonOut (poisonBits (wideFmt [0, 1] f.ofmt).1)
    else if !m then maskedOut f.mzero else ((some e.1, e.2) : LaneOut)) (maskList j.mask) (List.zip v fl)
  vEmit j t 2 (vdqnLat s j.ctx f) (runReg f.dst f.dstride 1 t) out s

/-! ## Processing -/

/-- What tile `t` of a job does in its processing cycle. -/
def vTile (j : VJob) (t : Nat) (s : Block) : Block :=
  match j.instr with
  | .vadd _ f => vElemwise j f t 4 true false (fun a b _ => laneAdd (vIsInt f) f.sat a b) s
  | .vsub _ f => vElemwise j f t 4 true false (fun a b _ => laneSub (vIsInt f) f.sat a b) s
  | .vmul _ f => vElemwise j f t 4 true false (fun a b _ => laneMul (vIsInt f) f.sat a b) s
  | .vfma _ f => vElemwise j f t 4 true true (fun a b c => laneFma (vIsInt f) f.sat a b c) s
  | .vmax _ f => vElemwise j f t 4 true false (fun a b _ => laneMax (vIsInt f) a b) s
  | .vmin _ f => vElemwise j f t 4 true false (fun a b _ => laneMin (vIsInt f) a b) s
  | .vabs _ f => vElemwise j f t 2 false false (fun a _ _ => laneAbs (vIsInt f) a) s
  | .vneg _ f => vElemwise j f t 2 false false (fun a _ _ => laneNeg (vIsInt f) a) s
  | .vsel _ f => vSelect j f t s
  | .vmov _ f => vElemwise j f t 2 false false (fun a _ _ => (a, 0)) s
  | .vtrn _ f => vTranspose j f t s
  | .vand _ f => vElemwise j f t 2 true false (fun a b _ => (a &&& b, 0)) s
  | .vor _ f => vElemwise j f t 2 true false (fun a b _ => (a ||| b, 0)) s
  | .vxor _ f => vElemwise j f t 2 true false (fun a b _ => (a ^^^ b, 0)) s
  | .vshl _ f => vElemwise j f t 2 true false (fun a b _ => laneShl a b) s
  | .vshr _ f => vElemwise j f t 2 true false (fun a b _ => laneShr a b) s
  | .vexp2 _ f => vElemwise j f t 6 true true laneExp2 s
  | .vlog2 _ f => vElemwise j f t 8 false false (fun a _ _ => f32Log2 a) s
  | .vrcp _ f => vElemwise j f t 8 false false (fun a _ _ => f32Rcp a) s
  | .vrsq _ f => vElemwise j f t 8 false false (fun a _ _ => f32Rsq a) s
  | .vscale _ f => vScaleTile j f t s
  | .vred _ f => vReduce j f t s
  | .vcmp _ f => vCompare j f s
  | .vmset _ f => vMaskSet j f s
  | .vmlog _ f => vMaskLogic j f s
  | .vcvt _ f => vConvert j f t s
  | .vrnd _ f => vRandom j f t s
  | .vld _ f => vLoad j f t s
  | .vst _ f => vStore j f t s
  | .vflg _ f => vFlagCopy j f s
  | .vsolve _ f => vSolveTile j f t s
  | .vdqn _ f => vdqnTile j f t s
  | _ => s

/-- Tile `t` of a job, with what VSMAX and VQNT gather over their run. Answers the job after it. -/
def vTileGather (j : VJob) (t : Nat) (s : Block) : VJob × Block :=
  let last := t + 1 == vTilesOf j.instr
  match j.instr with
  | .vsmax _ f =>
    let j := if t = 0 then { j with data := [operand s j.gal f.c 0] } else j
    let out := vSmaxTile j f t s
    let s := orFlags j.gal j.ctx.tag (quadOf j.pairing t) (out.map (·.2)) s
    let j := { j with data := j.data ++ [out.map (fun o => o.1.getD elemZero)] }
    (j, if last then vSmaxEnd j f s else s)
  | .vqnt _ f =>
    let j := { j with data := j.data ++ [treg s j.gal (f.src + t)] }
    (j, if last then vqntRun j f s else s)
  | _ => (j, vTile j t s)

/-- The tiles of a job whose processing cycle is the present one. -/
def vJobTiles (j : VJob) : List Nat → Block → VJob × Block
  | [], s => (j, s)
  | t :: r, s =>
    let stopped := match j.stop with | some c => decide (c ≤ cyc s) | none => false
    let (j, s) := if vProcCycle j t = cyc s ∧ !stopped then vTileGather j t s else (j, s)
    vJobTiles j r s

/-- Every V instruction in progress processes its tiles of the present cycle; those that have
processed their last tile leave. -/
def vCycleGo : List VJob → Block → List VJob × Block
  | [], s => ([], s)
  | j :: r, s =>
    let (j, s) := vJobTiles j (List.range (vTilesOf j.instr)) s
    let gone := decide (j.issue + vPortCycles j.instr j.pairing ≤ cyc s + 1) || j.stop.isSome
    let (rest, s) := vCycleGo r s
    (if gone then rest else j :: rest, s)

def vCycle (s : Block) : Block :=
  let (jobs, s) := vCycleGo s.vec.jobs s
  { s with vec := { s.vec with jobs := jobs } }

/-! ## Results (R154, R155) -/

/-- Write the elements that are given into a register. -/
def mergeTile (old : List TElem) (new : List (Option TElem)) : List TElem :=
  List.zipWith (fun o n => n.getD o) old new

/-- Whether write `a` beats write `b` to the same register in the same cycle. -/
def writeBeats (a b : VWrite) : Bool := decide (a.rank < b.rank) || (a.rank == b.rank && decide (b.order < a.order))

/-- Two entries are parts of one write. -/
def samePart (a b : VWrite) : Bool := a.part && b.part && a.order == b.order

/-- The write that takes effect among those no other one beats. Where one instruction makes several, the rule
names none of them: a free value picks (log 78). -/
def pickWrite (best : List VWrite) (s : Block) : Option VWrite × Block :=
  match best with
  | [] => (none, s)
  | w :: _ =>
    if best.all (fun v => v == w || samePart w v) then (some w, s)
    else let r := fresh s; (best[r.1 % best.length]?, r.2)

/-- A register's elements with the pair that holds the first one written poisoned (R335). -/
def poisonPair (p : Nat) (v : List TElem) : List TElem :=
  v.zipIdx.map (fun e => if e.2 / 2 = p then { bits := 0x7FC00000#32, poison := true } else e.1)

/-- A write reaches its register. -/
def tregWrite (w : VWrite) (s : Block) : Block :=
  let p := (w.elems.findIdx? (fun o => o.isSome)).getD 0 / 2
  let (hit, s) := sramEventAt w.gal (2 ^ 20 + w.reg * 128 + p) s
  let v := mergeTile (treg s w.gal w.reg) w.elems
  setTreg w.gal w.reg (if hit then poisonPair p v else v) s

/-- The due writes of one register `g * 64 + reg`: one takes effect, each other one is discarded with a program
fault. -/
def vWriteReg (due : List VWrite) (key : Nat) (s : Block) : Block :=
  let ws := due.filter (fun w => w.gal * 64 + w.reg == key)
  let (win, s) := pickWrite (ws.filter (fun w => !(ws.any (fun v => writeBeats v w)))) s
  match win with
  | none => s
  | some w =>
    let rest := ws.erase w
    let s := forEach (w :: rest.filter (samePart w)) tregWrite s
    forEach (rest.filter (fun v => !(samePart w v))) (fun v s => logFault .program v.gal v.reg 0x155 0 s) s

/-- Register, mask and mezzanine writes due in the present cycle or before. -/
def vCommit (s : Block) : Block :=
  let c := cyc s
  let w := s.vec.writes.filter (fun w => decide (w.due ≤ c))
  let m := s.vec.mwrites.filter (fun w => decide (w.due ≤ c))
  let z := s.vec.zwrites.filter (fun w => decide (w.due ≤ c))
  let s := { s with vec := { s.vec with
    writes := s.vec.writes.filter (fun w => decide (c < w.due))
    mwrites := s.vec.mwrites.filter (fun w => decide (c < w.due))
    zwrites := s.vec.zwrites.filter (fun w => decide (c < w.due)) } }
  let s := forEach ((w.map (fun v => v.gal * 64 + v.reg)).foldl setAdd []) (vWriteReg w) s
  let s := forEach m (fun w s =>
    let v := (maskReg s w.gal w.reg &&& w.keep) ||| (w.bits &&& (maskOnes ^^^ (w.keep &&& maskOnes)))
    let s := setMask w.gal w.reg v s
    { s with vec := { s.vec with maskPoison := setPut s.vec.maskPoison (w.gal * 8 + w.reg % 8) (w.bad && w.reg % 8 != 0) } }) s
  forEach z (fun w s => mezzWrite w.gal w.addr w.data s) s

/-! ## Issue (R155) -/

/-- A V instruction takes the issue port. -/
def vIssueOn (i : Instr) (x : SlotCtx) (g : Nat) (s : Block) : Block :=
  let c := cyc s
  let pairing := s.gals.quadPair && x.tag == 0
  let isOver := decide (c < mapGet 0 s.vec.portFree g)
  let jobs := s.vec.jobs.map (fun j => if j.gal = g ∧ j.stop = none then { j with stop := some c } else j)
  let s := if isOver then slotFault .program g x 0x155 { s with vec := { s.vec with jobs := jobs } } else s
  let (k, _) := vMaskOf i
  let (data, lanes) : List (List TElem) × List (List Nat) := match i with
    | .vdqn _ f => vdqnTiles s g x f
    | _ => ([], [])
  let j : VJob :=
    { gal := g, ctx := x, order := nextOrder s, issue := c, pairing, instr := i
      mask := maskReg s g k, maskBad := maskBad s g k, stop := none, data, lanes
      lvl := match i with
        | .vqnt _ f => tdLvl (slotDesc s x f.desc)
        | _ => 0 }
  bumpOrder { s with vec := { s.vec with
    jobs := s.vec.jobs ++ [j]
    portFree := mapSet 0 s.vec.portFree g (c + vPortCycles i pairing) } }

/-- An opcode that the table of R159 does not list: the port for one cycle, and a program fault. -/
def vIssueNone (x : SlotCtx) (g : Nat) (s : Block) : Block :=
  let c := cyc s
  let jobs := s.vec.jobs.map (fun j => if j.gal = g ∧ j.stop = none then { j with stop := some c } else j)
  let s := if c < mapGet 0 s.vec.portFree g then slotFault .program g x 0x155 { s with vec := { s.vec with jobs := jobs } } else s
  slotFault .program g x 0x159 { s with vec := { s.vec with portFree := mapSet 0 s.vec.portFree g (c + 1) } }

/-- Issue with a check of the format field (R35). -/
def vIssueFmt (i : Instr) (x : SlotCtx) (f : VecF) (g : Nat) (s : Block) : Block :=
  vIssueOn i x g (vFmtCheck f g x s)

/-! ## The commands of the V slot -/

def doVadd (x : SlotCtx) (f : VecF) (s : Block) : Block := withSlot (.vadd x f) x (vIssueFmt (.vadd x f) x f) s
def doVsub (x : SlotCtx) (f : VecF) (s : Block) : Block := withSlot (.vsub x f) x (vIssueFmt (.vsub x f) x f) s
def doVmul (x : SlotCtx) (f : VecF) (s : Block) : Block := withSlot (.vmul x f) x (vIssueFmt (.vmul x f) x f) s
def doVfma (x : SlotCtx) (f : VecF) (s : Block) : Block := withSlot (.vfma x f) x (vIssueFmt (.vfma x f) x f) s
def doVmax (x : SlotCtx) (f : VecF) (s : Block) : Block := withSlot (.vmax x f) x (vIssueFmt (.vmax x f) x f) s
def doVmin (x : SlotCtx) (f : VecF) (s : Block) : Block := withSlot (.vmin x f) x (vIssueFmt (.vmin x f) x f) s
def doVabs (x : SlotCtx) (f : VecF) (s : Block) : Block := withSlot (.vabs x f) x (vIssueFmt (.vabs x f) x f) s
def doVneg (x : SlotCtx) (f : VecF) (s : Block) : Block := withSlot (.vneg x f) x (vIssueFmt (.vneg x f) x f) s
def doVsel (x : SlotCtx) (f : VecF) (s : Block) : Block := withSlot (.vsel x f) x (vIssueOn (.vsel x f) x) s
def doVmov (x : SlotCtx) (f : VecF) (s : Block) : Block := withSlot (.vmov x f) x (vIssueOn (.vmov x f) x) s
def doVtrn (x : SlotCtx) (f : VecF) (s : Block) : Block := withSlot (.vtrn x f) x (vIssueOn (.vtrn x f) x) s
def doVand (x : SlotCtx) (f : VecF) (s : Block) : Block := withSlot (.vand x f) x (vIssueOn (.vand x f) x) s
def doVor (x : SlotCtx) (f : VecF) (s : Block) : Block := withSlot (.vor x f) x (vIssueOn (.vor x f) x) s
def doVxor (x : SlotCtx) (f : VecF) (s : Block) : Block := withSlot (.vxor x f) x (vIssueOn (.vxor x f) x) s
def doVshl (x : SlotCtx) (f : VecF) (s : Block) : Block := withSlot (.vshl x f) x (vIssueOn (.vshl x f) x) s
def doVshr (x : SlotCtx) (f : VecF) (s : Block) : Block := withSlot (.vshr x f) x (vIssueOn (.vshr x f) x) s
def doVexp2 (x : SlotCtx) (f : VecF) (s : Block) : Block := withSlot (.vexp2 x f) x (vIssueOn (.vexp2 x f) x) s
def doVlog2 (x : SlotCtx) (f : VecF) (s : Block) : Block := withSlot (.vlog2 x f) x (vIssueOn (.vlog2 x f) x) s
def doVrcp (x : SlotCtx) (f : VecF) (s : Block) : Block := withSlot (.vrcp x f) x (vIssueOn (.vrcp x f) x) s
def doVrsq (x : SlotCtx) (f : VecF) (s : Block) : Block := withSlot (.vrsq x f) x (vIssueOn (.vrsq x f) x) s
def doVscale (x : SlotCtx) (f : VecF) (s : Block) : Block := withSlot (.vscale x f) x (vIssueOn (.vscale x f) x) s
def doVred (x : SlotCtx) (f : VecF) (s : Block) : Block := withSlot (.vred x f) x (vIssueFmt (.vred x f) x f) s
def doVsmax (x : SlotCtx) (f : VecF) (s : Block) : Block := withSlot (.vsmax x f) x (vIssueOn (.vsmax x f) x) s
def doVcmp (x : SlotCtx) (f : VecF) (s : Block) : Block := withSlot (.vcmp x f) x (vIssueFmt (.vcmp x f) x f) s

/-- VMSET logs a program fault for a pattern code 5 to 7 (R158). -/
def doVmset (x : SlotCtx) (f : VecF) (s : Block) : Block :=
  withSlot (.vmset x f) x (fun g s =>
    vIssueOn (.vmset x f) x g (slotFaultIf (decide (4 < fld f.aux 0 3)) .program g x 0x158 s)) s

def doVmlog (x : SlotCtx) (f : VecF) (s : Block) : Block := withSlot (.vmlog x f) x (vIssueOn (.vmlog x f) x) s

def doVcvt (x : SlotCtx) (f : VecF) (s : Block) : Block :=
  withSlot (.vcvt x f) x (fun g s => vIssueOn (.vcvt x f) x g (vConvertCheck f g x s)) s

def doVqnt (x : SlotCtx) (f : VqntF) (s : Block) : Block :=
  withSlot (.vqnt x f) x (fun g s => vIssueOn (.vqnt x f) x g (vqntCheck f g x s)) s

def doVdqn (x : SlotCtx) (f : VdqnF) (s : Block) : Block :=
  withSlot (.vdqn x f) x (fun g s => vIssueOn (.vdqn x f) x g (vdqnCheck f g x s)) s

/-- VRND logs a program fault for kind 3 (R182). -/
def doVrnd (x : SlotCtx) (f : VecF) (s : Block) : Block :=
  withSlot (.vrnd x f) x (fun g s =>
    vIssueOn (.vrnd x f) x g (slotFaultIf (fld f.aux 0 2 == 3) .program g x 0x182 s)) s

def doVld (x : SlotCtx) (f : VmemF) (s : Block) : Block :=
  withSlot (.vld x f) x (fun g s =>
    vIssueOn (.vld x f) x g (slotFaultIf (wideFmt memCodes f.sfmt).2 .format g x f.sfmt s)) s

def doVst (x : SlotCtx) (f : VmemF) (s : Block) : Block :=
  withSlot (.vst x f) x (fun g s =>
    vIssueOn (.vst x f) x g (slotFaultIf (wideFmt memCodes f.sfmt).2 .format g x f.sfmt s)) s

def doVflg (x : SlotCtx) (f : VecF) (s : Block) : Block := withSlot (.vflg x f) x (vIssueOn (.vflg x f) x) s
def doVsolve (x : SlotCtx) (f : VecF) (s : Block) : Block := withSlot (.vsolve x f) x (vIssueOn (.vsolve x f) x) s

/-! ## Meanings -/

def execVadd (x : SlotCtx) (f : VecF) (s : State) : Host.Outcome State Fault Refusal := effect (doVadd x f) s
def execVsub (x : SlotCtx) (f : VecF) (s : State) : Host.Outcome State Fault Refusal := effect (doVsub x f) s
def execVmul (x : SlotCtx) (f : VecF) (s : State) : Host.Outcome State Fault Refusal := effect (doVmul x f) s
def execVfma (x : SlotCtx) (f : VecF) (s : State) : Host.Outcome State Fault Refusal := effect (doVfma x f) s
def execVmax (x : SlotCtx) (f : VecF) (s : State) : Host.Outcome State Fault Refusal := effect (doVmax x f) s
def execVmin (x : SlotCtx) (f : VecF) (s : State) : Host.Outcome State Fault Refusal := effect (doVmin x f) s
def execVabs (x : SlotCtx) (f : VecF) (s : State) : Host.Outcome State Fault Refusal := effect (doVabs x f) s
def execVneg (x : SlotCtx) (f : VecF) (s : State) : Host.Outcome State Fault Refusal := effect (doVneg x f) s
def execVsel (x : SlotCtx) (f : VecF) (s : State) : Host.Outcome State Fault Refusal := effect (doVsel x f) s
def execVmov (x : SlotCtx) (f : VecF) (s : State) : Host.Outcome State Fault Refusal := effect (doVmov x f) s
def execVtrn (x : SlotCtx) (f : VecF) (s : State) : Host.Outcome State Fault Refusal := effect (doVtrn x f) s
def execVand (x : SlotCtx) (f : VecF) (s : State) : Host.Outcome State Fault Refusal := effect (doVand x f) s
def execVor (x : SlotCtx) (f : VecF) (s : State) : Host.Outcome State Fault Refusal := effect (doVor x f) s
def execVxor (x : SlotCtx) (f : VecF) (s : State) : Host.Outcome State Fault Refusal := effect (doVxor x f) s
def execVshl (x : SlotCtx) (f : VecF) (s : State) : Host.Outcome State Fault Refusal := effect (doVshl x f) s
def execVshr (x : SlotCtx) (f : VecF) (s : State) : Host.Outcome State Fault Refusal := effect (doVshr x f) s
def execVexp2 (x : SlotCtx) (f : VecF) (s : State) : Host.Outcome State Fault Refusal := effect (doVexp2 x f) s
def execVlog2 (x : SlotCtx) (f : VecF) (s : State) : Host.Outcome State Fault Refusal := effect (doVlog2 x f) s
def execVrcp (x : SlotCtx) (f : VecF) (s : State) : Host.Outcome State Fault Refusal := effect (doVrcp x f) s
def execVrsq (x : SlotCtx) (f : VecF) (s : State) : Host.Outcome State Fault Refusal := effect (doVrsq x f) s
def execVscale (x : SlotCtx) (f : VecF) (s : State) : Host.Outcome State Fault Refusal := effect (doVscale x f) s
def execVred (x : SlotCtx) (f : VecF) (s : State) : Host.Outcome State Fault Refusal := effect (doVred x f) s
def execVsmax (x : SlotCtx) (f : VecF) (s : State) : Host.Outcome State Fault Refusal := effect (doVsmax x f) s
def execVcmp (x : SlotCtx) (f : VecF) (s : State) : Host.Outcome State Fault Refusal := effect (doVcmp x f) s
def execVmset (x : SlotCtx) (f : VecF) (s : State) : Host.Outcome State Fault Refusal := effect (doVmset x f) s
def execVmlog (x : SlotCtx) (f : VecF) (s : State) : Host.Outcome State Fault Refusal := effect (doVmlog x f) s
def execVcvt (x : SlotCtx) (f : VecF) (s : State) : Host.Outcome State Fault Refusal := effect (doVcvt x f) s
def execVqnt (x : SlotCtx) (f : VqntF) (s : State) : Host.Outcome State Fault Refusal := effect (doVqnt x f) s
def execVdqn (x : SlotCtx) (f : VdqnF) (s : State) : Host.Outcome State Fault Refusal := effect (doVdqn x f) s
def execVrnd (x : SlotCtx) (f : VecF) (s : State) : Host.Outcome State Fault Refusal := effect (doVrnd x f) s
def execVld (x : SlotCtx) (f : VmemF) (s : State) : Host.Outcome State Fault Refusal := effect (doVld x f) s
def execVst (x : SlotCtx) (f : VmemF) (s : State) : Host.Outcome State Fault Refusal := effect (doVst x f) s
def execVflg (x : SlotCtx) (f : VecF) (s : State) : Host.Outcome State Fault Refusal := effect (doVflg x f) s
def execVsolve (x : SlotCtx) (f : VecF) (s : State) : Host.Outcome State Fault Refusal := effect (doVsolve x f) s

end Sys2Proof.Machine
end

