-- ==== Sys2Proof/Machine/Clock.lean ====
section
/-! DEFINITION. One arithmetic cycle (R23, R209): the work of every fixed-timing unit, the local tick
(R473), the current keepers (R89 to R91) and what a freeze stops. -/

namespace Sys2Proof.Machine

/-! ## Ticks (R473, R474) -/

/-- Length of a cycle in units of 1/969 ns: 850 MHz, 637.5 MHz, 425 MHz, or 807.5 MHz under the clock
guard-band, which moves only the undivided clock. -/
def cycleUnits (s : Block) : Nat :=
  if clockStep s = 1 then 1520 else if clockStep s = 2 then 2280 else if s.rel.clockGuard then 1200 else 1140

/-- Let time pass on the local tick; a tick is 40 ns. -/
def passTime (units : Nat) (s : Block) : Block :=
  let p := s.clk.phase + units
  { s with clk := { s.clk with tick := (s.clk.tick + p / 38760) % 2 ^ 64, phase := p % 38760 } }

/-! ## Current keepers (R89 to R91) -/

/-- A keeper whose alcove has never taken a beat. -/
def keeperIdle : Keeper :=
  { hist := [], floor := 0, frozen := 0, gap := 3400, phase := .gated, ramp := 17000, dummies := 0 }

/-- Keeper of an alcove. -/
def keeper (s : Block) (g a : Nat) : Keeper := mapGet keeperIdle s.gals.keepers (g * 8 + a)
def setKeeper (g a : Nat) (k : Keeper) (s : Block) : Block :=
  { s with gals := { s.gals with keepers := mapSet keeperIdle s.gals.keepers (g * 8 + a) k } }

/-- The level the keeper holds: whole arrays, the level of a ramp rounded down (DESIGN CHOICE, log 65). -/
def keeperLevel (k : Keeper) : Nat :=
  match k.phase with
  | .gated => 0
  | .steady => k.frozen
  | .rampDown | .rampUp => k.frozen * (17000 - k.ramp) / 17000

/-- A ramp down starts at cycle 3,400 of the gap; a frozen floor of 0 counts as gated at once. -/
def keeperDown (k : Keeper) : Keeper :=
  if k.frozen = 0 then { k with phase := .gated, ramp := 17000 } else { k with phase := .rampDown, ramp := 0 }

/-- A wake hint (R91): the floor rises from its present level. Where that is the frozen value already, the ramp up is
complete in the same cycle and a new gap starts. -/
def keeperUp (k : Keeper) : Keeper :=
  match k.phase with
  | .steady => { k with gap := 0 }
  | .rampUp => k
  | .gated | .rampDown =>
    if k.frozen = 0 then { k with phase := .steady, gap := 0, ramp := 0 } else { k with phase := .rampUp }

/-- One cycle of a keeper in which `n` arrays take a real beat. While the power core restarts (`hold`) no alcove ramps
down: keepers hold their floors, and ramps up go on (R432). -/
def keeperCycle (hold : Bool) (n : Nat) (k : Keeper) : Keeper :=
  let mean := k.hist.foldl (· + ·) 0 / 1024
  let h := (n :: k.hist).take 1024
  let k := { k with hist := if h.all (· == 0) then [] else h }
  if 0 < n then { k with floor := mean, frozen := mean, gap := 0, phase := .steady, ramp := 0, dummies := mean - n }
  else
    let k := match k.phase with
      | .gated => k
      | .steady =>
        let k := { k with gap := k.gap + 1 }
        if k.gap < 3400 ∨ hold then k else keeperDown k
      | .rampDown => if hold then k else if k.ramp + 1 < 17000 then { k with ramp := k.ramp + 1 } else { k with ramp := 17000, phase := .gated }
      | .rampUp => if 1 < k.ramp then { k with ramp := k.ramp - 1 } else { k with ramp := 0, phase := .steady, gap := 0 }
    { k with floor := k.frozen, dummies := keeperLevel k }

/-- Arrays of an alcove on which streams give a real beat in the present cycle. -/
def streamBeats (l : List Stream) (c g a : Nat) : Nat :=
  (l.map (fun t => if t.gal = g ∧ t.alc = a ∧ t.ready ∧ feedsAt t c then t.arrays.length else 0)).foldl (· + ·) 0

/-- Beats of an array suite, which the keeper counts as real beats of the alcove's 128 arrays (R340). -/
def suiteBeats (s : Block) (g a : Nat) : Nat :=
  if s.rel.sentinels.any (fun x => x.suite == 0 && x.gal == g && x.unit == a && decide (cyc s < x.stop)) then 128 else 0
def alcoveBeats (s : Block) (g a : Nat) : Nat := streamBeats s.arr.streams (cyc s) g a + suiteBeats s g a
def mainBeats (s : Block) (g a : Nat) : Nat := streamBeats (s.arr.streams.filter (fun t => t.ctx.tag == 0)) (cyc s) g a

/-- Alcoves with a stream, an array suite or a keeper at work. -/
def keptAlcoves (s : Block) : List Nat :=
  let fed : List Nat := s.arr.streams.map (fun t => t.gal * 8 + t.alc)
  let suites : List Nat := (s.rel.sentinels.filter (fun x => x.suite == 0)).map (fun x => x.gal * 8 + x.unit)
  (fed ++ suites).foldl setAdd (s.gals.keepers.map (·.1))

/-- The arrays that take dummy beats: bound, without a stream, lowest logical number first. -/
def dummyArrays (s : Block) (g a n : Nat) : List Nat :=
  match logicalOf s g with
  | none => []
  | some lg =>
    let busy := s.arr.streams.flatMap (fun t => t.arrays.map (·.arr))
    (((List.range 128).map (fun i => arrKey g a (arrOf s lg a i))).filter (fun k => !(busy.contains k))).take n

/-- One alcove's keeper in the present cycle. `beats` is false while the module is frozen. -/
def keeperStep (beats : Bool) (key : Nat) (s : Block) : Block :=
  let g := key / 8
  let a := key % 8
  let k := keeperCycle (!(procRuns s 1)) (if beats then alcoveBeats s g a else 0) (keeper s g a)
  let s := setKeeper g a k s
  if k.dummies = 0 then s
  else
    let arrs := dummyArrays s g a k.dummies
    { s with
      gals := { s.gals with dummyBeats := mapMod 0 s.gals.dummyBeats g (· + arrs.length) }
      arr := { s.arr with keeperSink := arrs.foldl (fun m r => mapSet 0 m r (Config.keeperPattern s.clk.cycle)) s.arr.keeperSink } }

/-- Every keeper. -/
def keepersCycle (beats : Bool) (s : Block) : Block := forEach (keptAlcoves s) (keeperStep beats) s

/-- Alcoves with a real beat of the main program due now whose ramp up has not finished (R91): a side slice never freezes
the module (R216). -/
def rampDue (s : Block) : List Nat :=
  (keptAlcoves s).filter (fun k => decide (0 < mainBeats s (k / 8) (k % 8)) &&
    decide ((keeper s (k / 8) (k % 8)).phase ≠ .steady) && decide (0 < (keeper s (k / 8) (k % 8)).frozen))

/-! ## One cycle -/

/-- Time and counters of a cycle, frozen or not. -/
def cycleCount (s : Block) : Block :=
  let s := tokCap s
  let s := tokAge { s with clk := { s.clk with cycle := s.clk.cycle + 1 } }
  passTime (cycleUnits s) s

/-- The work of the fixed-timing units in the present cycle, then what becomes visible in the next. -/
def cycleWork (s : Block) : Block :=
  let s := loadCycle s
  let s := releaseOps (streamCycle s)
  let s := vCycle s
  let s := convCycle s
  let s := { s with clk := { s.clk with fcyc := s.clk.fcyc + 1 } }
  let s := vCommit s
  let s := streamStarts s
  let s := convStarts s
  landAll s

/-- A cycle of a frozen module (R209): only the keepers, the ticks and the tokens go on. -/
def cycleFrozen (s : Block) : Block :=
  let s := keepersCycle false s
  let s := { s with clk := { s.clk with heldCycles := s.clk.heldCycles + 1 } }
  cycleCount s

/-- A due beat starts the ramp up of its alcoves and freezes the module (R91). -/
def rampHold (alcs : List Nat) (s : Block) : Block :=
  let s := forEach alcs (fun k s => setKeeper (k / 8) (k % 8) (keeperUp (keeper s (k / 8) (k % 8))) s) s
  freezeFor .rampHold false [] alcs 0 0 s

/-- One arithmetic cycle. -/
def clockCycle (s : Block) : Block :=
  if s.freeze.isSome then cycleFrozen s
  else
    match rampDue s with
    | [] =>
      let s := keepersCycle true s
      cycleCount (cycleWork s)
    | alcs => cycleFrozen (rampHold alcs s)

/-! ## Quiet units -/

/-- No fixed-timing action is in flight (R211 step 2). -/
def unitsQuiet (s : Block) : Bool :=
  s.arr.streams.isEmpty && s.arr.contribs.isEmpty && s.arr.held.isEmpty && s.vec.jobs.isEmpty &&
    s.vec.writes.isEmpty && s.vec.mwrites.isEmpty && s.vec.zwrites.isEmpty &&
    s.arr.ports.all (fun e => e.2.isNone) &&
    s.vec.convs.all (fun e => e.2.waiting.isEmpty && (match e.2.cur with
      | none => true
      | some j => decide (drainTiles j ≤ j.next)))

/-- The vector engine of a gallery is idle. -/
def veIdle (s : Block) (g : Nat) : Bool :=
  !(s.vec.jobs.any (·.gal == g)) && !(s.vec.writes.any (·.gal == g)) && !(s.vec.zwrites.any (·.gal == g)) &&
    !(s.vec.mwrites.any (·.gal == g)) &&
    s.vec.convs.all (fun e => e.1 / 4 != g || (e.2.waiting.isEmpty && (match e.2.cur with
      | none => true
      | some j => decide (drainTiles j ≤ j.next))))

/-- Every alcove of a gallery is gated (R218). -/
def alcovesGated (s : Block) (g : Nat) : Bool :=
  (List.range 8).all (fun a => decide ((keeper s g a).phase = .gated)) &&
    !(s.arr.streams.any (·.gal == g)) && s.arr.ports.all (fun e => arrGal e.1 != g || e.2.isNone)

end Sys2Proof.Machine
end

