-- ==== Sys2Proof/Machine/Answer.lean ====
section
/-! DEFINITION. How the module answers: mailbox responses (R391, R392, R394), the end of a long request
(R390, R393), and the parts of 0x4010 that say which power state the module is in (R464). -/

namespace Sys2Proof.Machine

/-! ## Status codes (R394) -/

def stOk : Nat := 0
def stAccepted : Nat := 1
def stVersion : Nat := 2
def stType : Nat := 3
def stLength : Nat := 4
def stAccess : Nat := 5
def stNoObject : Nat := 6
def stState : Nat := 7
def stFailed : Nat := 8
def stInterrupted : Nat := 9

/-! ## Ports -/

/-- A vestibule by number. -/
def port (s : Block) (p : Nat) : Vport := if p = 0 then s.portA else s.portB

/-- Change a vestibule. -/
def modPort (p : Nat) (f : Vport → Vport) (s : Block) : Block :=
  if p = 0 then { s with portA := f s.portA } else { s with portB := f s.portB }

/-- Set a bit of VST_ERR (R384). -/
def vstErr (p n : Nat) (s : Block) : Block := modPort p (fun v => { v with err := putBit v.err n true }) s

/-! ## Responses -/

/-- The 32-byte header of a response. -/
def respHeader (typ seq len status step : Nat) : Bytes :=
  leBytes 1 1 ++ leBytes 1 0 ++ leBytes 2 typ ++ leBytes 4 seq ++ leBytes 4 len ++ leBytes 2 status ++ leBytes 2 0 ++
    leBytes 8 step ++ zeros 8

/-- Write the response of a request and post alert 0x09. -/
def respond (r : ReqF) (typ status : Nat) (payload : Bytes) (s : Block) : Block :=
  let seq := r.seq % 2 ^ 32
  let s := modPort r.port (fun v => { v with
    response := respHeader typ seq payload.length status (stepNo s) ++ payload
    mbState := 2, heldSeq := seq + 1, service := none }) s
  alert 9 (seq + status * 2 ^ 32) s

/-- A long request has ended: alert 0x0A. -/
def longDone (typ status seq : Nat) (s : Block) : Block :=
  alert 0xA (typ % 65536 + status % 65536 * 2 ^ 16 + seq % 2 ^ 32 * 2 ^ 32) s

/-! ## Power state (R456, R464) -/

/-- Replace the STATE field. -/
def setPstate (c : Nat) (s : Block) : Block := setNum 0x401000 (setFld (num s 0x401000) 0 3 c) s

/-- A program runs: Active, or Curbed as before (R457). -/
def enterActive (s : Block) : Block := if pstate s = 4 then s else setPstate 3 s

/-- Nothing runs any more: Ready, or Curbed as before. -/
def leaveActive (s : Block) : Block := if pstate s = 3 then setPstate 2 s else s

/-- A step is running: a program has been started and is neither parked nor HALTED (R219). -/
def stepRunning (s : Block) : Bool := s.prog.loaded && s.prog.started && s.bnd.phase != .stopped

/-- Parked, or HALTED, which counts as parked (R365). A module stays parked while it loads a program. -/
def isParked (s : Block) : Bool := s.bnd.phase == .stopped || bit (num s 0x607000) 1

/-- A program is loaded that has not started or is parked. -/
def atRest (s : Block) : Bool := s.prog.loaded && !(stepRunning s)

/-- The rebuild segment of a takeover runs alone (R369). -/
def rebuilding (s : Block) : Bool := match s.recov.job with
  | some j => j.rebuild
  | none => false

/-- Set bits of the recovery status: a notify and alert 0x08 when bit 5, 6 or 7 rises (R377). -/
def setRecov (n : Nat) (b : Bool) (s : Block) : Block :=
  setStatus 0x607000 (putBit (num s 0x607000) n b) 0xE0 0xE0 8 s

end Sys2Proof.Machine
end

