-- ==== Sys2Proof/Machine/Memory.lean ====
section
/-! DEFINITION. Memory stacks, the page map and its caches, sectors with ECC and poison, the
memory-side adders, and repair (R224 to R252). Logical memory is reached by `memRead`, `memWrite`
and `memRmw` alone. -/

namespace Sys2Proof.Machine

/-! ## Floor-map records (R349) -/

/-- A record of the floor map waits to be written to flash. -/
def floorRec (loc kind detail : Nat) (s : Block) : Block :=
  let info := kind <<< 56 + (detail % 256) <<< 48 + stepNo s % 2 ^ 48
  let s := trimBuffer { s with rel := { s.rel with floorWait := s.rel.floorWait ++ [(loc, info)] } }
  if 1048576 ≤ s.rel.floorMap.length + s.rel.floorWait.length then setRelBit 7 true s else s

/-! ## The page map (R230, R231) -/

/-- A frame's number. -/
def frameKey (g f : Nat) : Nat := g * 8320 + f

/-- The entry that cold boot builds for a page, with the EPOCH of unlisted entries. -/
def pmapDflt (s : Block) (page : Nat) : Nat :=
  s.mem.pmapEpoch % 65536 * 2 ^ 48 + (page / 8192) * 2 ^ 22 + (page % 8192) * 2 ^ 8 + 1

/-- The entry of a page. -/
def pmapEntry (s : Block) (page : Nat) : Nat :=
  match mapGet 0 s.mem.pmap page with
  | 0 => pmapDflt s page
  | e + 1 => e

/-- Rewrite an entry, in both copies and both caches at once (R233). -/
def pmapSet (page e : Nat) (s : Block) : Block :=
  let v := if e = pmapDflt s page then 0 else e + 1
  let s := touch 0x514000 (mapGet 0 s.mem.pmap page != v) s
  { s with mem := { s.mem with pmap := mapSet 0 s.mem.pmap page v } }

/-- Entry bits. -/
def peValid (e : Nat) : Bool := bit e 0
def peMirrored (e : Nat) : Bool := bit e 1 && !(bit e 2)
def peShadow (e : Nat) : Bool := bit e 2
def peRetired (e : Nat) : Bool := bit e 3
def pePoisoned (e : Nat) : Bool := bit e 4
def peSel (e : Nat) : Bool := bit e 5
def peEpoch (e : Nat) : Nat := fld e 48 16
/-- Both MIRRORED and SHADOW: treated as SHADOW, with a page-map fault (R232). -/
def peBoth (e : Nat) : Bool := bit e 1 && bit e 2
/-- The page can be read and written (R232). -/
def peUsable (e : Nat) : Bool := peValid e && !(peRetired e)

/-- Locations A and B, the selected one and the other. -/
def peLocA (e : Nat) : Nat := frameKey (fld e 22 6) (fld e 8 14)
def peLocB (e : Nat) : Nat := frameKey (fld e 42 6) (fld e 28 14)
def peHere (e : Nat) : Nat := if peSel e then peLocB e else peLocA e
def peThere (e : Nat) : Nat := if peSel e then peLocA e else peLocB e

/-- The entry with one location replaced. -/
def peSetA (e k : Nat) : Nat := setFld (setFld e 22 6 (k / 8320)) 8 14 (k % 8320)
def peSetB (e k : Nat) : Nat := setFld (setFld e 42 6 (k / 8320)) 28 14 (k % 8320)
def peSetHere (e k : Nat) : Nat := if peSel e then peSetB e k else peSetA e k
def peSetThere (e k : Nat) : Nat := if peSel e then peSetA e k else peSetB e k

/-- The stack of a frame (R226). -/
def frameStack (fk : Nat) : Nat := fk / 8320 / 8

/-- Pages that use a frame: a location in use lies in it (a page without a listed entry lies where cold boot put it), or it
is the own frame of a page that maps elsewhere for now (R302). -/
def pagesOfFrame (s : Block) (fk : Nat) : List Nat :=
  let p := fk / 8320 * 8192 + fk % 8320
  let used := s.mem.pmap.filterMap (fun e => let v := e.2 - 1
    if e.2 ≠ 0 ∧ (peHere v = fk ∨ ((bit v 1 || bit v 2) ∧ peThere v = fk)) then some e.1 else none)
  let own := s.mem.ownFrames.filterMap (fun e => if e.2 = fk + 1 then some e.1 else none)
  (used ++ own).foldl setAdd (if fk % 8320 < 8192 ∧ mapGet 0 s.mem.pmap p = 0 then [p] else [])

/-! ## Translation (R231, R233) -/

/-- A hall's page-map cache. -/
def hallCache (hall : Nat) (m : Mem) : List Nat := if hall = 0 then m.cacheA else m.cacheB

/-- One access translates a page. On a miss the entry is read from the hall's own copy, in MS0 or
MS4; when that copy is uncorrectable the other one is read. -/
def translate (hall page : Nat) (s : Block) : Nat × Block :=
  let c := hallCache hall s.mem
  if c.contains page then (pmapEntry s page, s)
  else
    let loc := memLoc 11 (if hall = 0 then 0 else 4) 0 0 0
    let (hit, s) := inject 0x08 loc s
    let s := if hit then setMemBit 4 true (detect 0x08 loc true 0 (page * 2 ^ 20) [] s) else s
    let c := if c.length < 4096 then c else setDel c (nth c (Config.cacheVictim hall s.mem.misses % 4096) 0)
    let c := setAdd c page
    let m := { s.mem with misses := s.mem.misses + 1 }
    let m := if hall = 0 then { m with cacheA := c } else { m with cacheB := c }
    (pmapEntry s page, { s with mem := m })

/-! ## Where a sector lies (R226, R230, R245) -/

/-- The physical channel of a logical one. -/
def physChan (s : Block) (stack c : Nat) : Nat :=
  match mapGet 0 s.mem.fix.chanMap (stack * 128 + c) with
  | 0 => c
  | p + 1 => p

/-- The key of a bank, and of a row. -/
def bankKey (stack chan bank : Nat) : Nat := (stack * 136 + chan) * 32 + bank
def rowKey (stack chan bank row : Nat) : Nat := bankKey stack chan bank * 8384 + row

/-- Physical channel and bank of a sector of a frame at a page offset. -/
def secChan (s : Block) (fk off : Nat) : Nat :=
  physChan s (frameStack fk) (16 * (fk / 8320 % 8) + fld off 8 4)
def secBank (off : Nat) : Nat := (off / 4096 * 256 + off % 256) / 2048

/-- The row that holds a sector, after remapping, as a row key. -/
def secRow (s : Block) (fk off : Nat) : Nat :=
  let b := bankKey (frameStack fk) (secChan s fk off) (secBank off)
  match mapGet 0 s.mem.fix.remap (b * 8384 + fk % 8320) with
  | 0 => b * 8384 + fk % 8320
  | r + 1 => b * 8384 + r

/-- Location words of a row key and of a sector's channel (R348). -/
def rowLoc (k : Nat) : Nat := memLoc 4 (k / 8384 / 4352) (k / 8384 / 32 % 136) (k / 8384 % 32) (k % 8384)
def chanLoc (s : Block) (fk off : Nat) : Nat := memLoc 5 (frameStack fk) (secChan s fk off) 0 0

/-! ## Sectors (R227 to R229) -/

/-- The number of a sector of a frame. -/
def secKey (fk off : Nat) : Nat := fk * 32768 + off / 32

/-- The 32 bytes of a sector. -/
def secBytes (s : Block) (sk : Nat) : Bytes :=
  (List.range 32).map (fun i => mapGet (0 : Byte) s.mem.bytes (sk * 32 + i))

/-- A row becomes failing (R245). -/
def rowFails (k : Nat) (s : Block) : Block :=
  { s with mem := { s.mem with fix := { s.mem.fix with failing := setAdd s.mem.fix.failing k } } }

/-- Count an event against a row. -/
def rowEvent (uncorr : Bool) (k : Nat) (s : Block) : Block :=
  if uncorr then rowFails k (bumpNum 0x511102 64 1 s)
  else
    let s := bumpNum 0x511101 64 1 s
    let n := mapGet 0 s.mem.fix.events k + 1
    let s := { s with mem := { s.mem with fix := { s.mem.fix with events := mapSet 0 s.mem.fix.events k n } } }
    if numF s 0x510002 ≤ n then rowFails k s else s

/-- Mark a sector poisoned or clean. -/
def setPoison (sk : Nat) (b : Bool) (s : Block) : Block :=
  { s with mem := { s.mem with poison := setPut s.mem.poison sk b } }

/-- Decode a sector (R227): one wrong symbol is corrected and written back; more are delivered and
rewritten as poison. The answer says that the sector was uncorrectable. -/
def decodeSec (fk off addr : Nat) (s : Block) : Bool × Block :=
  let sk := secKey fk off
  let n := mapGet 0 s.mem.symErr sk
  let pois := s.mem.poison.contains sk
  if n = 0 then (false, s)
  else
    let k := secRow s fk off
    let inj := decide (n ≤ 2)
    let bad := n % 2 == 0
    let s := { s with mem := { s.mem with symErr := mapSet 0 s.mem.symErr sk 0 } }
    if pois ∧ !bad then (false, s)
    else
      let s := if inj then s else rowEvent bad k s
      let s := detect (if bad then 0x07 else 0x06) (rowLoc k) inj 0 addr [] s
      (bad, if bad then setPoison sk true s else s)

/-- Read a sector at a location. -/
def readSecAt (fk off addr : Nat) (s : Block) : Bytes × Bool × Bool × Block :=
  let (bad, s) := decodeSec fk off addr s
  (secBytes s (secKey fk off), s.mem.poison.contains (secKey fk off), bad, s)

/-- The canonical form of the memory: addresses strictly rising, and no cell equal to 0, which is what
an unlisted address reads as. -/
def Memory.wf (m : List Host.Cell) : Bool := mapWf (0 : Byte) m

/-- Write bytes into the list of a sector's cells. -/
def cellsPut (m : List Host.Cell) : Nat → List (Option Byte) → List Host.Cell
  | _, [] => m
  | a, none :: r => cellsPut m (a + 1) r
  | a, some b :: r => cellsPut (mapSet (0 : Byte) m a b) (a + 1) r

/-- Write a sector at a location (R228): bytes that are `none` keep their value. A whole clean write
makes the sector clean; a partial write to a poisoned sector leaves it poisoned. -/
def writeSecAt (fk off addr : Nat) (new : List (Option Byte)) (pois : Bool) (s : Block) : Block :=
  let sk := secKey fk off
  let whole := new.all Option.isSome
  let s := if whole then s else (decodeSec fk off addr s).2
  let p := pois || (!whole && s.mem.poison.contains sk)
  let (h6, s) := inject 0x06 (rowLoc (secRow s fk off)) s
  let (h7, s) := inject 0x07 (rowLoc (secRow s fk off)) s
  let s := { s with mem := { s.mem with
    bytes := cellsPut s.mem.bytes (sk * 32) new
    symErr := mapSet 0 s.mem.symErr sk (if h7 then 2 else if h6 then 1 else 0) } }
  setPoison sk p s

/-! ## Reads and writes by logical address (R232, R339) -/

/-- The pieces of a logical range by page: page, offset, length, and distance from its start. -/
def pieces (a n : Nat) : List (Nat × Nat × Nat × Nat) :=
  if n = 0 then []
  else
    let o := a % 2 ^ 20
    (List.range (ceilDiv (n + o) (2 ^ 20))).map (fun k =>
      let done := if k = 0 then 0 else k * 2 ^ 20 - o
      let off := if k = 0 then o else 0
      ((a / 2 ^ 20 + k) % 2 ^ 19, off, min (2 ^ 20 - off) (n - done), done))

/-- Offsets of the sectors that a piece touches. -/
def pieceSecs (off len : Nat) : List Nat :=
  (List.range (ceilDiv (len + off % 32) 32)).map (fun i => (off / 32 + i) * 32)

/-- The program is in a CHECKED region (R217). -/
def inChecked (s : Block) : Bool := s.gals.alcPair || s.gals.quadPair

/-- Read one sector of a usable page. -/
def readSec (e page off : Nat) (s : Block) : Bytes × Bool × Block :=
  let addr := page * 2 ^ 20 + off
  let (d, p, bad, s) := readSecAt (peHere e) off addr s
  if !(peMirrored e) then (d, p, s)
  else if inChecked s then
    let (d2, p2, bad2, s) := readSecAt (peThere e) off addr s
    if bad && !(bad2 || p2) then (d2, false, writeSecAt (peHere e) off addr (d2.map some) false s) else
    let k2 := secRow s (peThere e) off
    let (hit, s) := inject 0x12 (rowLoc k2) s
    if d = d2 ∧ !hit then (d, p, s)
    else
      let k := secRow s (peHere e) off
      let s := if hit then s else rowEvent true k2 (rowEvent true k s)
      let s := setPoison (secKey (peThere e) off) true (setPoison (secKey (peHere e) off) true s)
      (d, true, detect 0x12 (rowLoc k) hit 0 addr [] s)
  else if bad then
    let (d2, p2, bad2, s) := readSecAt (peThere e) off addr s
    if bad2 || p2 then (d, p, s)
    else (d2, false, writeSecAt (peHere e) off addr (d2.map some) false s)
  else (d, p, s)

/-- Fold a sector's bytes, with its poison mark on each, onto what a read has so far. -/
def readFold (e page : Nat) (acc : List (Byte × Bool) × Block) (off : Nat) : List (Byte × Bool) × Block :=
  let (d, p, s) := readSec e page off acc.2
  (acc.1 ++ d.map (fun b => (b, p)), s)

/-- A poisoned sector of a page that is not mapped or retired: its data are free. -/
def lostFold (acc : List (Byte × Bool) × Block) (_ : Nat) : List (Byte × Bool) × Block :=
  let (v, s) := fresh acc.2
  (acc.1 ++ (leBytes 32 v).map (fun b => (b, true)), s)

/-- Log the address fault of an unusable page, or the page-map fault of a page both MIRRORED and
SHADOW (R232). -/
def pageFaults (e page : Nat) (s : Block) : Block :=
  if !(peUsable e) then logFault .address 255 page 0 0 s
  else if peBoth e then logFault .pageMap 255 page 0 0 s else s

/-- Read one piece. -/
def readPiece (hall : Nat) (acc : List (Byte × Bool) × Block) (pc : Nat × Nat × Nat × Nat) :
    List (Byte × Bool) × Block :=
  let (page, off, len, _) := pc
  let (e, s) := translate hall page acc.2
  let s := pageFaults e page s
  let r := if peUsable e then (pieceSecs off len).foldl (readFold e page) ([], s)
    else (pieceSecs off len).foldl lostFold ([], s)
  (acc.1 ++ (r.1.drop (off % 32)).take len, r.2)

/-- Read `n` bytes of logical memory from a hall: each byte with its sector's poison. -/
def memRead (hall a n : Nat) (s : Block) : List (Byte × Bool) × Block :=
  (pieces (a % 2 ^ 39) n).foldl (readPiece hall) ([], s)

/-- What a sector of a write takes: 32 bytes, `none` outside the write. -/
def secPart (off len : Nat) (data : List (Byte × Bool)) (so : Nat) : List (Option (Byte × Bool)) :=
  (List.range 32).map (fun i => if so + i < off ∨ off + len ≤ so + i then none else data[so + i - off]?)

/-- Write a sector of a usable page at one location. -/
def writeSecTo (page off len : Nat) (data : List (Byte × Bool)) (so fk : Nat) (s : Block) : Block :=
  let part := secPart off len data so
  writeSecAt fk so (page * 2 ^ 20 + so) (part.map (·.map (·.1)))
    (part.any (fun o => match o with | some (_, p) => p | none => false)) s

/-- The locations a write goes to, or none when a shadow write meets no SHADOW page (R232). -/
def writeLocs (shadow : Bool) (e : Nat) : List Nat :=
  if peShadow e then [if shadow then peThere e else peHere e]
  else if peMirrored e then [peHere e, peThere e]
  else if shadow then [] else [peHere e]

/-- A write to a page of a cache slot clears the slot's tag (R303). -/
def dropTags (page : Nat) (s : Block) : Block :=
  if s.colls.cache.any (fun e => match e.2 with
      | some t => decide (t.first ≤ page) && decide (page < t.first + t.pages)
      | none => false) then
    { s with colls := { s.colls with cache := s.colls.cache.filter (fun e => match e.2 with
      | some t => !(decide (t.first ≤ page) && decide (page < t.first + t.pages))
      | none => false) } }
  else s

/-- Write one piece; the answer gains `true` when the write is discarded and its descriptor fails. -/
def writePiece (hall : Nat) (shadow : Bool) (data : List (Byte × Bool)) (acc : Bool × Block)
    (pc : Nat × Nat × Nat × Nat) : Bool × Block :=
  let (page, off, len, done) := pc
  let (e, s) := translate hall page acc.2
  let s := pageFaults e page s
  if !(peUsable e) then (acc.1, s)
  else
    let locs := writeLocs shadow e
    let s := if locs.isEmpty then s else dropTags page s
    let d := (data.drop done).take len
    (acc.1 || locs.isEmpty,
      forEach (pieceSecs off len) (fun so s => forEach locs (fun fk s => writeSecTo page off len d so fk s) s) s)

/-- Write bytes to logical memory from a hall; a sector with any poisoned byte is written poisoned.
The answer says that a shadow write was discarded. -/
def memWrite (hall : Nat) (shadow : Bool) (a : Nat) (data : List (Byte × Bool)) (s : Block) : Bool × Block :=
  (pieces (a % 2 ^ 39) data.length).foldl (writePiece hall shadow data) (false, s)

/-- Each poisoned sector that a read of a job touched is consumed (R241). -/
def consumeRead (tag a : Nat) (data : List (Byte × Bool)) (s : Block) : Block :=
  forEach (List.range (ceilDiv (a % 32 + data.length) 32)) (fun i s =>
    let at0 := i * 32 - a % 32
    let len := if i = 0 then 32 - a % 32 else 32
    if anyPoison ((data.drop at0).take len) then consume tag ((a / 32 + i) * 32 % 2 ^ 39) s else s) s

/-! ## Memory-side adders (R238, R239) -/

/-- Bytes of an element type (R200); codes above 4 count as 0. -/
def mtypeBytes (t : Nat) : Nat := if t = 1 then 2 else if t = 3 ∨ t = 4 then 8 else 4

/-- Larger of two floating-point operands. -/
def wfMax (w : WFmt) (a b : Nat) : Nat × Nat :=
  let x := wfVal w a
  let y := wfVal w b
  if isNan x || isNan y then (wfNan w, fINV)
  else
    let c := fvCmp x y
    let xLarger := if c = 0 then !(isNeg x) || isNeg y else decide (0 < c)
    ((wfWrite w false (if xLarger then x else y)).1, 0)

/-- Result and flags of one element: target, then source. -/
def memElem (mop t a b : Nat) : Nat × Nat :=
  let n := 8 * mtypeBytes t
  if mop = 3 then (a ^^^ b, 0)
  else if t = 4 then
    if mop = 1 then g64Add a b
    else if a = g64Nan ∨ b = g64Nan then (g64Nan, 0)
    else (unsigned 64 (max (signed 64 a) (signed 64 b)), 0)
  else if t = 2 ∨ t = 3 then
    if mop = 1 then
      let z := signed n a + signed n b
      (unsigned n z, if signed n (unsigned n z) = z then 0 else fOVF)
    else (unsigned n (max (signed n a) (signed n b)), 0)
  else
    let w := if t = 1 then WFmt.bf16 else WFmt.fp32
    if mop = 1 then
      let x := wfVal w a
      let y := wfVal w b
      wfAnswer w [x, y] (fvAdd x y)
    else wfMax w a b

/-- Combine target and source bytes element by element; the element is poisoned when any byte of
either operand is. The flags of each element follow. -/
def memElems (mop t : Nat) : Nat → List (Byte × Bool) → List (Byte × Bool) → List (Byte × Bool) × List Nat
  | 0, _, _ => ([], [])
  | k + 1, old, src =>
    let n := mtypeBytes t
    let a := old.take n
    let b := src.take n
    let (v, fl) := memElem mop t (leNat (plain a)) (leNat (plain b))
    let p := anyPoison a || anyPoison b
    let r := memElems mop t k (old.drop n) (src.drop n)
    ((leBytes n v).map (fun x => (x, p)) ++ r.1, fl :: r.2)

/-- Collect adder or update-engine flags for a job tag (R239, R240). -/
def memFlags (tag fl : Nat) (s : Block) : Block :=
  if tag = 0 then { s with mem := { s.mem with flags0 := s.mem.flags0 ||| fl } }
  else { s with mem := { s.mem with flagsSide := s.mem.flagsSide ||| fl } }

/-- An armed adder injection poisons the sectors of its channel, for integer and G64 types. -/
def adderInject (t : Nat) (acc : List (Byte × Bool) × Block) (pc : Nat × Nat × Nat × Nat) :
    List (Byte × Bool) × Block :=
  let (page, off, len, done) := pc
  if t = 0 ∨ t = 1 ∨ !(peUsable (pmapEntry acc.2 page)) then acc
  else (pieceSecs off len).foldl (fun acc so =>
    let loc := chanLoc acc.2 (peHere (pmapEntry acc.2 page)) so
    let (hit, s) := inject 0x02 loc acc.2
    if hit then
      (acc.1.mapIdx (fun i (b, p) => (b, p || (decide (so ≤ off + i - done) && decide (off + i - done < so + 32) && decide (done ≤ i)))),
        detect 0x02 loc true 0 (page * 2 ^ 20 + so) [] s)
    else (acc.1, s)) acc

/-- A memory-side operation `mop` (1 ADD, 2 MAX, 3 XOR) of source bytes on logical memory. The pages
that are not usable discard their part and log an address fault (R232). -/
def memRmw (hall tag mop t a : Nat) (src : List (Byte × Bool)) (s : Block) : Block :=
  let t := if 4 < t then 0 else t
  let k := src.length / mtypeBytes t
  let n := k * mtypeBytes t
  let s0 := s
  let (old, s) := memRead hall a n s
  -- address faults are logged by the write alone
  let s := { s with logs := { s.logs with log := s0.logs.log } }
  let (new, fl) := memElems mop t k old src
  let live := fun o => peUsable (pmapEntry s ((a + o) % 2 ^ 39 / 2 ^ 20))
  let fl := (fl.mapIdx (fun i x => if live (i * mtypeBytes t) ∧ live ((i + 1) * mtypeBytes t - 1) then x else 0)).foldl (· ||| ·) 0
  let (new, s) := (pieces (a % 2 ^ 39) n).foldl (adderInject t) (new, s)
  memFlags tag fl (memWrite hall false a new s).2

/-- The bytes of a memory-side command with one poison bit for each 32. -/
def withPoison (data : Bytes) (pois : List Bool) (unit : Nat) : List (Byte × Bool) :=
  data.mapIdx (fun i b => (b, pois.getD (i / unit) false))

/-- A memory-side operation as it reaches its controller (R238). -/
def doMemOp (mop : Nat) (f : MemOpF) (s : Block) : Block :=
  memRmw 0 f.tag mop f.mtype f.addr (withPoison f.data f.poison 32) s

def execAdd (f : MemOpF) (s : State) : Host.Outcome State Fault Refusal := effect (doMemOp 1 f) s
def execMax (f : MemOpF) (s : State) : Host.Outcome State Fault Refusal := effect (doMemOp 2 f) s
def execXor (f : MemOpF) (s : State) : Host.Outcome State Fault Refusal := effect (doMemOp 3 f) s

/-! ## Repair (R245 to R249) -/

/-- Reserve frames of a group that are neither used nor retired, lowest first. -/
def reserveFree (s : Block) (g : Nat) : List Nat :=
  if s.mem.fix.fencedGroups.contains g then []
  else ((List.range 128).map (fun i => frameKey g (8192 + i))).filter (fun k =>
    !(s.mem.fix.reserveUsed.contains k) && !(s.mem.fix.retired.contains k) && !(s.mem.fix.migrate.contains k))

/-- Free reserve frames of the module. -/
def reserveCount (s : Block) : Nat :=
  ((List.range 64).map (fun g => (reserveFree s g).length)).foldl (· + ·) 0

/-- Report the reserve: 0x5111.08 and RESERVE_LOW. -/
def reportReserve (s : Block) : Block :=
  let n := reserveCount s
  setMemBit 7 (decide (n < 512)) (setNum 0x511108 n s)

/-- The order in which groups are searched for a reserve frame (R247 step 2). -/
def reserveOrder (g : Nat) : List Nat :=
  let all := List.range 64
  g :: (all.filter (fun h => h / 8 == g / 8 && h != g) ++
    all.filter (fun h => h / 32 == g / 32 && h / 8 != g / 8) ++ all.filter (fun h => h / 32 != g / 32))

/-- The reserve frame that replaces one of a group. -/
def reservePick (s : Block) (g : Nat) : Option Nat := ((reserveOrder g).flatMap (reserveFree s)).head?

/-- The frames whose pages wait to migrate; MIGRATING shows that there is one (R252, log 81). -/
def setMigrate (l : List Nat) (s : Block) : Block :=
  setMemBit 3 (!l.isEmpty) { s with mem := { s.mem with fix := { s.mem.fix with migrate := l } } }

/-- A frame joins the retired list (0x5120). -/
def frameRetired (fk : Nat) (s : Block) : Block :=
  let f := s.mem.fix
  if f.retired.contains fk then s
  else
    let s := setMigrate (setDel f.migrate fk) { s with mem := { s.mem with fix := { f with retired := f.retired ++ [fk] } } }
    reportReserve (bumpNum 0x511105 32 1 (floorRec (memLoc 4 (frameStack fk) (fk / 8320) 0 (fk % 8320)) 0x0A 0 s))

/-- A frame is to be retired (R246): the pages that use it wait to migrate. -/
def frameGoes (fk : Nat) (s : Block) : Block :=
  if s.mem.fix.retired.contains fk ∨ s.mem.fix.migrate.contains fk then s
  else if pagesOfFrame s fk = [] then frameRetired fk s
  else setMigrate (setAdd s.mem.fix.migrate fk) s

/-- The logical address of a sector: in the first page that uses its frame, 0 where none does (R354). -/
def secAddr (s : Block) (sk : Nat) : Nat :=
  match pagesOfFrame s (sk / 32768) with
  | [] => 0
  | p :: _ => p * 2 ^ 20 + sk % 32768 * 32

/-- Decode every sector with standing wrong symbols among `p`. -/
def decodeAll (p : Nat → Bool) (s : Block) : Block :=
  forEach ((s.mem.symErr.map (·.1)).filter p) (fun sk s =>
    (decodeSec (sk / 32768) (sk % 32768 * 32) (secAddr s sk) s).2) s

/-- Copy a frame into another: clean and corrected sectors as clean, others as poisoned. -/
def copyFrame (a b : Nat) (s : Block) : Block :=
  let s := decodeAll (fun sk => sk / 32768 == a) s
  let mv := s.mem.bytes.filter (fun c => c.1 / 2 ^ 20 == a)
  let rest := s.mem.bytes.filter (fun c => c.1 / 2 ^ 20 != a && c.1 / 2 ^ 20 != b)
  let pm := s.mem.poison.filter (fun k => k / 32768 == a)
  let pr := s.mem.poison.filter (fun k => k / 32768 != a && k / 32768 != b)
  { s with mem := { s.mem with
    bytes := mv.foldl (fun m c => mapSet (0 : Byte) m (b * 2 ^ 20 + c.1 % 2 ^ 20) c.2) rest
    poison := pm.foldl (fun l k => setAdd l (b * 32768 + k % 32768)) pr
    symErr := mapFilter (fun k => k / 32768 != b) s.mem.symErr } }

/-- POISON_PRESENT: some page has POISONED set. -/
def reportPoison (s : Block) : Block :=
  setMemBit 0 (s.mem.pmap.any (fun e => e.2 != 0 && pePoisoned (e.2 - 1))) s

/-- A page becomes RETIRED (R248). -/
def pageRetire (page : Nat) (s : Block) : Block :=
  let e := pmapEntry s page
  if peRetired e then s
  else
    let s := bumpNum 0x511107 32 1 (pmapSet page (putBit e 3 true) s)
    let s := setMemBit 6 true s
    alert 6 (num s 0x511000) s

/-- The entry of a page that used frame `fk`, and the frame it has of its own while it maps elsewhere, name `nk` in its
place; `pz` says that a sector was copied poisoned. -/
def movedPage (fk nk : Nat) (pz : Bool) (page : Nat) (s : Block) : Block :=
  let own := mapGet 0 s.mem.ownFrames page
  let s := if own = fk + 1 then { s with mem := { s.mem with ownFrames := mapSet 0 s.mem.ownFrames page (nk + 1) } } else s
  let e := pmapEntry s page
  let e := if peHere e = fk then peSetHere e nk else if peThere e = fk then peSetThere e nk else e
  let s := if pz then dropTags page s else s
  pmapSet page (if pz then putBit e 4 true else e) s

/-- Move what lies in a frame to a reserve frame (R247); with no reserve frame its pages become RETIRED (R248). Either way
the frame is retired (R246). -/
def moveFrame (fk : Nat) (s : Block) : Block :=
  let pages := pagesOfFrame s fk
  match reservePick s (fk / 8320) with
  | none => frameRetired fk (forEach pages pageRetire s)
  | some nk =>
    let s := copyFrame fk nk s
    let s := forEach pages (movedPage fk nk (s.mem.poison.any (fun k => k / 32768 == nk))) s
    let s := { s with mem := { s.mem with fix := { s.mem.fix with reserveUsed := setAdd s.mem.fix.reserveUsed nk } } }
    reportPoison (frameRetired fk s)

/-- The waiting frame of a page. -/
def waitingFrame (s : Block) (page : Nat) : Option Nat :=
  s.mem.fix.migrate.find? (fun fk => (pagesOfFrame s fk).contains page)

/-- PAGE_MIGRATION: nothing moves during boundary actions, while the scheduler core restarts (R432), nor for a page without
a waiting frame. -/
def doPageMigration (page : Nat) (s : Block) : Block :=
  if s.bnd.phase = .actions ∨ !(procRuns s 2) then s
  else match waitingFrame s page with
    | none => s
    | some fk => moveFrame fk s

def execPageMigration (page : Nat) (s : State) : Host.Outcome State Fault Refusal :=
  if 524288 ≤ page then .fault .noSuchUnit else effect (doPageMigration page) s

/-- Unused spare channels of a stack (R249): spares 128 to 135 are taken in order. -/
def spareChan (s : Block) (stack : Nat) : Option Nat :=
  let n := mapGet 0 s.mem.fix.spareChanUsed stack
  if n < 8 then some (128 + n) else none

/-- The logical channel that a physical one serves. -/
def logicalChan (s : Block) (stack chan : Nat) : Option Nat :=
  (List.range 128).find? (fun c => physChan s stack c == chan)

/-- Fence a group (R249): its mapped pages wait to migrate. -/
def fenceGroup (g : Nat) (s : Block) : Block :=
  if s.mem.fix.fencedGroups.contains g then s
  else
    let s := { s with mem := { s.mem with fix := { s.mem.fix with fencedGroups := setAdd s.mem.fix.fencedGroups g } } }
    let loc := memLoc 5 (g / 8) (g % 8 * 16) 0 0
    let s := cperNow 0xF0 3 2 0 0x0C loc 0 [] (floorRec loc 0x0C 0 s)
    let s := setMemBit 5 true s
    let ks := ((List.range 8320).map (frameKey g)).filter (fun k => pagesOfFrame s k != [] && !(s.mem.fix.retired.contains k))
    reportReserve (setMigrate (ks.foldl setAdd s.mem.fix.migrate) s)

/-- Fence a channel when enough of its frames have been retired (R249): the next unused spare of its stack is to stand in, or
its group is fenced. -/
def chanCheck (stack chan : Nat) (s : Block) : Block :=
  let k := stack * 136 + chan
  if s.mem.fix.fencedChans.contains k ∨ mapGet 0 s.mem.fix.chanRetired k < numF s 0x510003 then s
  else
    let s := { s with mem := { s.mem with fix := { s.mem.fix with fencedChans := setAdd s.mem.fix.fencedChans k } } }
    let s := cperNow 0xF0 3 2 0 0 (memLoc 5 stack chan 0 0) 0 [] (bumpNum 0x511106 16 1 s)
    match logicalChan s stack chan, spareChan s stack with
    | none, _ => s
    | some c, none => fenceGroup (stack * 8 + c / 16) s
    | some _, some sp =>
      let s := { s with mem := { s.mem with fix := { s.mem.fix with
        standIn := s.mem.fix.standIn ++ [(k, sp)]
        spareChanUsed := mapMod 0 s.mem.fix.spareChanUsed stack (· + 1) } } }
      if sp = 135 then setMemBit (8 + stack) true s else s

/-- A row of a bank with no spare: the frame that holds it is retired (R246). -/
def rowFrame (stack chan row : Nat) (s : Block) : Block :=
  match logicalChan s stack chan with
  | none => s
  | some c =>
    let fk := frameKey (stack * 8 + c / 16) row
    if s.mem.fix.retired.contains fk ∨ s.mem.fix.migrate.contains fk then s
    else
      let s := { s with mem := { s.mem with fix := { s.mem.fix with
        chanRetired := mapMod 0 s.mem.fix.chanRetired (stack * 136 + chan) (· + 1) } } }
      chanCheck stack chan (frameGoes fk s)

/-- The frame row that a physical row serves: itself, or the row a spare stands in for. -/
def servedRow (s : Block) (bk row : Nat) : Option Nat :=
  if row < 8320 then (if mapGet 0 s.mem.fix.remap (bk * 8384 + row) = 0 then some row else none)
  else ((List.range 8320).find? (fun r => mapGet 0 s.mem.fix.remap (bk * 8384 + r) == row + 1))

/-- ROW_REMAP (R245): a failing row, spare or not, is replaced by the next unused spare of its bank. A
full floor map counts as a bank without a spare (R350). -/
def doRowRemap (stack chan bank row : Nat) (s : Block) : Block :=
  let bk := bankKey stack chan bank
  match servedRow s bk row with
  | none => s
  | some r =>
    let fx := s.mem.fix
    let key := bk * 8384 + row
    let s := { s with mem := { s.mem with fix :=
      { fx with failing := setDel fx.failing key, events := mapSet 0 fx.events key 0 } } }
    let used := mapGet 0 s.mem.fix.spareUsed bk
    if used = 64 ∨ bit (num s 0x502000) 7 then rowFrame stack chan r s
    else
      let s := decodeAll (fun sk => secRow s (sk / 32768) (sk % 32768 * 32) == key) s
      let s := if row < 8320 then s
        else
          let s := { s with mem := { s.mem with fix :=
            { s.mem.fix with spareRetired := setAdd s.mem.fix.spareRetired key } } }
          bumpNum 0x511104 32 1 (floorRec (rowLoc key) 0x09 (row - 8320) s)
      let s := { s with mem := { s.mem with fix := { s.mem.fix with
        remap := mapSet 0 s.mem.fix.remap (bk * 8384 + r) (8320 + used + 1)
        spareUsed := mapSet 0 s.mem.fix.spareUsed bk (used + 1) } } }
      bumpNum 0x511103 32 1 (floorRec (rowLoc (bk * 8384 + r)) 0x08 used s)

def execRowRemap (stack chan bank row : Nat) (s : State) : Host.Outcome State Fault Refusal :=
  if 8 ≤ stack ∨ 136 ≤ chan ∨ 32 ≤ bank ∨ 8384 ≤ row then .fault .noSuchUnit
  else effect (doRowRemap stack chan bank row) s

/-- CHANNEL_COPY (R249): a fenced channel starts to be copied to its spare; writes go to both. -/
def doChannelCopy (stack chan : Nat) (s : Block) : Block :=
  let k := stack * 136 + chan
  match s.mem.fix.standIn.find? (fun c => c.1 == k) with
  | none => s
  | some c =>
    let s := decodeAll (fun sk => frameStack (sk / 32768) == stack && secChan s (sk / 32768) (sk % 32768 * 32) == chan) s
    setMemBit 2 true { s with mem := { s.mem with fix := { s.mem.fix with
      standIn := s.mem.fix.standIn.filter (fun c => c.1 != k), copies := s.mem.fix.copies ++ [c] } } }

def execChannelCopy (stack chan : Nat) (s : State) : Host.Outcome State Fault Refusal :=
  if 8 ≤ stack ∨ 136 ≤ chan then .fault .noSuchUnit else effect (doChannelCopy stack chan) s

/-- CHANNEL_COPY_END (R249): the channel map sends the logical channel to the spare. -/
def doChannelCopyEnd (stack chan : Nat) (s : Block) : Block :=
  let k := stack * 136 + chan
  match s.mem.fix.copies.find? (fun c => c.1 == k), logicalChan s stack chan with
  | some (_, sp), some c =>
    let rest := s.mem.fix.copies.filter (fun c => c.1 != k)
    let s := { s with mem := { s.mem with fix := { s.mem.fix with
      copies := rest, chanMap := mapSet 0 s.mem.fix.chanMap (stack * 128 + c) (sp + 1) } } }
    let s := floorRec (memLoc 5 stack chan 0 0) 0x0B sp s
    if rest.isEmpty then setMemBit 2 false s else s
  | _, _ => s

def execChannelCopyEnd (stack chan : Nat) (s : State) : Host.Outcome State Fault Refusal :=
  if 8 ≤ stack ∨ 136 ≤ chan then .fault .noSuchUnit else effect (doChannelCopyEnd stack chan) s

/-! ## Patrol scrub (R250) -/

/-- Sectors that one pass over a stack reads: 8 groups of frames, the spare rows of its banks and the system area. -/
def scrubSectors : Nat := 8 * 8320 * 32768 + 136 * 32 * 64 * 64 + 2 ^ 21

/-- One pass over a stack from where the last one stopped, sectors in rising order (log 46). A finished pass has read every
sector; how far an unfinished one came is free. A new period counts its events from zero (R245). -/
def doPatrolScrub (stack : Nat) (done : Bool) (s : Block) : Block :=
  let start := mapGet 0 s.mem.fix.scrubPos stack
  let (v, s) := if done then (scrubSectors, s) else (let (v, s) := fresh s; (v % scrubSectors, s))
  let s := decodeAll (fun sk => frameStack (sk / 32768) == stack &&
    decide ((sk - stack * 8 * 8320 * 32768 + scrubSectors - start) % scrubSectors < v)) s
  let pos := mapSet 0 s.mem.fix.scrubPos stack ((start + v) % scrubSectors)
  let behind := setPut s.mem.fix.scrubBehind stack (!done)
  let ev := mapFilter (fun k => k / 8384 / 4352 != stack) s.mem.fix.events
  let s := { s with mem := { s.mem with fix := { s.mem.fix with scrubBehind := behind, scrubPos := pos, events := ev } } }
  setMemBit 1 (!behind.isEmpty) s

def execPatrolScrub (stack : Nat) (done : Bool) (s : State) : Host.Outcome State Fault Refusal :=
  if 8 ≤ stack then .fault .noSuchUnit else effect (doPatrolScrub stack done) s

end Sys2Proof.Machine
end

