-- ==== Sys2Proof/Machine/Update.lean ====
section
/-! DEFINITION. The parameter update (R314 to R324, R329, R371): update blocks, the two passes of the
update engines, the clip factor, update logs and what the commit action evaluates. -/

namespace Sys2Proof.Machine

/-! ## The update block (R314) -/

/-- Entry `n` of the transfer-descriptor table read as an update block. -/
def updBlock (s : Block) (n : Nat) : Nat := if n < partCount s 5 then imgNum s (partOff s 5 + 32 * n) 32 else 0
def ubWbase (b : Nat) : Nat := fld b 0 39
def ubWpitch (b : Nat) : Nat := fld b 39 24
def ubMbase (b : Nat) : Nat := fld b 63 39
def ubMpitch (b : Nat) : Nat := fld b 102 24
def ubMaskbase (b : Nat) : Nat := fld b 126 39
def ubMaskon (b : Nat) : Bool := bit b 165
def ubWdesc (b : Nat) : Nat := fld b 166 16
def ubNorm (b : Nat) : Nat := fld b 182 39
def ubHset (b : Nat) : Nat := fld b 221 4
def ubEarly (b : Nat) : Bool := bit b 225

/-- Transfer descriptor number of a D slot (R195, R199). -/
def dXdesc (d : DescF) : Nat := (d.slot.xdesc + d.ctx.xoff) % 4096

/-- A logical address of the descriptor with LOFF added (R199). -/
def dAddr (a loff : Nat) : Nat := (a + 8 * loff) % 2 ^ 39

/-- Bytes of a gradient element, or none for a type the passes refuse. -/
def gradBytes (t : Nat) : Option Nat := if t = 4 then some 8 else if t = 0 then some 4 else if t = 1 then some 2 else none

/-- The working-copy descriptor of a block. -/
def wcDesc (s : Block) (b : Nat) : Nat := tensorDesc s (ubWdesc b / 64) (ubWdesc b % 64)

/-- The anchor of a G64 gradient; none when its bank is not in the image. -/
def gradAnchor (s : Block) (b : Nat) : Option Int :=
  let n := ubWdesc b + 1
  if n / 64 < partCount s 4 then some (tdAnchor (tensorDesc s (n / 64) (n % 64))) else none

/-- A pass as it runs: stack, transfer descriptor, block number, block, gradient address, element
size, elements of a row, rows, anchor, and the transfer-descriptor number and LOFF that named it. -/
structure PassRun where
  stack : Nat
  xd : Nat
  upd : Nat
  blk : Nat
  laddr : Nat
  size : Nat
  els : Nat
  rows : Nat
  anchor : Int
  xdn : Nat
  loff : Nat
  deriving DecidableEq, Repr, Inhabited

/-- Bytes of a mask row, and its address. -/
def maskBytes (p : PassRun) : Nat := ceilDiv p.els 8
def maskAddr (p : PassRun) (r : Nat) : Nat := ubMaskbase p.blk + r * (ceilDiv p.els 256 * 32)

/-- The operand ranges of row `r` that the descriptor's block names: gradient, mask, master, momentum and working copy,
which both passes check (R240, R315). -/
def passRanges (s : Block) (p : PassRun) (r : Nat) : List (Nat × Nat) :=
  let d := wcDesc s p.blk
  let nb := ceilDiv p.els 16
  let k := if ubMaskon p.blk then [(maskAddr p r, maskBytes p)] else []
  [(p.laddr + r * xdLpitch p.xd, p.els * p.size)] ++ k ++
    [(ubWbase p.blk + r * ubWpitch p.blk, 4 * p.els), (ubMbase p.blk + r * ubMpitch p.blk, 2 * p.els),
      (tdElemBase d + r * tdElemPitch d, 8 * nb), (tdScaleBase d + r * tdScalePitch d, nb)]

/-- Every location in use of every operand page lies in the engine's stack (R240, R315). -/
def pageInStack (s : Block) (stack page : Nat) : Bool :=
  let e := pmapEntry s page
  frameStack (peHere e) == stack && (!(bit e 1 || bit e 2) || frameStack (peThere e) == stack)

def passPlaced (s : Block) (p : PassRun) : Bool :=
  (List.range p.rows).all (fun r => (passRanges s p r).all (fun a =>
    (pieces (a.1 % 2 ^ 39) a.2).all (fun pc => pageInStack s p.stack pc.1)))

/-- What a descriptor's pass is, or none when it performs nothing, with the format fault that says
so (R314). -/
def passOf (x : SlotCtx) (xdn loff : Nat) (s : Block) : Option PassRun × Block :=
  let xd := xferDesc s xdn
  let mt := if 4 < xdMtype xd then 0 else xdMtype xd
  let upd := xdUpd xd
  let no := fun (detail : Nat) => (none, logFault .format 255 x.bundle detail x.tag s)
  if x.tag ≠ 0 then (none, stepBit 3 s)
  else if 2048 ≤ upd then no upd
  else match gradBytes mt with
    | none => no mt
    | some size =>
      let blk := updBlock s upd
      match (if mt = 4 then gradAnchor s blk else some 0) with
      | none => no (ubWdesc blk)
      | some anchor =>
        let laddr := dAddr (xdLaddr xd) loff
        let p : PassRun :=
          { stack := frameStack (peHere (pmapEntry s (laddr / 2 ^ 20))), xd, upd, blk, laddr, size,
            els := xdRowBytes xd / size, rows := xdRows xd, anchor, xdn, loff }
        if passPlaced s p then (some p, s) else (none, s)

/-! ## The update log (R323) -/

/-- The entry of a block in a stack's log. -/
def logOf (s : Block) (stack upd : Nat) : Option UpdLog :=
  s.upd.log.find? (fun l => l.stack == stack && l.upd == upd)

/-- Change the entry of a block; a new entry joins the log. -/
def logMod (stack upd : Nat) (f : UpdLog → UpdLog) (s : Block) : Block :=
  let l := s.upd.log
  let new : UpdLog := { stack, upd, early := false, disagree := false, nf := false, c := 0x3F800000, descs := [], check := 0 }
  let l := if l.any (fun e => e.stack == stack && e.upd == upd) then l else l ++ [new]
  { s with upd := { s.upd with log := l.map (fun e => if e.stack = stack ∧ e.upd = upd then f e else e) } }

/-- A pass names a block: descriptors that disagree about `early` make it early. -/
def logName (p : PassRun) (s : Block) : Block :=
  let early := ubEarly p.blk
  match logOf s p.stack p.upd with
  | none => logMod p.stack p.upd (fun e => { e with early := early }) s
  | some l =>
    if l.early = early then s
    else logMod p.stack p.upd (fun e => { e with early := true, disagree := true }) s

/-! ## Shared parts of the passes -/

/-- An engine reads operands: poisoned sectors are consumed by tag 0 (R240, R241). -/
def engineRead (p : PassRun) (a n : Nat) (s : Block) : List (Byte × Bool) × Block :=
  let (d, s) := memRead (p.stack / 4) a n s
  (d, consumeRead 0 (a % 2 ^ 39) d s)

/-- The freeze bits of a row with their poison. -/
def maskRow (p : PassRun) (r : Nat) (s : Block) : List (Bool × Bool) × Block :=
  if !(ubMaskon p.blk) then (List.replicate p.els (false, false), s)
  else
    let (d, s) := engineRead p (maskAddr p r) (maskBytes p) s
    ((List.range p.els).map (fun j => let b := nth d (j / 8) (0, false); (bit b.1.toNat (j % 8), b.2)), s)

/-- A gradient element as FP32, with flags (R316, R319). -/
def gradF32 (t : Nat) (anchor : Int) (raw : Nat) : Nat × Nat :=
  if t = 4 then wfOfG64 .fp32 raw anchor
  else
    let v := wfVal (if t = 1 then .bf16 else .fp32) raw
    let r := wfWrite .fp32 false v
    (r.1, r.2 ||| nanFlag [v])

/-- An injected residue error of the engine (detector 0x03). -/
def engineHit (stack : Nat) (s : Block) : Bool × Block :=
  let loc := memLoc 11 stack 0 0 0
  let (hit, s) := inject 0x03 loc s
  (hit, if hit then detect 0x03 loc true 0 0 [] s else s)

/-! ## Pass 1 (R316) -/

/-- What pass 1 has so far: sum, non-finite, an element it could not use, flags. -/
structure Acc1 where
  acc : Nat
  nf : Bool
  bad : Bool
  flags : Nat
  deriving DecidableEq, Repr, Inhabited

/-- floor(v * v * 2^200) of a finite FP32 value. -/
def squareFix (x : Nat) : Nat :=
  let (m, e) := f32Dy x
  let k := 2 * e + 200
  if 0 ≤ k then (m * m) <<< k.toNat else (m * m) >>> (-k).toNat

/-- One element. -/
def pass1Elem (p : PassRun) (g : List (Byte × Bool)) (fz : List (Bool × Bool)) (a : Acc1 × Block) (j : Nat) :
    Acc1 × Block :=
  let f := nth fz j (false, false)
  let raw := (g.drop (j * p.size)).take p.size
  if f.2 then ({ a.1 with bad := true }, a.2)
  else if f.1 then a
  else
    let (hit, s) := engineHit p.stack a.2
    if hit || anyPoison raw then ({ a.1 with bad := true }, s)
    else
      let (v, fl) := gradF32 (xdMtype p.xd) p.anchor (leNat (plain raw))
      let a1 := { a.1 with flags := a.1.flags ||| fl }
      let (m, e) := f32Dy v
      if f32Bad v ∨ (m ≠ 0 ∧ 44 ≤ (ilog2 m : Int) + e) then ({ a1 with nf := true }, s)
      else ({ a1 with acc := a1.acc + squareFix v }, s)

/-- One row. -/
def pass1Row (p : PassRun) (a : Acc1 × Block) (r : Nat) : Acc1 × Block :=
  let (g, s) := engineRead p (p.laddr + r * xdLpitch p.xd) (p.els * p.size) a.2
  let (fz, s) := maskRow p r s
  (List.range p.els).foldl (pass1Elem p g fz) (a.1, s)

/-- Update pass 1 of a descriptor; the answer says that it did not fail. -/
def runPass1 (x : SlotCtx) (xdn loff : Nat) (s : Block) : Bool × Block :=
  match passOf x xdn loff s with
  | (none, s) => (false, s)
  | (some p, s) =>
    let s := logName p s
    let (a, s) := (List.range p.rows).foldl (pass1Row p) ({ acc := 0, nf := false, bad := false, flags := 0 }, s)
    let s := memFlags 0 a.flags s
    if a.bad then (false, s)
    else
      let nf := a.nf || decide (2 ^ 288 ≤ a.acc)
      let limb := fun i => if nf && i == 0 then g64Nan else fld a.acc (48 * i) 48
      let src := ((List.range 6).flatMap (fun i => leBytes 8 (limb i))).map (fun b => (b, false))
      (true, memRmw (p.stack / 4) 0 1 4 (ubNorm p.blk) src s)

/-! ## The clip factor (R318) -/

/-- The norm vector's elements, or none when any of its sectors is poisoned. -/
def normVec (hall a : Nat) (s : Block) : Option (List Nat) × Block :=
  let r := memRead hall a 48 s
  (if anyPoison r.1 then none else some ((List.range 6).map (fun i => leAt (plain r.1) (8 * i) 8)), r.2)

/-- sqrt of the vector's value, rounded once to FP32. -/
def normSqrt (v : List Nat) : Nat :=
  let big := (v.zipIdx.map (fun e => e.1 <<< (48 * e.2))).foldl (· + ·) 0
  let r := isqrt (big <<< 128)
  (wfRound .fp32 false false r (-164) (r * r != big <<< 128)).1

/-- c of a norm vector and θ, both FP32, with the flags of its division; none where non-finite. -/
def clipFactor (v : Option (List Nat)) (theta : Nat) : Option (Nat × Nat) :=
  match v with
  | none => none
  | some v =>
    if v.any (fun x => bit x 63) then none
    else
      let n := normSqrt v
      if n ≤ theta then some (0x3F800000, 0) else some (f32Div theta n)

/-! ## Pass 2 (R319, R320) -/

/-- Hyperparameters of a set: β1, β2, λ, θ, 1 - β1, 1 - β2 (R322). -/
def hyperWords (b : Bytes) : List Nat :=
  let one := 0x3F800000
  let h := [leAt b 0 4, leAt b 4 4, leAt b 8 4, leAt b 12 4]
  h ++ [(f32Sub one (nth h 0 0)).1, (f32Sub one (nth h 1 0)).1]

/-- The set in force, which pass 2 uses. -/
def hyperOf (s : Block) (hset : Nat) : List Nat := hyperWords (domF s (0x601101 + hset))

/-- The set as the step that closes used it: the commit action works with it, whatever the snapshot adopted (R324). -/
def hyperStep (s : Block) (hset : Nat) : List Nat := hyperWords (nth s.upd.hypers hset [])

/-- An element of pass 2: new master bits, new momentum bits, flags, NF. -/
def pass2Arith (h : List Nat) (c eta g w mb : Nat) : Nat × Nat × Nat × Bool :=
  let m := (wfWrite .fp32 false (wfVal .bf16 mb)).1
  let (cg, f1) := f32Mul c g
  let (q1, f2) := f32Mul (nth h 4 0) cg
  let (t, f3) := f32Fma (nth h 0 0) m q1
  let nf := f32Bad g || f32Bad w || f32Bad m || f32Bad t
  let u := if nf || f32Mag t == 0 then 0 else if bit t 31 then 0xBF800000 else 0x3F800000
  let (d, f4) := f32Fma (nth h 2 0) w u
  let (w', f5) := f32Fma (putBit eta 31 (!(bit eta 31))) d w
  let (q2, f6) := f32Mul (nth h 5 0) cg
  let (m', f7) := f32Fma (nth h 1 0) m q2
  let v := wfVal .fp32 m'
  let (mo, f8) := wfWrite .bf16 false v
  (w', mo, f1 ||| f2 ||| f3 ||| f4 ||| f5 ||| f6 ||| f7 ||| f8 ||| nanFlag [v], nf)

/-- What pass 2 has of a row: new masters, new momenta, and a mark for elements whose sectors are not
written; flags, NF, a residue mismatch. -/
structure Acc2 where
  els : List (Nat × Nat × Bool)
  flags : Nat
  nf : Bool
  hit : Bool
  deriving DecidableEq, Repr, Inhabited

/-- One element of a row; the lists hold gradient, master and momentum bytes. -/
def pass2Elem (p : PassRun) (h : List Nat) (c eta : Nat) (g w m : List (Byte × Bool)) (fz : List (Bool × Bool))
    (a : Acc2 × Block) (j : Nat) : Acc2 × Block :=
  let f := nth fz j (false, false)
  let gr := (g.drop (j * p.size)).take p.size
  let wr := (w.drop (4 * j)).take 4
  let mr := (m.drop (2 * j)).take 2
  let wv := leNat (plain wr)
  let mv := leNat (plain mr)
  let bad := f.2 || anyPoison gr || anyPoison wr || anyPoison mr
  if bad || f.1 then ({ a.1 with els := a.1.els ++ [(wv, mv, bad)] }, a.2)
  else
    let (hit, s) := engineHit p.stack a.2
    if hit then ({ a.1 with els := a.1.els ++ [(wv, mv, true)], hit := true }, s)
    else
      let (gv, fl) := gradF32 (xdMtype p.xd) p.anchor (leNat (plain gr))
      let (w', m', fl2, nf) := pass2Arith h c eta gv wv mv
      ({ a.1 with els := a.1.els ++ [(w', m', false)], flags := a.1.flags ||| fl ||| fl2, nf := a.1.nf || nf }, s)

/-- The contribution of an 8-byte word at an address to a partial check (R371). -/
def checkWord (x word : Nat) : Nat :=
  ((word ^^^ (x * 0x9E3779B97F4A7C15 % 2 ^ 64)) * 0xD6E8FEB86659FD93) % 2 ^ 64

/-- Sum over the words of written bytes; the part of a word outside the write counts as zero. -/
def checkBytes (a : Nat) (bs : Bytes) : Nat :=
  let z := zeros (a % 8) ++ bs
  (List.range (ceilDiv z.length 8)).foldl (fun t i => (t + checkWord (a - a % 8 + 8 * i) (leAt z (8 * i) 8)) % 2 ^ 64) 0

/-- A page that the pass has written joins the range of its descriptor. -/
def addPage (p : PassRun) (page : Nat) : List LogDesc → List LogDesc
  | [] => []
  | d :: r => if d.xdesc = p.xdn ∧ d.loff = p.loff then { d with pages := setAdd d.pages page } :: r else d :: addPage p page r

/-- The pages that a block's pass 2 has written. -/
def logPages (l : UpdLog) : List Nat := (l.descs.flatMap (·.pages)).foldl setAdd []

/-- Write the sectors of a plane's row that depend on no marked byte, with the shadow attribute; the
log gains the pages and the check. The answer says that a write was discarded. -/
def shadowPut (p : PassRun) (a : Nat) (data : List (Byte × Bool)) (s : Block) : Bool × Block :=
  (List.range (ceilDiv (a % 32 + data.length) 32)).foldl (fun (acc : Bool × Block) i =>
    let from0 := i * 32 - a % 32
    let len := if i = 0 then 32 - a % 32 else 32
    let part := (data.drop from0).take len
    if anyPoison part then acc
    else
      let at0 := (a + from0) % 2 ^ 39
      let (failed, s) := memWrite (p.stack / 4) true at0 part acc.2
      let page := at0 / 2 ^ 20
      let s := logMod p.stack p.upd (fun e => { e with
        descs := if peShadow (pmapEntry s page) then addPage p page e.descs else e.descs
        check := (e.check + checkBytes at0 (plain part)) % 2 ^ 64 }) s
      (acc.1 || failed, s)) (false, s)

/-- Quantise a row of master weights to the TF4 working copy (R133): element and scale bytes, with
marks, its flags and its counts. A subnormal master is read as zero (R48). DESIGN CHOICE (log 67): the
copy is TF4 whatever element code the descriptor names. -/
def wcRow (s : Block) (d seed : Nat) (vals : List (Nat × Bool)) : List (Byte × Bool) × List (Byte × Bool) × Nat × CSet :=
  let lg := (turnLog (tdTurn d)).1
  let spans := chunks 256 (vals.length / 256 + 1) vals
  spans.zipIdx.foldl (fun acc sp =>
    let (v, i) := sp
    let pr : QParam :=
      { fmt := 0x10, lvl := tdLvl d, lg
        signs := if lg = 0 then [] else (List.range v.length).map (fun k => turnSignOf seed (tdTseed d) (256 * i + k))
        rho := 0, fixed := none, sr := false, track := none }
    let q := (quantRow pr (v.map (fun e => (((wfWrite .fp32 false (wfVal .fp32 e.1)).1, 0), e.2))) (fun _ s => (0, s)) s).1
    let (eb, sb) := packRow 0x10 (ceilDiv v.length 16) 0 q.blocks
    (acc.1 ++ eb, acc.2.1 ++ sb, q.flags.foldl (· ||| ·) acc.2.2.1, csetAdd acc.2.2.2 q.count)) ([], [], 0, csetZero)

/-- What pass 2 knows throughout: the working-copy descriptor with its turn seed, hyperparameters, c, η, and whether it
counts and tracks. -/
structure P2 where
  wdesc : Nat
  seed : Nat
  h : List Nat
  c : Nat
  eta : Nat
  counts : Bool
  deriving DecidableEq, Repr, Inhabited

/-- One row. The answer says that a write was discarded or a residue mismatch kept a sector back. -/
def pass2Row (p : PassRun) (q : P2) (acc : Bool × Block) (r : Nat) : Bool × Block :=
  let (g, s) := engineRead p (p.laddr + r * xdLpitch p.xd) (p.els * p.size) acc.2
  let wa := ubWbase p.blk + r * ubWpitch p.blk
  let ma := ubMbase p.blk + r * ubMpitch p.blk
  let (w, s) := engineRead p wa (4 * p.els) s
  let (m, s) := engineRead p ma (2 * p.els) s
  let (fz, s) := maskRow p r s
  let (a, s) := (List.range p.els).foldl (pass2Elem p q.h q.c q.eta g w m fz)
    ({ els := [], flags := 0, nf := false, hit := false }, s)
  let d := q.wdesc
  let (eb, sb, fl, cnt) := wcRow s d q.seed (a.els.map (fun e => (e.1, e.2.2)))
  let s := memFlags 0 (a.flags ||| fl) s
  let s := if a.nf then logMod p.stack p.upd (fun e => { e with nf := true }) s else s
  let s := if q.counts then countCset (50 + p.stack) 0 (tdCset d) cnt s else s
  let bytes := fun (n : Nat) (v : Nat) (b : Bool) => (leBytes n v).map (fun y => (y, b))
  let (x1, s) := shadowPut p wa (a.els.flatMap (fun e => bytes 4 e.1 e.2.2)) s
  let (x2, s) := shadowPut p ma (a.els.flatMap (fun e => bytes 2 e.2.1 e.2.2)) s
  let (x3, s) := shadowPut p (tdElemBase d + r * tdElemPitch d) eb s
  let (x4, s) := shadowPut p (tdScaleBase d + r * tdScalePitch d) sb s
  (acc.1 || a.hit || x1 || x2 || x3 || x4, s)

/-- The rows of pass 2 with a given c. A format fault names the working-copy descriptor (R35, R114). -/
def pass2Rows (p : PassRun) (q : P2) (s : Block) : Bool × Block :=
  let s := logMod p.stack p.upd (fun e => { e with c := q.c }) s
  let d := q.wdesc
  let s := if (turnLog (tdTurn d)).2 then logFault .format 255 (ubWdesc p.blk) (tdTurn d) 0 s else s
  let s := if (elemFmt (tdFmt d)).2 then logFault .format 255 (ubWdesc p.blk) (tdFmt d) 0 s else s
  let (bad, s) := (List.range p.rows).foldl (pass2Row p q) (false, s)
  (!bad, s)

/-- Update pass 2 of a descriptor; the answer says that it did not fail. -/
def runPass2 (x : SlotCtx) (xdn loff : Nat) (s : Block) : Bool × Block :=
  match passOf x xdn loff s with
  | (none, s) => (false, s)
  | (some p, s) =>
    let s := logName p s
    let s := logMod p.stack p.upd (fun e => { e with descs := e.descs ++ [{ xdesc := xdn, loff, pages := [] }] }) s
    let h := hyperOf s (ubHset p.blk)
    let wdesc := wcDesc s p.blk
    let seed := turnSeed s (tdTseed wdesc)
    if ubEarly p.blk then pass2Rows p { wdesc, seed, h, c := 0x3F800000, eta := s.upd.eta, counts := true } s
    else
      let (d, s) := engineRead p (ubNorm p.blk) 48 s
      let v := if anyPoison d then none else some ((List.range 6).map (fun i => leAt (plain d) (8 * i) 8))
      match clipFactor v (nth h 3 0) with
      | none => (true, logMod p.stack p.upd (fun e => { e with nf := true }) s)
      | some c => pass2Rows p { wdesc, seed, h, c := c.1, eta := s.upd.eta, counts := true } (memFlags 0 c.2 s)

/-- The working-copy descriptor of a block and its turn seed as they stood in the step, which the boundary keeps for a redo. -/
def stepDesc (s : Block) (blk : Nat) : Nat × Nat :=
  match s.upd.wdescs.find? (fun e => e.1 == ubWdesc blk) with
  | some e => e.2
  | none => (wcDesc s blk, turnSeed s (tdTseed (wcDesc s blk)))

/-- A redo of a block's logged pass-2 descriptors with c of R318 (R324): it counts nothing, and its
check replaces the block's. A descriptor that fails again fails the step. -/
def redoBlock (l : UpdLog) (c : Nat) (s : Block) : Block :=
  let s := logMod l.stack l.upd (fun e => { e with check := 0 }) s
  forEach l.descs (fun d s =>
    match passOf default d.xdesc d.loff s with
    | (none, s) => descFail s
    | (some p, s) =>
      let (wdesc, seed) := stepDesc s p.blk
      let (ok, s) := pass2Rows p { wdesc, seed, h := hyperStep s (ubHset p.blk), c, eta := s.upd.eta, counts := false } s
      if ok then s else descFail s) s

/-! ## What the commit action evaluates (R324, R329) -/

/-- c of a block at the boundary; the scheduler core computes it, so no engine raises a flag. -/
def blockClip (l : UpdLog) (s : Block) : Option Nat × Block :=
  let blk := updBlock s l.upd
  let r := normVec (l.stack / 4) (ubNorm blk) s
  ((clipFactor r.1 (nth (hyperStep r.2 (ubHset blk)) 3 0)).map (·.1), r.2)

/-- The loss word fails its check (R329). -/
def lossBad (s : Block) : Bool × Block :=
  if numF s 0x601202 = 0 then (false, s)
  else
    let (d, s) := memRead 0 (numF s 0x601201) 4 s
    (anyPoison d || f32Bad (leNat (plain d)), s)

/-- The clip factors of all logged blocks. -/
def blockClips (s : Block) : List (UpdLog × Option Nat) × Block :=
  s.upd.log.foldl (fun acc l => let r := blockClip l acc.2; (acc.1 ++ [(l, r.1)], r.2)) ([], s)

/-- Step 2 of R324 applies: NF, a non-finite norm vector, or the loss check. -/
def updateNonfinite (s : Block) : Bool × Block :=
  let (cs, s) := blockClips s
  let (lb, s) := lossBad s
  (lb || cs.any (fun e => e.1.nf || e.2.isNone), s)

/-- A magnitude c is below 1. -/
def clipsBelow (c : Option Nat) : Bool :=
  match c with
  | some c => decide (c < 0x3F800000)
  | none => false

/-- Set a bit of the update status (R332). -/
def updBit (n : Nat) (b : Bool) (s : Block) : Block := setNum 0x606000 (putBit (num s 0x606000) n b) s

/-- Evaluate every block (R324): redo and skip early blocks that clip, collect the pages of the blocks
that commit, and count. When step 2 applies no block commits. -/
def evalUpdate (s : Block) : Block :=
  let (nf, s) := updateNonfinite s
  let (cs, s) := blockClips s
  let wrote := cs.filter (fun e => !e.1.descs.isEmpty)
  let s := updBit 1 (wrote.any (fun e => e.1.early)) s
  let s := updBit 4 (wrote.any (fun e => clipsBelow e.2)) s
  let s := updBit 3 nf s
  let zero := fun (s : Block) => { s with bnd := { s.bnd with commitPages := [], commitOk := !nf, commitBlocks := 0 } }
  if nf then
    setNum 0x606104 0 (setNum 0x606103 0 (setNum 0x606102 0 (stepBit 8 (updBit 5 false (updBit 6 false
      (zero { s with upd := { s.upd with checks := [] } }))))))
  else
    let early := wrote.filter (fun e => e.1.early && clipsBelow e.2)
    let skip := numF s 0x601300 == 1
    let s := if skip then s else forEach early (fun e s => redoBlock e.1 (e.2.getD 0) s) s
    let keep := wrote.filter (fun e => !(skip && e.1.early && clipsBelow e.2))
    let ids := keep.map (fun e => (e.1.stack, e.1.upd))
    let live := s.upd.log.filter (fun l => ids.contains (l.stack, l.upd))
    let pages := (live.flatMap logPages).foldl setAdd []
    let checks := live.foldl (fun m l => mapMod 0 m l.stack (fun c => (c + l.check) % 2 ^ 64)) []
    let s := { s with upd := { s.upd with checks := checks } }
    let s := updBit 5 (!skip && !early.isEmpty) (updBit 6 (skip && !early.isEmpty) s)
    let s := setNum 0x606103 (if skip then 0 else early.length) (setNum 0x606104 (if skip then early.length else 0) s)
    { s with bnd := { s.bnd with commitPages := pages, commitOk := true, commitBlocks := keep.length } }

/-! ## The commands -/

/-- A queued DMOV whose pass the command is. -/
def isPass (d : DescF) (q : Desc) : Bool := q.op == 3 && !q.performed && q.ctx == d.ctx && q.slot == d.slot
def hasPass (d : DescF) (l : List Desc) : Bool := l.any (isPass d)

/-- The first queued descriptor that the command performs: it completes later with the pass's outcome. -/
def takePass (d : DescF) (ok : Bool) : List Desc → List Desc
  | [] => []
  | q :: r => if isPass d q then { q with performed := true, failed := q.failed || !ok } :: r else q :: takePass d ok r

/-- A pass as a command: the engine performs it, and a failure sets DESC_FAIL (R205). -/
def doPass (two : Bool) (d : DescF) (s : Block) : Block :=
  let q0 := s.queues.descs
  let (ok, s) := if two then runPass2 d.ctx (dXdesc d) d.slot.loff s else runPass1 d.ctx (dXdesc d) d.slot.loff s
  let s := { s with queues := { s.queues with descs := takePass d ok s.queues.descs } }
  if ok || hasPass d q0 then s else descFail s

def execUpdatePass1 (d : DescF) (s : State) : Host.Outcome State Fault Refusal := effect (doPass false d) s
def execUpdatePass2 (d : DescF) (s : State) : Host.Outcome State Fault Refusal := effect (doPass true d) s

end Sys2Proof.Machine
end

