-- ==== Sys2Proof/Machine/Descriptors.lean ====
section
/-! DEFINITION. Descriptor queues and the D slot (R199 to R205, R491 to R493): issue, the transfer in
32-byte units, and completion. -/

namespace Sys2Proof.Machine

/-! ## Counters a slot may name (R206, R216) -/

/-- The main program must not name counters 240 to 255; a side slice names only those. -/
def ctrOk (tag ctr : Nat) : Bool := if tag = 0 then decide (ctr % 256 < 240) else decide (240 ≤ ctr % 256)

/-- Discard a slot: a program fault of the main program, a side fault of a slice (R206, R216). -/
def discardSlot (g : Nat) (x : SlotCtx) (detail : Nat) (s : Block) : Block :=
  slotFault (if x.tag = 0 then .program else .side) g x detail s

/-! ## What a D descriptor does (R491, R200) -/

/-- The memory operation of a transfer: 0 for a copy, 1 to 3, or 4 and 5 for a pass. -/
def descMop (op xd : Nat) : Nat :=
  let m := if 5 < xdMop xd then 0 else xdMop xd
  if op = 1 ∧ 1 ≤ m ∧ m ≤ 3 then 0 else m

/-- A pass outside DMOV is refused. -/
def descBad (op xd : Nat) : Bool := op != 3 && (descMop op xd == 4 || descMop op xd == 5)

/-- Format faults at issue. -/
def descFaults (g : Nat) (x : SlotCtx) (op xd : Nat) (s : Block) : Block :=
  let s := slotFaultIf (decide (5 < xdMop xd)) .format g x (xdMop xd) s
  let s := slotFaultIf (decide (4 < xdMtype xd)) .format g x (xdMtype xd) s
  slotFaultIf ((op == 1 && decide (1 ≤ xdMop xd) && decide (xdMop xd ≤ 3)) || descBad op xd) .format g x (xdMop xd) s

/-- Transfer-descriptor number of a queued descriptor. -/
def descXdn (d : Desc) : Nat := (d.slot.xdesc + d.ctx.xoff) % 4096

/-- Units of 32 bytes in a row, and in the transfer. -/
def rowUnits (xd : Nat) : Nat := ceilDiv (xdRowBytes xd) 32
def xferUnits (xd : Nat) : Nat := xdRows xd * rowUnits xd

/-- The hall of a physical gallery (R16). -/
def galHall (g : Nat) : Nat := g / 25

/-- Write a unit to memory, by copy or by a memory-side operation. -/
def unitWrite (hall tag mop xd l : Nat) (data : List (Byte × Bool)) (s : Block) : Block :=
  if mop = 0 then (memWrite hall false l data s).2 else memRmw hall tag mop (xdMtype xd) l data s

/-- Move one unit. -/
def moveUnit (d : Desc) (xd u : Nat) (s : Block) : Block :=
  let r := u / rowUnits xd
  let c := u % rowUnits xd * 32
  let n := min 32 (xdRowBytes xd - c)
  let l := (dAddr (xdLaddr xd) d.slot.loff + r * xdLpitch xd + c) % 2 ^ 39
  let m := xdMaddr xd + d.ctx.moff + r * xdMpitch xd + c
  let hall := galHall d.gal
  let mop := descMop d.op xd
  if d.op = 1 then
    let (data, s) := memRead hall l n s
    mezzWrite d.gal m data (consumeRead d.ctx.tag l data s)
  else if d.op = 2 then unitWrite hall d.ctx.tag mop xd l (mezzRead s d.gal m n) s
  else
    let sa := (dAddr (xdSaddr xd) d.slot.loff + r * xdLpitch xd + c) % 2 ^ 39
    let (data, s) := memRead hall sa n s
    unitWrite hall d.ctx.tag mop xd l data (consumeRead d.ctx.tag sa data s)

/-- The units that move when the descriptor issues, or when it completes (R492). -/
def moveUnits (d : Desc) (early : Bool) (s : Block) : Block :=
  let xd := xferDesc s (descXdn d)
  if descBad d.op xd || decide (4 ≤ descMop d.op xd) then s
  else forEach ((List.range (xferUnits xd)).filter (fun u => Config.raceEarly d.id u == early)) (moveUnit d xd) s

/-- A D descriptor performs what is left of it; the answer says that it failed. -/
def performD (d : Desc) (s : Block) : Bool × Block :=
  let xd := xferDesc s (descXdn d)
  let mop := descMop d.op xd
  if d.performed then (d.failed, s)
  else if descBad d.op xd then (true, s)
  else if mop = 4 then
    let (ok, s) := runPass1 d.ctx (descXdn d) d.slot.loff s
    (!ok, s)
  else if mop = 5 then
    let (ok, s) := runPass2 d.ctx (descXdn d) d.slot.loff s
    (!ok, s)
  else (d.failed, moveUnits d false s)

/-! ## Queues (R204) -/

/-- Queued D descriptors of a gallery. -/
def queuedD (s : Block) (g : Nat) : Nat := (s.queues.descs.filter (fun d => d.op ≤ 3 && d.gal == g)).length

/-- Queued A descriptors of a hall. -/
def queuedA (s : Block) (hall : Nat) : Nat := (s.queues.descs.filter (fun d => 10 < d.op && galHall d.gal == hall)).length

/-- Put a descriptor in its queue. -/
def pushDesc (op g : Nat) (gals : List Nat) (x : SlotCtx) (slot : DslotF) (adesc token : Nat) (s : Block) : Desc × Block :=
  let d : Desc := { id := s.queues.nextId, op, gal := g, gals, ctx := x, slot, adesc, token, performed := false, failed := false }
  (d, { s with queues := { s.queues with descs := s.queues.descs ++ [d], nextId := s.queues.nextId + 1 } })

/-- Remove a descriptor. -/
def dropDesc (id : Nat) (s : Block) : Block :=
  { s with queues := { s.queues with descs := s.queues.descs.filter (fun d => d.id != id) } }

/-- A descriptor completes (R205): its token rises in each of its galleries, and a failure sets
DESC_FAIL. -/
def finishDesc (d : Desc) (failed : Bool) (s : Block) : Block :=
  let s := forEach d.gals (fun g s => tokAdd g d.token 1 s) (dropDesc d.id s)
  if !failed then s else if s.colls.rejects.any (fun r => r.1 == d.id + 1) then stepBit 5 s else descFail s

/-- Issue a D slot on its gallery. -/
def issueD (op : Nat) (i : Instr) (x : SlotCtx) (f : DslotF) (g : Nat) (s : Block) : Block :=
  if !(ctrOk x.tag f.token) then discardSlot g x f.token s
  else if 64 ≤ queuedD s g then
    if x.tag = 0 then freezeFor .queueHold false [.slot i []] [g] 0 0 s else discardSlot g x 0x204 s
  else
    let s := descFaults g x op (xferDesc s ((f.xdesc + x.xoff) % 4096)) s
    let (d, s) := pushDesc op g [g] x f 0 f.token s
    moveUnits d true s

def doDget (x : SlotCtx) (f : DslotF) (s : Block) : Block := withSlot (.dget x f) x (issueD 1 (.dget x f) x f) s
def doDput (x : SlotCtx) (f : DslotF) (s : Block) : Block := withSlot (.dput x f) x (issueD 2 (.dput x f) x f) s
def doDmov (x : SlotCtx) (f : DslotF) (s : Block) : Block := withSlot (.dmov x f) x (issueD 3 (.dmov x f) x f) s

def execDget (x : SlotCtx) (f : DslotF) (s : State) : Host.Outcome State Fault Refusal := effect (doDget x f) s
def execDput (x : SlotCtx) (f : DslotF) (s : State) : Host.Outcome State Fault Refusal := effect (doDput x f) s
def execDmov (x : SlotCtx) (f : DslotF) (s : State) : Host.Outcome State Fault Refusal := effect (doDmov x f) s

/-- A D descriptor of the queue completes; `ok` is false when its unit failed it. -/
def completeD (d : Desc) (ok : Bool) (s : Block) : Block :=
  if ok then
    let (failed, s) := performD d s
    finishDesc d failed s
  else finishDesc d true s

end Sys2Proof.Machine
end

