-- ==== Sys2Proof/Machine/Sha.lean ====
section
/-! DEFINITION. SHA-512 (FIPS 180-4), the CRC-32 of IEEE 802.3 (R256), and the ECDSA P-521
signature check (R428, R446 to R452). -/

namespace Sys2Proof.Machine

/-! ## SHA-512 -/

/-- The 80 round constants: fraction bits of the cube roots of the first 80 primes. -/
def sha512K : List Nat :=
  [0x428A2F98D728AE22, 0x7137449123EF65CD, 0xB5C0FBCFEC4D3B2F, 0xE9B5DBA58189DBBC,
   0x3956C25BF348B538, 0x59F111F1B605D019, 0x923F82A4AF194F9B, 0xAB1C5ED5DA6D8118,
   0xD807AA98A3030242, 0x12835B0145706FBE, 0x243185BE4EE4B28C, 0x550C7DC3D5FFB4E2,
   0x72BE5D74F27B896F, 0x80DEB1FE3B1696B1, 0x9BDC06A725C71235, 0xC19BF174CF692694] ++
  [0xE49B69C19EF14AD2, 0xEFBE4786384F25E3, 0x0FC19DC68B8CD5B5, 0x240CA1CC77AC9C65,
   0x2DE92C6F592B0275, 0x4A7484AA6EA6E483, 0x5CB0A9DCBD41FBD4, 0x76F988DA831153B5,
   0x983E5152EE66DFAB, 0xA831C66D2DB43210, 0xB00327C898FB213F, 0xBF597FC7BEEF0EE4,
   0xC6E00BF33DA88FC2, 0xD5A79147930AA725, 0x06CA6351E003826F, 0x142929670A0E6E70] ++
  [0x27B70A8546D22FFC, 0x2E1B21385C26C926, 0x4D2C6DFC5AC42AED, 0x53380D139D95B3DF,
   0x650A73548BAF63DE, 0x766A0ABB3C77B2A8, 0x81C2C92E47EDAEE6, 0x92722C851482353B,
   0xA2BFE8A14CF10364, 0xA81A664BBC423001, 0xC24B8B70D0F89791, 0xC76C51A30654BE30,
   0xD192E819D6EF5218, 0xD69906245565A910, 0xF40E35855771202A, 0x106AA07032BBD1B8] ++
  [0x19A4C116B8D2D0C8, 0x1E376C085141AB53, 0x2748774CDF8EEB99, 0x34B0BCB5E19B48A8,
   0x391C0CB3C5C95A63, 0x4ED8AA4AE3418ACB, 0x5B9CCA4F7763E373, 0x682E6FF3D6B2B8A3,
   0x748F82EE5DEFB2FC, 0x78A5636F43172F60, 0x84C87814A1F0AB72, 0x8CC702081A6439EC,
   0x90BEFFFA23631E28, 0xA4506CEBDE82BDE9, 0xBEF9A3F7B2C67915, 0xC67178F2E372532B] ++
  [0xCA273ECEEA26619C, 0xD186B8C721C0C207, 0xEADA7DD6CDE0EB1E, 0xF57D4F7FEE6ED178,
   0x06F067AA72176FBA, 0x0A637DC5A2C898A6, 0x113F9804BEF90DAE, 0x1B710B35131C471B,
   0x28DB77F523047D84, 0x32CAAB7B40C72493, 0x3C9EBE0A15C9BEBC, 0x431D67C49C100D4C,
   0x4CC5D4BECB3E42B6, 0x597F299CFC657E2A, 0x5FCB6FAB3AD6FAEC, 0x6C44198C4A475817]

/-- The initial hash: fraction bits of the square roots of the first eight primes. -/
def sha512H : List Nat :=
  [0x6A09E667F3BCC908, 0xBB67AE8584CAA73B, 0x3C6EF372FE94F82B, 0xA54FF53A5F1D36F1,
   0x510E527FADE682D1, 0x9B05688C2B3E6C1F, 0x1F83D9ABFB41BD6B, 0x5BE0CD19137E2179]

def w64 (x : Nat) : Nat := x % 2 ^ 64

/-- Rotate a 64-bit word right. -/
def ror64 (x n : Nat) : Nat := w64 ((x >>> n) ||| (x <<< (64 - n)))

/-- The message schedule, newest word first, grown to 80 words. -/
def shaSched : Nat → List Nat → List Nat
  | 0, w => w
  | n + 1, w =>
    let a := nth w 14 0
    let b := nth w 1 0
    let s0 := ror64 a 1 ^^^ ror64 a 8 ^^^ (a >>> 7)
    let s1 := ror64 b 19 ^^^ ror64 b 61 ^^^ (b >>> 6)
    shaSched n (w64 (nth w 15 0 + s0 + nth w 6 0 + s1) :: w)

/-- One round on the eight working words. -/
def shaRound (v : List Nat) (kw : Nat) : List Nat :=
  match v with
  | [a, b, c, d, e, f, g, h] =>
    let s1 := ror64 e 14 ^^^ ror64 e 18 ^^^ ror64 e 41
    let ch := (e &&& f) ^^^ ((2 ^ 64 - 1 - e) &&& g)
    let t1 := h + s1 + ch + kw
    let s0 := ror64 a 28 ^^^ ror64 a 34 ^^^ ror64 a 39
    let maj := (a &&& b) ^^^ (a &&& c) ^^^ (b &&& c)
    [w64 (t1 + s0 + maj), a, b, c, w64 (d + t1), e, f, g]
  | _ => v

/-- One 128-byte block. -/
def shaBlock (h : List Nat) (block : Bytes) : List Nat :=
  let w16 := (List.range 16).map (fun i => beNat (slice block (8 * i) 8))
  let w := (shaSched 64 w16.reverse).reverse
  let v := (List.zipWith (· + ·) sha512K w).foldl shaRound h
  List.zipWith (fun a b => w64 (a + b)) h v

/-- Blocks in order. -/
def shaBlocks : Nat → Bytes → List Nat → List Nat
  | 0, _, h => h
  | n + 1, bs, h => shaBlocks n (bs.drop 128) (shaBlock h (bs.take 128))

/-- SHA-512 of a byte string, 64 bytes. -/
def sha512 (bs : Bytes) : Bytes :=
  let len := bs.length
  let padZ := (239 - len % 128) % 128
  let msg := bs ++ [(0x80 : Byte)] ++ zeros padZ ++ beBytes 16 (8 * len)
  (shaBlocks (msg.length / 128) msg sha512H).flatMap (beBytes 8)

/-! ## CRC-32 (R256) -/

/-- One bit of the reflected CRC-32. -/
def crcBit (c : Nat) : Nat := if c % 2 = 1 then (c >>> 1) ^^^ 0xEDB88320 else c >>> 1

/-- CRC-32 with initial value 0xFFFF_FFFF and final complement. -/
def crc32 (bs : Bytes) : Nat :=
  (bs.foldl (fun c b => iter crcBit 8 (c ^^^ b.toNat)) 0xFFFFFFFF) ^^^ 0xFFFFFFFF

/-! ## ECDSA P-521 (FIPS 186) -/

/-- The field prime, the group order and the curve constants of P-521. -/
def p521 : Nat := 2 ^ 521 - 1
def n521 : Nat := 0x1FFFFFFFFFFFFFFFFFFFFFFFFFFFFFFFFFFFFFFFFFFFFFFFFFFFFFFFFFFFFFFFFFA51868783BF2F966B7FCC0148F709A5D03BB5C9B8899C47AEBB6FB71E91386409
def b521 : Nat := 0x0051953EB9618E1C9A1F929A21A0B68540EEA2DA725B99B315F3B8B489918EF109E156193951EC7E937B1652C0BD3BB1BF073573DF883D2C34F1EF451FD46B503F00
def gx521 : Nat := 0x00C6858E06B70404E9CD9E3ECB662395B4429C648139053FB521F828AF606B4D3DBAA14B5E77EFE75928FE1DC127A2FFA8DE3348B3C1856A429BF97E7E31C2E5BD66
def gy521 : Nat := 0x011839296A789A3BC0045C8A5FB42C7D1BD998F54449579B446817AFBD17273E662C97EE72995EF42640C550B9013FAD0761353C7086A272C24088BE94769FD16650

/-- Square-and-multiply, bits from high to low. -/
def modPowGo (b m e : Nat) : Nat → Nat → Nat
  | 0, acc => acc
  | k + 1, acc =>
    let sq := acc * acc % m
    modPowGo b m e k (if bit e k then sq * b % m else sq)

def modPow (b e m : Nat) : Nat := modPowGo (b % m) m e 521 (1 % m)

/-- Inverse modulo a prime. -/
def modInv (a m : Nat) : Nat := modPow a (m - 2) m

/-- A point, or none at infinity. -/
abbrev Pt := Option (Nat × Nat)

/-- Sum of two points of the curve y² = x³ - 3x + b. -/
def ptAdd (p q : Pt) : Pt :=
  match p, q with
  | none, _ => q
  | _, none => p
  | some (x1, y1), some (x2, y2) =>
    if x1 = x2 then
      if (y1 + y2) % p521 = 0 then none
      else
        let l := (3 * x1 * x1 + (p521 - 3)) * modInv (2 * y1) p521 % p521
        let x3 := (l * l + 2 * (p521 - x1)) % p521
        some (x3, (l * (x1 + (p521 - x3)) + (p521 - y1)) % p521)
    else
      let l := (y2 + (p521 - y1)) * modInv (x2 + (p521 - x1)) p521 % p521
      let x3 := (l * l + (p521 - x1) + (p521 - x2)) % p521
      some (x3, (l * (x1 + (p521 - x3)) + (p521 - y1)) % p521)

/-- Double-and-add, bits from high to low. -/
def ptMulGo (p : Pt) (k : Nat) : Nat → Pt → Pt
  | 0, acc => acc
  | i + 1, acc =>
    let d := ptAdd acc acc
    ptMulGo p k i (if bit k i then ptAdd d p else d)

def ptMul (k : Nat) (p : Pt) : Pt := ptMulGo p k 521 none

/-- Whether a pair lies on the curve. -/
def onCurve (x y : Nat) : Bool :=
  decide (x < p521) && decide (y < p521) &&
  decide (y * y % p521 = (x * x * x + (p521 - 3) * x + b521) % p521)

/-- The signature check: `pub` is x then y and `sig` r then s, 66 bytes each, little-endian as R6
says of multi-byte values (log 15), over the SHA-512 digest given. -/
def ecdsaOk (pub digest sig : Bytes) : Bool :=
  let x := leNat (slice pub 0 66)
  let y := leNat (slice pub 66 66)
  let r := leNat (slice sig 0 66)
  let s := leNat (slice sig 66 66)
  if !(onCurve x y) || decide (pub.length ≠ 132) || decide (sig.length ≠ 132) then false
  else if decide (r = 0) || decide (n521 ≤ r) || decide (s = 0) || decide (n521 ≤ s) then false
  else
    let w := modInv s n521
    let u1 := beNat digest * w % n521
    let u2 := r * w % n521
    match ptAdd (ptMul u1 (some (gx521, gy521))) (ptMul u2 (some (x, y))) with
    | none => false
    | some (px, _) => px % n521 == r

end Sys2Proof.Machine
end

