-- ==== Sys2Proof/Machine/Digest.lean ====
section
/-! DEFINITION. The configuration digest and adoption (R405 to R408): the digest set, its staged and
in-force digests, and the copy of staged values into force. -/

namespace Sys2Proof.Machine

/-- Insert a definition by rising key. -/
def objInsert (o : ObjDef) : List ObjDef → List ObjDef
  | [] => [o]
  | a :: r => if o.key < a.key then o :: a :: r else a :: objInsert o r

/-- The digest set in rising index and subindex (R405). -/
def digestSet : List ObjDef := (objTable.filter (·.digest)).foldl (fun l o => objInsert o l) []

/-- Whether a key lies in the digest set. -/
def inDigest (key : Nat) : Bool := objTable.any (fun o => o.key == key && o.digest)

/-- One record of the digest (R406). -/
def digestRec (o : ObjDef) (n : Nat) (d : Bytes) : Bytes :=
  let v := if typSize o.typ = 0 then d else leBytes (typSize o.typ) n
  leBytes 2 (o.key / 256) ++ leBytes 1 (o.key % 256) ++ leBytes 1 o.typ ++ leBytes 4 v.length ++ v

/-- The bytes a digest is taken over, from a reading of numbers and one of strings. -/
def digestBytes (nums : Nat → Nat) (doms : Nat → Bytes) : Bytes :=
  digestSet.flatMap (fun o => digestRec o (nums o.key) (doms o.key))

/-- The digest of the staged values (0x1F00.03), of the values in force (0x1F00.01), and of the
staged values in the boundary snapshot. -/
def digestStaged (s : Block) : Bytes := sha512 (digestBytes (num s) (dom s))
def digestForce (s : Block) : Bytes := sha512 (digestBytes (numF s) (domF s))
def digestSnap (s : Block) : Bytes := sha512 (digestBytes (numS s) (domS s))

/-- The staged values differ from those in force (PENDING of R424), compared as values. -/
def stagedDiffers (s : Block) : Bool :=
  digestSet.any (fun o => if typSize o.typ = 0 then dom s o.key != domF s o.key else num s o.key != numF s o.key)

/-- The same for the snapshot. -/
def snapDiffers (s : Block) : Bool :=
  digestSet.any (fun o => if typSize o.typ = 0 then domS s o.key != domF s o.key else numS s o.key != numF s o.key)

/-- Entries of the digest set in a table. -/
def digestPart (m : SMap α) : SMap α := mapFilter inDigest m

/-- A key of an arcade object of the plan, ports or ranks. -/
def arcadeKey (k : Nat) : Bool := decide (0x310000 ≤ k) && decide (k < 0x312100)

/-- Arcade objects of a table. -/
def arcadePart (m : SMap α) : SMap α := mapFilter arcadeKey m

/-- A change to a persistent object, which the security core has yet to write to flash (R404). -/
def markUnwritten (key : Nat) (s : Block) : Block :=
  { s with store := { s.store with unwritten := s.store.unwritten ++ [key], lost := setDel s.store.lost key } }

/-- Write the epoch in force, which is persistent (R404). -/
def setEpoch (e : Nat) (s : Block) : Block := markUnwritten 0x1F0002 (setNum 0x1F0002 (e % 2 ^ 32) s)

/-- Copy the snapshot's staged values into force. -/
def adoptSnap (s : Block) : Block :=
  { s with store := { s.store with forceN := digestPart s.bnd.snapN, forceD := digestPart s.bnd.snapD } }

/-- Copy the present staged values into force, marking a change of arcade objects. -/
def adoptNow (s : Block) : Block :=
  let n := digestPart s.store.nums
  let d := digestPart s.store.doms
  let ch := decide (arcadePart n ≠ arcadePart s.store.forceN) || decide (arcadePart d ≠ arcadePart s.store.forceD)
  { s with store := { s.store with forceN := n, forceD := d }, bnd := { s.bnd with planChanged := s.bnd.planChanged || ch } }

/-- PENDING as the values now stand. -/
def pendingBit (s : Block) : Block :=
  setNum 0x1F1005 (putBit (num s 0x1F1005) 4 (stagedDiffers s)) s

/-- The verdict of R409 over given digests: dst staged, din in force, dd declared; eo in force, ed
declared. The answers are ok, prop and the refusal bit. -/
def verdict (dst din dd : Bytes) (eo ed : Nat) : Bool × Nat × Nat :=
  let ok := dst == dd && ((dst == din && ed == eo) || decide (eo < ed))
  (ok, if ok then ed else eo, if ok then 0 else if dst == dd then 4 else 2)

/-- The verdict over the snapshot, and over the present values. -/
def snapVerdict (s : Block) : Bool × Nat × Nat :=
  verdict (digestSnap s) (digestForce s) (domS s 0x1F1001) (epochNo s) (numS s 0x1F1002)
def nowVerdict (s : Block) : Bool × Nat × Nat :=
  verdict (digestStaged s) (digestForce s) (dom s 0x1F1001) (epochNo s) (num s 0x1F1002)

/-- Adoption by the module's own verdict (R412): at a load, and when the store accepts a change while
no program is loaded. Mode 0 adopts without a check (R408). The answer says that it refused. -/
def adoptOwn (s : Block) : Bool × Block :=
  if num s 0x1F1003 = 0 then
    if stagedDiffers s then
      let s := adoptNow s
      (false, pendingBit (setDecl 1 (setEpoch (epochNo s + 1) s)))
    else (false, s)
  else
    let v := nowVerdict s
    if v.1 then
      if epochNo s < v.2.1 then
        let s := adoptNow s
        (false, pendingBit (setDecl 1 (setEpoch v.2.1 s)))
      else (false, pendingBit (setDecl 0 s))
    else (true, pendingBit (setDecl v.2.2 s))

end Sys2Proof.Machine
end

