-- ==== Sys2Proof/Machine/Links.lean ====
section
/-! DEFINITION. Arcade links (R253 to R268, R276 to R281): lanes, flits, replay, credits, link states,
beacons and the plan check. What becomes of packets stands in Arcade.lean. -/

namespace Sys2Proof.Machine

/-! ## Links -/

/-- A link right after reset (R288). -/
def linkZero : Link :=
  { state := 0, reason := 0, holdOver := false, signal := false, peerLink := 31, peerSlot := 127,
    active := 0, failed := 0, spareUsed := false, spareTraining := false, beacon := zeros 240, heard := false,
    wait := [], sent := [], slots := [], turn := 0, lastLane := 24, laneCount := [], rxCount := [], nextLseq := 0,
    credits := [], expLseq := 0, rxAny := false, reorder := [], partials := [], freed := [], counters := [],
    trained := false, tell := [], told := [], tellAck := false, out := [] }

/-- A link. -/
def link (s : Block) (l : Nat) : Link := mapGet linkZero s.arc.links l
def setLink (l : Nat) (k : Link) (s : Block) : Block :=
  { s with arc := { s.arc with links := mapSet linkZero s.arc.links l k } }
def modLink (l : Nat) (f : Link → Link) (s : Block) : Block := setLink l (f (link s l)) s

/-- The hall of a link's arcade die (R266): AL0 to AL7 and AL16 are on AD-A. -/
def linkDie (l : Nat) : Nat := if l < 8 ∨ l = 16 then 0 else 1

/-- Raise a counter of 0x3310. -/
def linkCount (l i n : Nat) (s : Block) : Block :=
  modLink l (fun k => { k with counters := mapMod 0 k.counters i (fun c => satN 64 (c + n)) }) s

/-- Lanes in use of a link, rising. -/
def activeLanes (k : Link) : List Nat := maskBits 25 k.active

/-- States whose lanes carry flits (R276). -/
def carries (st : Nat) : Bool := st == 3 || st == 4 || st == 5 || st == 6

/-- Lanes carry flits: in those states, and in compliance mode at 212.5 Gbit/s, when TEST has active lanes (R254). -/
def flows (k : Link) : Bool := carries k.state || (k.state == 8 && k.active != 0)

/-- Lanes that a training brings up: those not retired, with the spare in place of a retired one. -/
def trainLanes (k : Link) : Nat :=
  let m := (2 ^ 24 - 1) &&& (2 ^ 25 - 1 - k.failed % 2 ^ 25)
  if fld k.failed 0 24 ≠ 0 ∧ !(bit k.failed 24) then m + 2 ^ 24 else m

/-! ## Ports and the plan (R264 to R268) -/

/-- Mask and peer position of a port in force. -/
def portMask (s : Block) (i : Nat) : Nat := fld (numF s (0x311001 + i)) 0 18
def portPeer (s : Block) (i : Nat) : Nat := fld (numF s (0x311001 + i)) 24 4

/-- The slot that a port reaches (R265): ports 0 to 7 in the same stairwell, 8 in the next and 9 in the one before. -/
def portSlot (s : Block) (i : Nat) : Nat :=
  let st := s.arc.slot / 9
  9 * (if i = 8 then (st + 1) % 8 else if i = 9 then (st + 7) % 8 else st) + portPeer s i

/-- The port that holds a link. -/
def portOf (s : Block) (l : Nat) : Option Nat := (List.range 10).find? (fun i => bit (portMask s i) l)

/-- A port is up while one of its links is UP. -/
def portUp (s : Block) (i : Nat) : Bool := (maskBits 18 (portMask s i)).any (fun l => (link s l).state == 5)

/-- The ten port-up bits. -/
def portBits (s : Block) : Nat := maskOf ((List.range 10).map (portUp s))

/-- The wiring plan's entry in force for a link of the module: peer slot and peer link. -/
def planPeer (s : Block) (l : Nat) : Nat × Nat :=
  let e := leAt (domF s 0x310000) (16 + 2 * (18 * s.arc.slot + l)) 2
  (fld e 5 7, fld e 0 5)

/-- The slot of a rank, 127 for none (R268), and the rank of a slot. -/
def rankSlot (s : Block) (r : Nat) : Nat := leAt (domF s 0x312000) r 1
def slotRank (s : Block) (slot : Nat) : Option Nat := (List.range 64).find? (fun r => rankSlot s r == slot)

/-- The plan digest in force (0x3101). -/
def planDigest (s : Block) : Bytes := sha512 (domF s 0x310000)

/-! ## Status (R288, R289) -/

/-- The status word of a link. -/
def linkWord (s : Block) (l : Nat) : Nat :=
  let k := link s l
  k.state + k.reason * 2 ^ 4 + b2n (s.arc.routes.contains l && k.state == 5) * 2 ^ 8 +
    b2n (k.spareUsed || bit k.failed 24) * 2 ^ 9 + popBelow 25 k.failed * 2 ^ 10 +
    (if flows k then popBelow 25 k.active else 0) * 2 ^ 15 +
    k.peerSlot * 2 ^ 20 + k.peerLink * 2 ^ 27

/-- Some link satisfies `p`. -/
def anyLink (s : Block) (p : Link → Bool) : Bool := (List.range 18).any (fun l => p (link s l))

/-- The digest of the wiring plan that a peer's beacon shows differs from the module's. -/
def planDiffers (s : Block) : Bool :=
  anyLink s (fun k => carries k.state && k.heard && slice k.beacon 32 64 != planDigest s)

/-- Recompute 0x3320; UNDER_CONN keeps its value. A notify goes out when a bit of [15:11] rises. -/
def reportArcade (s : Block) : Block :=
  let q := fun (k : Link) => k.state == 6
  let w := portBits s + b2n (anyLink s (fun k => k.state == 8)) * 2 ^ 10 +
    b2n (anyLink s (fun k => q k && k.reason == 9)) * 2 ^ 11 + b2n (planDiffers s) * 2 ^ 12 +
    b2n (anyLink s q) * 2 ^ 13 + b2n (!s.arc.detours.isEmpty) * 2 ^ 14 + fld (num s 0x332000) 15 1 * 2 ^ 15
  setStatus 0x332000 w 0xF800 0 0 s

/-! ## Flits (R256, R257) -/

/-- The flit of 256 received bytes. -/
def parseFlit (b : Bytes) : Flit :=
  let h := leAt b 0 12
  { kind := fld h 92 4, lseq := fld h 76 16, ack := fld h 60 16, ackv := bit h 59, dst := fld h 52 7, src := fld h 45 7,
    shall := fld h 44 1, vc := fld h 42 2, hop := fld h 39 3, detour := bit h 38, first := bit h 37, last := bit h 36,
    bytes := fld h 28 8, poison := fld h 13 15, cvc := fld h 11 2, cred := fld h 0 11, payload := slice b 12 240 }

/-- The CRC of a flit holds. -/
def flitCrcOk (b : Bytes) : Bool := crc32 (slice b 0 252) == leAt b 252 4

/-- A flit without content of a type. -/
def flitOf (kind : Nat) (payload : Bytes) : Flit :=
  { kind, lseq := 0, ack := 0, ackv := false, dst := 0, src := 0, shall := 0, vc := 0, hop := 0, detour := false,
    first := false, last := false, bytes := 0, poison := 0, cvc := 0, cred := 0, payload }

/-- Put acknowledgement and credits on a flit that leaves (R257). -/
def stampFlit (k : Link) (f : Flit) : Link × Flit :=
  let f := { f with ack := (k.expLseq + 65535) % 65536, ackv := k.rxAny }
  let k := { k with tellAck := false }
  match (List.range 4).find? (fun v => mapGet 0 k.freed v != 0) with
  | none => (k, f)
  | some v =>
    let n := min 2047 (mapGet 0 k.freed v)
    ({ k with freed := mapMod 0 k.freed v (· - n) }, { f with cvc := v, cred := n })

/-- The next active lane after the last one used (R256). -/
def nextLane (k : Link) : Nat :=
  let a := activeLanes k
  match a.find? (fun n => decide (k.lastLane < n)) with
  | some n => n
  | none => a.headD 0

/-- A flit leaves on the next active lane, which counts it (R256, R259). -/
def laneFlit (f : Flit) (k : Link) : Link :=
  let n := nextLane k
  { k with lastLane := n, laneCount := mapMod 0 k.laneCount n (· + 1), out := k.out ++ [(n, f)] }

/-- A flit other than data leaves on the link; with no active lane there is none to carry it. -/
def putFlit (f : Flit) (k : Link) : Link :=
  if k.active = 0 then k else let (k, f) := stampFlit k f; laneFlit f k

/-- A control flit with one entry (R260, layout of log 42): kind 1 NAK, 2 LANE_RETIRE, 3 LANE_JOIN, 4 DOWN. -/
def controlFlit (kind lane arg : Nat) : Flit :=
  flitOf 2 (slice (leBytes 8 1 ++ leBytes 2 kind ++ leBytes 2 lane ++ leBytes 4 arg) 0 240)

/-- The entries of a control flit's payload: kind, lane, argument. -/
def controlEntries (p : Bytes) : List (Nat × Nat × Nat) :=
  (List.range (min 28 (leAt p 0 8))).map (fun i => (leAt p (8 + 8 * i) 2, leAt p (10 + 8 * i) 2, leAt p (12 + 8 * i) 4))

/-- The control entries kept for the peer leave. -/
def tellPeer (k : Link) : Link := k.tell.foldl (fun k e => putFlit (controlFlit e.1 e.2.1 e.2.2) k) { k with tell := [] }

/-- Idle flits return acknowledgements and credits that nothing else has carried (R257). -/
def idleFlits (k : Link) : Link :=
  iter (fun k => if (k.state = 4 ∨ k.state = 5) ∧ (k.tellAck ∨ k.freed ≠ []) then putFlit (flitOf 0 (zeros 240)) k else k) 5 k

/-! ## The transmitter (R256, R258, R259, R261) -/

/-- A data flit takes the next active lane; `fresh` counts nothing, a resend counts one. -/
def giveLane (t : TxFlit) (resend : Bool) (k : Link) : Link :=
  let n := nextLane k
  let c := mapGet 0 k.laneCount n
  let (k, f) := stampFlit k t.flit
  let t := { t with flit := f, lane := n, laneCount := c, resends := t.resends + b2n resend }
  let sent := if resend then k.sent.map (fun u => if u.flit.lseq = t.flit.lseq then t else u) else k.sent ++ [t]
  laneFlit f { k with sent }

/-- Virtual channels with a waiting flit and a credit. -/
def readyVcs (k : Link) : List Nat :=
  (List.range 4).filter (fun v => k.wait.any (fun t => t.flit.vc == v) && mapGet 0 k.credits v != 0)

/-- The rotation of R235 with weights 8, 8, 4 and 1. -/
def vcTurns : List Nat :=
  List.replicate 8 0 ++ List.replicate 8 1 ++ List.replicate 4 2 ++ [3]

/-- The virtual channel of the next flit slot, and the new place in the rotation (R235, R261). -/
def pickVc (k : Link) : Option (Nat × Nat) :=
  let r := readyVcs k
  if r.contains 0 ∧ (k.slots.filter (· == 0)).length < 16 then some (0, k.turn)
  else
    match ((List.range 21).map (fun i => (k.turn + i) % 21)).find? (fun i => r.contains (nth vcTurns i 0)) with
    | some i => some (nth vcTurns i 0, (i + 1) % 21)
    | none => none

/-- Send one waiting data flit. -/
def sendOne (k : Link) : Link :=
  if k.state ≠ 5 ∨ 64 * popBelow 25 k.active ≤ k.sent.length then k
  else match pickVc k with
    | none => k
    | some (v, t) =>
      match k.wait.find? (fun w => w.flit.vc == v) with
      | none => k
      | some w =>
        let k := { k with
          wait := k.wait.eraseP (fun w => w.flit.vc == v)
          credits := mapMod 0 k.credits v (· - 1)
          slots := (v :: k.slots).take 64, turn := t }
        let w := { w with flit := { w.flit with lseq := k.nextLseq } }
        giveLane w false { k with nextLseq := (k.nextLseq + 1) % 65536 }

/-- Send what credits and the replay buffer allow. -/
def pumpLink (k : Link) : Link := iter sendOne k.wait.length k

/-- An acknowledgement number covers a link sequence. -/
def covered (ack lseq : Nat) : Bool := decide ((ack + 65536 - lseq) % 65536 < 32768)

/-- Drop the flits of every packet whose LAST flit is covered (R258). -/
def ackSent (ack : Nat) : List TxFlit → List TxFlit
  | [] => []
  | t :: r =>
    let last := if t.flit.last then some t else r.find? (fun u => u.flit.vc == t.flit.vc && u.flit.last)
    match last with
    | some u => if covered ack u.flit.lseq then ackSent ack r else t :: ackSent ack r
    | none => t :: ackSent ack r

/-- Take the acknowledgement and credits of a received flit. -/
def takeAck (f : Flit) (k : Link) : Link :=
  let k := if f.ackv then { k with sent := ackSent f.ack k.sent } else k
  let k := { k with credits := mapMod 0 k.credits f.cvc (· + f.cred) }
  pumpLink k

/-! ## Beacons (R277) -/

/-- The module is a spare: no rank names its slot. -/
def isSpare (s : Block) : Bool := (slotRank s s.arc.slot).isNone

/-- Byte 19 of a beacon. R277 gives bits 0 to 2; R368 has it report SLICE_UNSAFE, which bit 3 carries (log 52). -/
def beaconFlags (s : Block) (k : Link) : Nat :=
  b2n (isSpare s) + 2 * b2n (bit (num s 0x332000) 15) + 4 * b2n (k.state == 6) + 8 * b2n (bit (num s 0x607000) 6)

/-- The payload of a beacon of a link. -/
def beaconPayload (s : Block) (l : Nat) : Bytes :=
  let k := link s l
  let flags := beaconFlags s k
  slice (slice Config.serial 0 16 ++ leBytes 1 s.arc.slot ++ leBytes 1 l ++ leBytes 1 (popBelow 25 k.active) ++
    leBytes 1 flags ++ leBytes 4 (epochNo s) ++ leBytes 8 (stepNo s) ++ slice (planDigest s) 0 64 ++
    slice (digestForce s) 0 64 ++ leBytes 2 (lepochNo s)) 0 240

/-- Fields of a beacon. -/
def bcSerial (b : Bytes) : Bytes := slice b 0 16
def bcSlot (b : Bytes) : Nat := leAt b 16 1
def bcLink (b : Bytes) : Nat := leAt b 17 1
def bcUnsafe (b : Bytes) : Bool := bit (leAt b 19 1) 3
def bcEpoch (b : Bytes) : Nat := leAt b 20 4
def bcStep (b : Bytes) : Nat := leAt b 24 8
def bcPlan (b : Bytes) : Bytes := slice b 32 64
def bcDigest (b : Bytes) : Bytes := slice b 96 64
def bcLepoch (b : Bytes) : Nat := leAt b 160 2

/-- What a beacon says that can change while the link is UP: the digests change with the epoch alone (R409). -/
def beaconSays (s : Block) (k : Link) : List Nat := [popBelow 25 k.active, beaconFlags s k, epochNo s, stepNo s, lepochNo s]

/-- Send a beacon. -/
def sendBeacon (l : Nat) (s : Block) : Block :=
  if carries (link s l).state then
    modLink l (fun k => putFlit (flitOf 3 (beaconPayload s l)) { k with told := beaconSays s k }) s
  else s

/-- A link in UP sends a beacon after any change of what it says (R277). -/
def tellBeacons (s : Block) : Block :=
  forEach (s.arc.links.filter (fun e => e.2.state == 5 && e.2.told != beaconSays s e.2)) (fun e s => sendBeacon e.1 s) s

/-- The links of a duplicate slot or serial (R278). -/
def duplicates (s : Block) (l : Nat) (b : Bytes) : List Nat :=
  (List.range 18).filter (fun m => m != l && carries (link s m).state && (link s m).heard &&
    ((bcSlot (link s m).beacon == bcSlot b) != (bcSerial (link s m).beacon == bcSerial b)))

/-- The plan check (R278): 0 for READY, else the reason of the quarantine. -/
def planCheck (s : Block) (l : Nat) (b : Bytes) : Nat :=
  let (ps, pl) := planPeer s l
  if 72 ≤ s.arc.slot then 13
  else if ps = 127 ∨ ps ≠ bcSlot b ∨ pl ≠ bcLink b then 7
  else if (match portOf s l with | none => true | some i => portSlot s i != bcSlot b) then 7
  else if bcPlan b ≠ planDigest s then 8
  else if duplicates s l b ≠ [] then 9 else 0

end Sys2Proof.Machine
end

