-- ==== Sys2Proof/Machine/Arcade.lean ====
section
/-! DEFINITION. Packets, streams and paths of the arcade (R269 to R286): sending, retention, resends and
detours, links going down and coming up, route builds and connectivity, and the effect of a packet on
memory, mezzanines and tokens. -/

namespace Sys2Proof.Machine

/-! ## Packet headers (R269, R270, R296) -/

def phOp (h : Nat) : Nat := fld h 0 8
def phJob (h : Nat) : Nat := fld h 8 4
def phMop (h : Nat) : Nat := fld h 12 4
def phMtype (h : Nat) : Nat := fld h 16 4
def phPseq (h : Nat) : Nat := fld h 20 16
def phLepoch (h : Nat) : Nat := fld h 36 16
def phLen (h : Nat) : Nat := fld h 52 13
def phTgt (h : Nat) : Nat := fld h 66 1
def phAddr (h : Nat) : Nat := fld h 67 39
def phTgal (h : Nat) : Nat := fld h 106 6
def phTctr (h : Nat) : Nat := fld h 112 8
def phTval (h : Nat) : Nat := fld h 120 16
def phCid (h : Nat) : Nat := fld h 136 10
def phStep (h : Nat) : Nat := fld h 146 16
def phCepoch (h : Nat) : Nat := fld h 240 16
/-- Operands of RREQ: return address, counter, gallery. -/
def phRaddr (h : Nat) : Nat := fld h 162 39
def phRctr (h : Nat) : Nat := fld h 201 8
def phRgal (h : Nat) : Nat := fld h 209 6
/-- Operands of a G64 MWRITE, and the ATTEMPT of every packet of an A descriptor (R308). -/
def phSfmt (h : Nat) : Nat := fld h 162 8
def phAnchor (h : Nat) : Int := signed 10 (fld h 170 10)
def phHead (h : Nat) : Nat := fld h 180 5
def phAttempt (h : Nat) : Nat := fld h 185 8

/-- A header from its fields, without PSEQ. -/
def mkHeader (op mop mtype lepoch len addr tgal tctr tval cid step cepoch extra : Nat) : Nat :=
  op % 256 + mop % 16 * 2 ^ 12 + mtype % 16 * 2 ^ 16 + lepoch % 65536 * 2 ^ 36 + len % 8192 * 2 ^ 52 +
    addr % 2 ^ 39 * 2 ^ 67 + tgal % 64 * 2 ^ 106 + tctr % 256 * 2 ^ 112 + tval % 65536 * 2 ^ 120 +
    cid % 1024 * 2 ^ 136 + step % 65536 * 2 ^ 146 + extra % 2 ^ 78 * 2 ^ 162 + cepoch % 65536 * 2 ^ 240

/-- Keys of streams: as a source, and as a destination (R271). -/
def txKey (shall dst vc : Nat) : Nat := (shall * 72 + dst) * 4 + vc
def rxKey (src shall vc : Nat) : Nat := (src * 2 + shall) * 4 + vc

/-- The key of the stream of a packet that this die sends, its own or one that it forwards (R272, R282). -/
def streamKey (s : Block) (src shall dst vc : Nat) : Nat :=
  if src = s.arc.slot then txKey shall dst vc else (src + 1) * 2 ^ 20 + txKey shall dst vc
def packetKey (s : Block) (p : Packet) : Nat := streamKey s p.src p.shall p.dst p.vc

/-! ## Paths (R273, R283) -/

/-- The stairwell port of a position. -/
def portTo (s : Block) (pos : Nat) : Option Nat := (List.range 8).find? (fun i => portPeer s i == pos)

/-- Port 8 or 9 toward another stairwell: the short way round, upward on a tie. -/
def ringPort (here there : Nat) : Nat := if (there + 8 - here) % 8 ≤ 4 then 8 else 9

/-- The port of the route from this module to a slot (R273). -/
def routePort (s : Block) (dst : Nat) : Option Nat :=
  if dst / 9 = s.arc.slot / 9 then portTo s (dst % 9) else some (ringPort (s.arc.slot / 9) (dst / 9))

/-- The link that a packet takes within a port: UP, in the route table, of its SHALL's die first. -/
def portLink (s : Block) (port shall : Nat) : Option Nat :=
  let ls := (maskBits 18 (portMask s port)).filter (fun l => (link s l).state == 5 && s.arc.routes.contains l)
  match ls.find? (fun l => linkDie l == shall) with
  | some l => some l
  | none => ls.head?

/-- A relay's port-up bit, as last received. -/
def relayUp (s : Block) (slot i : Nat) : Bool :=
  match mapGet 0 s.arc.peerPorts slot with
  | 0 => false
  | b + 1 => bit b i

/-- The port that a relay's part of a detour toward a slot takes (R265, R283): to its position from its stairwell or from
the next one, along the ring from this module's. -/
def onwardPort (s : Block) (relay dst : Nat) : Nat :=
  let st := s.arc.slot / 9
  if dst / 9 = relay / 9 ∨ (relay / 9 ≠ st ∧ relay % 9 ≠ dst % 9) then (dst % 9 + 9 - relay % 9 - 1) % 9 else ringPort (relay / 9) (dst / 9)

/-- The member of the next stairwell along the ring that the flight link of position `q` reaches. -/
def beyond (s : Block) (q dst : Nat) : Nat :=
  let st := s.arc.slot / 9
  9 * (if ringPort st (dst / 9) = 8 then (st + 1) % 8 else (st + 7) % 8) + q

/-- The relays of a detour toward a slot, lowest position first (R283); a module that a no-route message named is none. -/
def relays (s : Block) (dst : Nat) : List Nat :=
  let st := s.arc.slot / 9
  let p := s.arc.slot % 9
  let open? := fun slot => !(s.arc.badRelays.contains (slot, onwardPort s slot dst))
  (List.range 9).filter (fun q =>
    let slot := 9 * st + q
    q != p && !(dst / 9 == st && q == dst % 9) && relayUp s slot (onwardPort s slot dst) &&
      open? slot && (dst / 9 == st || open? (beyond s q dst)) &&
      (match portTo s q with | some i => portUp s i | none => false))

/-- The link toward a slot, and whether it is a detour; none when there is no path (R282 to R284). -/
def pathTo (s : Block) (dst shall : Nat) : Option (Nat × Bool) :=
  match (routePort s dst).bind (fun i => portLink s i shall) with
  | some l => some (l, false)
  | none =>
    match (relays s dst).head?.bind (portTo s) with
    | none => none
    | some i => (portLink s i shall).map (fun l => (l, true))

/-- The path of a stream: the one it has taken since the last route build while its link is UP, otherwise the one that R282
gives (R273, R282). -/
def streamPath (s : Block) (p : Packet) : Option (Nat × Bool) :=
  match mapGet 0 s.arc.paths (packetKey s p) with
  | 0 => pathTo s p.dst p.shall
  | v + 1 => if (link s (v % 18)).state = 5 ∧ s.arc.routes.contains (v % 18) then some (v % 18, decide (18 ≤ v)) else pathTo s p.dst p.shall

/-! ## Packets and flits (R269) -/

/-- The poison bits of a packet's payload bytes, one for each 16: the header has none. -/
def payloadPoison (p : Packet) : List Bool := [false, false] ++ p.poison

/-- The flits of a packet. -/
def packetFlits (p : Packet) : List Flit :=
  let body := leBytes 32 p.header ++ p.data
  let n := max 1 (ceilDiv body.length 240)
  (List.range n).map (fun i =>
    let part := (body.drop (240 * i)).take 240
    { kind := 1, lseq := 0, ack := 0, ackv := false, dst := p.dst, src := p.src, shall := p.shall, vc := p.vc, hop := p.hop,
      detour := p.detour, first := i == 0, last := i + 1 == n, bytes := part.length - 1,
      poison := maskOf (((payloadPoison p).drop (15 * i)).take 15), cvc := 0, cred := 0, payload := slice part 0 240 })

/-- The packet of a complete list of flits. -/
def flitsPacket (fs : List Flit) : Packet :=
  let body := fs.flatMap (fun f => f.payload.take (f.bytes + 1))
  let pz := fs.flatMap (fun f => (List.range 15).map (fun i => bit f.poison i))
  let f := fs.headD (flitOf 1 [])
  { src := f.src, shall := f.shall, dst := f.dst, vc := f.vc, detour := f.detour, hop := f.hop,
    header := leAt body 0 32, data := body.drop 32, poison := (pz.drop 2).take (ceilDiv (body.length - 32) 16) }

/-- Split flits into packets by virtual channel: each list of flits ends with LAST, or is cut short. -/
def gatherPackets : Nat → List TxFlit → List (List TxFlit)
  | 0, _ => []
  | _, [] => []
  | n + 1, t :: r =>
    let same := (t :: r).filter (fun u => u.flit.vc == t.flit.vc)
    let upto := same.takeWhile (fun u => !u.flit.last)
    let pk := same.take (upto.length + 1)
    let rest := (t :: r).filter (fun u => u.flit.vc != t.flit.vc)
    let tail := same.drop (upto.length + 1)
    pk :: gatherPackets n (tail ++ rest)

/-! ## Sending (R258, R271, R272, R284) -/

/-- The retention of one die in bytes. -/
def retainUsed (s : Block) (die : Nat) : Nat :=
  ((s.arc.retain.filter (fun k => linkDie k.link == die)).map (fun k => 32 + k.p.data.length)).foldl (· + ·) 0

/-- A descriptor fails: its completion will say so. -/
def failDesc (desc : Nat) (s : Block) : Block :=
  { s with queues := { s.queues with descs := s.queues.descs.map (fun d => if d.id + 1 = desc then { d with failed := true } else d) } }

/-- A packet that has no path is discarded, and its descriptor completes as failed; when it has completed already, the step
does not advance all the same (R272, R284). -/
def loseDesc (desc : Nat) (s : Block) : Block :=
  if desc = 0 then s
  else if s.queues.descs.any (fun d => d.id + 1 == desc) then failDesc desc s else descFail s

/-- A pull of a takeover or re-mirror has failed (R368). -/
def failPull (s : Block) : Block :=
  { s with recov := { s.recov with job := s.recov.job.map (fun j => { j with failed := true }) } }

/-- A lost packet; one that carried a part of a context leaves CTX_PARTIAL: a holder will not acknowledge it (R364). A lost
RREQ of no descriptor is a pull that fails. -/
def losePacket (desc : Nat) (p : Packet) (s : Block) : Block :=
  let own := p.src == s.arc.slot
  let s := if own && phOp p.header == 4 && leAt p.data 0 1 == 0x20 then setRecov 5 true s else s
  loseDesc desc (if own && phOp p.header == 2 && desc == 0 then failPull s else s)

/-- Put flits behind those that wait; those of a packet that is sent again stand ahead of its stream's new packets. -/
def putWait (new wait : List TxFlit) : List TxFlit :=
  match new with
  | [] => wait
  | t :: _ =>
    let later := fun (u : TxFlit) => !t.again || u.again || !u.flit.first || u.flit.src != t.flit.src || u.flit.dst != t.flit.dst ||
      u.flit.shall != t.flit.shall || u.flit.vc != t.flit.vc
    wait.takeWhile later ++ new ++ wait.dropWhile later

/-- Give a packet's flits to a link. -/
def enqueue (again : Bool) (l desc : Nat) (p : Packet) (s : Block) : Block :=
  modLink l (fun k => pumpLink { k with
    wait := putWait ((packetFlits p).map (fun f => { flit := f, desc, lane := 0, laneCount := 0, resends := 0, again })) k.wait }) s

/-- Put a packet on its path, which later packets of its stream keep. `again` says that it is sent again (R272, R282). -/
def launch (again : Bool) (desc : Nat) (p : Packet) (s : Block) : Block :=
  match streamPath s p with
  | none => losePacket desc p s
  | some (l, det) =>
    let k := packetKey s p
    let s := { s with arc := { s.arc with paths := mapSet 0 s.arc.paths k (l + 18 * b2n det + 1) } }
    let keep := again || det || s.arc.retaining.contains k
    let p := { p with detour := p.detour || det }
    let already := s.arc.retain.any (fun r => packetKey s r.p == k && phPseq r.p.header == phPseq p.header)
    let kept : Kept := { p, link := l, desc }
    let s := if keep then { s with arc := { s.arc with retaining := setAdd s.arc.retaining k } } else s
    let s := if det then reportArcade { s with arc := { s.arc with detours := setAdd s.arc.detours k } } else s
    if keep && !already then
      if 4194304 < retainUsed s (linkDie l) + 32 + p.data.length then
        { s with arc := { s.arc with retainWait := s.arc.retainWait ++ [kept] } }
      else enqueue again l desc p { s with arc := { s.arc with retain := s.arc.retain ++ [kept] } }
    else enqueue again l desc p s

/-- Send a packet of this module: it takes the next PSEQ of its stream. -/
def sendPacket (desc : Nat) (p : Packet) (s : Block) : Block :=
  let k := txKey p.shall p.dst p.vc
  let q := mapGet 0 s.arc.txSeq k
  let p := { p with src := s.arc.slot, header := setFld p.header 20 16 q }
  let s := { s with arc := { s.arc with txSeq := mapSet 0 s.arc.txSeq k ((q + 1) % 65536) } }
  if p.dst = s.arc.slot then { s with arc := { s.arc with loop := s.arc.loop ++ [p] } }
  else if s.arc.retainWait.any (fun r => packetKey s r.p == k) then
    { s with arc := { s.arc with retainWait := s.arc.retainWait ++ [{ p, link := 0, desc }] } }
  else launch false desc p s

/-- Packets that waited for retention go out while it has room. -/
def releaseRetain (s : Block) : Block :=
  let l := s.arc.retainWait
  forEach l (fun k s => launch true k.desc k.p s) { s with arc := { s.arc with retainWait := [] } }

/-- A CTRL packet to a slot (R270): the data begins with the subtype. `cepoch` is not 0 for ready and
agreement messages; `desc` is the descriptor that it serves, plus 1. -/
def sendCtrlFor (desc dst vc cepoch : Nat) (data : Bytes) (s : Block) : Block :=
  if dst = s.arc.slot then s
  else sendPacket desc
    { src := s.arc.slot, shall := 0, dst, vc, detour := false, hop := 0,
      header := mkHeader 4 0 0 (lepochNo s) (data.length - 1) 0 0 0 0 0 (stepNo s) cepoch 0
      data, poison := [] } s
def sendCtrl (dst vc cepoch : Nat) (data : Bytes) (s : Block) : Block := sendCtrlFor 0 dst vc cepoch data s

/-! ## Port-up bits (R283) -/

/-- After any change of a link: recompute the status, and tell the stairwell peers when the port-up bits
changed. -/
def portsChanged (s : Block) : Block :=
  let s := reportArcade s
  let b := portBits s
  if b = s.arc.sentPorts then s
  else
    let s := { s with arc := { s.arc with sentPorts := b } }
    forEach (List.range 9) (fun q s => sendCtrl (9 * (s.arc.slot / 9) + q) 0 0 (leBytes 1 0x50 ++ leBytes 2 b) s) s

/-! ## A link goes down (R280 to R282) -/

/-- Send the packets of a dead link again, whole, in order. -/
def resendAll (fs : List TxFlit) (s : Block) : Block :=
  forEach (gatherPackets fs.length fs) (fun pk s =>
    launch true ((pk.head?.map (·.desc)).getD 0) (flitsPacket (pk.map (·.flit))) s) s

/-- A link leaves UP or READY for FAULT (7) or DOWN (0) with a reason; `inj` says that an injection took it down. With a slot
of 72 or above every link is held in QUARANTINE (R264). -/
def linkGoes (inj : Bool) (l reason st : Nat) (s : Block) : Block :=
  let k := link s l
  if k.state = 9 ∨ k.state = 8 ∨ 72 ≤ s.arc.slot then s
  else
    let tell := carries k.state && reason != 1 && reason != 6 && reason != 12
    let k1 := if tell then putFlit (controlFlit 4 l reason) k else k
    let fs := k.sent ++ k.wait
    let s := setLink l { k1 with
      state := st, reason := reason, holdOver := false, active := 0, sent := [], wait := [], reorder := [], partials := []
      freed := [], credits := [], spareTraining := false } s
    let s := if carries k.state then detect 0x0E (laneLoc l 0) inj 0 0 [] s else s
    portsChanged (resendAll fs (portsChanged s))
def linkDown (l reason st : Nat) (s : Block) : Block := linkGoes false l reason st s

/-- A link goes to QUARANTINE with a reason (R276, R278): it carries beacons only, and what it had to send takes another
path. -/
def quarantine (l reason : Nat) (s : Block) : Block :=
  let k := link s l
  let s := setLink l { k with
    state := 6, reason, sent := [], wait := [], reorder := [], partials := [], freed := [], tellAck := false } s
  portsChanged (resendAll (k.sent ++ k.wait) (portsChanged s))

/-! ## Lanes (R259, R263) -/

/-- Resend the flit at a place of the transmitter, before any new flit; past the limit the link fails. -/
def resendFlit (l : Nat) (t : TxFlit) (s : Block) : Block :=
  if numF s 0x320007 ≤ t.resends then linkDown l 5 7 s
  else linkCount l 1 1 (modLink l (fun k => giveLane t true k) s)

/-- A link without a lane: an unused spare is powered and trains in its place (R263). -/
def dropLane (lane : Nat) (k : Link) : Link :=
  { k with active := putBit k.active lane false, failed := putBit k.failed lane true
           spareTraining := k.spareTraining || (!k.spareUsed && !(bit k.failed 24) && lane != 24) }

/-- Retire a lane: its unacknowledged flits move to other lanes, a spare starts to train, and too few
lanes take the link down. `tell` sends LANE_RETIRE to the peer. The last active lane is not retired; the loss of its signal
takes the link down. -/
def retireLane (l lane reason : Nat) (tell inj : Bool) (s : Block) : Block :=
  let k := link s l
  if !(bit k.active lane) then s
  else if popBelow 25 k.active = 1 then (if reason = 1 then linkGoes inj l 1 7 s else s)
  else
    let k := dropLane lane k
    let k := if tell then putFlit (controlFlit 2 lane reason) k else k
    let moved := k.sent.filter (fun t => t.lane == lane)
    let s := setLink l (moved.foldl (fun k t => giveLane t true k) k) s
    let s := if inj then s else linkCount l 1 moved.length s
    let s := if inj then s else floorRec (laneLoc l lane) 0x0D reason s
    let s := detect 0x0D (laneLoc l lane) inj 0 0 [] s
    if popBelow 25 (link s l).active < numF s 0x320003 then linkGoes inj l 4 7 s else s

/-! ## Link events -/

/-- A command at a link or lane: one that does not exist is a fault; in Dormant and Standby the arcade dies are off
(R456, R468) and nothing happens on them. -/
def onLink (l : Nat) (f : Block → Block) (s : State) : Host.Outcome State Fault Refusal :=
  if 18 ≤ l then .fault .noSuchUnit else effect (fun s => if halls s then f s else s) s
def onLane (l lane : Nat) (f : Block → Block) (s : State) : Host.Outcome State Fault Refusal :=
  if 18 ≤ l ∨ 25 ≤ lane then .fault .noSuchUnit else effect (fun s => if halls s then f s else s) s

/-- NAK (R259): resend the flit that the lane carried in that position. -/
def doNak (l lane count : Nat) (s : Block) : Block :=
  match (link s l).sent.find? (fun t => t.lane == lane && t.laneCount == count) with
  | some t => resendFlit l t s
  | none => s

def execNak (l lane count : Nat) (s : State) : Host.Outcome State Fault Refusal := onLane l lane (doNak l lane count) s

def execLaneRetire (l lane reason : Nat) (s : State) : Host.Outcome State Fault Refusal :=
  onLane l lane (retireLane l lane reason false false) s

/-- LANE_JOIN (R263): the peer's spare has trained. -/
def doLaneJoin (l lane : Nat) (s : Block) : Block :=
  let k := link s l
  if bit k.failed lane || !(carries k.state) then s
  else setLink l (pumpLink { k with active := putBit k.active lane true, spareUsed := k.spareUsed || lane == 24, spareTraining := false }) s

def execLaneJoin (l lane : Nat) (s : State) : Host.Outcome State Fault Refusal := onLane l lane (doLaneJoin l lane) s

/-- SPARE_LANE_TRAINED (R263): the spare joins, and the peer is told, once flits flow. -/
def doSpareTrained (l : Nat) (s : Block) : Block :=
  let k := link s l
  if !k.spareTraining then s
  else
    let k := { k with
      active := putBit k.active 24 true, spareUsed := true, spareTraining := false, tell := k.tell ++ [(3, 24, 0)] }
    setLink l (if carries k.state then pumpLink (tellPeer k) else k) s

def execSpareLaneTrained (l : Nat) (s : State) : Host.Outcome State Fault Refusal := onLink l (doSpareTrained l) s

/-- DOWN (R280): the peer takes the link down, or is reset. -/
def doDown (l : Nat) (s : Block) : Block :=
  if carries (link s l).state then linkDown l 12 0 s else s

def execDown (l _reason : Nat) (s : State) : Host.Outcome State Fault Refusal := onLink l (doDown l) s

/-- LOSS_OF_SIGNAL on every lane (R280). In TRAIN and ALIGN it ends the attempt (R276). -/
def doLossOfSignal (l : Nat) (s : Block) : Block :=
  let k := link s l
  let s := modLink l (fun k => { k with signal := false }) s
  if carries k.state then linkDown l 1 7 s
  else if k.state = 1 then linkDown l 2 7 s
  else if k.state = 2 then linkDown l 3 7 s else s

def execLossOfSignal (l : Nat) (s : State) : Host.Outcome State Fault Refusal := onLink l (doLossOfSignal l) s

/-- LINK_NO_FLIT: no valid flit on any lane for 4 µs while UP. -/
def doLinkNoFlit (l : Nat) (s : Block) : Block := if (link s l).state = 5 then linkDown l 6 7 s else s
def execLinkNoFlit (l : Nat) (s : State) : Host.Outcome State Fault Refusal := onLink l (doLinkNoFlit l) s

def execLaneLossOfLock (l lane : Nat) (s : State) : Host.Outcome State Fault Refusal :=
  onLane l lane (retireLane l lane 1 true false) s

/-- LANE_NO_FLIT: no valid flit on a lane for 1 µs while UP. -/
def doLaneNoFlit (l lane : Nat) (s : Block) : Block := if (link s l).state = 5 then retireLane l lane 4 true false s else s
def execLaneNoFlit (l lane : Nat) (s : State) : Host.Outcome State Fault Refusal := onLane l lane (doLaneNoFlit l lane) s

/-- LANE_ERROR_SECOND: each entry gives a lane, its uncorrectable codewords and its corrected symbols. -/
def doLaneErrors (l : Nat) (counts : List (Nat × Nat × Nat)) (s : Block) : Block :=
  forEach counts (fun c s =>
    let (lane, unc, cor) := c
    let s := linkCount l 2 cor (linkCount l 3 unc s)
    if numF s 0x320008 < unc then retireLane l lane 2 true false s
    else if numF s 0x320009 < cor then retireLane l lane 3 true false s else s) s

def execLaneErrorSecond (l : Nat) (counts : List (Nat × Nat × Nat)) (s : State) : Host.Outcome State Fault Refusal :=
  onLink l (doLaneErrors l counts) s

/-- REPLAY_TIMEOUT (R259): an unacknowledged data flit is sent again. -/
def doReplayTimeout (l lseq : Nat) (s : Block) : Block :=
  match (link s l).sent.find? (fun t => t.flit.lseq == lseq) with
  | some t => resendFlit l t s
  | none => s

def execReplayTimeout (l lseq : Nat) (s : State) : Host.Outcome State Fault Refusal := onLink l (doReplayTimeout l lseq) s

/-! ## Bring-up (R276) -/

/-- Enter TRAIN; a training after the first counts as a retrain. -/
def startTrain (l : Nat) (s : Block) : Block :=
  let k := link s l
  let s := setLink l { k with
    state := 1, holdOver := false, active := trainLanes k, spareUsed := k.spareUsed || bit (trainLanes k) 24, trained := true
    heard := false, tell := k.tell.filter (fun e => e.1 == 2) } s
  if k.trained then linkCount l 6 1 s else s

/-- LINK_HOLD_EXPIRY: FAULT to DOWN, or DOWN to TRAIN on signal. -/
def doHoldExpiry (l : Nat) (signal : Bool) (s : Block) : Block :=
  let k := link s l
  if k.state = 7 then setLink l { k with state := 0, signal } s
  else if k.state = 0 then
    let s := setLink l { k with holdOver := true, signal } s
    if signal then startTrain l s else s
  else s

def execLinkHoldExpiry (l : Nat) (signal : Bool) (s : State) : Host.Outcome State Fault Refusal :=
  onLink l (doHoldExpiry l signal) s

/-- LINK_SIGNAL_DETECT: signal on a link in DOWN whose hold has run out. -/
def doSignal (l : Nat) (s : Block) : Block :=
  let k := link s l
  let s := setLink l { k with signal := true } s
  if k.state = 0 ∧ k.holdOver then startTrain l s else s

def execLinkSignalDetect (l : Nat) (s : State) : Host.Outcome State Fault Refusal := onLink l (doSignal l) s

/-- Retire the lanes in use that lack a lock, while another keeps its own; the peer hears of it once flits flow (R262, R263,
R276). -/
def keepLocked (l locked : Nat) (s : Block) : Block :=
  forEach ((activeLanes (link s l)).filter (fun n => !(bit locked n))) (fun n s =>
    let k := link s l
    let s := setLink l (dropLane n { k with tell := k.tell ++ [(2, n, 1)] }) s
    detect 0x0D (laneLoc l n) false 0 0 [] (floorRec (laneLoc l n) 0x0D 1 s)) s

/-- LINK_TRAINING_DONE. -/
def doTrained (l locked : Nat) (s : Block) : Block :=
  let k := link s l
  if k.state ≠ 1 then s
  else if k.active &&& locked = 0 then linkDown l 2 7 s
  else modLink l (fun k => { k with state := 2 }) (keepLocked l locked s)

def execLinkTrainingDone (l locked : Nat) (s : State) : Host.Outcome State Fault Refusal := onLink l (doTrained l locked) s

def doTrainTimeout (l : Nat) (s : Block) : Block := if (link s l).state = 1 then linkDown l 2 7 s else s
def execLinkTrainingTimeout (l : Nat) (s : State) : Host.Outcome State Fault Refusal := onLink l (doTrainTimeout l) s

/-- The receive buffers of R261 as credits. -/
def fullCredits : SMap Nat := [(0, 128), (1, 1024), (2, 512), (3, 256)]

/-- ALIGN_DONE: with enough lanes the link probes. -/
def doAligned (l locked : Nat) (s : Block) : Block :=
  let k := link s l
  if k.state ≠ 2 then s
  else if k.active &&& locked = 0 then linkDown l 3 7 s
  else
    let s := keepLocked l locked s
    if popBelow 25 (link s l).active < numF s 0x320003 then linkDown l 3 7 s
    else
      let s := modLink l (fun k => { k with
        state := if 72 ≤ s.arc.slot then 6 else 3
        reason := if 72 ≤ s.arc.slot then 13 else k.reason
        laneCount := [], rxCount := [], nextLseq := 0, expLseq := 0, rxAny := false, tellAck := false, credits := fullCredits, lastLane := 24 }) s
      reportArcade (sendBeacon l (modLink l tellPeer s))

def execAlignDone (l locked : Nat) (s : State) : Host.Outcome State Fault Refusal := onLink l (doAligned l locked) s

def doAlignTimeout (l : Nat) (s : Block) : Block := if (link s l).state = 2 then linkDown l 3 7 s else s
def execAlignTimeout (l : Nat) (s : State) : Host.Outcome State Fault Refusal := onLink l (doAlignTimeout l) s

/-- Decide a link in PROBE by a beacon. -/
def decideProbe (l : Nat) (b : Bytes) (s : Block) : Block :=
  let r := planCheck s l b
  if r = 0 then modLink l (fun k => { k with state := 4 }) s
  else if r = 9 then
    forEach (duplicates s l b) (fun m s => quarantine m 9 s) (modLink l (fun k => { k with state := 6, reason := 9 }) s)
  else modLink l (fun k => { k with state := 6, reason := r }) s

/-- BEACON (R277, R278): recorded, and it decides PROBE; a new serial takes READY and UP down. -/
def doBeacon (l : Nat) (payload : Bytes) (s : Block) : Block :=
  let b := slice payload 0 240
  let k := link s l
  if !(carries k.state) then s
  else
    let old := k.beacon
    let known := k.heard
    let s := setLink l { k with beacon := b, heard := true, peerSlot := bcSlot b % 128, peerLink := bcLink b % 32 } s
    if (k.state = 4 ∨ k.state = 5) ∧ known ∧ bcSerial old ≠ bcSerial b then linkDown l 10 0 s
    else if k.state = 3 ∨ (k.state = 6 ∧ k.reason ≠ 13 ∧ old ≠ b) then portsChanged (decideProbe l b s)
    else reportArcade s

def execBeacon (l : Nat) (payload : Bytes) (s : State) : Host.Outcome State Fault Refusal := onLink l (doBeacon l payload) s

def execBeaconPeriod (l : Nat) (s : State) : Host.Outcome State Fault Refusal := onLink l (sendBeacon l) s

/-! ## Route builds and connectivity (R273, R279, R285, R286) -/

/-- A link is in the plan and in a port. -/
def linkUsed (s : Block) (l : Nat) : Bool := (portOf s l).isSome && (planPeer s l).1 != 127

/-- Apply the plan and the ports in force to one link. `changed` says that 0x3100 or 0x3110 changed. -/
def applyPlan (changed : Bool) (l : Nat) (s : Block) : Block :=
  let k := link s l
  if 72 ≤ s.arc.slot then s
  else if !(linkUsed s l) then
    if k.state = 9 ∨ k.state = 8 then s
    else
      let s := if k.state = 5 ∨ k.state = 4 then linkDown l 11 0 s else s
      modLink l (fun k => { k with state := 9, active := 0 }) s
  else if k.state = 9 then modLink l (fun k => { k with state := 0, holdOver := false }) s
  else if !changed then s
  else if k.state = 6 then portsChanged (decideProbe l k.beacon (modLink l (fun k => { k with state := 3 }) s))
  else if (k.state = 5 ∨ k.state = 4) ∧ planCheck s l k.beacon = 7 then linkDown l 11 0 s
  else s

/-- The ranks' slots, and the spares of the stairwell, which no rank names: the module must reach them (R268, R286). -/
def mustReach (s : Block) : List Nat :=
  let ranks := (List.range 64).map (rankSlot s)
  let spare := (range' (9 * (s.arc.slot / 9)) 9).filter (fun d => !(ranks.contains d))
  (ranks ++ spare).filter (fun d => d != 127 && d != s.arc.slot)

/-- Under-connected by the counts and paths of R286. -/
def underConn (s : Block) : Bool :=
  let ports := ((List.range 8).filter (portUp s)).length
  let flights := (maskBits 18 (portMask s 8 ||| portMask s 9)).filter (fun l => (link s l).state == 5)
  decide (ports < numF s 0x320001) || decide (flights.length < numF s 0x320002) ||
    (mustReach s).any (fun d => (pathTo s d 0).isNone)

/-- The connectivity evaluation: UNDER_CONN in 0x3320 and the alert when it rises. -/
def evalConn (s : Block) : Block :=
  let u := underConn s
  let old := num s 0x332000
  let s := setStatus 0x332000 (putBit old 15 u) 0xF800 0x8000 5 s
  if u then stepBit 10 s else s

/-- Holders that have not acknowledged the module's last context when its streams' counters return to zero will not:
CTX_PARTIAL (R364, log 52). -/
def endContext (s : Block) : Block :=
  if s.recov.ctxAwait = [] then s else setRecov 5 true { s with recov := { s.recov with ctxAwait := [] } }

/-- Build the route table: READY links become UP, every stream's counters return to zero, and retention
empties (R271 to R273, R279). -/
def routeBuild (changed : Bool) (s : Block) : Block :=
  let s := endContext s
  let s := forEach (List.range 18) (applyPlan changed) s
  let s := forEach (List.range 18) (fun l s =>
    if (link s l).state = 4 then modLink l (fun k => { k with state := 5 }) s else s) s
  let up := (List.range 18).filter (fun l => (link s l).state == 5)
  let s := { s with arc := { s.arc with
    txSeq := [], rxSeq := [], paths := [], routes := up, detours := [], badRelays := [], retain := [], retainWait := [], retaining := [], rxNew := [], gapTick := [], buildDue := false } }
  evalConn (portsChanged s)

/-- The first route build after the links came up anew: once none of them trains any more (R431 step 7, log 54). -/
def firstBuild (s : Block) : Block :=
  let st := fun (l : Nat) => (link s l).state
  if s.arc.buildDue && halls s && procRuns s 2 && (List.range 18).any (fun l => st l == 4) && (List.range 18).all (fun l => !(decide (1 ≤ st l) && decide (st l ≤ 3))) then
    routeBuild false s
  else s

/-! ## Streams at the source (R272, R282, R283) -/

/-- The retained packets of a stream. -/
def retained (s : Block) (t : StreamF) : List Kept := s.arc.retain.filter (fun r => packetKey s r.p == streamKey s t.src t.shall t.dst t.vc)

/-- A holder has acknowledged the last packet of the module's context (R364). -/
def ctxAcked (t : StreamF) (s : Block) : Block :=
  if t.src ≠ s.arc.slot ∨ t.shall ≠ 0 ∨ t.vc ≠ 2 then s
  else { s with recov := { s.recov with ctxAwait := s.recov.ctxAwait.filter (fun e => !(e.1 == t.dst && covered t.pseq e.2)) } }

/-- STREAM_ACKNOWLEDGEMENT: releases retained packets up to a PSEQ. -/
def doStreamAck (t : StreamF) (s : Block) : Block :=
  let gone := (retained s t).filter (fun r => covered t.pseq (phPseq r.p.header))
  releaseRetain (ctxAcked t { s with arc := { s.arc with retain := s.arc.retain.filter (fun r => !(gone.contains r)) } })

def execStreamAcknowledgement (t : StreamF) (s : State) : Host.Outcome State Fault Refusal := effect (doStreamAck t) s

/-- GAP_REQUEST: resend the retained packets from a PSEQ onward; one that is no longer held fails the step, and with it a
takeover or re-mirror that pulls. -/
def doGapRequest (t : StreamF) (s : Block) : Block :=
  let mine := retained s t
  if !(mine.any (fun r => phPseq r.p.header == t.pseq)) then descFail (failPull s)
  else forEach (mine.filter (fun r => covered (phPseq r.p.header) t.pseq)) (fun r s => launch true r.desc r.p s) s

def execGapRequest (t : StreamF) (s : State) : Host.Outcome State Fault Refusal := effect (doGapRequest t) s

/-- NO_ROUTE: the relay's onward port counts as down, and the packet goes from the retention by the next relay; one that is
not retained fails the step (R272, R283). -/
def doNoRoute (relay : Nat) (t : StreamF) (s : Block) : Block :=
  let again := (retained s t).filter (fun r => phPseq r.p.header == t.pseq)
  let s := { s with arc := { s.arc with
    badRelays := s.arc.badRelays ++ [(relay, onwardPort s relay t.dst)]
    paths := mapSet 0 s.arc.paths (streamKey s t.src t.shall t.dst t.vc) 0 } }
  if again = [] then descFail s else forEach again (fun r s => launch true r.desc { r.p with detour := false } s) s

def execNoRoute (relay : Nat) (t : StreamF) (s : State) : Host.Outcome State Fault Refusal := effect (doNoRoute relay t) s

/-- PORT_UP_MESSAGE (R283): the state last received, in place of what a no-route message said. -/
def doPortUp (slot bits : Nat) (s : Block) : Block :=
  { s with arc := { s.arc with
    peerPorts := mapSet 0 s.arc.peerPorts slot (bits % 1024 + 1), badRelays := s.arc.badRelays.filter (fun r => r.1 != slot) } }

def execPortUpMessage (slot bits : Nat) (s : State) : Host.Outcome State Fault Refusal := effect (doPortUp slot bits) s

/-- STREAM_ACK_PERIOD (R272): acknowledge each stream that performed a packet; the message names SRC, SHALL and VC of the
stream (log 42). -/
def doAckPeriod (s : Block) : Block :=
  let l := s.arc.rxNew
  forEach l (fun k s =>
    let seq := (mapGet 0 s.arc.rxSeq k + 65535) % 65536
    sendCtrl (k / 8) 0 0 (leBytes 1 0x40 ++ leBytes 1 (k / 8) ++ leBytes 1 (k / 4 % 2) ++ leBytes 1 (k % 4) ++ leBytes 2 seq) s)
    { s with arc := { s.arc with rxNew := [] } }

def execStreamAckPeriod (s : State) : Host.Outcome State Fault Refusal := effect doAckPeriod s

/-! ## Lane modes (R254) and link reset (R375) -/

/-- Apply 0x3210 to the links named in 0x3211: while no program is loaded, in Standby or Ready. In mode 1 their lanes carry
flits, in the others a pattern. -/
def applyLaneMode (s : Block) : Block :=
  let mode := num s 0x321000
  let mask := if 72 ≤ s.arc.slot then 0 else numF s 0x321100
  let s := forEach (List.range 18) (fun l s =>
    let k := link s l
    if mode ≠ 0 ∧ bit mask l then
      let s := if carries k.state then linkDown l 11 0 s else s
      modLink l (fun k => { k with state := 8, reason := 0, active := if mode = 1 then trainLanes k else 0 }) s
    else if k.state = 8 then modLink l (fun k => { k with state := 0, holdOver := false, active := 0 }) s else s) s
  portsChanged s

/-- A reset of one link: it goes down, its traffic is resent or detoured, and it retrains. -/
def resetLink (l : Nat) (s : Block) : Block :=
  let k := link s l
  if k.state = 9 ∨ k.state = 8 ∨ 72 ≤ s.arc.slot then s
  else modLink l (fun k => { k with reason := 0 }) (linkDown l 0 0 s)

/-! ## The effect of a packet (R234, R270, R296) -/

/-- Bytes of a source element of G64 entry (R296): other codes count as FP32. -/
def isEntryFmt (f : Nat) : Bool := [0x00, 0x01, 0x02, 0x03, 0x05].contains f
def entryFmt (f : Nat) : Nat := if isEntryFmt f then f else 0x00
def entryBytes (f : Nat) : Nat := if f = 0x05 then 8 else if f = 0x01 ∨ f = 0x02 then 2 else 4

/-- Convert source elements to G64 (R52): bytes with poison, and the flags. -/
def toG64 (fmt : Nat) (anchor : Int) (head : Nat) : Nat → List (Byte × Bool) → List (Byte × Bool) × Nat
  | 0, _ => ([], 0)
  | n + 1, l =>
    let w := entryBytes fmt
    let e := l.take w
    let x := leNat (plain e)
    let (g, fl) := if fmt = 0x05 then (x, 0)
      else g64OfVal (if fmt = 0x03 then finOf (signed 32 x) 0 false else wideVal fmt x) anchor head
    let r := toG64 fmt anchor head n (l.drop w)
    ((leBytes 8 g).map (fun b => (b, anyPoison e)) ++ r.1, fl ||| r.2)

/-- A G64 addition of source elements at an address; a fixed anchor that saturates sets ANCHOR_SAT
(R299). -/
def addG64 (hall tag fmt : Nat) (anchor : Int) (head a : Nat) (src : List (Byte × Bool)) (s : Block) : Block :=
  let f := entryFmt fmt
  let (g, fl) := toG64 f anchor (min head 24) (src.length / entryBytes f) src
  let s := memFlags tag fl s
  let s := if fl &&& fSAT ≠ 0 then { s with colls := { s.colls with bits := putBit s.colls.bits 0 true } } else s
  memRmw hall tag 1 4 a g s

/-- R234 holds for every target page. -/
def epochOk (s : Block) (a n lepoch : Nat) : Bool :=
  (pieces (a % 2 ^ 39) n).all (fun pc => peEpoch (pmapEntry s pc.1) == lepoch)

/-- Bytes of memory a packet writes. -/
def packetSpan (h n : Nat) : Nat :=
  if phMop h = 1 ∧ phMtype h = 4 then n / entryBytes (entryFmt (phSfmt h)) * 8 else n

/-- The token a packet adds once its effect is complete. -/
def packetToken (h : Nat) (s : Block) : Block :=
  if phTval h = 0 then s
  else match physOf s (phTgal h) with
    | some g => tokAdd g (phTctr h) (phTval h) s
    | none => logFault .arcade 255 0 0x270 (phJob h) s

/-- MWRITE: the answer says that R234 rejected it. -/
def effectWrite (p : Packet) (s : Block) : Bool × Block :=
  let h := p.header
  let n := min (phLen h + 1) p.data.length
  let data := withPoison (p.data.take n) p.poison 16
  let s := if 3 < phMop h then logFault .format 255 0 (phMop h) (phJob h) s else s
  let mop := if 3 < phMop h then 0 else phMop h
  if phTgt h = 1 then
    let s := if mop = 0 then s else logFault .format 255 0 (phMop h) (phJob h) s
    match physOf s (fld (phAddr h) 23 6) with
    | none => (false, logFault .arcade 255 0 0x270 (phJob h) s)
    | some g => (false, mezzWrite g (fld (phAddr h) 0 23) data s)
  else if !(epochOk s (phAddr h) (packetSpan h n) (phLepoch h)) then
    (true, { s with colls := { s.colls with bits := putBit s.colls.bits 4 true } })
  else if mop = 0 then (false, (memWrite p.shall false (phAddr h) data s).2)
  else if mop = 1 ∧ phMtype h = 4 then
    let s := if isEntryFmt (phSfmt h) then s else logFault .format 255 0 (phSfmt h) (phJob h) s
    (false, addG64 p.shall (phJob h) (phSfmt h) (phAnchor h) (phHead h) (phAddr h) data s)
  else
    let s := if 4 < phMtype h then logFault .format 255 0 (phMtype h) (phJob h) s else s
    (false, memRmw p.shall (phJob h) mop (phMtype h) (phAddr h) data s)

/-- RREQ: the data go back as an MWRITE with the return operands, whose token is TVAL too (log 45). -/
def effectRead (p : Packet) (s : Block) : Block :=
  let h := p.header
  let n := phLen h + 1
  let (d, s) := if phTgt h = 0 then memRead p.shall (phAddr h) n s
    else match physOf s (fld (phAddr h) 23 6) with
      | some g => (mezzRead s g (fld (phAddr h) 0 23) n, s)
      | none => (List.replicate n (0, true), logFault .arcade 255 0 0x270 (phJob h) s)
  let units := (List.range (ceilDiv n 16)).map (fun i => anyPoison ((d.drop (16 * i)).take 16))
  let back := mkHeader 1 0 0 (phLepoch h) (phLen h) (phRaddr h) (phRgal h) (phRctr h) (phTval h) (phCid h) (stepNo s)
    (epochNo s) (s.bnd.attempt * 2 ^ 23)
  sendPacket 0
    { src := s.arc.slot, shall := p.shall, dst := p.src, vc := p.vc, detour := false, hop := 0, header := setFld back 8 4 (phJob h)
      data := plain d, poison := units } s

end Sys2Proof.Machine
end

