-- ==== Sys2Proof/Machine/Collective.lean ====
section
/-! DEFINITION. Collectives (R290 to R308): descriptors, owners, the ready round, the exact reduction,
gathers with the parameter cache, ASEND, and the A slot. -/

namespace Sys2Proof.Machine

/-! ## Collective descriptors (R290, R291) -/

/-- The 64-byte collective descriptor. -/
def collDesc (s : Block) (cid : Nat) : Nat :=
  let n := 2048 + 2 * (cid % 1024)
  if n + 1 < partCount s 5 then imgNum s (partOff s 5 + 32 * n) 64 else 0
def cdMode (d : Nat) : Nat := fld d 0 2
def cdTiers (d : Nat) : Nat := fld d 2 3
def cdGroup (d : Nat) : Nat := fld d 5 64
def cdSfmtCode (d : Nat) : Nat := fld d 69 8
def cdSfmt (d : Nat) : Nat := entryFmt (cdSfmtCode d)
def cdFixed (d : Nat) : Bool := bit d 77
def cdAnchor (d : Nat) : Int := signed 10 (fld d 78 10)
def cdHead (d : Nat) : Nat := min 24 (fld d 88 5)
def cdSrc (d : Nat) : Nat := fld d 93 39
def cdDst (d : Nat) : Nat := fld d 132 39
def cdExp (d : Nat) : Nat := fld d 171 39
def cdCount (d : Nat) : Nat := fld d 210 32
def cdShard (d : Nat) : Nat := if fld d 242 32 = 0 then max 1 (cdCount d) else fld d 242 32
def cdQslots (d : Nat) : Nat := fld d 274 6
def cdTctr (d : Nat) : Nat := fld d 280 8
def cdTgal (d : Nat) : Nat := fld d 288 6
def cdCslot (d : Nat) : Nat := fld d 294 8
def cdVc (d : Nat) : Nat := fld d 302 2
def cdStair (d : Nat) : Bool := bit d 2
def cdFlight (d : Nat) : Bool := bit d 3
def cdHost (d : Nat) : Bool := bit d 4

/-! ## Members and owners (R292) -/

/-- Members of the descriptor's group in rising rank: slot and rank. -/
def collMembers (s : Block) (d : Nat) : List (Nat × Nat) :=
  (maskBits 64 (cdGroup d)).filterMap (fun r => if rankSlot s r = 127 then none else some (rankSlot s r, r))

/-- Members in a stairwell, and the stairwells of the group in member order. -/
def inStair (c : Coll) (st : Nat) : List Nat := (c.members.map (·.1)).filter (fun m => m / 9 == st)
def stairs (c : Coll) : List Nat := (c.members.map (fun m => m.1 / 9)).foldl (fun l st => if l.contains st then l else l ++ [st]) []

/-- The group has the form its tiers need. -/
def groupOk (d : Nat) (c : Coll) : Bool :=
  let positions := fun st => (inStair c st).map (· % 9) |>.foldl setAdd []
  if cdFlight d then (stairs c).all (fun st => positions st == positions ((stairs c).headD 0))
  else if cdStair d then decide ((stairs c).length ≤ 1) else true

/-- Shards, and the elements or bytes of one. -/
def shardCount (d : Nat) : Nat := ceilDiv (cdCount d) (cdShard d)
def shardLen (d j : Nat) : Nat := min (cdShard d) (cdCount d - j * cdShard d)

/-- The stairwell owner of shard `j` for senders of stairwell `st`. -/
def stairOwner (c : Coll) (st j : Nat) : Nat :=
  let l := inStair c st
  nth l (j % max 1 l.length) 127

/-- The final owner of shard `j`; `me` is the issuing module. -/
def finalOwner (d : Nat) (c : Coll) (me j : Nat) : Nat :=
  let ms := (inStair c (me / 9)).length
  let st := stairs c
  if cdStair d && cdFlight d then stairOwner c (nth st (j / max 1 ms % max 1 st.length) 0) j
  else if cdFlight d then
    let l := inStair c (nth st (j % max 1 st.length) 0)
    match l.find? (fun m => m % 9 == me % 9) with
    | some m => m
    | none => l.headD 127
  else if cdStair d then stairOwner c (me / 9) j
  else me

/-- Elements that complete a shard at its stairwell owner, and at its final owner from other
stairwells. -/
def stairNeed (d : Nat) (c : Coll) (me j : Nat) : Nat :=
  if cdStair d then (inStair c (me / 9)).length * shardLen d j else if cdFlight d then 0 else shardLen d j
def finalNeed (d : Nat) (c : Coll) (j : Nat) : Nat :=
  if !(cdFlight d) then 0
  else if cdStair d then ((stairs c).length - 1) * shardLen d j else (stairs c).length * shardLen d j

/-! ## Collectives in progress -/

/-- Change a collective. -/
def modColl (desc : Nat) (f : Coll → Coll) (s : Block) : Block :=
  { s with colls := { s.colls with colls := s.colls.colls.map (fun c => if c.desc = desc then f c else c) } }

/-- A collective by its descriptor id, and by its CID. -/
def collOf (s : Block) (desc : Nat) : Option Coll := s.colls.colls.find? (fun c => c.desc == desc)
def collByCid (s : Block) (cid : Nat) : Option Coll := s.colls.colls.find? (fun c => c.cid == cid && c.phase != 5)

/-- The hall, tag and gallery of a queued descriptor. -/
def descHall (s : Block) (id : Nat) : Nat :=
  match s.queues.descs.find? (fun d => d.id == id) with
  | some d => galHall d.gal
  | none => 0
def descTag (s : Block) (id : Nat) : Nat :=
  match s.queues.descs.find? (fun d => d.id == id) with
  | some d => d.ctx.tag
  | none => 0

/-- Set a bit of the collective status (R313). -/
def collBit (n : Nat) (s : Block) : Block := { s with colls := { s.colls with bits := putBit s.colls.bits n true } }

/-- Send bytes in packets of at most `chunk` bytes; `hdr` gives the header of an offset and length. -/
def sendChunks (desc shall vc dst chunk tag : Nat) (hdr : Nat → Nat → Nat) (data : List (Byte × Bool)) (s : Block) : Block :=
  forEach (List.range (ceilDiv data.length chunk)) (fun i s =>
    let part := (data.drop (i * chunk)).take chunk
    let units := (List.range (ceilDiv part.length 16)).map (fun u => anyPoison ((part.drop (16 * u)).take 16))
    sendPacket (desc + 1)
      { src := s.arc.slot, shall, dst, vc, detour := false, hop := 0, header := setFld (hdr (i * chunk) part.length) 8 4 tag
        data := plain part, poison := units } s) s

/-- The header of a packet of an A descriptor. -/
def collHeader (s : Block) (c : Coll) (mop mtype addr len tgal tctr tval extra : Nat) : Nat :=
  mkHeader 1 mop mtype (lepochNo s) (len - 1) (addr % 2 ^ 39) tgal tctr tval c.cid (stepNo s) (epochNo s) (extra + c.attempt % 256 * 2 ^ 23)

/-- Copy bytes to a member by MWRITE, or locally. -/
def copyTo (d : Nat) (c : Coll) (member toAddr : Nat) (data : List (Byte × Bool)) (s : Block) : Block :=
  let hall := descHall s c.desc
  if member = s.arc.slot then (memWrite hall false toAddr data s).2
  else sendChunks c.desc hall (cdVc d) member 8192 (descTag s c.desc) (fun o n => collHeader s c 0 0 (toAddr + o) n 0 0 0 0) data s

/-- Contribute elements of shard `j` to an owner: locally or by MWRITE ADD (R296). -/
def contribute (d : Nat) (c : Coll) (owner fmt j from0 : Nat) (s : Block) : Block :=
  let hall := descHall s c.desc
  let tag := descTag s c.desc
  let len := shardLen d j
  let (data, s) := memRead hall from0 (len * entryBytes fmt) s
  let toAddr := cdDst d + 8 * (j * cdShard d)
  let own := cdStair d || !(cdFlight d)
  if owner = s.arc.slot then
    let s := addG64 hall tag fmt c.anchor (cdHead d) toAddr data s
    modColl c.desc (fun c => if own then { c with arrStair := mapMod 0 c.arrStair j (· + len) }
      else { c with arrFinal := mapMod 0 c.arrFinal j (· + len) }) s
  else
    let extra := fmt + unsigned 10 c.anchor * 2 ^ 8 + cdHead d * 2 ^ 18
    sendChunks c.desc hall (cdVc d) owner 8192 tag
      (fun o n => collHeader s c 1 4 (toAddr + o / entryBytes fmt * 8) n 0 0 0 extra) data s

/-! ## The ready round (R293 to R295) -/

/-- Send a ready message to every other member. -/
def sendReady (c : Coll) (s : Block) : Block :=
  forEach (c.members.filter (fun m => m.1 != s.arc.slot)) (fun m s =>
    sendCtrlFor (c.desc + 1) m.1 0 (epochNo s)
      (leBytes 1 0x10 ++ leBytes 2 c.cid ++ leBytes 1 (c.attempt % 256) ++ leBytes 4 (unsigned 32 c.eloc) ++ leBytes 2 (stepNo s)) s) s

/-- Zero every shard the module owns at any tier of dst. -/
def zeroOwned (d : Nat) (c : Coll) (s : Block) : Block :=
  let me := s.arc.slot
  forEach (List.range (shardCount d)) (fun j s =>
    if (cdStair d && stairOwner c (me / 9) j == me) || finalOwner d c me j == me then
      (memWrite (descHall s c.desc) false (cdDst d + 8 * (j * cdShard d)) (List.replicate (8 * shardLen d j) (0, false)) s).2
    else s) s

/-- Every member's ready message is held. -/
def allReady (c : Coll) : Bool := c.members.all (fun m => c.ready.any (fun r => r.1 == m.1))

/-- E_max over the ready messages held. -/
def eMax (c : Coll) : Int := c.ready.foldl (fun m r => max m r.2) (-((2 ^ 31 : Nat) : Int))

/-- The anchor for a maximum (R295). -/
def anchorOf (d : Nat) (e : Int) : Int :=
  if cdFixed d then cdAnchor d else if e = -((2 ^ 31 : Nat) : Int) then -512 else e - 62 + cdHead d

/-- The collective alert's word (R390): CID, ATTEMPT, phase, rack maximum. -/
def collAlert (code phase : Nat) (c : Coll) (s : Block) : Block :=
  alert code (c.cid + c.attempt % 256 * 2 ^ 16 + phase * 2 ^ 24 + unsigned 32 (eMax c) * 2 ^ 32) s

/-! ## Phases of ARED (R297) -/

/-- Send every contribution of phase 2. -/
def phase2 (d : Nat) (c : Coll) (s : Block) : Block :=
  let me := s.arc.slot
  let fmt := cdSfmt d
  forEach (List.range (shardCount d)) (fun j s =>
    let owner := if cdStair d then stairOwner c (me / 9) j else finalOwner d c me j
    contribute d c owner fmt j (cdSrc d + j * cdShard d * entryBytes fmt) s) s

/-- A shard has all contributions of its stairwell, and all from elsewhere. -/
def stairDone (d : Nat) (c : Coll) (me j : Nat) : Bool := decide (stairNeed d c me j ≤ mapGet 0 c.arrStair j)
def finalDone (d : Nat) (c : Coll) (j : Nat) : Bool := decide (finalNeed d c j ≤ mapGet 0 c.arrFinal j)

/-- Forward the shards whose stairwell sums are complete to their final owners (R297 step 2). -/
def forwardShards (d : Nat) (c : Coll) (s : Block) : Block :=
  let me := s.arc.slot
  if !(cdStair d && cdFlight d) then s
  else forEach (List.range (shardCount d)) (fun j s =>
    let owner := finalOwner d c me j
    if stairOwner c (me / 9) j == me && owner != me && stairDone d c me j && !(c.forwarded.contains j) then
      let s := modColl c.desc (fun c => { c with forwarded := setAdd c.forwarded j }) s
      contribute d c owner 0x05 j (cdDst d + 8 * (j * cdShard d)) s
    else s) s

/-- Every final shard of the module is complete (R297). -/
def finalsDone (d : Nat) (c : Coll) (me : Nat) : Bool :=
  (List.range (shardCount d)).all (fun j => finalOwner d c me j != me || (finalDone d c j && stairDone d c me j))

/-- Every shard the module owns at any tier holds all its contributions. -/
def ownedDone (d : Nat) (c : Coll) (me : Nat) : Bool :=
  (List.range (shardCount d)).all (fun j =>
    let st := (cdStair d && stairOwner c (me / 9) j == me)
    let fi := finalOwner d c me j == me
    (!st || (stairDone d c me j && (fi || !(cdFlight d) || c.forwarded.contains j))) &&
    (!fi || (finalDone d c j && stairDone d c me j)))

/-- Send each final shard to every other member (R297 step 4). -/
def sendCopies (d : Nat) (c : Coll) (s : Block) : Block :=
  let me := s.arc.slot
  forEach (List.range (shardCount d)) (fun j s =>
    if finalOwner d c me j != me then s
    else
      let a := cdDst d + 8 * (j * cdShard d)
      let (data, s) := memRead (descHall s c.desc) a (8 * shardLen d j) s
      forEach (c.members.filter (fun m => m.1 != me)) (fun m s => copyTo d c m.1 a data s) s) s

/-- Every shard of dst is present, by copy or as the module's own; `unit` is bytes per element. -/
def allPresent (d : Nat) (c : Coll) (me unit : Nat) : Bool :=
  (List.range (shardCount d)).all (fun j =>
    finalOwner d c me j == me || decide (unit * shardLen d j ≤ mapGet 0 c.arrCopy j))

/-! ## Gathers (R301, R303) -/

/-- The pages of a gather's destination. -/
def gatherPages (d : Nat) : Nat × Nat :=
  (cdDst d / 2 ^ 20, if cdCount d = 0 then 0 else (cdDst d + cdCount d - 1) / 2 ^ 20 + 1 - cdDst d / 2 ^ 20)

/-- A cache slot is enabled (R302). -/
def slotEnabled (s : Block) (d : Nat) : Bool := cdCslot d != 255 && decide (cdCslot d < numF s 0x604001)

/-- The slot's tag matches the CID, step, attempt and epoch in force. -/
def tagMatches (s : Block) (cid d : Nat) : Bool :=
  match mapGet none s.colls.cache (cdCslot d) with
  | some t => t.cid == cid && t.step == stepNo s && t.attempt == s.bnd.attempt && t.epoch == lepochNo s
  | none => false

/-- Push every owned shard to every other member, and copy it locally. -/
def pushShards (d : Nat) (c : Coll) (s : Block) : Block :=
  let me := s.arc.slot
  forEach (List.range (shardCount d)) (fun j s =>
    if finalOwner d c me j != me then s
    else
      let o := j * cdShard d
      let (data, s) := memRead (descHall s c.desc) (cdSrc d + o) (shardLen d j) s
      let s := copyTo d c me (cdDst d + o) data s
      forEach (c.members.filter (fun m => m.1 != me)) (fun m s => copyTo d c m.1 (cdDst d + o) data s) s) s

/-- Pull every shard from its owner by RREQ. -/
def pullShards (d : Nat) (c : Coll) (s : Block) : Block :=
  let me := s.arc.slot
  let hall := descHall s c.desc
  forEach (List.range (shardCount d)) (fun j s =>
    let o := j * cdShard d
    let n := shardLen d j
    if finalOwner d c me j == me then
      let (data, s) := memRead hall (cdSrc d + o) n s
      copyTo d c me (cdDst d + o) data s
    else forEach (List.range (ceilDiv n 8192)) (fun i s =>
      let k := min 8192 (n - 8192 * i)
      let h := mkHeader 2 0 0 (lepochNo s) (k - 1) (cdSrc d + o + 8192 * i) 0 0 0 c.cid (stepNo s) (epochNo s) ((cdDst d + o + 8192 * i) % 2 ^ 39)
      sendPacket (c.desc + 1)
        { src := me, shall := hall, dst := finalOwner d c me j, vc := cdVc d, detour := false, hop := 0,
          header := setFld h 8 4 (descTag s c.desc), data := [], poison := [] } s) s) s

/-- A push gather has completed: set the tag of an enabled slot (R303). -/
def gatherDone (c : Coll) (s : Block) : Block :=
  let d := collDesc s c.cid
  if c.op = 13 ∧ c.mode = 0 ∧ slotEnabled s d then
    let (first, pages) := gatherPages d
    let t : CacheTag := { cid := c.cid, step := stepNo s, attempt := s.bnd.attempt, epoch := lepochNo s, first, pages }
    { s with colls := { s.colls with cache := mapSet none s.colls.cache (cdCslot d) (some t) } }
  else s

/-! ## Progress -/

/-- One advance of a collective: phase 0 waits for the ready round, 1 for the anchor doorbell, 2 for
ARED_PHASE2 and the contributions, 3 for the sums doorbell, 4 for the copies; 5 is done. -/
def progressOne (desc : Nat) (s : Block) : Block :=
  match collOf s desc with
  | none => s
  | some c =>
    let d := collDesc s c.cid
    let me := s.arc.slot
    if c.op = 13 then
      if c.phase = 0 ∧ allReady c then
        pushShards d c (modColl desc (fun c => { c with phase := 4 }) s)
      else if c.phase = 4 ∧ allPresent d c me 1 then modColl desc (fun c => { c with phase := 5 }) s else s
    else if c.op = 12 then
      if c.phase = 0 ∧ allReady c ∧ !c.anchorSet then
        if cdHost d && !(cdFixed d) then
          let s := (memWrite (descHall s desc) false (cdExp d + 4) ((leBytes 4 (unsigned 32 (eMax c))).map (fun b => (b, false))) s).2
          collAlert 2 1 c (collBit 1 (modColl desc (fun c => { c with phase := 1 }) s))
        else modColl desc (fun c => { c with anchor := anchorOf d (eMax c), anchorSet := true }) s
      else if 2 ≤ c.phase ∧ c.phase ≤ 4 then
        let s := forwardShards d c s
        match collOf s desc with
        | none => s
        | some c =>
          if c.phase = 2 then
            if !(finalsDone d c me) then s
            else if cdHost d then collAlert 3 2 c (collBit 1 (modColl desc (fun c => { c with phase := 3 }) s))
            else modColl desc (fun c => { c with phase := 4 }) s
          else if c.phase = 3 then s
          else if c.mode = 1 ∧ !c.copied then sendCopies d c (modColl desc (fun c => { c with copied := true }) s)
          else if ownedDone d c me ∧ (c.mode = 0 ∨ allPresent d c me 8) then modColl desc (fun c => { c with phase := 5 }) s
          else s
      else s
    else s

/-- Let every collective advance as far as it can. -/
def progress (s : Block) : Block :=
  forEach (s.colls.colls.map (·.desc)) (fun id s => iter (progressOne id) 6 s) s

/-! ## Doorbells (R295, R297, R386) -/

/-- A doorbell reaches the collective that waits for it; the answer says that it was taken. -/
def bellTaken (cid phase attempt : Nat) (s : Block) : Bool × Block :=
  match s.colls.colls.find? (fun c => c.cid == cid && c.op == 12 && c.attempt % 256 == attempt &&
      ((phase == 1 && c.phase == 1) || (phase == 2 && c.phase == 3))) with
  | none => (false, s)
  | some c =>
    let d := collDesc s cid
    if phase = 1 then
      let (w, s) := memRead (descHall s c.desc) (cdExp d + 8) 4 s
      let e := signed 32 (leNat (plain w))
      (true, progress (modColl c.desc (fun c => { c with phase := 0, anchor := anchorOf d e, anchorSet := true }) s))
    else (true, progress (modColl c.desc (fun c => { c with phase := 4 }) s))

/-- Doorbells held for a collective that now waits. -/
def takeBells (s : Block) : Block :=
  forEach s.colls.heldBells (fun b s =>
    let (ok, s) := bellTaken b.1.1 b.1.2.1 b.1.2.2 s
    if ok then { s with colls := { s.colls with
      heldBells := s.colls.heldBells.filter (· != b), doneBells := s.colls.doneBells ++ [b.1] } } else s) s

/-- Progress, with the doorbells held. -/
def collsGo (s : Block) : Block := takeBells (progress s)

/-! ## Ready messages (R294, R308) -/

/-- How a message's step and attempt stand to the module's own: earlier, the same, or later. -/
def stepOrder (s : Block) (step attempt : Nat) : Ordering :=
  let d := (step + 65536 - stepNo s % 65536) % 65536
  let a := (attempt + 256 - s.bnd.attempt % 256) % 256
  if d = 0 then (if a = 0 then .eq else if a < 128 then .gt else .lt)
  else if d < 32768 then .gt else .lt

/-- Deliver a ready message to its collective, or hold it. -/
def takeReady (r : HeldReady) (s : Block) : Block :=
  match s.colls.colls.find? (fun c => c.cid == r.cid && c.phase == 0) with
  | some c => modColl c.desc (fun c => if c.ready.any (fun x => x.1 == r.slot) then c else { c with ready := c.ready ++ [(r.slot, r.eloc)] }) s
  | none => { s with colls := { s.colls with heldReady := s.colls.heldReady ++ [r] } }

/-- READY_MESSAGE. -/
def doReady (slot cid step attempt cepoch : Nat) (eloc : Int) (s : Block) : Block :=
  if cepoch % 65536 ≠ epochNo s % 65536 then s
  else
    let r : HeldReady := { slot, cid, step := step % 65536, attempt := attempt % 256, cepoch := cepoch % 65536, eloc }
    match stepOrder s (step % 65536) (attempt % 256) with
    | .lt => s
    | .gt => { s with colls := { s.colls with heldReady := s.colls.heldReady ++ [r] } }
    | .eq => collsGo (takeReady r s)

/-- Ready messages held for a collective of this attempt and configuration epoch (R308). -/
def heldFor (s : Block) (cid : Nat) : List HeldReady :=
  s.colls.heldReady.filter (fun r => r.cid == cid && r.cepoch == epochNo s % 65536 && stepOrder s r.step r.attempt == .eq)

/-! ## The A slot (R202, R290) -/

/-- Start an ASEND: its packets go to the send queue (R304). -/
def startSend (d : Nat) (c : Coll) (s : Block) : Block :=
  let rank := cdGroup d % 64
  let dst := rankSlot s rank
  let hall := descHall s c.desc
  let tag := descTag s c.desc
  let s := modColl c.desc (fun c => { c with phase := 5 }) s
  if dst = 127 then failDesc (c.desc + 1) s
  else
    let tok := fun (s : Block) => sendPacket (c.desc + 1)
      { src := s.arc.slot, shall := hall, dst, vc := cdVc d, detour := false, hop := 0,
        header := setFld (setFld (collHeader s c 0 0 0 1 (cdTgal d) (cdTctr d) 1 0) 0 8 3) 8 4 tag, data := [], poison := [] } s
    if c.mode = 1 then tok s
    else
      let i := mapGet 0 s.colls.sendIndex c.cid
      let s := { s with colls := { s.colls with sendIndex := mapSet 0 s.colls.sendIndex c.cid (i + 1) } }
      let toAddr := cdDst d + (if cdQslots d = 0 then 0 else i % cdQslots d * (ceilDiv (cdCount d) 256 * 256))
      let n := cdCount d
      if n = 0 then tok s
      else
        let (data, s) := memRead hall (cdSrc d) n s
        sendChunks c.desc hall (cdVc d) dst 8192 tag
          (fun o k => collHeader s c 0 0 (toAddr + o) k (cdTgal d) (cdTctr d) (b2n (o + k == n)) 0) data s

/-- Start a collective. -/
def startColl (d : Nat) (c : Coll) (s : Block) : Block :=
  if c.op = 11 then startSend d c s
  else if !(groupOk d c) then
    logFault .format 255 0 c.cid (descTag s c.desc) (failDesc (c.desc + 1) (modColl c.desc (fun c => { c with phase := 5 }) s))
  else if c.op = 13 ∧ c.mode = 1 ∧ slotEnabled s d ∧ tagMatches s c.cid d then
    modColl c.desc (fun c => { c with phase := 5 }) { s with colls := { s.colls with reuses := satN 32 (s.colls.reuses + 1) } }
  else if c.op = 13 ∧ c.mode = 1 ∧ slotEnabled s d then
    let s := collBit 2 { s with colls := { s.colls with pulls := satN 32 (s.colls.pulls + 1) } }
    collsGo (pullShards d c (modColl c.desc (fun c => { c with phase := 4 }) s))
  else
    let s := if c.op = 12 then zeroOwned d c s else s
    let (e, s) := if c.op = 12 then
        let (w, s) := memRead (descHall s c.desc) (cdExp d) 4 s
        (signed 32 (leNat (plain w)), s)
      else (-((2 ^ 31 : Nat) : Int), s)
    let s := modColl c.desc (fun c => { c with eloc := e, ready := [(s.arc.slot, e)] }) s
    let s := sendReady { c with eloc := e } s
    let held := heldFor s c.cid
    let s := { s with colls := { s.colls with heldReady := s.colls.heldReady.filter (fun r => !(held.contains r)) } }
    collsGo (forEach held takeReady s)

/-- The mode a descriptor's code means: code 3 is used as 0 with a program fault (R291). -/
def modeOf (d : Nat) : Nat := if cdMode d = 1 then 1 else 0

/-- Issue an A slot: `gals` are the physical galleries whose counters its completion raises. -/
def issueA (op mode : Nat) (i : Instr) (gals : List Nat) (x : SlotCtx) (f : AslotF) (g : Nat) (s : Block) : Block :=
  if !(ctrOk x.tag f.token) then discardSlot g x f.token s
  else if 256 ≤ queuedA s (galHall g) then
    if x.tag = 0 then freezeFor .queueHold false [.slot i gals] [g] 0 0 s else discardSlot g x 0x204 s
  else
    let cid := f.adesc % 1024
    let d := collDesc s cid
    let s := slotFaultIf (decide (2 ≤ cdMode d)) .program g x (cdMode d) s
    let s := slotFaultIf (op == 12 && !(isEntryFmt (cdSfmtCode d))) .format g x (cdSfmtCode d) s
    let (q, s) := pushDesc op g gals x default cid f.token s
    let c : Coll :=
      { desc := q.id, cid, op, mode, attempt := s.bnd.attempt, step := stepNo s, members := collMembers s d, ready := [],
        eloc := 0, phase := 0, anchor := 0, anchorSet := false, arrStair := [], arrFinal := [], arrCopy := [], forwarded := [],
        copied := false }
    startColl d c { s with colls := { s.colls with colls := s.colls.colls ++ [c] } }

/-- An A slot as a command of one gallery. -/
def doA (op mode : Nat) (i : Instr) (x : SlotCtx) (f : AslotF) (s : Block) : Block :=
  withSlot i x (fun g => issueA op mode i [g] x f g) s

def execAsendData (x : SlotCtx) (f : AslotF) (s : State) : Host.Outcome State Fault Refusal :=
  effect (doA 11 0 (.asendData x f) x f) s
def execAsendTokenOnly (x : SlotCtx) (f : AslotF) (s : State) : Host.Outcome State Fault Refusal :=
  effect (doA 11 1 (.asendTokenOnly x f) x f) s
def execAredReduceScatter (x : SlotCtx) (f : AslotF) (s : State) : Host.Outcome State Fault Refusal :=
  effect (doA 12 0 (.aredReduceScatter x f) x f) s
def execAredAllReduce (x : SlotCtx) (f : AslotF) (s : State) : Host.Outcome State Fault Refusal :=
  effect (doA 12 1 (.aredAllReduce x f) x f) s
def execAgathPush (x : SlotCtx) (f : AslotF) (s : State) : Host.Outcome State Fault Refusal :=
  effect (doA 13 0 (.agathPush x f) x f) s
def execAgathReuse (x : SlotCtx) (f : AslotF) (s : State) : Host.Outcome State Fault Refusal :=
  effect (doA 13 1 (.agathReuse x f) x f) s

/-- ARED_PHASE2: with every ready message held and the anchor set, the contributions are sent. -/
def doPhase2 (cid : Nat) (s : Block) : Block :=
  match s.colls.colls.find? (fun c => c.cid == cid && c.op == 12 && c.phase == 0 && c.anchorSet && allReady c) with
  | none => s
  | some c =>
    let s := modColl c.desc (fun c => { c with phase := 2 }) s
    collsGo (phase2 (collDesc s cid) c s)

def execAredPhase2 (cid : Nat) (s : State) : Host.Outcome State Fault Refusal := effect (doPhase2 cid) s

def execReadyMessage (slot cid step attempt cepoch : Nat) (eloc : Int) (s : State) : Host.Outcome State Fault Refusal :=
  effect (doReady slot cid step attempt cepoch eloc) s

/-- A collective is complete when it is done and its packets have left the send queue (R298). -/
def collComplete (s : Block) (desc : Nat) : Bool :=
  (match collOf s desc with
    | some c => c.phase == 5
    | none => true) &&
  (List.range 18).all (fun l => !((link s l).wait.any (fun t => t.desc == desc + 1))) &&
  !(s.arc.retainWait.any (fun r => r.desc == desc + 1))

/-- Drop a finished collective; of an ARED the CID is kept until the boundary (R386). -/
def dropColl (desc : Nat) (s : Block) : Block :=
  let reds := (s.colls.colls.filter (fun c => c.desc == desc && c.op == 12)).map (·.cid)
  { s with colls := { s.colls with
      colls := s.colls.colls.filter (fun c => c.desc != desc), doneReds := reds.foldl setAdd s.colls.doneReds } }

/-- MWRITE_REJECTION (R270, R307): the sending collective fails; when it has ended already, the step does not advance all the
same (log 94). -/
def doRejection (slot cid : Nat) (s : Block) : Block :=
  let note := fun (desc : Nat) => collBit 4 { s with colls := { s.colls with rejects := s.colls.rejects ++ [(desc, slot)] } }
  match s.colls.colls.find? (fun c => c.cid == cid) with
  | some c => failDesc (c.desc + 1) (note (c.desc + 1))
  | none => stepBit 5 (note 0)

def execMwriteRejection (slot cid _pseq : Nat) (s : State) : Host.Outcome State Fault Refusal := effect (doRejection slot cid) s

/-- DESCRIPTOR_COMPLETION (R205): a D descriptor performs what is left; an A descriptor completes when
its collective is done or has failed. `ok` is false when its unit failed it. -/
def doCompletion (id : Nat) (ok : Bool) (s : Block) : Block :=
  match s.queues.descs.find? (fun d => d.id == id) with
  | none => s
  | some d =>
    if d.op ≤ 3 then completeD d ok s
    else if !ok || d.failed then dropColl id (finishDesc d true s)
    else if collComplete s id then
      let s := match collOf s id with
        | some c => gatherDone c s
        | none => s
      dropColl id (finishDesc d false s)
    else s

def execDescriptorCompletion (id : Nat) (ok : Bool) (s : State) : Host.Outcome State Fault Refusal := effect (doCompletion id ok) s

/-! ## Arrivals (R297) -/

/-- Count a performed MWRITE of a collective by its header. -/
def collArrive (p : Packet) (s : Block) : Block :=
  let h := p.header
  match collByCid s (phCid h) with
  | none => s
  | some c =>
    let d := collDesc s c.cid
    let n := min (phLen h + 1) p.data.length
    let off := (phAddr h + 2 ^ 39 - cdDst d) % 2 ^ 39
    if c.op = 12 then
      let j := off / 8 / cdShard d
      if phMop h = 1 then
        let k := n / entryBytes (entryFmt (phSfmt h))
        if cdStair d && p.src / 9 == s.arc.slot / 9 then modColl c.desc (fun c => { c with arrStair := mapMod 0 c.arrStair j (· + k) }) s
        else modColl c.desc (fun c => { c with arrFinal := mapMod 0 c.arrFinal j (· + k) }) s
      else modColl c.desc (fun c => { c with arrCopy := mapMod 0 c.arrCopy j (· + n) }) s
    else if c.op = 13 then modColl c.desc (fun c => { c with arrCopy := mapMod 0 c.arrCopy (off / cdShard d) (· + n) }) s
    else s

/-! ## The effect of a packet at its destination (R270, R297) -/

/-- Perform a packet whose last flit has arrived: the effect, then the token. A rejected MWRITE is answered
with a CTRL rejection (log 42), and adds no token. -/
def performEffect (p : Packet) (s : Block) : Block :=
  let h := p.header
  if phOp h = 1 then
    let (rej, s) := effectWrite p s
    if rej then
      if p.src = s.arc.slot then doRejection p.src (phCid h) s
      else sendCtrl p.src 0 0 (leBytes 1 0x52 ++ leBytes 1 s.arc.slot ++ leBytes 2 (phCid h) ++ leBytes 2 (phPseq h)) s
    else collsGo (collArrive p (packetToken h s))
  else if phOp h = 2 then packetToken h (effectRead p s)
  else packetToken h s

/-- Perform the packets that the module sent to itself. -/
def drainOne (s : Block) : Block :=
  match s.arc.loop with
  | [] => s
  | p :: r => performEffect p { s with arc := { s.arc with loop := r } }
def drainLoop (s : Block) : Block := iter drainOne (2 * s.arc.loop.length) s

end Sys2Proof.Machine
end

