-- ==== Sys2Proof/Machine/Context.lean ====
section
/-! DEFINITION. Contexts (R363, R364) and step manifests (R371, R372): their bytes, the context store,
and the sending of a context to its holders. -/

namespace Sys2Proof.Machine

/-! ## Firmware images as far as a manifest and 0x1010 name them (R427, R428) -/

/-- The image of a kind in a set: header and body. -/
def fwImage (s : Block) (set kind : Nat) : Bytes :=
  mapGet (Config.provisionedImage set kind) s.fw.images (set * 4 + kind)

/-- The image that the processors of a kind have loaded (R431, R449): what a boot or a restart loaded last. Where none
is noted, the state right after reset, it is the provisioned image of set A. -/
def runningImage (s : Block) (kind : Nat) : Bytes :=
  if mapGet [] s.fw.loaded kind = [] then Config.provisionedImage 0 kind else mapGet [] s.fw.loaded kind

/-- The processors of a kind load an image. -/
def loadImage (kind : Nat) (b : Bytes) (s : Block) : Block :=
  { s with fw := { s.fw with loaded := mapSet [] s.fw.loaded kind b } }

/-- The version of the firmware of a kind (0x1010). -/
def fwVersion (s : Block) (kind : Nat) : Nat := leAt (runningImage s kind) 8 8

/-! ## Contexts (R363) -/

/-- The shape as 0x6000.03 lays it out. -/
def shapeWord (s : Block) : Nat := s.bind.shapeA + s.bind.shapeB * 256

/-- The logical galleries of a shape in rising lane order. -/
def shapeGals (a b : Nat) : List Nat := List.range a ++ range' 24 b

/-- Logical lanes of the binding (R186). -/
def laneCount (s : Block) : Nat := 1024 * (s.bind.shapeA + s.bind.shapeB)

/-- The level byte of every tensor descriptor, bank-major. -/
def lvlBytes (s : Block) : Bytes :=
  let n := partCount s 4 * 64
  let at' := partOff s 4 + 1
  slice ((List.range n).map (fun i => mapGet (0 : Byte) s.prog.bufA (at' + 64 * i))) 0 65536

/-- Token counters of the logical galleries, zero where unbound. -/
def tokenBytes (s : Block) : Bytes :=
  (List.range 48).flatMap (fun lg => match physOf s lg with
    | none => zeros 1024
    | some g => (List.range 256).flatMap (fun c => leBytes 4 (tokVal s g c)))

/-- Bank 0 of every bound logical lane. -/
def laneBytes (s : Block) : Bytes :=
  (shapeGals s.bind.shapeA s.bind.shapeB).flatMap (fun lg => match physOf s lg with
    | none => zeros 16384
    | some g => (List.range 1024).flatMap (fun n => leBytes 16 (lane0 s (g * 1024 + n))))

/-- The module's own rank, or 0x7F. -/
def ownRank (s : Block) : Nat := (slotRank s s.arc.slot).getD 0x7F

/-- The first 192 bytes of a context; its η is the snapshot's, in force when SBOUND completes (R364). -/
def ctxHead (s : Block) : Bytes :=
  slice (leBytes 2 1 ++ leBytes 2 (b2n s.lanes.drawn) ++ leBytes 4 (119040 + 16 * laneCount s) ++ leBytes 8 (stepNo s) ++
    leBytes 2 (shapeWord s) ++ leBytes 2 (lepochNo s) ++ leBytes 4 (epochNo s) ++ leBytes 4 (laneCount s) ++
    leBytes 1 (ownRank s) ++ leBytes 1 s.arc.slot ++ zeros 2 ++ slice (dom s 0x603002) 0 64 ++ digestForce s ++
    leBytes 4 (numS s 0x601001) ++ leBytes 8 (num s 0x601002)) 0 192

/-- A context around its tail: the SHA-512 covers bytes 0 to 191 and 256 to the end. -/
def ctxOf (head tail : Bytes) : Bytes := head ++ sha512 (head ++ tail) ++ tail

/-- The context of the present state. -/
def formContext (s : Block) : Bytes :=
  ctxOf (ctxHead s) (slice (dom s 0x234100) 0 4096 ++ lvlBytes s ++ tokenBytes s ++ laneBytes s)

/-- Fields of a context. -/
def ctxDrawn (c : Bytes) : Bool := bit (leAt c 2 2) 0
def ctxSize (c : Bytes) : Nat := leAt c 4 4
def ctxStep (c : Bytes) : Nat := leAt c 8 8
def ctxShape (c : Bytes) : Nat := leAt c 16 2
def ctxLanes (c : Bytes) : Nat := leAt c 24 4
def ctxRank (c : Bytes) : Nat := leAt c 28 1
def ctxSlot (c : Bytes) : Nat := leAt c 29 1
def ctxProgram (c : Bytes) : Bytes := slice c 32 64
def ctxConfig (c : Bytes) : Bytes := slice c 96 64
def ctxHash (c : Bytes) : Bytes := slice c 192 64

/-- Size and SHA-512 are valid. -/
def ctxValid (c : Bytes) : Bool :=
  c.length == ctxSize c && c.length == 119040 + 16 * ctxLanes c && ctxHash c == sha512 (c.take 192 ++ c.drop 256)

/-! ## The context store and the holders (R359, R364) -/

/-- One entry of the slice directory: owner rank, eighth, holder, pages, first page at the holder, first
page at the owner. -/
structure SliceEntry where
  owner : Nat
  eighth : Nat
  holder : Nat
  pages : Nat
  here : Nat
  home : Nat
  deriving DecidableEq, Repr, Inhabited

/-- Read the directory. -/
def sliceEntries : Nat → Bytes → List SliceEntry
  | 0, _ => []
  | n + 1, b =>
    if b.length < 16 then []
    else { owner := leAt b 0 1, eighth := leAt b 1 1, holder := leAt b 2 1, pages := leAt b 4 4, here := leAt b 8 4, home := leAt b 12 4 } ::
      sliceEntries n (b.drop 16)

/-- The slice directory in force (0x6071). -/
def sliceDir (s : Block) : List SliceEntry := sliceEntries (domF s 0x607100).length (domF s 0x607100)

/-- An eighth of the module's own rank has no holder but the module itself (R370). -/
def orphaned (s : Block) : Bool :=
  match slotRank s s.arc.slot with
  | none => false
  | some r => !(sliceDir s).isEmpty && (List.range 8).any (fun k =>
      !((sliceDir s).any (fun e => e.owner == r && e.eighth == k && e.holder != s.arc.slot)))

/-- ORPHANED as the directory in force gives it. -/
def orphanCheck (s : Block) : Block := setRecov 7 (orphaned s) s

/-- What the recovery status takes from an adoption: SLICE_UNSAFE (R361) and ORPHANED. -/
def adoptMarks (s : Block) : Block := orphanCheck (setRecov 6 (numF s 0x601300 == 1) s)

/-- Distinct holders of a rank. -/
def holdersOf (s : Block) (rank : Nat) : List Nat :=
  ((sliceDir s).filter (fun e => e.owner == rank)).foldl (fun l e => setAdd l e.holder) []

/-- Keep a context: the module's own, and at most eight of other slots, the one with the lowest step
number giving way. -/
def keepContext (slot : Nat) (c : Bytes) (s : Block) : Block :=
  let m := mapSet [] s.recov.contexts slot c
  let others := m.filter (fun e => e.1 != s.arc.slot)
  let m := if others.length ≤ 8 then m
    else
      let old := others.foldl (fun (b : Nat × Bytes) e => if ctxStep e.2 < ctxStep b.2 then e else b) (others.headD (0, []))
      mapSet [] m old.1 []
  { s with recov := { s.recov with contexts := m } }

/-- Bytes of a context in one packet: subtype 0x20, offset, total length, data (log 42). -/
def ctxChunk : Nat := 8176

/-- Send a context to one slot in CTRL packets on VC2. -/
def sendContextTo (slot : Nat) (c : Bytes) (s : Block) : Block :=
  forEach (List.range (ceilDiv c.length ctxChunk)) (fun i s =>
    let d := (c.drop (i * ctxChunk)).take ctxChunk
    sendCtrl slot 2 0 (leBytes 1 0x20 ++ leBytes 4 (i * ctxChunk) ++ leBytes 4 c.length ++ d) s) s

/-- Send the module's context to every holder of its rank, whose acknowledgements are awaited. A holder that no path reaches
cannot acknowledge it: CTX_PARTIAL. -/
def sendContext (c : Bytes) (s : Block) : Block :=
  let hs := (holdersOf s (ownRank s)).filter (fun h => h != s.arc.slot)
  let s := setRecov 5 (hs.any (fun h => (pathTo s h 0).isNone)) s
  let s := forEach hs (fun h s => sendContextTo h c s) s
  { s with recov := { s.recov with ctxAwait := hs.map (fun h => (h, (mapGet 0 s.arc.txSeq (txKey 0 h 2) + 65535) % 65536)) } }

/-! ## Manifests (R372) -/

/-- The part of the manifest that describes the step as it ran. -/
def manifestHead (s : Block) : Bytes :=
  slice (leBytes 2 1 ++ zeros 2 ++ leBytes 1 (s.bnd.attempt % 256) ++ zeros 3 ++ leBytes 8 (stepNo s) ++ leBytes 8 s.bnd.sboundTick ++
    slice (dom s 0x603002) 0 64 ++ digestForce s ++ leBytes 4 (epochNo s) ++ leBytes 2 (lepochNo s) ++ leBytes 2 (shapeWord s) ++
    slice s.bnd.inputDigest 0 64 ++ slice s.bnd.ctxDigest 0 64 ++ sha512 (domF s 0x232000) ++ sha512 (domF s 0x232100) ++
    leBytes 8 (numF s 0x232201) ++ leBytes 8 (numF s 0x232202) ++ leBytes 4 s.upd.eta ++ zeros 4 ++
    (List.range 4).flatMap (fun k => leBytes 8 (fwVersion s k))) 0 0x1D8

/-- The variant table: the rung of each cset, two bits each. -/
def variantTable (s : Block) : Bytes :=
  let w := dom s 0x234100
  (List.range 256).map (fun i => BitVec.ofNat 8
    ((List.range 4).foldl (fun a j => a + leAt w (4 * (4 * i + j)) 1 % 4 * 4 ^ j) 0))

/-- The manifest at SBOUND's completion, unsigned: the head and variant table of the step, the four
status words, the loss word and the update checks. -/
def formManifest (advanced drew replay : Bool) (head table : Bytes) (words : List Nat) (loss : Nat) (checks : SMap Nat) : Bytes :=
  let b := splice head 2 (leBytes 2 (b2n advanced + 2 * b2n drew + 4 * b2n replay))
  let b := slice b 0 0x1D8 ++ words.flatMap (leBytes 4) ++ leBytes 4 loss ++ zeros 4 ++
    (List.range 8).flatMap (fun k => leBytes 8 (mapGet 0 checks k)) ++ table
  let b := slice b 0 0xF3C
  slice (b ++ sha512 b) 0 4096

/-- Put a manifest into the ring of 256 and into 0x6080; while an identity key is live it waits for its signature
(R450), by its place in the ring. -/
def keepManifest (m : Bytes) (s : Block) : Block :=
  let l := s.recov.manifests ++ [m]
  let drop := l.length - 256
  let old := s.recov.signWait.filterMap (fun i => if i < drop then none else some (i - drop))
  let s := touch 0x608100 true s
  { s with recov := { s.recov with
    manifests := l.drop drop
    signWait := if signMode s = 0 then old ++ [l.length - drop - 1] else old } }

end Sys2Proof.Machine
end

