-- ==== Sys2Proof/Machine/Reliability.lean ====
section
/-! DEFINITION. Silent-error machinery (R333 to R358): error-queue entries popped by firmware, targeted
sentinels, fences, narrowing and guard-bands, margin sweeps, the floor map, injections, and which
galleries are fit (R17 to R19, R84). -/

namespace Sys2Proof.Machine

/-! ## Records in effect (R349) -/

/-- The floor map's records in effect, oldest first: those taken out by a clear hold until the next cold
boot. -/
def floorRecs (s : Block) : List (Nat × Nat) := s.rel.floorOld ++ s.rel.floorMap ++ s.rel.floorWait

/-- Kind, detail and step of an information word. -/
def recKind (i : Nat) : Nat := fld i 56 8
def recDetail (i : Nat) : Nat := fld i 48 8
def recStep (i : Nat) : Nat := fld i 0 48

/-- A record of a kind at a location stands. -/
def floorHas (s : Block) (kind loc : Nat) : Bool := (floorRecs s).any (fun r => r.1 == loc && recKind r.2 == kind)

/-- An array is fenced (R84). -/
def arrFenced (s : Block) (g alc arr : Nat) : Bool :=
  (floorRecs s).any (fun r => recKind r.2 == 0x02 && setFld r.1 38 5 0 == locOf 0 g alc arr 0 0)

/-- The faulty column of a narrowed array, plus 1. -/
def arrNarrow (s : Block) (g alc arr : Nat) : Nat :=
  match (floorRecs s).find? (fun r => recKind r.2 == 0x01 && setFld r.1 38 5 0 == locOf 0 g alc arr 0 0) with
  | some r => fld r.1 38 5 + 1
  | none => 0

/-- Fenced arrays of an alcove. -/
def fencedArrs (s : Block) (g alc : Nat) : Nat := ((List.range 132).filter (arrFenced s g alc)).length

/-- A gallery carries a fence as a whole, on a banister unit, a quad, its mezzanine or its tile
registers (R17, R18). -/
def galFenced (s : Block) (g : Nat) : Bool :=
  (floorRecs s).any (fun r => decide (3 ≤ recKind r.2) && decide (recKind r.2 ≤ 6) && fld r.1 54 6 == g && decide (fld r.1 60 4 ≤ 3))

/-- A gallery is fit to bind as far as the floor map goes (R17). -/
def galFit (s : Block) (g : Nat) : Bool :=
  !(galFenced s g) && !(s.rel.sweepUnfit.contains g) && (List.range 8).all (fun a => decide (fencedArrs s g a ≤ 4))

/-- Fit galleries of a hall, at most 24: the offered shape (R19, R221). -/
def offered (s : Block) (hall : Nat) : Nat := min 24 ((range' (25 * hall) 25).filter (galFit s)).length

/-- Report the offered shape in 0x6000.03. -/
def reportShape (s : Block) : Block := setNum 0x600003 (offered s 0 + offered s 1 * 256) s

/-! ## Fences and narrowing (R343, R345) -/

/-- The CPER record of an action: code 0xF0 for a fence, 0xF1 for a guard-band. -/
def actionCper (code flags kind loc : Nat) (s : Block) : Block := cperNow code 3 flags 0 kind loc 0 [] s

/-- A fence or narrowing is recorded at once and takes effect at the next load. -/
def fenceRec (flags loc kind detail : Nat) (s : Block) : Block :=
  let s := actionCper 0xF0 (flags + 8) kind loc (floorRec loc kind detail s)
  setRelBit 1 true { s with rel := { s.rel with pendingFences := s.rel.pendingFences ++ [loc] } }

/-- A fence or narrowing of the unit that a location names waits for the next load: of its array, or of its gallery as a
whole (R345). -/
def fencePends (s : Block) (loc : Nat) : Bool :=
  s.rel.pendingFences.any (fun p => fld p 54 6 == fld loc 54 6 &&
    (fld p 60 4 != 0 || (fld loc 60 4 == 0 && setFld p 38 5 0 == setFld loc 38 5 0)))

/-- Fence a gallery, with the reason of KIND 0x06. -/
def fenceGal (flags g reason : Nat) (s : Block) : Block :=
  if floorHas s 0x06 (locOf 3 g 0 0 0 0) then s else reportShape (fenceRec flags (locOf 3 g 0 0 0 0) 0x06 reason s)

/-- Fence an array; more than four in an alcove fence the gallery (R18). The floor map names the columns `cols` found
faulty, one record for each; column 0 where the fault lies outside the columns (R84, log 93). -/
def fenceArr (g alc arr : Nat) (cols : List Nat) (s : Block) : Block :=
  if arrFenced s g alc arr then s
  else
    let s := fenceRec 2 (locOf 0 g alc arr (cols.headD 0 % 16) 0) 0x02 0 s
    let s := forEach cols.tail (fun c s => floorRec (locOf 0 g alc arr (c % 16) 0) 0x02 0 s) s
    if 4 < fencedArrs s g alc then fenceGal 2 g 0 s else s

/-- Narrow an array; a second faulty column fences it. -/
def narrowArr (g alc arr col : Nat) (s : Block) : Block :=
  let n := arrNarrow s g alc arr
  if n = col + 1 then s
  else if n = 0 then fenceRec 2 (locOf 0 g alc arr col 0) 0x01 0 s
  else fenceArr g alc arr [n - 1, col] s

/-- Fence a banister unit, a quad or a store, and what follows for the gallery (R18, R17). -/
def fenceBanister (g alc : Nat) (s : Block) : Block :=
  if floorHas s 0x03 (locOf 1 g alc 0 0 0) then s else fenceGal 2 g 0 (fenceRec 2 (locOf 1 g alc 0 0 0) 0x03 0 s)
def fenceQuad (g q : Nat) (s : Block) : Block :=
  if floorHas s 0x04 (locOf 2 g 0 0 0 q) then s else fenceGal 2 g 0 (fenceRec 2 (locOf 2 g 0 0 0 q) 0x04 0 s)
/-- `store` is the DETAIL of KIND 0x05: 0 the mezzanine, 1 the tile registers. -/
def fenceStore (g store : Nat) (s : Block) : Block :=
  if (floorRecs s).any (fun r => r.1 == locOf 3 g 0 0 0 0 && recKind r.2 == 0x05 && recDetail r.2 == store) then s
  else reportShape (fenceRec 2 (locOf 3 g 0 0 0 0) 0x05 store s)

/-- What a hard fault does (R343). -/
def hardFault (g : Nat) (r : SuiteResult) (s : Block) : Block :=
  match r with
  | .pass => s
  | .columns alc arr [c] => narrowArr g alc arr (c % 16) s
  | .columns alc arr cols => fenceArr g alc arr cols s
  | .landing alc arr => fenceArr g alc arr [] s
  | .banister alc => fenceBanister g alc s
  | .vector q => fenceQuad g q s

/-! ## Marginal events and guard-bands (R344, R345) -/

/-- Guard-band steps of a gallery in force, and with those that wait for the boundary. -/
def guardOf (s : Block) (g : Nat) : Nat := mapGet 0 s.rel.guard g
def guardNext (s : Block) (g : Nat) : Nat := guardOf s g + (s.rel.guardAdd.filter (· == g)).length

/-- Counted marginal events of a gallery, and those in the window of 0x5200.03. -/
def marginals (s : Block) (g : Nat) : List Nat := mapGet [] s.rel.marginal g
def marginalsIn (s : Block) (g : Nat) : Nat := ((marginals s g).filter (fun t => decide (stepNo s < t + numF s 0x520003))).length

/-- One more step of guard-band at the next boundary. -/
def askGuard (g : Nat) (s : Block) : Block := { s with rel := { s.rel with guardAdd := s.rel.guardAdd ++ [g] } }

/-- What the mode of 0x5200.01 does with a counted event, the gallery's `n`-th. -/
def guardAction (g n : Nat) (s : Block) : Block :=
  let mode := numF s 0x520001
  if mode = 0 then fenceGal 4 g 1 s
  else if mode = 1 then
    if n ≤ 3 then (if guardNext s g < 3 then askGuard g s else s)
    else if n = 4 ∧ numF s 0x520004 = 1 then { s with rel := { s.rel with clockGuardReq := true } }
    else fenceGal 4 g 1 s
  else if numF s 0x520002 ≤ marginalsIn s g then fenceGal 4 g 1 s
  else if guardNext s g < 3 then askGuard g s else s

/-- A marginal event against a gallery: at most one counts in a step, and none while a fence of the gallery waits for a
load (R344, R345). -/
def marginalEvent (g : Nat) (s : Block) : Block :=
  if fencePends s (locOf 3 g 0 0 0 0) || (marginals s g).headD (stepNo s + 1) == stepNo s then s
  else
    let s := { s with rel := { s.rel with marginal := mapSet [] s.rel.marginal g (stepNo s :: marginals s g) } }
    guardAction g (marginals s g).length (floorRec (locOf 3 g 0 0 0 0) 0x0E (min 255 (marginalsIn s g)) s)

/-- Set a gallery's guard-band: record, CPER record and GUARD_ACTIVE. -/
def setGuard (g n : Nat) (s : Block) : Block :=
  if guardOf s g = n then s
  else
    let s := { s with rel := { s.rel with guard := mapSet 0 s.rel.guard g n } }
    let loc := locOf 3 g 0 0 0 0
    let s := actionCper 0xF1 4 0x07 loc (floorRec loc 0x07 n s)
    setRelBit 2 (!s.rel.guard.isEmpty) s

/-- Guard-bands that take effect during boundary actions; a fence of the same gallery prevails. The power core sets them:
while it restarts they stay as they are, and the changes wait (R25, R432). -/
def guardBoundary (s : Block) : Block :=
  if !(procRuns s 1) then s else
  let add := s.rel.guardAdd.filter (fun g => !(galFenced s g))
  let s := forEach add (fun g s => setGuard g (min 3 (guardOf s g + 1)) s) s
  let s := forEach s.rel.guardDel (fun g s => setGuard g (guardOf s g - 1) s) s
  let s := forEach s.rel.guardZero (fun g s => setGuard g 0 s) s
  let s := if s.rel.clockGuardReq && !s.rel.clockGuard then
      setRelBit 3 true (actionCper 0xF1 4 0x07 (domLoc 10) (floorRec (domLoc 10) 0x07 4
        { s with rel := { s.rel with clockGuard := true } }))
    else s
  { s with rel := { s.rel with guardAdd := [], guardDel := [], guardZero := [], clockGuardReq := false } }

/-- Cycles of a suite (R340). -/
def suiteLen (suite : Nat) : Nat := nth [2048, 1024, 512] suite 0

/-- The key of a suite of a unit: 0 array, 1 landing, 2 vector (R340). -/
def suiteKey (g suite unit : Nat) : Nat := g * 32 + suite * 8 + unit

/-- What the boundary does here (R341, R342, R358): guard-bands, the ages of targeted sentinels, the coverage period,
LOCKSTEP_RESTART. -/
def relBoundary (s : Block) : Block :=
  let s := guardBoundary s
  let n := s.rel.sinceCover + 1
  let full := (boundPhys s).all (fun g =>
    (List.range 8).all (fun a => s.rel.covered.contains (suiteKey g 0 a) && s.rel.covered.contains (suiteKey g 1 a)) &&
    (List.range 4).all (fun q => s.rel.covered.contains (suiteKey g 2 q)))
  let isOver := decide (numF s 0x521003 ≤ n)
  let s := setRelBit 4 (numF s 0x521001 == 1 && isOver && !full && !(boundPhys s).isEmpty) s
  let s := { s with rel := { s.rel with
    targets := s.rel.targets.map (fun t => { t with age := t.age + 1 })
    sinceCover := if isOver || full then 0 else n
    covered := if isOver || full then [] else s.rel.covered
    sentinels := s.rel.sentinels.filter (fun x => !x.routine)
    sramBad := [] } }
  setRelBit 0 false s

/-! ## Error queues (R29, R352, R354) -/

/-- A gallery control core is held: for 100 ms after a failed restart test, or for good (R434). -/
def gccHeld (s : Block) (g : Nat) : Bool := (proc s (3 + g)).held || (proc s (3 + g)).hold100

/-- The processor that drains a queue, and that it can: while a core is held in reset the scheduler core
drains its gallery's queue during boundary actions (R434). -/
def canPop (s : Block) (q : Nat) : Bool :=
  if q < 50 then procRuns s (3 + q) || (gccHeld s q && s.bnd.phase == .actions && procRuns s 2) else procRuns s 2

/-- A repeated uncorrectable error at one SRAM word of a gallery in a step is a hard fault of the store (R335). -/
def sramEvent (g word : Nat) (s : Block) : Block :=
  let key := g * 2 ^ 32 + word
  if s.rel.sramBad.contains key then fenceStore g (b2n (decide (2 ^ 20 ≤ word))) s
  else { s with rel := { s.rel with sramBad := s.rel.sramBad ++ [key] } }

/-- The alcoves and quads that an event names (R342): a pair event both of its pair, a store all of its gallery's. -/
def eventAlcs (loc : Nat) (pair : Bool) : List Nat :=
  let d := fld loc 60 4
  let a := fld loc 51 3
  if d = 3 then List.range 8 else if 2 ≤ d then [] else if pair then [a, (a + 1) % 8] else [a]
def eventQuads (loc : Nat) (pair : Bool) : List Nat :=
  let d := fld loc 60 4
  let q := fld loc 36 2
  if d = 3 then List.range 4 else if d ≠ 2 then [] else if pair then [q, (q + 1) % 4] else [q]

/-- What follows a popped event that was not injected (R342). -/
def classify (e : ErrEntry) (s : Block) : Block :=
  let g := fld e.loc 54 6
  let s := if e.detector = 0x0A ∧ fld e.loc 60 4 = 3 then sramEvent g (leNat e.extra) s else s
  if [0x01, 0x0A, 0x10, 0x11, 0x13, 0x14, 0x15].contains e.detector && decide (fld e.loc 60 4 ≤ 3) then
    { s with rel := { s.rel with targets := s.rel.targets ++
        [{ gal := g, alcs := eventAlcs e.loc (e.detector == 0x10), quads := eventQuads e.loc (e.detector == 0x11),
           detector := e.detector, loc := e.loc, age := 0 }] } }
  else s

/-- Pop one entry, make its record, decide what follows. -/
def doQueuePop (q : Nat) (s : Block) : Block :=
  match mapGet [] s.logs.queues q with
  | [] => s
  | e :: r =>
    if !(canPop s q) then s
    else
      let s := { s with logs := { s.logs with queues := mapSet [] s.logs.queues q r } }
      let s := if e.recorded then s
        else makeCper e.detector e.sev (b2n e.injected) e.tag 0 e.loc e.addr e.step e.tick e.extra s
      if e.injected then s else classify e s

/-- The queues of held cores are drained during a boundary's actions (R434). -/
def drainHeld (s : Block) : Block :=
  forEach ((List.range 50).filter (gccHeld s)) (fun g s => iter (doQueuePop g) (mapGet [] s.logs.queues g).length s) s

def execErrorQueuePop (queue : Nat) (s : State) : Host.Outcome State Fault Refusal :=
  if 52 ≤ queue then .fault .noSuchUnit else effect (doQueuePop queue) s

/-! ## Targeted sentinels (R340, R342, R343) -/

/-- Landing rows of some alcoves of a gallery that no open group holds become undefined under the landing suite. -/
def spoilLandings (g : Nat) (alcs : List Nat) (s : Block) : Block :=
  let hit := fun k => arrGal (k / 64) == g && alcs.contains (arrAlc (k / 64))
  let held := s.arr.groups.flatMap (fun e => match e.2 with
    | none => []
    | some gr => if hit e.1 then (range' gr.base (slotEnd gr - gr.base)).map (fun u => e.1 / 64 * 64 + u) else [])
  { s with arr := { s.arr with rows := mapFilter (fun k => !(hit k) || held.contains k) s.arr.rows } }

/-- The detector and location of a failing suite (R341). -/
def suiteEvent (g : Nat) : SuiteResult → Option (Nat × Nat)
  | .pass => none
  | .columns alc arr cols => some (0x13, locOf 0 g alc arr (cols.headD 0 % 16) 0)
  | .landing alc arr => some (0x14, locOf 0 g alc arr 0 0)
  | .banister alc => some (0x13, locOf 1 g alc 0 0 0)
  | .vector q => some (0x15, locOf 2 g 0 0 0 q)

/-- The units a targeted sentinel runs on include the one that failed. -/
def runsOn (t : Target) : SuiteResult → Bool
  | .pass => true
  | .columns alc _ _ | .landing alc _ | .banister alc => t.alcs.contains alc
  | .vector q => t.quads.contains q

/-- A side window frees the units named, or the scheduler core runs the sentinel during a boundary's actions (R342). -/
def sentinelMay (s : Block) (t : Target) : Bool :=
  s.side.any (fun w => procRuns s (3 + t.gal) && w.gals.contains t.gal && t.alcs.all (bit w.alcoves) && (t.quads.isEmpty || w.ve)) ||
    (s.bnd.phase == .actions && decide (numF s 0x521002 ≤ t.age) && procRuns s 2)

/-- The array suites of a targeted sentinel or a sweep point in alcoves of a gallery: their beats are real beats of the
current keepers (R340) for the length of the suite from now on (log 49). -/
def suitesAtWork (gal : Nat) (alcs : List Nat) (s : Block) : Block :=
  { s with rel := { s.rel with sentinels :=
    s.rel.sentinels ++ alcs.map (fun a => { routine := false, gal, suite := 0, unit := a, stop := cyc s + suiteLen 0 }) } }

/-- An injection of detectors 0x13 to 0x15 at a unit that a targeted sentinel tests fires with its suite (R352). -/
def targetedHit (t : Target) (s : Block) : Bool × Block :=
  let i := s.rel.inject
  let at? := if i.detector = 0x15 then fld i.loc 60 4 == 2 && t.quads.contains (fld i.loc 36 2)
    else decide (fld i.loc 60 4 ≤ 1) && t.alcs.contains (fld i.loc 51 3)
  if armed s && [0x13, 0x14, 0x15].contains i.detector && i.trigger == 0 && fld i.loc 54 6 == t.gal && at? then
    (true, detect i.detector i.loc true 0 0 [] (injectFire s))
  else (false, s)

/-- TARGETED_SENTINEL: a failure is an event of its own and a hard fault of the unit; a pass makes the event marginal,
which does not count while a fence of the unit waits for a load (R345). An injected failure triggers no action, so the unit
is taken as passing only where none fired (R353). -/
def doTargeted (gal : Nat) (r : SuiteResult) (s : Block) : Block :=
  match s.rel.targets.find? (fun t => t.gal == gal && sentinelMay s t && runsOn t r) with
  | none => s
  | some t =>
    let s := { s with rel := { s.rel with targets := s.rel.targets.erase t } }
    let s := suitesAtWork gal t.alcs (spoilLandings gal t.alcs s)
    let (hit, s) := targetedHit t s
    match suiteEvent gal r with
    | some (code, loc) => hardFault gal r (detect code loc false 0 0 [] s)
    | none => if hit || fencePends s t.loc then s else marginalEvent gal s

def execTargetedSentinel (gal : Nat) (fails : Option Suite) (unit : Nat) (badCols : List Nat) (s : State) :
    Host.Outcome State Fault Refusal :=
  if 50 ≤ gal then .fault .noSuchUnit else effect (doTargeted gal (SuiteResult.of fails unit badCols)) s

/-! ## Margin sweeps (R346, R347) -/

/-- The hall has a fit gallery that is not bound. -/
def hallFree (s : Block) (hall : Nat) : Bool :=
  (range' (25 * hall) 25).any (fun g => galFit s g && !((boundPhys s).contains g))

/-- The base value of a gallery's core rail in millivolts, a multiple of 5 that leaves 75 mV of guard-band below 850 mV
(R344, R468); the value itself is open (log 12). -/
def galleryBase (g : Nat) : Nat := 700 + 5 * (Config.galleryBaseMv g % 16)

/-- The setting of a gallery's core rail in millivolts: its base value and the guard-band (R344, R468); a gallery under a
sweep has that of its point (R346). A fenced gallery's rail stays off (R469). -/
def galleryRail (s : Block) (g : Nat) : Nat :=
  if s.pwr.rails < 6 ∨ galFenced s g then 0
  else match s.rel.sweep with
    | some w => if w.gal = g then w.railMv else galleryBase g + 25 * guardOf s g
    | none => galleryBase g + 25 * guardOf s g

/-- A sweep at a point: the core rail, the clock and the junction of R346. -/
def sweepAt (w : Sweep) (point : Nat) (reduced : Bool) (s : Block) : Block :=
  let p0 := galleryBase w.gal + 25 * (guardOf s w.gal - b2n reduced)
  let low := point = 1 ∨ point = 3
  let fast := 2 ≤ point
  { s with rel := { s.rel with sweep := some { w with
      point, reduced
      railMv := if low then p0 - numF s 0x522004 else p0
      clockKhz := if fast then 8500 * (100 + numF s 0x522005) else 850000
      junction := if point = 3 then numF s 0x522003 else 0 } } }

/-- The galleries in the order of the sweep: rising, from the one after the last that was swept. -/
def sweepOrder (s : Block) : List Nat := (List.range 50).map (fun i => (s.rel.sweptUpTo + i) % 50)

/-- The first bound gallery of a hall in the order of the sweep is unfit for the next load, where the hall has a gallery to
take its place and none is unfit already. -/
def sweepDue (hall : Nat) (s : Block) : Block :=
  if !(hallFree s hall) ∨ s.rel.sweepUnfit.any (fun g => galHall g == hall) then s
  else match (sweepOrder s).find? (fun g => galHall g == hall && (boundPhys s).contains g) with
    | none => s
    | some g => { s with rel := { s.rel with sweepUnfit := setAdd s.rel.sweepUnfit g } }

/-- The unbound gallery that is swept next: one that a load left unbound for its sweep, else the first in the order. -/
def sweepPick (s : Block) : Option Nat :=
  let free := (sweepOrder s).filter (fun g => !((boundPhys s).contains g))
  match free.find? (fun g => s.rel.sweepUnfit.contains g) with
  | some g => some g
  | none => free.head?

/-- MARGIN_SWEEP: the next unbound gallery is swept, whatever runs; in each hall a bound one that is due becomes unfit for the
next load. SWEEP_BLOCKED shows that a hall has no fit gallery to take the place of a bound one (R347). -/
def doMarginSweep (s : Block) : Block :=
  if numF s 0x522001 = 0 ∨ s.rel.sweep.isSome ∨ !(procRuns s 2) ∨ !(procRuns s 1) ∨ pstate s = 4 ∨ !(halls s) then s
  else
    let s := setRelBit 5 (!(hallFree s 0) || !(hallFree s 1)) s
    let s := sweepDue 1 (sweepDue 0 s)
    match sweepPick s with
    | none => s
    | some g => setRelBit 6 true (sweepAt { (default : Sweep) with gal := g } 0 false s)

def execMarginSweep (s : State) : Host.Outcome State Fault Refusal := effect doMarginSweep s

/-- A sweep ends: its record, and SWEEP_ACTIVE clears. -/
def sweepEnd (w : Sweep) (flags : Nat) (s : Block) : Block :=
  let s := cperNow 0xF2 3 flags 0 0 (locOf 3 w.gal 0 0 0 0) 0 [] s
  setRelBit 6 false { s with rel := { s.rel with
    sweep := none, sweptUpTo := (w.gal + 1) % 50, sweepUnfit := setDel s.rel.sweepUnfit w.gal } }

/-- A sweep stops without a result (R346, R479): the power core limits heat or current, or a load binds its gallery. -/
def sweepStop (s : Block) : Block :=
  if s.rel.sweep.isSome then setRelBit 6 false { s with rel := { s.rel with sweep := none } } else s

/-- A load binds the gallery under sweep (R347). -/
def sweepYield (s : Block) : Block :=
  match s.rel.sweep with
  | some w => if (boundPhys s).contains w.gal then sweepStop s else s
  | none => s

/-- SWEEP_POINT: the suites at one point. A failure at P0 is a hard fault of the unit that failed (R343), one at P1 to P3
a marginal event of detector 0x16. An injected failure triggers no action. The sweep waits while the power core restarts
(R432). -/
def doSweepPoint (r : SuiteResult) (s : Block) : Block :=
  match s.rel.sweep with
  | none => s
  | some w =>
    if !(procRuns s 1) then s else
    let loc := locOf 3 w.gal 0 0 0 0
    let (hit, s) := inject 0x16 loc s
    let ok := r == .pass && !hit
    let s := suitesAtWork w.gal (List.range 8) (spoilLandings w.gal (List.range 8) s)
    if !ok && w.point == 0 then
      let s := detect 0x16 loc hit 0 0 [] s
      sweepEnd w 2 (if hit then s else hardFault w.gal r s)
    else
      let s := if ok then s else detect 0x16 loc hit 0 0 [] s
      let w := { w with failed := w.failed + b2n (!ok && !hit) }
      if w.point < 3 then sweepAt w (w.point + 1) w.reduced s
      else if 0 < w.failed then sweepEnd w 4 (marginalEvent w.gal s)
      else if w.reduced then
        sweepEnd w 0 { s with rel := { s.rel with guardDel := s.rel.guardDel ++ [w.gal] } }
      else if 0 < guardOf s w.gal then sweepAt w 0 true s
      else sweepEnd w 0 s

def execSweepPoint (r : SuiteResult) (s : State) : Host.Outcome State Fault Refusal := effect (doSweepPoint r) s

/-! ## Flash writes of records, notifies, hall bridge and adapter events -/

/-- FLOOR_MAP_RECORD_WRITE (R349): the oldest waiting record reaches both copies. -/
def doFloorWrite (s : Block) : Block :=
  match s.rel.floorWait with
  | [] => s
  | r :: rest => if procRuns s 0 then { s with rel := { s.rel with floorMap := s.rel.floorMap ++ [r], floorWait := rest } } else s

def execFloorMapRecordWrite (s : State) : Host.Outcome State Fault Refusal := effect doFloorWrite s

/-- CPER_NOTIFY (R356). -/
def doCperNotify (s : Block) : Block :=
  if s.logs.cperDue then notifyNum 0x540101 { s with logs := { s.logs with cperDue := false } } else s

def execCperNotify (s : State) : Host.Outcome State Fault Refusal := effect doCperNotify s

/-- HALL_BRIDGE_CRC_ERROR (R336): a corrected event. -/
def doBridgeCrc (s : Block) : Block := detect 0x0F (domLoc 8) false 0 0 [] s

/-- The hall bridge carries a bundle's count and stall signal: an injection corrupts one lane set, which the vote
corrects (R336, R352). -/
def bridgeFlit (s : Block) : Block :=
  let (hit, s) := inject 0x0F (domLoc 8) s
  if hit then detect 0x0F (domLoc 8) true 0 0 [] s else s

def execHallBridgeCrcError (_vote : Bool) (s : State) : Host.Outcome State Fault Refusal := effect doBridgeCrc s

/-- ADAPTER_RETRY (R378). -/
def doAdapterRetry (p : Nat) (s : Block) : Block :=
  if fld (port s p).link 0 2 < 2 then s
  else
    detectAt (50 + p) 0x19 (domLoc 9) false 0 0 [] (modPort p (fun v => { v with retryCnt := satN 32 (v.retryCnt + 1) }) s)

/-- A flit crosses a vestibule: an injection corrupts one, which is retried (R352). -/
def vestibuleFlit (p : Nat) (s : Block) : Block :=
  let (hit, s) := inject 0x19 (domLoc 9) s
  if hit then detectAt (50 + p) 0x19 (domLoc 9) true 0 0 [] s else s

def execAdapterRetry (p : Nat) (s : State) : Host.Outcome State Fault Refusal :=
  if 2 ≤ p then .fault .noSuchUnit else effect (doAdapterRetry p) s

/-! ## Objects that act (R350, R353, R357, R460) -/

/-- A write of a gallery to 0x5232. -/
def removeGuard (g : Nat) (s : Block) : Block := { s with rel := { s.rel with guardZero := setAdd s.rel.guardZero g } }

/-- A write of 1 to 0x5301: the map is empty, and what it recorded holds until the next cold boot. -/
def clearFloor (s : Block) : Block :=
  let s := touch 0x530000 true s
  let s := { s with rel := { s.rel with
    floorOld := s.rel.floorOld ++ s.rel.floorMap ++ s.rel.floorWait, floorMap := [], floorWait := [] } }
  setRelBit 7 false s

/-- A detector can be armed in the present state (R460). -/
def canArm (s : Block) (code : Nat) : Bool :=
  decide (1 ≤ code) && decide (code ≤ 0x19) && decide (2 ≤ pstate s) &&
    !(pstate s == 4 && (code == 0x16 || code == 0x18)) &&
    (match lifecycle s with
      | 1 => false
      | 2 => debugLevel s == 1 && code != 0x05
      | _ => true)

/-- A write of a count to 0xA100.04: arm, or refuse. -/
def armInjection (count : Nat) (s : Block) : Block :=
  let code := num s 0xA10001
  if !(canArm s code) then setNum 0xA10005 (setFld (num s 0xA10005) 0 2 2) s
  else
    let s := { s with rel := { s.rel with inject :=
      { detector := code, loc := num s 0xA10002, trigger := num s 0xA10003, left := count } } }
    setNum 0xA10005 (if count = 0 then 0 else 1) s

/-- An armed injection that the present state no longer allows is disarmed (R458). -/
def checkArmed (s : Block) : Block :=
  if armed s && !(canArm s s.rel.inject.detector) then setNum 0xA10005 (setFld (num s 0xA10005) 0 2 2) s else s

end Sys2Proof.Machine
end

