-- ==== Sys2Proof/Machine/FwCore.lean ====
section
/-! DEFINITION. Firmware processors and their restarts, and the activation of a staged image set (R425 to
R442). The commands that use them stand in Firmware.lean. -/

namespace Sys2Proof.Machine

/-! ## Counters and sets (R429, R430) -/

/-- A device holds this module's pairing key, so that its counters authenticate and can be raised. -/
def paired (s : Block) (d : Nat) : Bool := mapGet 0 s.fw.pairing d == 1

/-- A counter of a device, zero where it does not authenticate (R429, R443), and the effective value: the higher of the
two. -/
def devCounter (s : Block) (d c : Nat) : Nat := if paired s d then mapGet 0 s.fw.counters (d * 16 + c) else 0
def effCounter (s : Block) (c : Nat) : Nat := max (devCounter s 0 c) (devCounter s 1 c)

/-- Raise a counter of both devices to a value: counters only increase, and an increment needs the pairing key. -/
def raiseCounter (c v : Nat) (s : Block) : Block :=
  let up := fun (m : SMap Nat) d => if paired s d then mapMod 0 m (d * 16 + c) (max v) else m
  { s with fw := { s.fw with counters := up (up s.fw.counters 0) 1 } }

/-- The security version of an image. -/
def imgSvn (b : Bytes) : Nat := leAt b 16 4

/-- The generation in a set's header. -/
def setGen (s : Block) (set : Nat) : Nat := mapGet 0 s.fw.generation set

/-! ## Restarts (R432) -/

/-- Processors that restart: not running and not held in reset. -/
def anyRestarting (s : Block) : Bool := s.fw.procs.any (fun e => !e.2.running && !e.2.held)

/-- RESTARTING and GCC_HELD of 0x8010. -/
def reportProcs (s : Block) : Block :=
  setFwBit 7 (s.fw.procs.any (fun e => decide (3 ≤ e.1) && e.2.held)) (setFwBit 1 (anyRestarting s) s)

/-- The restart counters of 0x8030 and 0x8031. -/
def countRestart (n : Nat) (s : Block) : Block :=
  if n < 3 then bumpNum (0x803001 + n) 32 1 s
  else
    let d := dom s 0x803100
    let o := 2 * (n - 3)
    bumpNum 0x803004 32 1 (setDom 0x803100 (splice d o (leBytes 2 (satN 16 (leAt d o 2 + 1)))) s)

/-- A processor restart begins; `staged` is the set it restarts into. -/
def beginRestart (n : Nat) (staged : Bool) (s : Block) : Block :=
  reportProcs (countRestart n (setProc n { proc s n with running := false, halted := false, hold100 := false, staged } s))

/-- The location of a processor (R348). -/
def procLoc (n : Nat) : Nat := if n < 3 then coreLoc n 0 else coreLoc 3 (n - 3)

/-- A processor is running its image. -/
def procUp (s : Block) (n : Nat) : Bool := (proc s n).running && !(proc s n).held && decide (pstate s ≠ 0)

/-! ## Activation (R439, R440) -/

/-- The order of an activation: the gallery control cores that are not held, then scheduler, security and
power core. -/
def activationOrder (s : Block) : List Nat := (range' 3 50).filter (fun n => !(proc s n).held) ++ [2, 0, 1]

/-- The commit of an activation. -/
def commitActivation (s : Block) : Block :=
  let new := 1 - s.fw.activeSet
  let g := effCounter s 4 + 1
  let s := { s with fw := { s.fw with generation := mapSet 0 s.fw.generation new g } }
  let s := raiseCounter 4 g s
  let s := forEach (List.range 4) (fun k s => raiseCounter k (imgSvn (fwImage s new k)) s) s
  let s := { s with fw := { s.fw with
    activeSet := new, activating := false, staged := false, waitSbound := false, order := []
    procs := s.fw.procs.filterMap (fun e => let p := { e.2 with staged := false }
      if p = procOk then none else some (e.1, p)) } }
  let s := setNum 0x802100 0 (setNum 0x800100 new s)
  let s := forEach (List.range 5) (fun c s => setNum (0x800201 + c) (effCounter s c) s) s
  longDone 0x40 0 s.fw.req.2 (setFwBit 2 false (setFwBit 3 false s))

/-- Every processor runs the staged set. -/
def allOnStaged (s : Block) : Bool := s.fw.activating && s.fw.order.isEmpty && s.fw.reverting.isEmpty && !(anyRestarting s)

/-- The activation ends without a program: it is committed when the module is in Ready. -/
def commitIdle (s : Block) : Block :=
  if allOnStaged s && !s.prog.loaded && pstate s == 2 then commitActivation s else s

/-- Start the next restart of an activation, or wait. -/
def activateNext (s : Block) : Block :=
  if !s.fw.activating || s.fw.deferred then s
  else match s.fw.order with
    | [] => commitIdle s
    | n :: _ =>
      if pstate s = 4 then setNum 0x802100 7 (setFwBit 4 true { s with fw := { s.fw with deferred := true } })
      else if n = 2 ∧ s.prog.loaded then { s with fw := { s.fw with waitSbound := true } }
      else beginRestart n true s

/-- The restart at the head of the order has succeeded. -/
def activated (s : Block) : Block := activateNext { s with fw := { s.fw with order := s.fw.order.drop 1 } }

/-- The module leaves Curbed: a deferred activation begins or goes on. -/
def undefer (s : Block) : Block :=
  if s.fw.deferred then activateNext (setFwBit 3 true <| setFwBit 4 false { s with fw := { s.fw with deferred := false } }) else s

/-- The module enters Curbed while an activation waits for an SBOUND: its next restart is deferred (R440). -/
def deferActivation (s : Block) : Block :=
  if s.fw.activating && s.fw.waitSbound then
    setNum 0x802100 7 (setFwBit 4 true { s with fw := { s.fw with deferred := true, waitSbound := false } })
  else s

/-- A program is gone for which an activation waited: its next restart, or its commit, follows at once (R439). -/
def activationIdle (s : Block) : Block :=
  if s.fw.waitSbound then activateNext { s with fw := { s.fw with waitSbound := false } } else commitIdle s

/-- An SBOUND completes: the scheduler core's restart of an activation, or its commit. -/
def sboundHook (advanced : Bool) (s : Block) : Block :=
  if s.fw.waitSbound then beginRestart 2 true { s with fw := { s.fw with waitSbound := false } }
  else if advanced && allOnStaged s then commitActivation s else s

/-- The next restart of a reverted activation, or its end: code 0x08 in 0x8021. -/
def revertNext (s : Block) : Block :=
  match s.fw.reverting with
  | n :: _ => beginRestart n false s
  | [] =>
    let s := { s with fw := { s.fw with activating := false } }
    longDone 0x40 8 s.fw.req.2 (setNum 0x802100 8 (setFwBit 4 false (setFwBit 3 false s)))

/-- Revert an activation: every processor already on the new set restarts into the previous one, in the reverse of the
activation's order, one restart at a time. -/
def revertActivation (s : Block) : Block :=
  let l := ((range' 3 50) ++ [2, 0, 1]).filter (fun n => (proc s n).staged && !(proc s n).held)
  revertNext { s with fw := { s.fw with deferred := false, waitSbound := false, order := [], reverting := l.reverse } }

/-- The restart at the head of a reversion has succeeded. -/
def reverted (s : Block) : Block := revertNext { s with fw := { s.fw with reverting := s.fw.reverting.drop 1 } }

/-! ## Lockstep (R334) -/

/-- The outputs of a pair differ: the event is latched and the pair restarts. -/
def lockstepHit (n : Nat) (inj : Bool) (s : Block) : Block :=
  let code := if n = 2 then 0x04 else 0x05
  let s := { s with pwr := { s.pwr with lockLatch := s.pwr.lockLatch ++ [(code, inj)] } }
  trimBuffer (beginRestart n (proc s n).staged (setRelBit 0 true s))

/-- An armed injection inverts a comparator input of a running pair for one cycle (R352). -/
def lockstepCycle (s : Block) : Block :=
  let one := fun (code n : Nat) (s : Block) => if injects s code (procLoc n) && procUp s n then lockstepHit n true (injectFire s) else s
  one 0x05 0 (one 0x04 2 s)

end Sys2Proof.Machine
end

