-- ==== Sys2Proof/Machine/Precision.lean ====
section
/-! DEFINITION. Precision control (R134 to R151): the trip and clean tests, the local proposals, the
storm, the rounding to compiled variants, the two rounds of the vote, the reserve, and the new rungs
and levels. -/

namespace Sys2Proof.Machine

/-! ## State words (R139) -/

/-- The state word of a cset (0x2341). -/
def csetWord (s : Block) (i : Nat) : Nat := leAt (dom s 0x234100) (4 * i) 4
def setCsetWord (i w : Nat) (s : Block) : Block := setDom 0x234100 (splice (dom s 0x234100) (4 * i) (leBytes 4 w)) s

def cwRung (w : Nat) : Nat := min 2 (fld w 0 2)
def cwPin (w : Nat) : Bool := bit w 4
def cwStorm (w : Nat) : Bool := bit w 5
def cwCeil (w : Nat) : Bool := bit w 6
def cwHeld (w : Nat) : Bool := bit w 7
def cwNeed (w : Nat) : Nat := fld w 8 12
def cwRun (w : Nat) : Nat := fld w 20 12

/-- A state word from its fields; RUN saturates. -/
def mkCword (rung : Nat) (pin storm ceil held : Bool) (need run : Nat) : Nat :=
  rung % 4 + b2n pin * 16 + b2n storm * 32 + b2n ceil * 64 + b2n held * 128 + need % 4096 * 256 + min run 4095 * 2 ^ 20

/-- The rung of a cset in force. -/
def rungOf (s : Block) (cset : Nat) : Nat := cwRung (csetWord s cset)

/-! ## Trip and clean (R137, R138) -/

/-- The class of a cset's role (R134): roles 2 and 4 are gradient, the precision table says so for role 7. -/
def csetGradient (s : Block) (cset : Nat) : Bool :=
  cset % 8 == 2 || cset % 8 == 4 || (cset % 8 == 7 && precGradient s cset)

/-- The four thresholds of a cset's class. -/
def thrOf (s : Block) (cset : Nat) : List Nat :=
  let b := if csetGradient s cset then 0x230005 else 0x230001
  [numF s b, numF s (b + 1), numF s (b + 2), numF s (b + 3)]

/-- A cset trips (R137). -/
def trips (thr : List Nat) (c : CSet) (n : Nat) : Bool :=
  decide (0 < n) && (decide (nth thr 0 0 * n < c.zeroed * 2 ^ 24) || decide (nth thr 1 0 * n < c.saturated * 2 ^ 24) ||
    decide (nth thr 2 0 * n < c.bov * 2 ^ 24) || decide (nth thr 3 0 < c.lvlOvf))

/-- A step is clean for a cset (R138): count * 2^24 ≤ thr * margin / 256 * n_elem. -/
def cleanStep (thr : List Nat) (margin : Nat) (c : CSet) (n : Nat) : Bool :=
  decide (0 < n) && c.lvlOvf == 0 && decide (c.zeroed * 2 ^ 32 ≤ nth thr 0 0 * margin * n) &&
    decide (c.saturated * 2 ^ 32 ≤ nth thr 1 0 * margin * n) && decide (c.bov * 2 ^ 32 ≤ nth thr 2 0 * margin * n)

/-- The pin byte of a cset, and the rung it pins. -/
def pinByte (s : Block) (cset : Nat) : Nat := leAt (domF s 0x231100) cset 1
def pinned (s : Block) (cset : Nat) : Bool := bit (pinByte s cset) 7
def pinRung (s : Block) (cset : Nat) : Nat := min 2 (fld (pinByte s cset) 0 2)

/-! ## Local proposals (R140) -/

/-- The variant table of the closing step: in a replay, the manifest's. -/
def stepTable (s : Block) : Bytes := if s.recov.replay then slice s.recov.replayManifest 0x230 256 else variantTable s

/-- A rung of a variant table, and the rung that a cset ran in the closing step. -/
def tableRung (tbl : Bytes) (cset : Nat) : Nat := min 2 (fld (leAt tbl (cset / 4) 1) (2 * (cset % 4)) 2)
def ranRung (s : Block) (cset : Nat) : Nat := tableRung (stepTable s) cset

/-- Sums of a cset at this boundary. -/
def csetSum (s : Block) (cset : Nat) : CSet := mapGet csetZero s.bnd.sums cset

/-- The local proposal of one cset; `may` is false when the step is known not to advance (R142). -/
def localDec (may : Bool) (s : Block) (cset : Nat) : CDec :=
  let w := csetWord s cset
  let r := cwRung w
  let n := precElems s cset (ranRung s cset)
  let thr := thrOf s cset
  let c := csetSum s cset
  let t := trips thr c n
  let cl := may && !t && cleanStep thr (numF s 0x231004) c n
  let mode := numF s 0x231001
  let nDown := numF s 0x231002
  let quiet := if r = 0 ∧ !t then mapGet 0 s.bnd.atZero cset + 1 else 0
  let need0 := if r = 0 ∧ nDown ≤ quiet then nDown else cwNeed w
  let down := mapGet 0 s.bnd.sinceDown cset
  let d : CDec :=
    { cset, present := r, proposal := r, run := cwRun w, need := need0, tripped := t, clean := false, storm := false,
      ceil := false, pin := pinned s cset, held := false, mapped := [], freed := [], word0 := w, down0 := down }
  if pinned s cset then { d with proposal := pinRung s cset, run := 0 }
  else if mode = 2 then { d with proposal := 0, run := 0, need := nDown }
  else if mode = 1 then d
  else if t then
    let again := down ≠ 0 ∧ stepNo s + 1 < down + nDown
    { d with proposal := min 2 (r + 1), run := 0, ceil := r == 2
             need := if again then min (2 * need0) (max (numF s 0x231003) nDown) else need0 }
  else if cl then
    let run := min 4095 (cwRun w + 1)
    if 1 ≤ r ∧ need0 ≤ run then { d with clean := true, proposal := r - 1, run := 0 }
    else { d with clean := true, run }
  else { d with run := 0 }

/-! ## Storms (R148) -/

/-- Every layer of an enabled cset has a non-pinned cset that trips. -/
def stormNow (s : Block) (ds : List CDec) : Bool :=
  numF s 0x231001 == 0 && !ds.isEmpty &&
    ds.all (fun d => ds.any (fun e => e.cset / 8 == d.cset / 8 && !e.pin && e.tripped))

/-- A storm raises every cset that is not pinned. -/
def stormDecs (storm : Bool) (ds : List CDec) : List CDec :=
  if storm then ds.map (fun d => if d.pin then d else { d with proposal := 2, storm := true }) else ds

/-! ## Variants (R143, R144, R189) -/

/-- A product has a compiled variant for a pair of rungs. -/
def hasVariant (s : Block) (p r w : Nat) : Bool := prodSeg s p r w != 0xFFFF

/-- The compiled variant for a pair of proposed rungs: each at least the proposed one, the smallest sum,
then the lower row rung. A product of one cset with itself has one rung. -/
def variantOf (s : Block) (p r w : Nat) : Nat × Nat :=
  let one := prodRow s p == prodWeight s p
  let all := [(0, 0), (0, 1), (1, 0), (0, 2), (1, 1), (2, 0), (1, 2), (2, 1), (2, 2)]
  match all.find? (fun v => decide (r ≤ v.1) && decide (w ≤ v.2) && (!one || v.1 == v.2) && hasVariant s p v.1 v.2) with
  | some v => v
  | none => (2, 2)

/-- The proposal of a cset: 0 for one that is disabled. -/
def propOf (ds : List CDec) (cset : Nat) : Nat :=
  match ds.find? (fun d => d.cset == cset) with
  | some d => d.proposal
  | none => 0

/-- Raise a cset's proposal. -/
def raiseTo (cset r : Nat) (ds : List CDec) : List CDec :=
  ds.map (fun d => if d.cset = cset then { d with proposal := max d.proposal r } else d)

/-- Round the proposals of every product once. -/
def roundOnce (s : Block) (ds : List CDec) : List CDec :=
  (List.range (partCount s 7)).foldl (fun ds p =>
    let v := variantOf s p (propOf ds (prodRow s p)) (propOf ds (prodWeight s p))
    raiseTo (prodRow s p) v.1 (raiseTo (prodWeight s p) v.2 ds)) ds

/-- Round until nothing rises: every pass but the last raises a cset, and a cset rises at most twice. -/
def roundDecs (s : Block) (ds : List CDec) : List CDec := iter (roundOnce s) (2 * ds.length + 1) ds

/-- The segment of a product for the rungs in force. -/
def productSeg (s : Block) (p : Nat) : Nat :=
  let v := variantOf s p (rungOf s (prodRow s p)) (rungOf s (prodWeight s p))
  prodSeg s p v.1 v.2

/-! ## The vote (R145, R146) -/

/-- The slots a cset's group names, the module itself apart. -/
def votePeers (s : Block) (cset : Nat) : List Nat :=
  (voteMembers s (precGroup s cset)).filter (fun m => m != s.arc.slot)

/-- Every peer of the boundary's vote. -/
def allPeers (s : Block) : List Nat := (s.bnd.decs.flatMap (fun d => votePeers s d.cset)).foldl setAdd []

/-- The vote message of a round for one peer: subtype 0x31, round, ATTEMPT, step, epoch and the items
(log 42). An item is a cset, a rung or held bit, and a tracker. -/
def voteData (s : Block) (round : Nat) (items : List (Nat × Nat × Option Int)) : Bytes :=
  leBytes 1 0x31 ++ leBytes 1 round ++ leBytes 1 (s.bnd.attempt % 256) ++ leBytes 8 (stepNo s) ++ leBytes 4 (epochNo s) ++
    leBytes 2 items.length ++
    items.flatMap (fun i => leBytes 2 i.1 ++ leBytes 1 i.2.1 ++ leBytes 1 (b2n i.2.2.isSome) ++ leBytes 2 (unsigned 16 (i.2.2.getD 0)))

/-- Read the items of a vote message. -/
def voteItems : Nat → Bytes → List (Nat × Nat × Option Int)
  | 0, _ => []
  | n + 1, b => (leAt b 0 2, leAt b 2 1, if leAt b 3 1 = 0 then none else some (signed 16 (leAt b 4 2))) :: voteItems n (b.drop 6)

/-- Send a round's messages: each peer gets the items of the csets whose group names it. -/
def sendVote (round : Nat) (item : CDec → Option (Nat × Nat × Option Int)) (s : Block) : Block :=
  forEach (allPeers s) (fun m s =>
    sendCtrl m 0 0 (voteData s round ((s.bnd.decs.filter (fun d => (votePeers s d.cset).contains m)).filterMap item)) s) s

/-- A vote of this step and epoch. -/
def voteFits (s : Block) (round : Nat) (v : VoteF) : Bool :=
  v.round == round && v.step == stepNo s && v.epoch == epochNo s

/-- The vote of a peer in a round. -/
def voteBy (s : Block) (round slot : Nat) : Option VoteF := s.bnd.votes.find? (fun v => v.slot == slot && voteFits s round v)

/-- The messages a vote has used: the first of each peer and round. Others of the step stay for its retry. -/
def spendVotes (s : Block) : Block :=
  let used := [1, 2].flatMap (fun r => (allPeers s).filterMap (voteBy s r))
  { s with bnd := { s.bnd with votes := used.foldl (fun l v => l.erase v) s.bnd.votes } }

/-- Every peer's message of a round is held. -/
def votesIn (s : Block) (round : Nat) : Bool := (allPeers s).all (fun m => (voteBy s round m).isSome)

/-- What the peers of a cset say of it in a round. -/
def peerItems (s : Block) (round cset : Nat) : List (Nat × Option Int) :=
  (votePeers s cset).filterMap (fun m =>
    (voteBy s round m).bind (fun v => (v.items.find? (fun i => i.1 == cset)).map (·.2)))

/-- Count a discarded message. -/
def voteDiscard (s : Block) : Block := bumpNum 0x234207 32 1 s

/-! ## Round 1 and the reserve (R141 steps 2 to 6) -/

/-- Put the decisions in the journal. -/
def setDecs (ds : List CDec) (s : Block) : Block := { s with bnd := { s.bnd with decs := ds } }

/-- Form the proposals (steps 2 to 4) and start round 1. `may` is false when the step is known not to advance. -/
def formProposals (may : Bool) (s : Block) : Block :=
  let ds := (precSets s).map (localDec may s)
  let storm := stormNow s ds
  let s := setDecs (roundDecs s (stormDecs storm ds)) s
  let s := { s with bnd := { s.bnd with stormNow := storm } }
  sendVote 1 (fun d => some (d.cset, d.proposal, (csetSum s d.cset).tracker)) s

/-- The largest proposal and tracker of a cset after round 1. -/
def afterRound1 (s : Block) : Block :=
  let sums := s.bnd.decs.foldl (fun m d =>
    mapMod csetZero m d.cset (fun c => { c with tracker := (peerItems s 1 d.cset).foldl (fun t i => maxT t i.2) c.tracker })) s.bnd.sums
  let ds := s.bnd.decs.map (fun d => { d with proposal := (peerItems s 1 d.cset).foldl (fun r i => max r (min 2 i.1)) d.proposal })
  let s := { s with bnd := { s.bnd with sums := sums } }
  setDecs (roundDecs s ds) s

/-- Order of the reserve: rising priority number, then rising cset (R147). -/
def prioInsert (s : Block) (d : CDec) : List CDec → List CDec
  | [] => [d]
  | e :: r => if precPriority s e.cset ≤ precPriority s d.cset then e :: prioInsert s d r else d :: e :: r

/-- Map a page to another frame for now; its own frame is kept. -/
def mapAway (page fk : Nat) (s : Block) : Block :=
  let e := pmapEntry s page
  let s := { s with mem := { s.mem with ownFrames := mapSet 0 s.mem.ownFrames page (peHere e + 1) } }
  pmapSet page (peSetHere e fk) s

/-- The page of an index of the region, the mapped indices, and the free ones within its size. -/
def regionPage (s : Block) (i : Nat) : Nat := imgResBase s / 2 ^ 20 + i
def regionUsed (s : Block) : List Nat := s.bnd.reserve.map (·.1)
def regionFree (s : Block) : List Nat :=
  (List.range (min (numF s 0x235001) (imgResPages s))).filter (fun i => !((regionUsed s).contains i))
def reserveRoom (s : Block) : Nat := (regionFree s).length

/-- Frames that disabled cache slots have freed (R302) and that back no page of the region. -/
def freedFrames (s : Block) : List Nat :=
  let region := (regionUsed s).map (regionPage s)
  let used := region.map (fun p => peHere (pmapEntry s p))
  (s.mem.ownFrames.filterMap (fun e => if region.contains e.1 then none else some (e.2 - 1))).filter (fun f => !(used.contains f))

/-- 0x2350.02 counts the mapped pages. -/
def countReserve (s : Block) : Block := setNum 0x235002 s.bnd.reserve.length s

/-- Map an index of the region for a cset: a freed frame backs its page before its own. -/
def takePage (cset i : Nat) (s : Block) : Block :=
  let f := freedFrames s
  let s := { s with bnd := { s.bnd with reserve := mapSet 0 s.bnd.reserve i (cset + 1) } }
  match f with
  | fk :: _ => mapAway (regionPage s i) fk s
  | [] => pmapSet (regionPage s i) (putBit (pmapEntry s (regionPage s i)) 0 true) s

/-- Free an index of the region: its page has its own frame again. -/
def dropPage (i : Nat) (s : Block) : Block :=
  let p := regionPage s i
  let own := mapGet 0 s.mem.ownFrames p
  let s := { s with bnd := { s.bnd with reserve := mapSet 0 s.bnd.reserve i 0 } }
  if own = 0 then s
  else pmapSet p (peSetHere (pmapEntry s p) (own - 1)) { s with mem := { s.mem with ownFrames := mapSet 0 s.mem.ownFrames p 0 } }

/-- The pages that a raised cset maps, the lowest free ones, and those that a lowered one frees, its highest (log 77). -/
def pagesFor (s : Block) (n : Nat) : List Nat := (regionFree s).take n
def pagesBack (s : Block) (cset n : Nat) : List Nat :=
  ((s.bnd.reserve.filter (fun e => e.2 == cset + 1)).map (·.1)).reverse.take n

/-- Map pages of the region for a cset, or free pages. A replay changes no mapping (R373). -/
def takePages (cset : Nat) (ps : List Nat) (s : Block) : Block :=
  if s.recov.replay then s else countReserve (forEach ps (takePage cset) s)
def dropPages (ps : List Nat) (s : Block) : Block :=
  if s.recov.replay then s else countReserve (forEach ps dropPage s)

/-- Map or hold every raised cset: the csets and the pages each takes, or none where it is held. -/
def allocDecs (s : Block) (ds : List CDec) : List (Nat × Option Nat) :=
  let raised := (ds.filter (fun d => decide (d.present < d.proposal))).foldl (fun l d => prioInsert s d l) []
  (raised.foldl (fun (acc : List (Nat × Option Nat) × Nat) d =>
    let extra := precPages s d.cset d.proposal - precPages s d.cset d.present
    if extra ≤ acc.2 then (acc.1 ++ [(d.cset, some extra)], acc.2 - extra) else (acc.1 ++ [(d.cset, none)], acc.2))
    ([], reserveRoom s)).1

/-- Step 6: allocate and map, and send round 2. -/
def allocReserve (s : Block) : Block :=
  let s := forEach (allocDecs s s.bnd.decs) (fun a s => match a.2 with
    | some n =>
      let ps := pagesFor s n
      takePages a.1 ps (setDecs (s.bnd.decs.map (fun d => if d.cset = a.1 then { d with mapped := ps } else d)) s)
    | none => setDecs (s.bnd.decs.map (fun d => if d.cset = a.1 then { d with held := true } else d)) s) s
  sendVote 2 (fun d => if d.present < d.proposal then some (d.cset, b2n d.held, none) else none) s

/-- Round 2: a cset that any member holds keeps its rung, and its pages are free again. -/
def afterRound2 (s : Block) : Block :=
  let ds := s.bnd.decs.map (fun d =>
    let h := decide (d.present < d.proposal) && (d.held || (peerItems s 2 d.cset).any (fun i => i.1 % 2 == 1))
    if h then { d with held := true, proposal := d.present } else d)
  setDecs (ds.map (fun d => if d.held then { d with mapped := [] } else d))
    (forEach ds (fun d s => if d.held then dropPages d.mapped s else s) s)

/-! ## New rungs, levels and reports (R129, R141 steps 7 and 8, R150, R151) -/

/-- The new state word of a decision. RUN counts at one rung: a change of rung ends it (R139). -/
def decWord (d : CDec) : Nat :=
  let storm := if d.proposal < d.present then false else if d.present < d.proposal then d.storm else cwStorm d.word0
  mkCword d.proposal d.pin storm d.ceil d.held d.need (if d.proposal = d.present then d.run else 0)

/-- PIN of the csets that take no part (R139): it follows the pin table. -/
def pinWords (s : Block) : Block :=
  setDom 0x234100 ((List.range 1024).flatMap (fun c =>
    leBytes 4 (if precEnabled s c then csetWord s c else putBit (csetWord s c) 4 (pinned s c)))) s

/-- Write one cset's new rung. -/
def applyDec (d : CDec) (s : Block) : Block :=
  let s := setCsetWord d.cset (decWord d) s
  let moved := d.proposal ≠ d.present
  let quiet := if moved ∨ d.tripped ∨ d.present ≠ 0 then 0 else mapGet 0 s.bnd.atZero d.cset + 1
  let s := { s with bnd := { s.bnd with
    atZero := mapSet 0 s.bnd.atZero d.cset quiet
    sinceDown := if d.proposal < d.present then mapSet 0 s.bnd.sinceDown d.cset (stepNo s + 2) else s.bnd.sinceDown } }
  dropPages d.freed s

/-- Write one byte of both program buffers. -/
def bufPut (off : Nat) (b : Byte) (s : Block) : Block :=
  { s with prog := { s.prog with bufA := mapSet 0 s.prog.bufA off b, bufB := mapSet 0 s.prog.bufB off b } }

/-- The level of a descriptor follows its cset's tracker (R129). -/
def lvlDec (s0 : Block) (n : Nat) (s : Block) : Block :=
  let off := partOff s0 4 + 64 * n
  let d := imgNum s0 off 64
  if tdLvlMode d = 0 then s
  else match (csetSum s0 (tdCset d)).tracker with
    | none => s
    | some t => bufPut (off + 1) (BitVec.ofNat 8 (clampI 0 254 (t - (numF s0 0x233000 : Nat) + 127)).toNat) s

/-- Every lvl_mode-1 descriptor. -/
def lvlAll (s : Block) : Block := forEach (List.range (64 * partCount s 4)) (lvlDec s) s

/-- A record of 0x2340. -/
def sumRec (c : CSet) : Bytes := leBytes 4 c.zeroed ++ leBytes 4 c.saturated ++ leBytes 4 c.bov ++ leBytes 2 c.lvlOvf ++ [0, 0]

/-- 0x2340: the sums of every cset. -/
def sumsImage (m : SMap CSet) : Bytes := m.foldl (fun b e => splice b (16 * e.1) (sumRec e.2)) (zeros 16384)

/-- Whether any pin is enabled. -/
def anyPin (s : Block) : Bool := (domF s 0x231100).any (fun b => bit b.toNat 7)

/-- Report the precision status (R151). -/
def reportPrec (status : Nat) (s : Block) : Block :=
  let s := setNum 0x234202 status (setNum 0x234201 (stepNo s) s)
  if status = 0 then s else alert 1 (status + stepNo s % 2 ^ 32 * 2 ^ 32) (notifyNum 0x234202 s)

/-- Bits of the precision status (R150). -/
def precStatus (changed storm held ceil retry pin frozen : Bool) : Nat :=
  b2n changed + 2 * b2n storm + 4 * b2n held + 8 * b2n ceil + 16 * b2n retry + 32 * b2n pin + 64 * b2n frozen

/-- The module writes 0 to 0x2310.01 once a reset to rung 0 has acted (R140); like any write it changes the staged value,
which the next adoption brings into force (R407). -/
def modeDone (s : Block) : Block :=
  if numF s 0x231001 ≠ 2 then s else pendingBit (markUnwritten 0x231001 (setNum 0x231001 0 s))

/-- Steps 7 and 8. `storm` says that the storm test of step 3 was met. -/
def finishVote (s : Block) : Block :=
  let ds := s.bnd.decs.map (fun d =>
    { d with freed := pagesBack s d.cset (precPages s d.cset d.present - precPages s d.cset d.proposal) })
  let s := setDecs ds s
  let storm := s.bnd.stormNow
  let stormDown := ds.any (fun d => decide (d.proposal < d.present) && cwStorm d.word0)
  let mode := numF s 0x231001
  let s := pinWords (forEach ds applyDec s)
  let s := lvlAll s
  let s := setDom 0x234000 (sumsImage s.bnd.sums) s
  let s := { s with bnd := { s.bnd with stormNow := false, storm := storm || (s.bnd.storm && !stormDown) } }
  let s := if storm then bumpNum 0x234203 32 1 s else s
  let s := bumpNum 0x234204 32 (ds.filter (fun d => decide (d.present < d.proposal))).length s
  let s := bumpNum 0x234205 32 (ds.filter (fun d => decide (d.proposal < d.present))).length s
  let s := setNum 0x234206 (ds.filter (·.held)).length s
  let s := modeDone s
  reportPrec (precStatus (ds.any (fun d => d.proposal != d.present)) s.bnd.storm (ds.any (·.held)) (ds.any (·.ceil)) false
    (anyPin s) (mode == 1)) s

/-- A vote that fails changes no cset, and the pages mapped for it are free again (R146). -/
def failVote (s : Block) : Block :=
  let s := forEach s.bnd.decs (fun d s => dropPages d.mapped s) s
  let s := stepBit 9 { s with bnd := { s.bnd with decs := [], sums := [], stormNow := false } }
  reportPrec (precStatus false s.bnd.storm false false true (anyPin s) (numF s 0x231001 == 1)) s

/-- Take back what a clean step gave, when the step does not advance after all (R142, log 47): RUN
is 0 and no rung stepped down. -/
def revokeDec (d : CDec) (s : Block) : Block :=
  if !d.clean then s
  else
    let down := decide (d.proposal < d.present)
    let r := if down then d.present else d.proposal
    let w := csetWord s d.cset
    let s := setCsetWord d.cset (mkCword r d.pin (if down then cwStorm d.word0 else cwStorm w) d.ceil d.held d.need 0) s
    if !down then s
    else
      let s := { s with bnd := { s.bnd with sinceDown := mapSet 0 s.bnd.sinceDown d.cset d.down0 } }
      let s := takePages d.cset d.freed s
      let s := setNum 0x234205 (num s 0x234205 - 1) s
      if cwStorm d.word0 then { s with bnd := { s.bnd with storm := true } } else s

/-- The decisions as a boundary that does not advance leaves them. -/
def revokedDecs (ds : List CDec) : List CDec :=
  ds.map (fun d => if d.clean then { d with proposal := max d.present d.proposal, run := 0, clean := false } else d)

/-- Every cset; the precision status then describes what is left (R150, log 47). -/
def revokeClean (s : Block) : Block :=
  if !(s.bnd.decs.any (·.clean)) then s
  else
    let s := setDecs (revokedDecs s.bnd.decs) (forEach s.bnd.decs revokeDec s)
    let old := num s 0x234202
    setNum 0x234202 (putBit (putBit old 0 (s.bnd.decs.any (fun d => d.proposal != d.present))) 1 s.bnd.storm) s

end Sys2Proof.Machine
end

