-- ==== Sys2Proof/Machine/Boundary.lean ====
section
/-! DEFINITION. The step boundary (R27, R211 to R213): its actions in order, with the waits for votes and
the agreement, the commit record (R324 to R328), re-sharding (R309, R310), the run list (R189), and
the boundary actions of a resume (R365). -/

namespace Sys2Proof.Machine

/-! ## Bits kept beside the step status while a step closes -/

/-- 16 a failure other than a rejection, 17 a program word that cannot be repaired, 18 a split. -/
def noteBit (n : Nat) (s : Block) : Block := { s with bnd := { s.bnd with bits := putBit s.bnd.bits n true } }

/-! ## The commit record (R325 to R327) -/

/-- Both copies of the record take a value. -/
def setRecord (r : CommitRec) (s : Block) : Block := { s with upd := { s.upd with recA := r, recB := r } }

/-- The empty record. -/
def recEmpty : CommitRec := { valid := true, state := 0, step := 0, lepoch := 0, entries := [] }

/-- Flip SEL of every entry to its target, as one event. -/
def flipEntries (l : List (Nat × Nat)) (s : Block) : Block :=
  forEach l (fun e s => pmapSet e.1 (putBit (pmapEntry s e.1) 5 (e.2 == 1)) s) s

/-- Step 4 and 5 of R326: the flip with the advance, then DONE. -/
def applyRecord (s : Block) : Block :=
  let r := s.upd.recA
  let s := setNum 0x600001 r.step (flipEntries r.entries s)
  setRecord { r with state := 3 } s

/-- The copy with a valid digest and the higher state (R327). -/
def bestRecord (a b : CommitRec) : CommitRec := if a.valid && (!b.valid || decide (b.state ≤ a.state)) then a else b

/-- What the scheduler core does with the record when it starts with memory kept (R327). The spec gives the record of
no valid copy no code; it has code 0 (log 52). -/
def recoverRecord (s : Block) : Block :=
  let r := bestRecord s.upd.recA s.upd.recB
  if !r.valid then cperNow 0 3 0 0 0 (domLoc 11) 0 [] s
  else if r.state = 1 then setRecord recEmpty { s with bnd := { s.bnd with advance := false } }
  else if r.state = 2 then updBit 7 true (applyRecord (setRecord r s))
  else s

/-- A commit-record image (0x6062); that of an EMPTY record where there is none (R331). -/
def recordImage (r : CommitRec) : Bytes :=
  let entries := r.entries.flatMap (fun e => leBytes 4 (e.1 % 2 ^ 19 + e.2 % 2 * 2 ^ 31))
  let body := slice (leBytes 8 r.step ++ leBytes 4 r.entries.length ++ leBytes 2 r.lepoch) 0 60
  leBytes 2 1 ++ leBytes 2 r.state ++ body ++ sha512 (leBytes 2 1 ++ body ++ entries) ++ entries

/-! ## (a) The snapshot and what is summed and cleared (R27, R131, R170, R239, R217) -/

/-- Replace the arcade objects in force by the snapshot's; the mark says that they changed. -/
def adoptArcade (s : Block) : Block :=
  let n := mapFilter (fun k => !arcadeKey k) s.store.forceN
  let merge := fun (a : SMap Nat) (b : SMap Nat) => b.foldl (fun m e => mapSet (numDflt s.arc.slot e.1) m e.1 e.2) a
  let mergeD := fun (a : SMap Bytes) (b : SMap Bytes) => b.foldl (fun m e => mapSet (domDflt e.1) m e.1 e.2) a
  let fn := merge n (arcadePart s.bnd.snapN)
  let fd := mergeD (mapFilter (fun k => !arcadeKey k) s.store.forceD) (arcadePart s.bnd.snapD)
  let ch := decide (fn ≠ s.store.forceN) || decide (fd ≠ s.store.forceD)
  { s with store := { s.store with forceN := fn, forceD := fd }, bnd := { s.bnd with planChanged := s.bnd.planChanged || ch } }

/-- Copy the snapshot into force, marking a change of arcade objects. -/
def adoptSnapshot (s : Block) : Block :=
  let ch := decide (arcadePart (digestPart s.bnd.snapN) ≠ arcadePart s.store.forceN) ||
    decide (arcadePart (digestPart s.bnd.snapD) ≠ arcadePart s.store.forceD)
  adoptSnap { s with bnd := { s.bnd with planChanged := s.bnd.planChanged || ch } }

/-- Mode 0: the snapshot adopts the staged values (R408). -/
def adoptOpen (s : Block) : Block :=
  if numS s 0x1F1003 = 0 ∧ !s.recov.replay then
    if snapDiffers s then pendingBit (setDecl 1 (setEpoch (epochNo s + 1) (adoptSnapshot s))) else pendingBit (setDecl 0 s)
  else s

/-- Take the snapshot. -/
def takeSnapshot (s : Block) : Block :=
  adoptOpen { s with bnd := { s.bnd with snapN := s.store.nums, snapD := s.store.doms } }

/-- Sum and clear the counter sets. -/
def sumCsets (s : Block) : Block :=
  let sums := s.gals.csets.foldl (fun m e => mapMod csetZero m (e.1 % 1024) (fun a => csetAdd a e.2)) []
  { s with bnd := { s.bnd with sums }, gals := { s.gals with csets := [] } }

/-- OR the lane flags of a bank over the bound galleries. -/
def bankFlags (s : Block) (bank : Nat) : Nat :=
  s.vec.flags.foldl (fun a e => if e.1 / 4 % 2 = bank ∧ (logicalOf s (e.1 / 8)).isSome then e.2.foldl (· ||| ·) a else a) 0

/-- Report and clear lane flags and the flags of adders and engines. -/
def takeFlags (s : Block) : Block :=
  let s := setNum 0x236002 (bankFlags s 1) (setNum 0x236001 (bankFlags s 0) s)
  let s := setNum 0x513002 s.mem.flagsSide (setNum 0x513001 s.mem.flags0 s)
  { s with vec := { s.vec with flags := [] }, mem := { s.mem with flags0 := 0, flagsSide := 0 } }

/-- Clear the POISONED marks that writes of 0x5122 asked for (R251). -/
def clearPoisonMarks (s : Block) : Block :=
  let l := s.mem.fix.clearPoisonReq
  let s := forEach l (fun p s => pmapSet p (putBit (pmapEntry s p) 4 false) s) s
  reportPoison { s with mem := { s.mem with fix := { s.mem.fix with clearPoisonReq := [] } } }

/-- Rewrite program words that both halls lost from the image in memory, when it is still there (R335). -/
def repairProgram (s : Block) : Block :=
  let bad := s.prog.badA.filter (s.prog.badB.contains ·)
  if bad.isEmpty then s
  else
    let (d, s) := memRead 0 s.prog.source s.prog.size s
    if anyPoison d || sha512 (plain d) != dom s 0x603002 then noteBit 17 s
    else
      let s := forEach bad (fun w s => forEach (List.range 8) (fun i s =>
        bufPut (8 * w + i) (nth (plain d) (8 * w + i) 0) s) s) s
      { s with prog := { s.prog with badA := s.prog.badA.filter (fun w => !(bad.contains w)),
                                     badB := s.prog.badB.filter (fun w => !(bad.contains w)) } }

/-- An injection with trigger 1 fires at the boundary (R353). Where its injection point is an operation of the data plane, of
which a boundary has none, its event alone is made (log 44). -/
def fireBoundary (s : Block) : Block :=
  let i := s.rel.inject
  let l := fld i.loc 25 5
  let lane := fld i.loc 20 5
  if !(armed s) || i.trigger != 1 then s
  else if (i.detector = 0x04 ∧ i.loc = procLoc 2 ∧ procUp s 2) then lockstepHit 2 true (injectFire s)
  else if (i.detector = 0x05 ∧ i.loc = procLoc 0 ∧ procUp s 0) then lockstepHit 0 true (injectFire s)
  else if (i.detector = 0x0D ∧ i.loc = laneLoc l lane ∧ l < 18) then retireLane l lane 1 true true (injectFire s)
  else if (i.detector = 0x0E ∧ i.loc = laneLoc l 0 ∧ l < 18) then linkGoes true l 1 7 (injectFire s)
  else if (i.detector = 0x0F ∧ i.loc = domLoc 8) then detect 0x0F (domLoc 8) true 0 0 [] (injectFire s)
  else if (i.detector = 0x18 ∧ i.loc = domLoc 10) then
    let s := injectFire s
    { s with pwr := { s.pwr with offsetPolls := 200 } }
  else if (i.detector = 0x19 ∧ i.loc = domLoc 9) then detectAt 50 0x19 (domLoc 9) true 0 0 [] (injectFire s)
  else detect i.detector i.loc true 0 0 [] (injectFire s)

/-- The working-copy descriptors of the step's blocks, with their turn seeds, as a redo needs them (R324). -/
def stepDescs (s : Block) : List (Nat × Nat × Nat) :=
  s.upd.log.map (fun l =>
    let blk := updBlock s l.upd
    let d := wcDesc s blk
    (ubWdesc blk, d, turnSeed s (tdTseed d)))

/-- Action (a). -/
def actSnapshot (s : Block) : Block :=
  let s := { s with bnd := { s.bnd with manifest := manifestHead s ++ stepTable s, decs := [], stormNow := false } }
  let s := takeSnapshot { s with upd := { s.upd with
    etaLate := false, hypers := (List.range 16).map (fun i => domF s (0x601101 + i)), wdescs := stepDescs s } }
  let s := takeFlags (sumCsets s)
  let s := { s with side := [], gals := { s.gals with alcPair := false, quadPair := false, nextPair := none } }
  fireBoundary (repairProgram (clearPoisonMarks (relBoundary s)))

/-! ## The agreement group (R409) -/

/-- Members of the agreement group other than the module, by slot: 127 for one to which the rank table gives none. Its
message is always missing. -/
def agreePeers (s : Block) : List Nat :=
  ((maskBits 64 (numS s 0x1F1004)).map (rankSlot s)).filter (· != s.arc.slot)

/-- The agreement group is in use: mode 1 and a group. -/
def agreeGroup (s : Block) : Bool := numS s 0x1F1003 == 1 && numS s 0x1F1004 != 0

/-- The own verdict. In mode 0 no module checks another; in a replay nothing is adopted. -/
def ownVerdict (s : Block) : Bool × Nat × Nat :=
  if numS s 0x1F1003 = 0 ∨ s.recov.replay then (true, epochNo s, 0) else snapVerdict s

/-- The message of a member for this step and attempt. -/
def agreeBy (s : Block) (slot : Nat) : Option AgreeF :=
  s.bnd.agrees.find? (fun a => a.slot == slot && a.step == stepNo s && a.attempt == s.bnd.attempt % 256)

/-! ## (b) Precision control -/

/-- What a replay's precision control must not change. -/
def keepPrecision (old s : Block) : Block :=
  if !s.recov.replay then s
  else
    let s := setNum 0x235002 (num old 0x235002) (setDom 0x234100 (dom old 0x234100) s)
    { s with prog := { s.prog with bufA := old.prog.bufA, bufB := old.prog.bufB }
             bnd := { s.bnd with storm := old.bnd.storm, sinceDown := old.bnd.sinceDown, atZero := old.bnd.atZero } }

/-- Build the routes with what adoption changed in the plan, the ports and the ranks. -/
def buildRoutes (s : Block) : Block :=
  let s := routeBuild s.bnd.planChanged s
  { s with bnd := { s.bnd with planChanged := false } }

/-- What is known at action (b) lets the step advance (R142): no failure, no NaN loss, no refusal of its own or of
a member whose message is held, and enough ports and paths once action (d) has built the routes (log 47). -/
def mayAdvance (s : Block) : Bool :=
  let v := ownVerdict s
  fld s.bnd.bits 5 6 == 0 && !(updateNonfinite s).1 && v.1 && !(underConn (buildRoutes s)) &&
    (!(agreeGroup s) || (agreePeers s).all (fun m => match agreeBy s m with
      | some a => a.ok && a.prop == v.2.1
      | none => true))

/-- End of the vote. -/
def endVote (s : Block) : Block := spendVotes (keepPrecision s (finishVote s))
def lostVote (s : Block) : Block := let t := spendVotes s; keepPrecision t (failVote t)

/-! ## Splits (R411) -/

/-- A later message of a group member is held. -/
def laterHeld (s : Block) : Bool :=
  s.bnd.votes.any (fun v => (agreePeers s).contains v.slot && decide (stepNo s < v.step)) ||
    s.bnd.agrees.any (fun a => (agreePeers s).contains a.slot && decide (stepNo s < a.step))

/-- The split bit of this boundary, which a new declaration status keeps. -/
def splitBit (s : Block) : Nat := 32 * b2n (bit s.bnd.bits 18)

/-- The end of a wait finds a split. -/
def checkSplit (s : Block) : Block :=
  if laterHeld s || s.bnd.splitFrom.any ((agreePeers s).contains ·) then
    noteBit 18 (setDecl (putBit (num s 0x1F1005) 5 true) s)
  else s

/-! ## (c) The agreement (R409) -/

/-- Start of action (c): send the verdict to every member. -/
def startAgree (s : Block) : Block :=
  let v := ownVerdict s
  let s := { s with bnd := { s.bnd with prop := v.2.1, agreed := v.1 } }
  if !(agreeGroup s) then s
  else forEach ((agreePeers s).filter (· != 127)) (fun m s => sendCtrl m 0 (epochNo s)
      (leBytes 1 0x30 ++ leBytes 1 (s.bnd.attempt % 256) ++ leBytes 8 (stepNo s) ++ leBytes 4 (epochNo s) ++ leBytes 4 v.2.1 ++
        leBytes 1 (b2n v.1)) s) s

/-- Every member's message is held. -/
def agreesIn (s : Block) : Bool := !(agreeGroup s) || (agreePeers s).all (fun m => (agreeBy s m).isSome)

/-- The decision; a missing message counts as a refusal. -/
def decideAgree (s : Block) : Block :=
  let v := ownVerdict s
  let msgs := (agreePeers s).map (agreeBy s)
  -- a module that refuses proposes no epoch of its own for the others to meet
  let prop := if v.1 then v.2.1 else ((msgs.head?.getD none).map (·.prop)).getD v.2.1
  let peers := !(agreeGroup s) || msgs.all (fun m => match m with
    | some a => a.ok && a.prop == prop
    | none => false)
  let ok := v.1 && peers
  let s := { s with bnd := { s.bnd with agreed := ok, prop := v.2.1 } }
  let s := if ok then s else stepBit 7 (setDecl (v.2.2 + (if peers then 0 else 8) + splitBit s) s)
  pendingBit (if agreeGroup s then checkSplit s else s)

/-! ## (d) Routes -/

/-- The values of the snapshot come into force after this boundary. -/
def willAdopt (s : Block) : Bool := s.bnd.agreed && decide (epochNo s < s.bnd.prop) && !s.recov.replay

/-- Action (d). -/
def actRoutes (s : Block) : Block :=
  let s := if willAdopt s then adoptArcade s else s
  buildRoutes s

/-! ## (e) to (h) Commit and advance -/

/-! ## Plans of a new layout (R309, R310) -/

/-- The layout epoch a plan names (R309). -/
def planEpoch (p : Bytes) : Nat := leAt p 0 2

/-- Entries of a plan: page and the low 48 bits of the new entry. -/
def planEntries (p : Bytes) : List (Nat × Nat) :=
  (List.range (leAt p 12 4)).map (fun i => (leAt p (16 + 16 * i) 4, leAt p (20 + 16 * i) 6))

/-- The plan is well formed and its epoch follows. -/
def planGood (s : Block) (p : Bytes) : Bool :=
  decide (16 ≤ p.length) && p.length == 16 + 16 * leAt p 12 4 && planEpoch p == (lepochNo s + 1) % 65536 &&
    (planEntries p).all (fun e => decide (e.1 < 524288) && decide (fld e.2 8 14 ≤ 8319) && decide (fld e.2 28 14 ≤ 8319))

/-- The step may adopt the plan. -/
def planMay (s : Block) (p : Bytes) : Bool :=
  s.bnd.advance || (s.bnd.bits &&& 0x7E0 == 0x20 && !(bit s.bnd.bits 16) && !s.colls.rejects.isEmpty &&
    s.colls.rejects.all (fun r => (List.range 18).any (fun l => (link s l).peerSlot == r.2 && bcLepoch (link s l).beacon == planEpoch p)))

/-- The plan of the snapshot, if this boundary adopts it: `step` is the step number after it (R310). -/
def planTaken (s : Block) (step : Nat) : Option Bytes :=
  let p := domS s 0x605000
  if p ≠ [] ∧ planGood s p ∧ leAt p 4 8 ≤ step ∧ planMay s p then some p else none

/-- Action (e): evaluate, and write the record in state PREPARED. -/
def actCommit (s : Block) : Block :=
  let s := evalUpdate (updBit 7 false (updBit 0 false s))
  if s.recov.replay then s
  else
    let entries := s.bnd.commitPages.map (fun p => (p, 1 - b2n (peSel (pmapEntry s p))))
    let adv := s.bnd.bits &&& 0x7E0 == 0
    let after := { s with bnd := { s.bnd with advance := adv } }
    let le := ((planTaken after (stepNo s + b2n adv)).map planEpoch).getD (lepochNo s)
    setRecord { valid := true, state := 1, step := stepNo s + 1, lepoch := le, entries } s

/-- Action (f): the advance decision (R212). -/
def actAdvance (s : Block) : Block :=
  let adv := s.bnd.bits &&& 0x7E0 == 0 && !s.recov.replay
  let s := { s with bnd := { s.bnd with advance := adv } }
  if adv || s.recov.replay then s else revokeClean s

/-- Action (h). -/
def actApply (s : Block) : Block :=
  if s.recov.replay then setNum 0x606102 0 s
  else if s.bnd.advance then
    let r := s.upd.recA
    let s := applyRecord (setRecord { r with state := 2 } s)
    setNum 0x606102 s.bnd.commitBlocks (setNum 0x606101 r.step (updBit 0 true s))
  else setNum 0x606102 0 (setRecord recEmpty s)

/-! ## (i) Adoption (R409, R410) -/

/-- Action (i). -/
def actAdopt (s : Block) : Block :=
  let s := if numS s 0x1F1003 = 1 ∧ s.bnd.agreed ∧ !s.recov.replay then
      if epochNo s < s.bnd.prop then setDecl (1 + splitBit s) (setEpoch s.bnd.prop (adoptSnapshot s))
      else setDecl (splitBit s) s
    else s
  adoptMarks (pendingBit s)

/-! ## (j) Re-sharding (R302, R309, R310, R328) -/

/-- Write an entry of the plan, with the record's target where it lists the page. -/
def planWrite (s0 : Block) (ep : Nat) (e : Nat × Nat) (s : Block) : Block :=
  let t := if s0.bnd.advance then s0.upd.recA.entries.find? (fun r => r.1 == e.1) else none
  let v := match t with
    | some r => putBit e.2 5 (r.2 == 1)
    | none => e.2
  pmapSet e.1 (setFld v 48 16 ep) s

/-- Every VALID page takes the new epoch. -/
def newEpoch (ep : Nat) (s : Block) : Block :=
  let old := s.mem.pmap
  let s := { s with mem := { s.mem with pmapEpoch := ep } }
  forEach old (fun e s => if peValid (e.2 - 1) then pmapSet e.1 (setFld (e.2 - 1) 48 16 ep) s else s) s

/-- Give the pages that map elsewhere for now their own frames again. -/
def restoreFrames (s : Block) : Block :=
  let l := s.mem.ownFrames
  forEach l (fun e s => pmapSet e.1 (peSetHere (pmapEntry s e.1) (e.2 - 1)) s) { s with mem := { s.mem with ownFrames := [] } }

/-- Pages of the disabled cache slots, once each, with the page of the alias buffer each maps to. -/
def aliasPages (s : Block) : List (Nat × Nat) :=
  ((s.colls.gathers.filter (fun c => let d := collDesc s c; cdCslot d != 255 && !(slotEnabled s d))).flatMap (fun c =>
    let d := collDesc s c
    let (first, n) := gatherPages d
    (List.range n).map (fun i => (first + i, cdExp d / 2 ^ 20 + i)))).foldl
      (fun l e => if l.any (fun o => o.1 == e.1) then l else l ++ [e]) []

/-- The slots of R302: disabled slots map to the alias buffer, and their frames back the reserve. -/
def mapSlots (s : Block) : Block :=
  let l := aliasPages s
  let freed := l.map (fun e => peHere (pmapEntry s e.1))
  let s := forEach l (fun e s => mapAway e.1 (peHere (pmapEntry s e.2)) s) s
  forEach ((regionUsed s).zip freed) (fun e s => mapAway (regionPage s e.1) e.2 s) s

/-- The plan of the snapshot, if any: adopted, discarded or left for a later boundary (R310). -/
def reshard (s : Block) : Block :=
  let p := domS s 0x605000
  let empty := fun (s : Block) => if dom s 0x605000 = p then setDom 0x605000 [] s else s
  match planTaken s (stepNo s) with
  | some p =>
    let ep := planEpoch p
    let s := forEach (planEntries p) (planWrite s ep) (newEpoch ep s)
    collBit 5 (empty (setNum 0x605100 ep s))
  | none => if p ≠ [] ∧ !(planGood s p) then collBit 6 (empty s) else s

/-- Action (j). A replay changes no mapping (R373). -/
def actReshard (s : Block) : Block :=
  let s := { s with colls := { s.colls with cache := [] } }
  if s.recov.replay then s else mapSlots (reshard (restoreFrames s))

/-! ## (k), (l) Tokens and the run list (R28, R189) -/

/-- Action (k). -/
def actTokens (s : Block) : Block :=
  if s.bnd.advance then s else tokWrite false s.tok.start s

/-- The segment of a product for a table of rungs. -/
def segOf (s : Block) (tbl : Bytes) (p : Nat) : Nat :=
  let v := variantOf s p (tableRung tbl (prodRow s p)) (tableRung tbl (prodWeight s p))
  prodSeg s p v.1 v.2

/-- Walk the template from entry `i`; the answer says that it met an entry of KIND 3. -/
def runGo (s : Block) (tbl : Bytes) : Nat → Nat → List Nat × Bool
  | 0, _ => ([], false)
  | n + 1, i =>
    let w := runWord s i
    let k := fld w 30 2
    if k = 0 then let r := runGo s tbl n (i + 1); (fld w 0 16 :: r.1, r.2)
    else if k = 1 then let r := runGo s tbl n (i + 1); (segOf s tbl (fld w 0 12) :: r.1, r.2)
    else ([], k == 3)

/-- Slices of the image for a hall's queue: those whose first bundle names a gallery of the hall (R215). -/
def sliceHall (s : Block) (b : Bytes) : Nat :=
  let h := leAt b 0 8
  let g := if bit h 22 then (maskBits 48 (setMaskOf s (fld h 16 6))).headD 0 else fld h 16 6
  g / 24

/-- Fill both side queues with the image's slices (R215, log 51): a slice has a tag of 1 to 15 and at most four entry
conditions on counters 240 to 255. -/
def fillSide (s : Block) : Block :=
  let raw := (List.range (partSize s 11)).map (fun i => mapGet (0 : Byte) s.prog.bufA (partOff s 11 + i))
  let all : List SideSlice := if partSize s 11 = 0 then []
    else (Config.sideSlices raw).map (fun e => { tag := e.1, len := e.2.1, conds := e.2.2.1, bundles := e.2.2.2 })
  let ok := all.filter (fun q => decide (1 ≤ q.tag) && decide (q.tag ≤ 15) && !(s.stoppedTags.contains q.tag) &&
    decide (q.conds.length ≤ 4) && q.conds.all (fun c => decide (240 ≤ c.1) && decide (c.1 ≤ 255)))
  { s with sideA := (ok.filter (fun q => sliceHall s q.bundles == 0)).take 16,
           sideB := (ok.filter (fun q => sliceHall s q.bundles != 0)).take 16 }

/-- Put the program at the start of its run list. -/
def startRun (l : List Nat) (s : Block) : Block :=
  let seg := l.headD 0
  { s with prog := { s.prog with runList := l, segDone := 0, offset := partOff s 0 + segOffset s seg, lastBank := segBank s seg } }

/-- Action (l). -/
def buildRun (s : Block) : Block :=
  let r := runGo s (stepTable s) (partCount s 2) 0
  let s := if r.2 then logFault .program 255 0 0x189 0 s else s
  startRun r.1 (fillSide s)

/-! ## SBOUND completes -/

/-- η of the step that follows a snapshot, and its freshness (R321). -/
def settleEta (adv : Bool) (s : Block) : Block :=
  let u := s.upd
  let fresh := if adv then u.etaWritten else u.etaFresh || u.etaWritten
  let late := u.etaLate || (!adv && u.etaWritten && !u.etaFirst)
  let s := { s with upd := { u with etaFresh := fresh, etaWritten := late, etaLate := false, etaFirst := false, eta := if fresh then numS s 0x601001 else u.eta } }
  if fresh then setNum 0x601002 (stepNo s) s else s

/-- The step opens: one that has no fresh η runs with the previous one, and is counted (R321). -/
def openEta (s : Block) : Block :=
  if s.upd.etaFresh then updBit 2 false s else bumpNum 0x606105 32 1 (updBit 2 true s)

/-- The fields of a manifest that a replay compares (R373). -/
def comparable (m : Bytes) : Bytes :=
  let w := fun o (mask : Nat) (b : Bytes) => splice b o (leBytes 4 (leAt b o 4 &&& mask))
  let b := slice m 0 4096
  let b := splice (splice (splice b 2 (zeros 3)) 0x10 (zeros 8)) 0x1B8 (zeros 32)
  let b := w 0x1D8 (0xFFFFFFFF - 0x805) b
  let b := w 0x1DC 0xFFFFFFFE b
  let b := w 0x1E0 (0xFFFFFFFF - 0x85) b
  let b := w 0x1E4 (0xFFFFFFFF - 0x60) b
  splice b 0xF3C (zeros 196)

/-- 0x6083: bit n set when bytes 16n to 16n + 15 differ. -/
def diffMask (a b : Bytes) : Bytes :=
  leBytes 32 (maskOf ((List.range 256).map (fun n => slice a (16 * n) 16 != slice b (16 * n) 16)))

/-- The loss word, or 0. -/
def lossWord (s : Block) : Nat × Block :=
  if numF s 0x601202 = 0 then (0, s)
  else let (d, s) := memRead 0 (numF s 0x601201) 4 s; (leNat (plain d), s)

/-- Write the manifest of the step (R372). -/
def writeManifest (s : Block) : Block :=
  let (loss, s) := lossWord s
  let m := formManifest s.bnd.advance s.lanes.drawnStep s.recov.replay (s.bnd.manifest.take 0x1D8) (s.bnd.manifest.drop 0x1D8)
    [num s 0x600002, num s 0x234202, num s 0x606000, num s 0x605200] loss s.upd.checks
  let s := trimBuffer (keepManifest m s)
  if s.recov.replay then setDom 0x608300 (diffMask (comparable m) (comparable s.recov.replayManifest)) s else s

/-- Form, keep and send the context of the step that follows (R364). -/
def writeContext (s : Block) : Block :=
  if !s.bnd.advance then s
  else
    let c := formContext s
    let s := sendContext c (keepContext s.arc.slot c s)
    { s with bnd := { s.bnd with ctxDigest := ctxHash c } }

/-- The rings that no ARED took are discarded (R384, R386). -/
def staleBells (s : Block) : Block := forEach s.colls.heldBells (fun b s => vstErr b.2 3 s) s

/-- Clear what belongs to the closed step. -/
def closeStep (s : Block) : Block :=
  let s := staleBells (tokCap s)
  let step := stepNo s
  { s with
    upd := { s.upd with log := [], checks := [] }
    colls := { s.colls with colls := [], heldBells := [], doneBells := [], doneReds := [], sendIndex := [], bits := 0, reuses := 0, pulls := 0, rejects := []
                            heldReady := s.colls.heldReady.filter (fun r => stepOrder s r.step r.attempt != .lt && r.cepoch == epochNo s % 65536) }
    bnd := { s.bnd with
      bits := 0, decs := [], sums := [], commitPages := [], manifest := [], splitFrom := []
      votes := s.bnd.votes.filter (fun v => decide (step ≤ v.step))
      agrees := s.bnd.agrees.filter (fun a => decide (step < a.step) || (a.step == step && decide (s.bnd.attempt % 256 ≤ a.attempt)))
      inputDigest := slice (domS s 0x608200) 0 64 }
    queues := { s.queues with cancelled := 0 }
    tok := { s.tok with start := s.tok.vals }
    clk := { s.clk with heldCycles := 0 }
    lanes := { s.lanes with drawnStep := false } }

/-- Issue is permitted from the next cycle on. -/
def goIssue (s : Block) : Block :=
  enterActive { s with
    bnd := { s.bnd with phase := .none, wait := .nothing, next := 0, underConnWait := false }
    prog := { s.prog with issuing := true, started := true }
    clk := { s.clk with nextIssue := s.clk.fcyc + 1 } }

/-- Step 7 without issuing. -/
def goStop (s : Block) : Block :=
  leaveActive { s with bnd := { s.bnd with phase := .stopped, wait := .nothing, next := 0, underConnWait := false }
                       prog := { s.prog with issuing := false } }

/-- The module parks: PARKED, and the park requests end. -/
def goParked (s : Block) : Block :=
  let l := s.recov.parkReqs
  let s := setRecov 1 true (setRecov 0 false { s with recov := { s.recov with parkPending := false, parkReqs := [] } })
  goStop (forEach l (fun r s => longDone 0x12 0 r.2 s) (setNum 0x607300 0 s))

/-- SBOUND completes (R211 steps 6 and 7). -/
def completeBound (s : Block) : Block :=
  let adv := s.bnd.advance
  let fails := if adv then 0 else satN 16 (num s 0x600005 + 1)
  let replay := s.recov.replay
  let halted := !replay && (bit s.bnd.bits 17 || bit s.bnd.bits 18 || (!adv && decide (numS s 0x602100 ≤ fails)))
  let status := fld s.bnd.bits 1 10 * 2 + b2n adv + b2n halted * 2 ^ 11
  let s := setNum 0x600002 status s
  let s := setNum 0x600005 (if replay then num s 0x600005 else fails) (setNum 0x600004 s.clk.heldCycles s)
  let s := setNum 0x605200 s.colls.bits (setNum 0x604003 s.colls.pulls (setNum 0x604002 s.colls.reuses s))
  let s := if replay then s else settleEta adv s
  let s := writeManifest s
  let s := if replay then s else writeContext s
  let under := bit s.bnd.bits 10
  let s := { s with bnd := { s.bnd with attempt := if adv then 0 else s.bnd.attempt + 1 } }
  let s := closeStep s
  let s := sboundHook adv s
  let s := alert 0xB status s
  let s := if halted then alert 4 status s else s
  if replay ∨ s.recov.parkPending then goParked s
  else if halted then goStop s
  else if under then { s with bnd := { s.bnd with phase := .none, wait := .nothing, next := 0, underConnWait := true } }
  else goIssue (openEta s)

/-! ## A resume or start (R365, R412) -/

/-- The request that a resume or start answers. -/
def answerReq (status : Nat) (s : Block) : Block :=
  match s.bnd.req with
  | some (typ, r) => respond r typ status [] { s with bnd := { s.bnd with req := none } }
  | none => s

/-- A start or resume writes its result to 0x6073 (R365, R393). -/
def resumeResult (code : Nat) (s : Block) : Block := if s.bnd.req.isSome then setNum 0x607300 code s else s

/-- Under-connected at a start or resume (R286): the status word shows UNDER_CONN, the wait counts as one boundary that
did not advance, and at the retry limit the module is HALTED. -/
def underStart (s : Block) : Block :=
  let halted := decide (numS s 0x602100 ≤ 1)
  let status := 2 ^ 10 + b2n halted * 2 ^ 11
  let s := setNum 0x600005 1 (setNum 0x600002 status s)
  let s := enterActive { s with
    bnd := { s.bnd with phase := .none, wait := .nothing, next := 0, underConnWait := true }
    prog := { s.prog with started := true } }
  if halted then goStop (alert 4 status s) else s

/-- Its end: the run list is issued, or the module stays as it was and answers STATE; a split makes it HALTED (R411). -/
def endResume (s : Block) : Block :=
  let s := { s with bnd := { s.bnd with resume := false } }
  if s.bnd.agreed && !(bit s.bnd.bits 18) then
    let s := setNum 0x600005 0 (setRecov 4 s.recov.replay (setRecov 1 false s))
    let under := bit (num s 0x332000) 15
    let s := { s with
      tok := { s.tok with start := s.tok.vals }
      bnd := { s.bnd with bits := 0, inputDigest := slice (domS s 0x608200) 0 64 } }
    let s := if s.recov.replay then s else settleEta false s
    let s := answerReq stOk (resumeResult 0 s)
    if under then underStart s else goIssue (if s.recov.replay then s else openEta s)
  else
    let started := s.prog.started
    let split := bit s.bnd.bits 18
    let s := { s with
      bnd := { s.bnd with bits := 0 }
      upd := { s.upd with etaWritten := s.upd.etaWritten || s.upd.etaLate, etaLate := false } }
    let status := putBit (num s 0x600002) 7 true
    let status := if split then putBit status 11 true else status
    let s := answerReq stState (setNum 0x600002 status (resumeResult 7 s))
    let s := if split then alert 4 status s else s
    if started ∨ split then goStop s else { s with bnd := { s.bnd with phase := .none, wait := .nothing, next := 0 } }

/-! ## The actions in order -/

/-- Mark the next action. -/
def nextAct (n : Nat) (s : Block) : Block := { s with bnd := { s.bnd with next := n, wait := .nothing } }
def waitFor (w : BWait) (s : Block) : Block := { s with bnd := { s.bnd with wait := w } }

/-- The messages that a resume or start has used; those of the boundary that follows carry the same step and attempt. -/
def spendAgrees (s : Block) : Block :=
  { s with bnd := { s.bnd with agrees := s.bnd.agrees.filter (fun a => !(a.step == stepNo s && a.attempt == s.bnd.attempt % 256)) } }

/-- One step of the boundary: an action of R211, or the next part of one that waits. Numbers 0 to 11 are
(a) to (l), 12 is the completion; 20 to 24 are those of a resume. -/
def boundStep (s : Block) : Block :=
  match s.bnd.next with
  | 0 => nextAct 1 (actSnapshot (drainHeld s))
  | 1 =>
    match s.bnd.wait with
    | .nothing => waitFor .vote1 (formProposals (mayAdvance s) s)
    | .vote1 => if votesIn s 1 then waitFor .vote2 (allocReserve (afterRound1 s)) else s
    | .vote2 => if votesIn s 2 then nextAct 2 (checkSplit (endVote (afterRound2 s))) else s
    | .agreement => nextAct 2 s
  | 2 =>
    match s.bnd.wait with
    | .agreement => if agreesIn s then nextAct 3 (decideAgree s) else s
    | _ => waitFor .agreement (startAgree s)
  | 3 => nextAct 4 (actRoutes s)
  | 4 => nextAct 5 (actCommit s)
  | 5 => nextAct 6 (actAdvance s)
  | 6 => nextAct 7 (laneAction s.bnd.advance s)
  | 7 => nextAct 8 (actApply s)
  | 8 => nextAct 9 (actAdopt s)
  | 9 => nextAct 10 (actReshard s)
  | 10 => nextAct 11 (actTokens s)
  | 11 => nextAct 12 (buildRun s)
  | 12 => completeBound s
  | 20 => nextAct 21 (takeSnapshot s)
  | 21 =>
    match s.bnd.wait with
    | .agreement => if agreesIn s then nextAct 22 (decideAgree s) else s
    | _ => waitFor .agreement (startAgree s)
  | 22 => if s.bnd.agreed then nextAct 23 (actAdopt (spendAgrees s)) else endResume (spendAgrees s)
  | 23 => nextAct 24 (buildRun (buildRoutes s))
  | _ => endResume s

/-- Go on with the actions as far as they can go, while the scheduler core runs. -/
def boundGo (s : Block) : Block :=
  iter (fun s => if s.bnd.phase = .actions ∧ procRuns s 2 then boundStep s else s) 40 s

/-- Begin the actions of a resume or a start. -/
def beginResume (typ : Nat) (r : ReqF) (s : Block) : Block :=
  boundGo { s with bnd := { s.bnd with phase := .actions, next := 20, wait := .nothing, resume := true, req := some (typ, r), bits := 0, splitFrom := [] } }

/-! ## Waits that end -/

/-- VOTE_TIMEOUT (R146). -/
def doVoteTimeout (s : Block) : Block :=
  if s.bnd.phase = .actions ∧ (s.bnd.wait = .vote1 ∨ s.bnd.wait = .vote2) ∧ procRuns s 2 then
    boundGo (nextAct 2 (lostVote (checkSplit s)))
  else s

def execVoteTimeout (s : State) : Host.Outcome State Fault Refusal := effect doVoteTimeout s

/-- AGREEMENT_TIMEOUT (R409). -/
def doAgreeTimeout (s : Block) : Block :=
  if s.bnd.phase = .actions ∧ s.bnd.wait = .agreement ∧ procRuns s 2 then
    boundGo (nextAct (s.bnd.next + 1) (decideAgree s))
  else s

def execAgreementTimeout (s : State) : Host.Outcome State Fault Refusal := effect doAgreeTimeout s

/-- CONNECTIVITY_RETRY (R286): an under-connected module builds its routes and evaluates again (log 61), and issues
when it passes. -/
def doConnRetry (s : Block) : Block :=
  if s.bnd.underConnWait && procRuns s 2 then
    let bits := s.bnd.bits
    let s := routeBuild s.bnd.planChanged s
    let s := { s with bnd := { s.bnd with bits } }
    if bit (num s 0x332000) 15 then s
    else if s.recov.parkPending then goParked s else goIssue (openEta s)
  else s

def execConnectivityRetry (s : State) : Host.Outcome State Fault Refusal := effect doConnRetry s

/-! ## SBOUND and the wait for the step's work -/

/-- SBOUND issues (R211 step 1). A frozen module holds it (R209). -/
def doSbound (s : Block) : Block :=
  match s.freeze with
  | some z => holdSlot (.slot .sbound []) z s
  | none =>
    if rebuilding s then logFault .program 255 s.prog.offset 0x369 0 s
    else if s.prog.issuing then
      { s with bnd := { s.bnd with phase := .draining, sboundTick := s.clk.tick }, prog := { s.prog with issuing := false } }
    else s

def execSbound (s : State) : Host.Outcome State Fault Refusal := effect doSbound s

/-- Every fixed-timing action runs to its end. -/
def drainStep (s : Block) : Block := if unitsQuiet s || s.freeze.isSome then s else clockCycle s

/-- Let the units finish, in slices of cycles. -/
def drainUnits (s : Block) : Block := iter (fun s => if unitsQuiet s then s else iter drainStep 4096 s) 256 s

/-- BOUNDARY_ACTIONS: steps 2 to 7 of R211. The actions begin once the units are quiet and no descriptor is
left; an interrupted boundary goes on at its first action that is not complete. -/
def doBoundary (s : Block) : Block :=
  match s.bnd.phase with
  | .draining =>
    let s := drainUnits (drainLoop s)
    if unitsQuiet s && s.queues.descs.isEmpty then
      let s := discardOpen s
      boundGo { s with bnd := { s.bnd with phase := .actions, next := 0, wait := .nothing, resume := false } }
    else s
  | .actions => boundGo s
  | _ => s

def execBoundaryActions (s : State) : Host.Outcome State Fault Refusal := effect doBoundary s

/-- WATCHDOG_ABORT (R210): the step's descriptors are cancelled without their tokens, and the boundary
goes on at step 4: open groups are discarded, and the actions are due. What the fixed-timing units have in flight runs on
with the clock. -/
def doWatchdog (s : Block) : Block :=
  let waits := s.freeze.isSome || (s.bnd.phase == .draining && !s.queues.descs.isEmpty)
  if !waits || !s.prog.started || rebuilding s then s
  else
    let n := s.queues.descs.length
    let s := if s.bnd.phase = .draining then s else { s with bnd := { s.bnd with sboundTick := s.clk.tick } }
    discardOpen (stepBit 6 { s with
      freeze := none
      queues := { s.queues with descs := [], cancelled := s.queues.cancelled + n }
      colls := { s.colls with colls := [] }
      prog := { s.prog with issuing := false }
      bnd := { s.bnd with phase := .actions, next := 0, wait := .nothing, resume := false } })

def execWatchdogAbort (s : State) : Host.Outcome State Fault Refusal := effect doWatchdog s

end Sys2Proof.Machine
end

