-- ==== Sys2Proof/Machine/Bundles.lean ====
section
/-! DEFINITION. Bundles (R193 to R202): the fields of every slot, the S and C slots (R206 to R208, R214,
R217, R218), how a bundle issues, side slices (R215, R216), and the end of a freeze (R209). -/

namespace Sys2Proof.Machine

/-! ## Slot fields (R197 to R199, R202): packed from bit 8 upward in table order -/

/-- Read fields of given widths from bit `o` upward. -/
def fields (w : Nat) : Nat → List Nat → List Nat
  | _, [] => []
  | o, n :: r => fld w o n :: fields w (o + n) r

/-- An M slot. -/
def slotM (x : SlotCtx) (w : Nat) : Option Instr :=
  let op := fld w 0 8
  if op = 0x01 then
    let v := fields w 8 [3, 7, 7, 8, 4, 8, 23, 23, 23]
    some (.mloadW x { alcove := nth v 0 0, first := nth v 1 0, count := nth v 2 0, fmt := nth v 3 0, width := nth v 4 0,
                      lvl := nth v 5 0, src := nth v 6 0, arrStride := nth v 7 0, scaleSrc := nth v 8 0 })
  else if op = 0x02 then
    let v := fields w 8 [3, 7, 7, 2, 6, 20, 6, 23, 16, 23, 64, 16, 1, 23]
    some (.mstream x { alcove := nth v 0 0, first := nth v 1 0, count := nth v 2 0, bus := nth v 3 0, group := nth v 4 0,
                       nRows := nth v 5 0, rowDesc := nth v 6 0, rowBase := nth v 7 0, rowPitch := nth v 8 0,
                       passStride := nth v 9 0, rowMask := nth v 10 0, kMask := nth v 11 0, advance := nth v 12 0,
                       wPassStride := nth v 13 0 })
  else if op = 0x03 then
    let v := fields w 8 [3, 7, 7, 6, 6, 6, 8, 2, 10]
    some (.mopen x { alcove := nth v 0 0, first := nth v 1 0, count := nth v 2 0, group := nth v 3 0, base := nth v 4 0,
                     rows := nth v 5 0, fmt := nth v 6 0, mode := nth v 7 0, anchor := nth v 8 0 })
  else if op = 0x04 then
    let v := fields w 8 [3, 7, 7, 6, 6, 8, 3]
    some (.mclose x { alcove := nth v 0 0, first := nth v 1 0, count := nth v 2 0, group := nth v 3 0, clear := 0,
                      dst := nth v 4 0, ofmt := nth v 5 0, fmask := nth v 6 0 })
  else if op = 0x05 then
    let v := fields w 8 [3, 7, 7, 6, 6, 6, 7, 11]
    some (.mshift x { alcove := nth v 0 0, first := nth v 1 0, count := nth v 2 0, group := nth v 3 0, row0 := nth v 4 0,
                      nrows := nth v 5 0, ksrc := nth v 6 0, kimm := nth v 7 0 })
  else if op = 0x06 then
    let v := fields w 8 [3, 7, 7, 6, 1, 6, 8, 3]
    some (.mdrain x { alcove := nth v 0 0, first := nth v 1 0, count := nth v 2 0, group := nth v 3 0, clear := nth v 4 0,
                      dst := nth v 5 0, ofmt := nth v 6 0, fmask := nth v 7 0 })
  else none

/-- The common fields of a V slot (R159). -/
def vecOf (w : Nat) : VecF :=
  let v := fields w 8 [4, 6, 2, 18, 18, 18, 3, 1, 8, 1, 16]
  { ntiles := nth v 0 0, dst := nth v 1 0, dstride := nth v 2 0, a := nth v 3 0, b := nth v 4 0, c := nth v 5 0,
    mask := nth v 6 0, mzero := nth v 7 0, fmt := nth v 8 0, sat := nth v 9 0, aux := nth v 10 0 }

/-- VQNT (R113). -/
def vqntOf (w : Nat) : VqntF :=
  let v := fields w 8 [6, 4, 1, 8, 6, 14, 9, 22, 23, 23, 23, 1, 1, 1, 8]
  { src := nth v 0 0, ntiles := nth v 1 0, axis := nth v 2 0, srcFmt := nth v 3 0, desc := nth v 4 0, kspan := nth v 5 0,
    kvalid := nth v 6 0, row0 := nth v 7 0, dstElem := nth v 8 0, dstScale := nth v 9 0, dstOut := nth v 10 0,
    rnd := nth v 11 0, rng := nth v 12 0, smode := nth v 13 0, fscale := nth v 14 0 }

/-- VDQN and VLD or VST (R198). -/
def vdqnOf (w : Nat) : VdqnF :=
  let v := fields w 8 [4, 6, 2, 6, 1, 14, 9, 23, 23, 23, 8, 1, 3, 1]
  { ntiles := nth v 0 0, dst := nth v 1 0, dstride := nth v 2 0, desc := nth v 3 0, axis := nth v 4 0, kspan := nth v 5 0,
    kvalid := nth v 6 0, srcElem := nth v 7 0, srcScale := nth v 8 0, srcOut := nth v 9 0, ofmt := nth v 10 0,
    unturn := nth v 11 0, mask := nth v 12 0, mzero := nth v 13 0 }
def vmemOf (w : Nat) : VmemF :=
  let v := fields w 8 [4, 6, 2, 23, 16, 8, 3, 1, 1]
  { ntiles := nth v 0 0, reg := nth v 1 0, dstride := nth v 2 0, addr := nth v 3 0, pitch := nth v 4 0, sfmt := nth v 5 0,
    mask := nth v 6 0, mzero := nth v 7 0, layout := nth v 8 0 }

/-- A V slot (R159). -/
def slotV (x : SlotCtx) (w : Nat) : Option Instr :=
  let f := vecOf w
  match fld w 0 8 with
  | 0x01 => some (.vadd x f) | 0x02 => some (.vsub x f) | 0x03 => some (.vmul x f) | 0x04 => some (.vfma x f)
  | 0x05 => some (.vmax x f) | 0x06 => some (.vmin x f) | 0x07 => some (.vabs x f) | 0x08 => some (.vneg x f)
  | 0x09 => some (.vsel x f) | 0x0A => some (.vmov x f) | 0x0B => some (.vtrn x f)
  | 0x10 => some (.vand x f) | 0x11 => some (.vor x f) | 0x12 => some (.vxor x f) | 0x13 => some (.vshl x f)
  | 0x14 => some (.vshr x f)
  | 0x20 => some (.vexp2 x f) | 0x21 => some (.vlog2 x f) | 0x22 => some (.vrcp x f) | 0x23 => some (.vrsq x f)
  | 0x24 => some (.vscale x f) | 0x30 => some (.vred x f) | 0x31 => some (.vsmax x f)
  | 0x40 => some (.vcmp x f) | 0x41 => some (.vmset x f) | 0x42 => some (.vmlog x f)
  | 0x50 => some (.vcvt x f) | 0x51 => some (.vqnt x (vqntOf w)) | 0x52 => some (.vdqn x (vdqnOf w))
  | 0x53 => some (.vrnd x f) | 0x60 => some (.vld x (vmemOf w)) | 0x61 => some (.vst x (vmemOf w))
  | 0x62 => some (.vflg x f) | 0x70 => some (.vsolve x f)
  | _ => none

/-- A D slot (R199). -/
def slotD (x : SlotCtx) (w : Nat) : Option Instr :=
  let f : DslotF := { loff := fld w 28 36, token := fld w 20 8, xdesc := fld w 8 12 }
  match fld w 0 8 with
  | 0x01 => some (.dget x f) | 0x02 => some (.dput x f) | 0x03 => some (.dmov x f)
  | _ => none

/-- An A slot (R202); its mode comes from the collective descriptor (R290). -/
def slotA (s : Block) (x : SlotCtx) (w : Nat) : Option Instr :=
  let f : AslotF := { token := fld w 18 8, adesc := fld w 8 10 }
  let one := modeOf (collDesc s f.adesc) == 1
  match fld w 0 8 with
  | 0x01 => some (if one then .asendTokenOnly x f else .asendData x f)
  | 0x02 => some (if one then .aredAllReduce x f else .aredReduceScatter x f)
  | 0x03 => some (if one then .agathReuse x f else .agathPush x f)
  | _ => none

/-- An S slot and a C slot (R202). -/
def slotS (x : SlotCtx) (w : Nat) : Option Instr :=
  match fld w 0 8 with
  | 0x01 => some (.swait x (fld w 8 8) (fld w 16 32))
  | 0x02 => some (.ssignal x (fld w 8 8) (fld w 16 32) (fld w 48 6))
  | 0x03 => some .sbound
  | _ => none
def slotC (x : SlotCtx) (w : Nat) : Option Instr :=
  match fld w 0 8 with
  | 0x01 => some (.cwake x (fld w 8 8) (fld w 16 1))
  | 0x02 => some (.side x (fld w 8 16) (fld w 24 8) (fld w 32 1))
  | 0x03 => some (.checked x (fld w 8 1) (fld w 9 1))
  | _ => none

/-! ## S and C slots -/

/-- Every gallery shows at least the value (R207). -/
def waitMet (s : Block) (gals : List Nat) (ctr value : Nat) : Bool := gals.all (fun g => decide (value ≤ tokVisible s g ctr))
def waitTake (gals : List Nat) (ctr value : Nat) (s : Block) : Block := forEach gals (fun g s => tokSub g ctr value s) s

/-- SWAIT as a slot of one gallery (R207). -/
def doSwait (x : SlotCtx) (ctr value : Nat) (s : Block) : Block :=
  withSlot (.swait x ctr value) x (fun g s =>
    if x.tag ≠ 0 ∨ !(ctrOk x.tag ctr) then discardSlot g x ctr s
    else if waitMet s [g] (ctr % 256) (value % 2 ^ 32) then waitTake [g] (ctr % 256) (value % 2 ^ 32) s
    else freezeFor .stall false [] [g] (ctr % 256) (value % 2 ^ 32) s) s

def execSwait (x : SlotCtx) (ctr value : Nat) (s : State) : Host.Outcome State Fault Refusal := effect (doSwait x ctr value) s

/-- SSIGNAL (R208). -/
def doSsignal (x : SlotCtx) (ctr value target : Nat) (s : Block) : Block :=
  withSlot (.ssignal x ctr value target) x (fun g0 s =>
    let t := target % 64
    if !(ctrOk x.tag ctr) then discardSlot g0 x ctr s
    else if t ≠ 0x3F ∧ 47 < t then slotFault .program g0 x 0x208 s
    else match physOf s (if t = 0x3F then x.gal else t) with
      | none => slotFault .program g0 x 0x208 s
      | some g => tokAdd g (ctr % 256) (value % 2 ^ 32) s) s

def execSsignal (x : SlotCtx) (ctr value target : Nat) (s : State) : Host.Outcome State Fault Refusal :=
  effect (doSsignal x ctr value target) s

/-- CHECKED (R217): the modes take effect from the next bundle. It sets modes of the module and reaches no gallery, so no
clock need run for it (log 79). A rebuild segment has none (R369). -/
def doChecked (x : SlotCtx) (alcoves quads : Nat) (s : Block) : Block :=
  match s.freeze with
  | some z => holdSlot (.slot (.checked x alcoves quads) []) z s
  | none =>
    if x.tag ≠ 0 then slotFault .side 255 x 0x217 s
    else if rebuilding s then slotFault .program 255 x 0x369 s
    else { s with gals := { s.gals with nextPair := some (alcoves % 2 == 1, quads % 2 == 1) } }

def execChecked (x : SlotCtx) (alcoves quads : Nat) (s : State) : Host.Outcome State Fault Refusal :=
  effect (doChecked x alcoves quads) s

/-- Groups open, and streams running, in odd alcoves when alcove pairing is entered. A group that an MCLOSE has closed is
not open. -/
def enterPairing (s : Block) : Block :=
  let odd := fun arr => arrAlc arr % 2 == 1
  let open1 := s.arr.groups.filter (fun e => odd (e.1 / 64) && e.2.any (fun g => g.closeAt.isNone))
  let s := forEach open1 (fun e s => logFault .program (arrGal (e.1 / 64)) (e.1 / 64) (e.1 % 64) 0 (setLgroup (e.1 / 64) (e.1 % 64) none s)) s
  let st := s.arr.streams.filter (fun t => t.alc % 2 == 1)
  let s := forEach st (fun t s => slotFault .program t.gal t.ctx 0x217 s) s
  let ids := st.map (·.id)
  { s with arr := { s.arr with streams := s.arr.streams.filter (fun t => t.alc % 2 != 1)
                               contribs := s.arr.contribs.filter (fun c => !(ids.contains c.stream)) } }

/-- The modes that a CHECKED has set come into force. -/
def takePairing (s : Block) : Block :=
  match s.gals.nextPair with
  | none => s
  | some (a, q) =>
    let s := if a && !s.gals.alcPair then enterPairing s else s
    { s with gals := { s.gals with alcPair := a, quadPair := q, nextPair := none } }

/-- CWAKE on a gallery (R218). -/
def wakeGal (g mask ve : Nat) (s : Block) : Block :=
  let c := gclk s g
  if c.running then
    forEach (maskBits 8 mask) (fun a s => setKeeper g a (keeperUp (keeper s g a)) s) s
  else setGclk g { c with restarting := true, wakeAlcoves := c.wakeAlcoves ||| mask % 256, wakeVe := c.wakeVe || ve % 2 == 1 } s

def doCwake (x : SlotCtx) (mask ve : Nat) (s : Block) : Block :=
  match s.freeze with
  | some z => holdSlot (.slot (.cwake x mask ve) []) z s
  | none =>
    match physOf s x.gal with
    | none => logFault .program 255 x.bundle 0x194 x.tag s
    | some g => wakeGal g mask ve s

def execCwake (x : SlotCtx) (mask ve : Nat) (s : State) : Host.Outcome State Fault Refusal := effect (doCwake x mask ve) s

/-- Open a window on galleries (R214): each hall's side sequencer uses it where it has a gallery in it. -/
def openSide (gals : List Nat) (length mask ve : Nat) (s : Block) : Block :=
  if length = 0 ∨ gals = [] then s
  else
    let w : SideWin :=
      { hall := 0, start := cyc s + 1, stop := cyc s + 1 + length, gals, alcoves := mask % 256, ve := ve % 2 == 1
        examine := true, slice := none, due := 0, sliceEnd := 0 }
    let halls := [0, 1].filter (fun h => gals.any (fun g => galHall g == h))
    { s with side := s.side ++ halls.map (fun h => { w with hall := h }), clk := { s.clk with nextIssue := max s.clk.nextIssue (cyc s + 1 + length) } }

/-- A SIDE on the physical galleries of its bundle. A rebuild segment has none (R369). -/
def sideOn (gals : List Nat) (x : SlotCtx) (length mask ve : Nat) (s : Block) : Block :=
  reach (.slot (.side x length mask ve) gals) x gals (fun s =>
    if x.tag ≠ 0 then slotFault .side (gals.headD 255) x 0x214 s
    else if rebuilding s then slotFault .program 255 x 0x369 s
    else openSide gals (length % 65536) mask ve s) s
def doSide (x : SlotCtx) (length mask ve : Nat) (s : Block) : Block := sideOn (physOf s x.gal).toList x length mask ve s

def execSide (x : SlotCtx) (length mask ve : Nat) (s : State) : Host.Outcome State Fault Refusal := effect (doSide x length mask ve) s

/-! ## One slot -/

/-- An A slot: its completion raises the counters of the physical galleries given, or of the slot's own (R202). -/
def doSlotA (op mode : Nat) (i : Instr) (gals : List Nat) (x : SlotCtx) (f : AslotF) (s : Block) : Block :=
  withHeld (.slot i gals) x (fun g => issueA op mode i (if gals = [] then [g] else gals) x f g) s

/-- Let a slot take effect; `gals` are the galleries of a set bundle, for an A slot and SIDE. -/
def doSlot (gals : List Nat) (i : Instr) (s : Block) : Block :=
  match i with
  | .mloadW x f => doMloadW x f s | .mstream x f => doMstream x f s | .mopen x f => doMopen x f s
  | .mclose x f => doMclose x f s | .mdrain x f => doMdrain x f s | .mshift x f => doMshift x f s
  | .vadd x f => doVadd x f s | .vsub x f => doVsub x f s | .vmul x f => doVmul x f s | .vfma x f => doVfma x f s
  | .vmax x f => doVmax x f s | .vmin x f => doVmin x f s | .vabs x f => doVabs x f s | .vneg x f => doVneg x f s
  | .vsel x f => doVsel x f s | .vmov x f => doVmov x f s | .vtrn x f => doVtrn x f s | .vand x f => doVand x f s
  | .vor x f => doVor x f s | .vxor x f => doVxor x f s | .vshl x f => doVshl x f s | .vshr x f => doVshr x f s
  | .vexp2 x f => doVexp2 x f s | .vlog2 x f => doVlog2 x f s | .vrcp x f => doVrcp x f s | .vrsq x f => doVrsq x f s
  | .vscale x f => doVscale x f s | .vred x f => doVred x f s | .vsmax x f => doVsmax x f s | .vcmp x f => doVcmp x f s
  | .vmset x f => doVmset x f s | .vmlog x f => doVmlog x f s | .vcvt x f => doVcvt x f s | .vqnt x f => doVqnt x f s
  | .vdqn x f => doVdqn x f s | .vrnd x f => doVrnd x f s | .vld x f => doVld x f s | .vst x f => doVst x f s
  | .vflg x f => doVflg x f s | .vsolve x f => doVsolve x f s
  | .dget x f => doDget x f s | .dput x f => doDput x f s | .dmov x f => doDmov x f s
  | .asendData x f => doSlotA 11 0 (.asendData x f) gals x f s
  | .asendTokenOnly x f => doSlotA 11 1 (.asendTokenOnly x f) gals x f s
  | .aredReduceScatter x f => doSlotA 12 0 (.aredReduceScatter x f) gals x f s
  | .aredAllReduce x f => doSlotA 12 1 (.aredAllReduce x f) gals x f s
  | .agathPush x f => doSlotA 13 0 (.agathPush x f) gals x f s
  | .agathReuse x f => doSlotA 13 1 (.agathReuse x f) gals x f s
  | .swait x c v => doSwait x c v s | .ssignal x c v t => doSsignal x c v t s | .sbound => doSbound s
  | .side x l m v => if gals = [] then doSide x l m v s else sideOn gals x l m v s
  | .checked x a q => doChecked x a q s | .cwake x m v => doCwake x m v s
  | _ => s

/-- A V slot whose opcode R159 does not list, on its gallery. -/
def doUnlisted (x : SlotCtx) (s : Block) : Block := withHeld (.unlisted x) x (vIssueNone x) s

/-- A held slot takes effect. -/
def doHeld (h : HeldSlot) (s : Block) : Block :=
  match h with
  | .slot i gals => doSlot gals i s
  | .unlisted x => doUnlisted x s

/-! ## Bundles (R193 to R196) -/

/-- The contexts of a bundle's galleries, lowest logical number first (R195). -/
def bundleCtxs (s : Block) (tag off bank h : Nat) : List SlotCtx :=
  if bit h 22 then
    let n := fld h 16 6
    (maskBits 48 (setMaskOf s n)).map (fun g =>
      let r := setRec s n g
      { gal := g, tag, bundle := off, bank, moff := recMoff r, roff := recRoff r, xoff := recXoff r })
  else [{ gal := fld h 16 6, tag, bundle := off, bank, moff := 0, roff := 0, xoff := 0 }]

/-- The instruction of a slot on one gallery. -/
def slotOf (s : Block) (x : SlotCtx) (c : Nat × Nat) : Option Instr :=
  if c.1 ≤ 1 then slotM x c.2 else if c.1 = 2 then slotV x c.2 else if c.1 = 3 then slotD x c.2
  else if c.1 = 4 then slotA s x c.2 else if c.1 = 5 then slotS x c.2 else slotC x c.2

/-- A slot whose opcode its class does not define: a program fault (R194); a V slot takes the port of every gallery of
its bundle (R159). -/
def slotNone (xs : List SlotCtx) (c : Nat × Nat) (s : Block) : Block :=
  if c.1 = 2 then forEach xs doUnlisted s
  else match xs with
    | [] => s
    | x :: _ => slotFault .program ((physOf s x.gal).getD 255) x (fld c.2 0 8) s

/-- Slots that act once for the whole bundle: A, SBOUND, CHECKED, SIDE, and an SSIGNAL to one gallery. -/
def onceSlot : Instr → Bool
  | .asendData .. | .asendTokenOnly .. | .aredReduceScatter .. | .aredAllReduce .. | .agathPush .. | .agathReuse .. => true
  | .sbound | .checked .. => true
  | .ssignal _ _ _ t => t % 64 != 0x3F
  | _ => false

/-- One slot on every gallery of the bundle. An SWAIT has already gated the bundle. -/
def runSlot (xs : List SlotCtx) (c : Nat × Nat) (s : Block) : Block :=
  match xs with
  | [] => s
  | x0 :: _ =>
    match slotOf s x0 c with
    | none => slotNone xs c s
    | some (.side x l m v) => sideOn (xs.filterMap (fun x => physOf s x.gal)) x l m v s
    | some (.swait x ctr v) => if ctrOk x.tag ctr then s else doSwait x ctr v s
    | some i =>
      if onceSlot i then doSlot (xs.filterMap (fun x => physOf s x.gal)) i s
      else forEach xs (fun x s => match slotOf s x c with
        | some i => doSlot [] i s
        | none => s) s

/-- A slot of a bundle whose set names no gallery: SBOUND acts whatever the selector (R211), an undefined opcode is a
program fault, and no gallery performs another. -/
def runEmpty (off : Nat) (c : Nat × Nat) (s : Block) : Block :=
  let x : SlotCtx := { gal := 255, tag := 0, bundle := off, bank := 0, moff := 0, roff := 0, xoff := 0 }
  match slotOf s x c with
  | none => slotFault .program 255 x (fld c.2 0 8) s
  | some .sbound => doSbound s
  | some (.side ..) | some (.checked ..) => if rebuilding s then slotFault .program 255 x 0x369 s else s
  | some _ => s

/-- The SWAIT of a bundle that gates it: counter and value (R207). -/
def bundleWait (slots : List (Nat × Nat)) : Option (Nat × Nat) :=
  (slots.find? (fun c => c.1 == 5 && fld c.2 0 8 == 1 && decide (fld c.2 8 8 < 240))).map (fun c => (fld c.2 8 8, fld c.2 16 32))

/-! ## The main stream -/

/-- Move to the next bundle, and to the next segment that has one. -/
def nextSeg (s : Block) : Block :=
  match s.prog.runList with
  | [] => s
  | seg :: rest =>
    if s.prog.segDone < segCount s seg then s
    else
      let n := rest.headD 0
      { s with prog := { s.prog with runList := rest, segDone := 0, offset := partOff s 0 + segOffset s n, lastBank := segBank s n } }
def skipSegs (s : Block) : Block := iter nextSeg s.prog.runList.length s

/-- The bundle at the program's position leaves the program. -/
def advanceBundle (h : Nat) (s : Block) : Block :=
  skipSegs { s with
    prog := { s.prog with segDone := s.prog.segDone + 1, offset := s.prog.offset + 8 * max 1 (fld h 0 8) }
    clk := { s.clk with nextIssue := cyc s + 1 + fld h 24 16, issued := s.clk.issued + 1 } }

/-- Issue the bundle whose SWAIT, if any, has been met. -/
def issueSlots (h : Nat) (b : Bytes) (s : Block) : Block :=
  let off := s.prog.offset
  let bank := s.prog.lastBank
  let s := bridgeFlit (advanceBundle h s)
  if bundleBad h then logFault .program 255 off 0x194 0 s
  else
    let xs := bundleCtxs s 0 off bank h
    if xs = [] then forEach (rawSlots (fld h 8 7) b) (runEmpty off) s else forEach (rawSlots (fld h 8 7) b) (runSlot xs) s

/-- The fetch of a program word from both halls' copies (R335): an injection at the module's location hits one copy for
each time it fires, Hall A's first. -/
def fetchHit (s : Block) : Block :=
  let w := s.prog.offset / 8
  let loc := domLoc 10
  let (h9, s) := inject 0x09 loc s
  let s := if h9 then detect 0x09 loc true 0 0 [] s else s
  let (hA, s) := inject 0x0A loc s
  let s := if hA then detect 0x0A loc true 0 0 [] { s with prog := { s.prog with badA := setAdd s.prog.badA w } } else s
  let (hB, s) := if hA then inject 0x0A loc s else (false, s)
  if hB then detectAt 51 0x0A loc true 0 0 [] { s with prog := { s.prog with badB := setAdd s.prog.badB w } } else s

/-- Issue the bundle at the program's position, whose words have come; its SWAIT reaches its galleries first. -/
def gateBundle (s : Block) : Block :=
  let h := leNat (bufBytes s s.prog.offset 8)
  let b := bufBytes s s.prog.offset (8 * max 1 (fld h 0 8))
  let gals := (bundleCtxs s 0 0 0 h).filterMap (fun x => physOf s x.gal)
  match (if bundleBad h then none else bundleWait (rawSlots (fld h 8 7) b)) with
  | none => issueSlots h b s
  | some (ctr, v) =>
    if stoppedGals s gals ≠ [] then wakeFreeze true [] (stoppedGals s gals) s
    else if waitMet s gals ctr v then issueSlots h b (waitTake gals ctr v s) else freezeFor .stall true [] gals ctr v s

/-- Fetch and issue the bundle at the program's position. -/
def takeBundle (s : Block) : Block :=
  let s := fetchHit (takePairing s)
  let h := leNat (bufBytes s s.prog.offset 8)
  let words := range' (s.prog.offset / 8) (max 1 (fld h 0 8))
  if words.any (fun w => s.prog.badA.contains w && s.prog.badB.contains w) then
    doWatchdog (freezeFor .fetchHold true [] [] 0 0 s)
  else if words.any (fun w => s.prog.badA.contains w || s.prog.badB.contains w) then freezeFor .fetchHold true [] [] 0 0 s
  else gateBundle s

/-- The program may issue a bundle. -/
def mayIssue (s : Block) : Bool :=
  s.prog.issuing && (s.bnd.phase == .none || rebuilding s) && !s.bnd.underConnWait && s.freeze.isNone && halls s

/-- Issue the bundle that is due; at the end of the run list an SBOUND issues, with a program fault (R191). -/
def issueNext (s : Block) : Block :=
  if rebuilding s && s.prog.runList.isEmpty then { s with prog := { s.prog with issuing := false } }
  else if s.prog.runList.isEmpty then logFault .program 255 s.prog.offset 0x191 0 (doSbound s) else takeBundle s

/-! ## Side slices (R215, R216) -/

/-- A slot of a slice is discarded, and the discard is logged. -/
def sideDiscard (x : SlotCtx) (s : Block) : Block := slotFault .side ((physOf s x.gal).getD 255) x 0x216 s

/-- The alcove of an M slot. -/
def mAlcove : Instr → Option Nat
  | .mloadW _ f => some (f.alcove % 8) | .mstream _ f => some (f.alcove % 8) | .mopen _ f => some (f.alcove % 8)
  | .mclose _ f => some (f.alcove % 8) | .mdrain _ f => some (f.alcove % 8) | .mshift _ f => some (f.alcove % 8)
  | _ => none

/-- The token counter an S slot names. -/
def sideCtrBad : Instr → Bool
  | .ssignal _ c _ _ => decide (c % 256 < 240)
  | _ => false

/-- Galleries, alcoves and vector engines that an S or C slot names besides its own gallery's: they must lie in the window
and be freed. -/
def sideNames (s : Block) (w : SideWin) : Instr → Bool
  | .ssignal x _ _ t => (physOf s (if t % 64 = 0x3F then x.gal else t % 64)).all (w.gals.contains ·)
  | .cwake _ mask ve => mask % 256 &&& w.alcoves == mask % 256 && (ve % 2 == 0 || w.ve)
  | _ => true

/-- Slots that a slice must not use. -/
def sideNever : Instr → Bool
  | .swait .. | .sbound | .side .. | .checked .. => true
  | _ => false

/-- One slot of a slice, on its gallery or, acting once, for all of `gals`: every gallery it names lies in the window. -/
def sideSlot (w : SideWin) (cls : Nat) (gals : List Nat) (x : SlotCtx) (i : Instr) (s : Block) : Block :=
  let inside := ((physOf s x.gal).toList ++ gals).all (fun g => w.gals.contains g && (gclk s g).running) && (physOf s x.gal).isSome
  let unit := match mAlcove i with
    | some a => bit w.alcoves a
    | none => cls != 2 || w.ve
  if s.stoppedTags.contains x.tag || !inside || !unit || sideNever i || sideCtrBad i || !(sideNames s w i) then sideDiscard x s else doSlot gals i s

/-- A V slot of a slice whose opcode R159 does not list. -/
def sideUnlisted (w : SideWin) (x : SlotCtx) (s : Block) : Block :=
  match physOf s x.gal with
  | some g => if !(s.stoppedTags.contains x.tag) && w.gals.contains g && (gclk s g).running && w.ve then vIssueNone x g s else sideDiscard x s
  | none => sideDiscard x s

/-- One slot of a slice on every gallery of its bundle. -/
def sideRun (w : SideWin) (xs : List SlotCtx) (c : Nat × Nat) (s : Block) : Block :=
  match xs with
  | [] => s
  | x0 :: _ =>
    match slotOf s x0 c with
    | none => if c.1 = 2 then forEach xs (sideUnlisted w) s else sideDiscard x0 s
    | some i =>
      if onceSlot i then sideSlot w c.1 (xs.filterMap (fun x => physOf s x.gal)) x0 i s
      else forEach xs (fun x s => match slotOf s x c with
        | some i => sideSlot w c.1 [] x i s
        | none => s) s

/-- Issue the next bundle of a placed slice. -/
def sideBundle (w : SideWin) (q : SideSlice) (s : Block) : SideWin × Block :=
  let h := leAt q.bundles 0 8
  let n := 8 * max 1 (fld h 0 8)
  let b := slice q.bundles 0 n
  let w' := { w with slice := some { q with bundles := q.bundles.drop n }, due := w.due + 1 + fld h 24 16 }
  if bundleBad h then (w', logFault .side 255 0 0x194 q.tag s)
  else
    let xs := bundleCtxs s q.tag 0 s.prog.lastBank h
    (w', forEach (rawSlots (fld h 8 7) b) (fun c s => sideRun w xs c s) s)

/-! ### Placing (R215) -/

/-- The side queue of a hall. -/
def sideQueue (s : Block) (hall : Nat) : List SideSlice := if hall = 0 then s.sideA else s.sideB
def setSideQueue (hall : Nat) (l : List SideSlice) (s : Block) : Block :=
  if hall = 0 then { s with sideA := l } else { s with sideB := l }

/-- The physical galleries that a slice's bundles name. -/
def sliceGals (s : Block) : Nat → Bytes → List Nat
  | 0, _ => []
  | n + 1, b =>
    if b = [] then []
    else
      let h := leAt b 0 8
      let l := if bundleBad h then [] else (bundleCtxs s 0 0 0 h).filterMap (fun x => physOf s x.gal)
      l.foldl setAdd (sliceGals s n (b.drop (8 * max 1 (fld h 0 8))))

/-- A slice may be placed: it fits the remaining cycles, its entry conditions hold in its galleries, and their alcoves are
awake and need no ramp (log 80). -/
def sliceFits (s : Block) (w : SideWin) (q : SideSlice) : Bool :=
  let gals := sliceGals s q.bundles.length q.bundles
  decide (q.len ≤ w.stop - cyc s) && q.conds.all (fun c => waitMet s gals c.1 c.2) &&
    gals.all (fun g => (gclk s g).running && (List.range 8).all (fun a => decide ((keeper s g a).phase = .steady)))

/-- The suite that an idle unit of a window takes up: one that fits its remaining cycles, and first one that the coverage
period still lacks (R341). -/
def suitePick (s : Block) (w : SideWin) (g unit : Nat) (suites : List Nat) : Option Nat :=
  let fit := suites.filter (fun k => decide (suiteLen k ≤ w.stop - cyc s))
  match fit.find? (fun k => !(s.rel.covered.contains (suiteKey g k unit))) with
  | some k => some k
  | none => fit.head?

/-- Start a routine sentinel on a unit that has none at work. Its landing suite spoils the rows that no group holds. -/
def startSuite (w : SideWin) (g unit : Nat) (suites : List Nat) (s : Block) : Block :=
  if s.rel.sentinels.any (fun x => x.gal == g && x.unit == unit && suites.contains x.suite) then s
  else match suitePick s w g unit suites with
    | none => s
    | some k =>
      let s := if k = 1 then spoilLandings g [unit] s else s
      { s with rel := { s.rel with sentinels := s.rel.sentinels ++ [{ routine := true, gal := g, suite := k, unit, stop := cyc s + suiteLen k }] } }

/-- Routine sentinels fill what slices leave of a window (R341), in the alcoves it frees that are awake and need no ramp, and
in the quads of its vector engines (log 80). -/
def runSentinels (w : SideWin) (s : Block) : Block :=
  if numF s 0x521001 = 0 then s
  else
    forEach (w.gals.filter (fun g => galHall g == w.hall && (gclk s g).running)) (fun g s =>
      let s := forEach ((maskBits 8 w.alcoves).filter (fun a => decide ((keeper s g a).phase = .steady))) (fun a s => startSuite w g a [0, 1] s) s
      if w.ve then forEach (List.range 4) (fun q s => startSuite w g q [2] s) s else s) s

/-- An injection of detectors 0x13 to 0x15 at the unit of a suite that ends fires (R352). -/
def sentinelHit (x : Sentinel) (s : Block) : Block :=
  let i := s.rel.inject
  let at? := if x.suite = 2 then fld i.loc 60 4 == 2 && fld i.loc 36 2 == x.unit else decide (fld i.loc 60 4 ≤ 1) && fld i.loc 51 3 == x.unit
  if armed s && i.detector == 0x13 + x.suite && i.trigger == 0 && fld i.loc 54 6 == x.gal && at? then
    detect i.detector i.loc true 0 0 [] (injectFire s)
  else s

/-- Sentinels whose last cycle has come end. -/
def endSuites (s : Block) : Block :=
  let done := s.rel.sentinels.filter (fun x => x.routine && decide (x.stop ≤ cyc s))
  if done = [] then s
  else
    let s := { s with rel := { s.rel with
      sentinels := s.rel.sentinels.filter (fun x => decide (cyc s < x.stop))
      covered := done.foldl (fun l x => setAdd l (suiteKey x.gal x.suite x.unit)) s.rel.covered } }
    forEach done sentinelHit s

/-- The sequencer has its queue to examine: the window's first cycle, or the end of a slice placed in it. -/
def placeDue (c : Nat) (w : SideWin) : Bool :=
  decide (w.start ≤ c) && decide (c < w.stop) && (match w.slice with
    | none => w.examine
    | some _ => decide (w.sliceEnd ≤ c))

/-- Place the first slice of the hall's queue that fits; if none does, sentinels have the remaining cycles. -/
def placeSlice (w : SideWin) (s : Block) : SideWin × Block :=
  let w := { w with slice := none, examine := false }
  match (sideQueue s w.hall).find? (sliceFits s w) with
  | none => (w, s)
  | some q =>
    let s := forEach q.conds (fun c s => waitTake (sliceGals s q.bundles.length q.bundles) c.1 c.2 s) s
    ({ w with slice := some q, due := cyc s, sliceEnd := cyc s + q.len }, setSideQueue w.hall ((sideQueue s w.hall).erase q) s)

/-- One window in the present cycle: the queue is examined when it is due, and the slice's due bundle issues. -/
def sideWindow (w : SideWin) (s : Block) : SideWin × Block :=
  let (w, s) := if placeDue (cyc s) w then placeSlice w s else (w, s)
  match w.slice with
  | none => (w, if w.start ≤ cyc s ∧ cyc s < w.stop then runSentinels w s else s)
  | some q => if w.due = cyc s ∧ cyc s < w.sliceEnd ∧ q.bundles ≠ [] then sideBundle w q s else (w, s)

/-- Every window of a module that is not frozen. -/
def sideGo : List SideWin → Block → List SideWin × Block
  | [], s => ([], s)
  | w :: r, s =>
    let (w, s) := sideWindow w s
    let (l, s) := sideGo r s
    (if cyc s < w.stop then w :: l else l, s)
def sideCycle (s : Block) : Block :=
  if s.freeze.isSome then s
  else
    let s := endSuites s
    if s.side.isEmpty then s else let (l, s) := sideGo s.side s; { s with side := l }

/-! ## The end of a freeze (R209) -/

/-- The freeze ends: what it held takes effect in order, and the bundle that waited issues. -/
def endFreeze (s : Block) : Block :=
  match s.freeze with
  | none => s
  | some z =>
    let s := { s with freeze := none }
    let s := forEach z.held doHeld s
    if z.bundle && s.freeze.isNone && s.prog.issuing then gateBundle s else s

/-- A queue of a gallery has room for the first held slot. -/
def roomFor (s : Block) (g : Nat) (h : HeldSlot) : Bool :=
  match h with
  | .slot (.dget ..) _ | .slot (.dput ..) _ | .slot (.dmov ..) _ => decide (queuedD s g < 64)
  | _ => decide (queuedA s (galHall g) < 256)

/-- The condition under which a freeze ends, where the module's own state decides it. -/
def freezeMet (s : Block) (z : Freeze) : Bool :=
  match z.kind with
  | .stall => waitMet s z.gals z.ctr z.value
  | .queueHold => match z.gals, z.held with
    | g :: _, i :: _ => roomFor s g i
    | _, _ => true
  | .rampHold => z.gals.all (fun k => (keeper s (k / 8) (k % 8)).phase == .steady)
  | .wakeHold => z.gals.all (fun g => (gclk s g).running && (List.range 8).all (fun a => (keeper s g a).phase != .rampUp))
  | .fetchHold => true

/-- A stalled SWAIT subtracts before its bundle issues. -/
def stallTake (z : Freeze) (s : Block) : Block :=
  let s := waitTake z.gals z.ctr z.value s
  match s.freeze with
  | none => s
  | some z => { s with freeze := none } |> fun s =>
    let s := forEach z.held doHeld s
    if z.bundle && s.freeze.isNone && s.prog.issuing then
      let h := leNat (bufBytes s s.prog.offset 8)
      issueSlots h (bufBytes s s.prog.offset (8 * max 1 (fld h 0 8))) s
    else s

/-- End a freeze of a kind when its condition holds. -/
def releaseKind (k : HoldKind) (s : Block) : Block :=
  match s.freeze with
  | none => s
  | some z => if z.kind = k ∧ freezeMet s z then (if k = .stall then stallTake z s else endFreeze s) else s

end Sys2Proof.Machine
end

