-- ==== Sys2Proof/Machine/Events.lean ====
section
/-! DEFINITION. Time-driven events of the data plane: what an idle cycle does (log 1, log 38), the issue of
the next bundle, landings and drains, the keepers' ramps (R91), gallery clocks (R218), the ends of
freezes (R209), and the placing of side slices (R215). -/

namespace Sys2Proof.Machine

/-! ## One cycle of the module -/

/-- Freezes whose end the module's own state decides end by themselves; the others wait for their
commands. -/
def autoRelease (s : Block) : Block := releaseKind .rampHold (releaseKind .queueHold (releaseKind .stall s))

/-- The bundle that is due issues. -/
def autoIssue (s : Block) : Block := if mayIssue s && decide (s.clk.nextIssue ≤ cyc s) then issueNext s else s

/-- One cycle with everything that happens in it. In Dormant and Standby only the local tick goes on. -/
def autoCycle (s : Block) : Block :=
  let s := lockstepCycle s
  if !(halls s) then passTime 38760 s else tellBeacons (clockCycle (sideCycle (autoIssue (autoRelease (drainLoop s)))))

/-- A cycle in which no bundle of the main program issues. -/
def bareCycle (s : Block) : Block := clockCycle (sideCycle (drainLoop s))

/-- Run cycles until a condition holds, at most `n`; the state is unchanged when it does not come to
hold (log 2). -/
def runGoal (cy : Block → Block) (p : Block → Bool) : Nat → Block → Option Block
  | 0, s => if p s then some s else none
  | n + 1, s => if p s then some s else runGoal cy p n (cy s)
def runUntil (p : Block → Bool) (n : Nat) (s : Block) : Block :=
  if !(halls s) then s else (runGoal autoCycle p n s).getD s

/-! ## Issue -/

/-- BUNDLE_ISSUE (R193): the clock runs to the cycle in which the bundle is due, and it issues; a freeze
that arises before ends the wait. -/
def doBundleIssue (s : Block) : Block :=
  if !(mayIssue s) then s
  else
    let s := iter (fun s => if decide (cyc s < s.clk.nextIssue) && s.freeze.isNone then bareCycle s else s) (s.clk.nextIssue - cyc s) s
    if mayIssue s then issueNext s else s

def execBundleIssue (s : State) : Host.Outcome State Fault Refusal := effect doBundleIssue s

/-- CURRENT_KEEPER_CYCLE (R89): one arithmetic cycle. -/
def doKeeperCycle (s : Block) : Block := if halls s then clockCycle s else s
def execCurrentKeeperCycle (s : State) : Host.Outcome State Fault Refusal := effect doKeeperCycle s

/-! ## Landings and drains -/

/-- LANDING_WRITE (R99): the cycle in which the next contribution reaches its landing. -/
def doLandingWrite (s : Block) : Block :=
  if s.arr.contribs.isEmpty then s
  else runUntil (fun t => s.arr.contribs.any (fun c => !(t.arr.contribs.contains c))) 4096 s
def execLandingWrite (s : State) : Host.Outcome State Fault Refusal := effect doLandingWrite s

/-- LANDING_OP_RELEASE (R108). -/
def doLandingRelease (s : Block) : Block :=
  if s.arr.held.isEmpty then s
  else runUntil (fun t => s.arr.held.any (fun h => !(t.arr.held.any (fun k => k.order == h.order)))) 65536 s
def execLandingOpRelease (s : State) : Host.Outcome State Fault Refusal := effect doLandingRelease s

/-- Drains that wait for their converter, by issue order. -/
def waitingDrains (s : Block) : List Nat := s.vec.convs.flatMap (fun e => e.2.waiting.map (·.order))

/-- DRAIN_START (R168): a drain that waits at its converter, or at the landing, starts. -/
def doDrainStart (s : Block) : Block :=
  let w := waitingDrains s ++ s.arr.held.map (·.order)
  if w.isEmpty then s
  else runUntil (fun t => w.any (fun o => t.vec.convs.any (fun e => match e.2.cur with
    | some j => j.order == o
    | none => false))) 65536 s
def execDrainStart (s : State) : Host.Outcome State Fault Refusal := effect doDrainStart s

/-! ## Ramps (R91) -/

/-- The keeper of an alcove is in a phase. -/
def inPhase (p : KPhase) (g a : Nat) (s : Block) : Bool := (keeper s g a).phase == p

/-- A command that names an alcove. -/
def onAlcove (g a : Nat) (f : Block → Block) (s : State) : Host.Outcome State Fault Refusal :=
  if 50 ≤ g ∨ 8 ≤ a then .fault .noSuchUnit else effect f s

/-- While the power core restarts no alcove ramps down (R432). -/
def doRampDown (g a : Nat) (s : Block) : Block :=
  if inPhase .steady g a s && procRuns s 1 then runUntil (inPhase .rampDown g a) 3401 s else s
def execRampDownStart (g a : Nat) (s : State) : Host.Outcome State Fault Refusal := onAlcove g a (doRampDown g a) s

def doRampDownEnd (g a : Nat) (s : Block) : Block :=
  if inPhase .rampDown g a s then runUntil (inPhase .gated g a) 17001 s else s
def execRampDownEnd (g a : Nat) (s : State) : Host.Outcome State Fault Refusal := onAlcove g a (doRampDownEnd g a) s

def doRampUpEnd (g a : Nat) (s : Block) : Block :=
  if inPhase .rampUp g a s then runUntil (inPhase .steady g a) 17001 s else s
def execRampUpEnd (g a : Nat) (s : State) : Host.Outcome State Fault Refusal := onAlcove g a (doRampUpEnd g a) s

/-! ## Ends of freezes (R209) -/

/-- The freeze in force is of a kind. -/
def frozenBy (k : HoldKind) (s : Block) : Bool := match s.freeze with
  | some z => z.kind == k
  | none => false

/-- RAMP_HOLD_END: the ramps up run to their end, and the module resumes. -/
def doRampHoldEnd (s : Block) : Block :=
  if !(frozenBy .rampHold s) then s
  else
    let met := fun (t : Block) => match t.freeze with
      | some z => freezeMet t z
      | none => true
    match runGoal clockCycle met 17002 s with
    | some t => releaseKind .rampHold t
    | none => s
def execRampHoldEnd (s : State) : Host.Outcome State Fault Refusal := effect doRampHoldEnd s

/-- STALL_RELEASE (R207), QUEUE_HOLD_END (R204), WAKE_HOLD_END (R218). -/
def execStallRelease (s : State) : Host.Outcome State Fault Refusal := effect (releaseKind .stall) s
def execQueueHoldEnd (s : State) : Host.Outcome State Fault Refusal := effect (releaseKind .queueHold) s
def execWakeHoldEnd (s : State) : Host.Outcome State Fault Refusal := effect (releaseKind .wakeHold) s

/-- FETCH_HOLD_END (R335): the words of the bundle have come from the other hall's copy. -/
def doFetchHoldEnd (s : Block) : Block :=
  if !(frozenBy .fetchHold s) then s
  else
    let h := leNat (bufBytes s s.prog.offset 8)
    let words := range' (s.prog.offset / 8) (max 1 (fld h 0 8))
    releaseKind .fetchHold { s with prog := { s.prog with badA := s.prog.badA.filter (fun w => !(words.contains w)) } }
def execFetchHoldEnd (s : State) : Host.Outcome State Fault Refusal := effect doFetchHoldEnd s

/-! ## Gallery clocks (R218) -/

/-- A command that names a gallery. -/
def onGallery (g : Nat) (f : Block → Block) (s : State) : Host.Outcome State Fault Refusal :=
  if 50 ≤ g then .fault .noSuchUnit else effect f s

/-- GALLERY_CLOCK_STOP: alcoves gated, vector engine idle, no descriptor queued, no wake pending. -/
def doClockStop (g : Nat) (s : Block) : Block :=
  let c := gclk s g
  if c.running && alcovesGated s g && veIdle s g && !(s.queues.descs.any (fun d => d.gal == g)) && c.wakeAlcoves == 0 && !c.wakeVe then
    setGclk g { c with running := false } s
  else s
def execGalleryClockStop (g : Nat) (s : State) : Host.Outcome State Fault Refusal := onGallery g (doClockStop g) s

/-- GALLERY_CLOCK_RESTART: the clock runs and the ramps of the pending wake start. -/
def doClockRestart (g : Nat) (s : Block) : Block :=
  let c := gclk s g
  if c.restarting && halls s then wakeGal g c.wakeAlcoves 0 (setGclk g clkRuns s) else s
def execGalleryClockRestart (g : Nat) (s : State) : Host.Outcome State Fault Refusal := onGallery g (doClockRestart g) s

/-! ## Side slices (R215) -/

/-- Every window of a hall whose queue is due for examination is served. -/
def placeAll (hall : Nat) : List SideWin → Block → List SideWin × Block
  | [], s => ([], s)
  | w :: r, s =>
    let (w, s) := if w.hall = hall ∧ placeDue (cyc s) w then placeSlice w s else (w, s)
    let (l, s) := placeAll hall r s
    (w :: l, s)

/-- SIDE_SLICE_PLACE (R215): the clock runs to the cycle in which the hall's queue is due for examination, and the first
slice that fits is placed, or sentinels take the rest. -/
def doSlicePlace (hall : Nat) (s : Block) : Block :=
  if s.freeze.isSome || !(s.side.any (·.hall == hall)) then s
  else
    let s := runUntil (fun t => t.side.any (fun w => w.hall == hall && placeDue (cyc t) w)) 65536 s
    let (l, s) := placeAll hall s.side s
    { s with side := l }

def execSideSlicePlace (hall : Nat) (s : State) : Host.Outcome State Fault Refusal :=
  if 2 ≤ hall then .fault .noSuchUnit else effect (doSlicePlace hall) s

end Sys2Proof.Machine
end

