-- ==== Sys2Proof/Machine/Load.lean ====
section
/-! DEFINITION. Loading a program (R188 to R192, R219 to R222, R448, R490): the checks of an image, the
binding of galleries and arrays (R84, R85, R220), and what a load sets. -/

namespace Sys2Proof.Machine

/-! ## The image in a program buffer -/

/-- The bytes of an image as a buffer's table. -/
def bufOf (b : Bytes) : SMap Byte := b.zipIdx.filterMap (fun e => if e.1 = 0 then none else some (e.2, e.1))

/-- The state as it would be with an image in both buffers. -/
def withImage (b : Bytes) (s : Block) : Block :=
  { s with prog := { s.prog with bufA := bufOf b, bufB := bufOf b, badA := [], badB := [], size := b.length } }

/-! ## Signature (R219 step 2, R448) -/

/-- The trailer's digest and signature hold in the present lifecycle state. -/
def trailerOk (s : Block) (img trailer : Bytes) : Bool :=
  leAt trailer 0 4 == 0x4E345053 && slice trailer 60 64 == sha512 img &&
    (lifecycle s != 2 || ecdsaOk s.sec.owner (sha512 (slice trailer 60 64)) (slice trailer 124 132))

/-! ## Form (R490, R192) -/

/-- Largest entry counts of the parts; 0 where R188 gives no count. -/
def partLimit : List Nat := [0, 65535, 16384, 64, 1024, 4096, 1024, 4096, 256, 0, 0, 0]

/-- One part is well formed (R490): whole entries, within SIZE and its limit; the width map and the initial token
counts have one size. `t` holds the image. -/
def partOk (t : Block) (i : Nat) : Bool :=
  let n := partSize t i
  decide (partOff t i + n ≤ imgSize t) && n % nth partEntry i 1 == 0 &&
    (nth partLimit i 0 == 0 || decide (partCount t i ≤ nth partLimit i 0)) && (i != 9 || n == 6144) && (i != 10 || n == 49152)

/-- Two parts do not share a byte. -/
def apart (t : Block) (i j : Nat) : Bool :=
  partSize t i == 0 || partSize t j == 0 || decide (partOff t i + partSize t i ≤ partOff t j) ||
    decide (partOff t j + partSize t j ≤ partOff t i)

/-- The side slices lie in the bundle area at a multiple of 8. -/
def sideInside (t : Block) : Bool :=
  partOff t 11 % 8 == 0 && decide (partOff t 0 ≤ partOff t 11) && decide (partOff t 11 + partSize t 11 ≤ partOff t 0 + partSize t 0)

/-- No two parts overlap, the 256-byte header included (R188), but the side slices and the bundle area that holds them. -/
def partsApart (t : Block) : Bool :=
  (List.range 12).all (fun i => partSize t i == 0 || decide (256 ≤ partOff t i)) &&
  (List.range 11).all (fun i => (List.range 11).all (fun j => i == j || apart t i j)) &&
    (range' 1 10).all (fun i => apart t i 11) && (apart t 0 11 || sideInside t)

/-- Every segment number and vote group that a table names exists, and every product has its two ends. -/
def tablesOk (t : Block) : Bool :=
  let segs := partCount t 1
  let segOk := fun n => decide (n < segs)
  (List.range (partCount t 7)).all (fun p =>
    prodSeg t p 0 0 != 0xFFFF && prodSeg t p 2 2 != 0xFFFF &&
    (List.range 9).all (fun k => let n := prodSeg t p (k / 3) (k % 3); n == 0xFFFF || segOk n)) &&
  (List.range (partCount t 2)).all (fun i => let w := runWord t i; fld w 30 2 != 0 || segOk (fld w 0 16)) &&
  (List.range (partCount t 2)).all (fun i => let w := runWord t i; fld w 30 2 != 1 || decide (fld w 0 12 < partCount t 7)) &&
  (imgRebuild t == 0xFFFF || segOk (imgRebuild t)) &&
  (List.range (partCount t 6)).all (fun c => precGroup t c == 0 || decide (precGroup t c < partCount t 8))

/-- Set masks name only galleries of the compiled shape. -/
def masksOk (t : Block) : Bool :=
  let gals := shapeGals (imgShapeA t) (imgShapeB t)
  (List.range (partCount t 3)).all (fun n => (maskBits 48 (setMaskOf t n)).all (fun g => gals.contains g))

/-- The load status of the checks of step 3: 0 when they pass (R222). -/
def formStatus (t : Block) (size : Nat) : Nat :=
  if imgMagic t ≠ 0x4E345047 then 3
  else if imgVersion t ≠ 1 then 2
  else if 24 < imgShapeA t ∨ 24 < imgShapeB t ∨ imgSize t + 256 ≠ size ∨ 2 ^ 23 < imgSize t then 3
  else if !((List.range 12).all (partOk t)) || !(partsApart t) || !(tablesOk t) || !(masksOk t) then 3
  else if offered t 0 < imgShapeA t ∨ offered t 1 < imgShapeB t then 4
  else 0

/-! ## Binding (R84, R85, R220) -/

/-- Unfenced arrays of an alcove: those of full width and the narrowed ones. -/
def wideArrs (s : Block) (g a : Nat) : List Nat :=
  (List.range 132).filter (fun r => !(arrFenced s g a r) && arrNarrow s g a r == 0)
def narrowArrs (s : Block) (g a : Nat) : List Nat :=
  (List.range 132).filter (fun r => !(arrFenced s g a r) && arrNarrow s g a r != 0)

/-- The physical array of each logical array of an alcove, or none when it does not bind. -/
def bindAlcove (t : Block) (lg g a : Nat) : Option (List (Nat × Nat)) :=
  let full := wideArrs t g a
  let thin := narrowArrs t g a
  let nc := (List.range 128).filter (narrowCapable t lg a)
  let rest := (List.range 128).filter (fun r => !(narrowCapable t lg a r))
  if full.length < rest.length ∨ full.length + thin.length < 128 then none
  else
    some (nc.zip thin ++ rest.zip full ++ (nc.drop thin.length).zip (full.drop rest.length))

/-- The arrays of a gallery, or none when an alcove does not bind. -/
def bindGallery (t : Block) (lg g : Nat) : Option (List (Nat × Nat × Nat)) :=
  (List.range 8).foldl (fun acc a => match acc, bindAlcove t lg g a with
    | some l, some m => some (l ++ m.map (fun e => (a, e.1, e.2)))
    | _, _ => none) (some [])

/-- Candidates of a logical gallery in order: its default, its hall's spare, then the lowest (R220). -/
def candidates (lg : Nat) : List Nat :=
  let hall := lg / 24
  [if lg < 24 then lg else lg + 1, if hall = 0 then 24 else 49] ++ range' (25 * hall) 25

/-- What a binding has so far. -/
structure BindAcc where
  gal : List (Nat × Nat)
  arr : List (Nat × Nat × Nat × Nat)
  failed : List Nat
  deriving DecidableEq, Repr, Inhabited

/-- Bind one logical gallery. -/
def bindOne (t : Block) (b : BindAcc) (lg : Nat) : BindAcc :=
  let free := (candidates lg).filter (fun g => galFit t g && !(b.gal.any (fun e => e.2 == g)))
  match free.findSome? (fun g => (bindGallery t lg g).map (fun l => (g, l))) with
  | some (g, l) => { b with gal := b.gal ++ [(lg, g)], arr := b.arr ++ l.map (fun e => (lg, e)) }
  | none => { b with failed := b.failed ++ [lg] }

/-- Bind the image's shape. -/
def bindAll (t : Block) : BindAcc :=
  (shapeGals (imgShapeA t) (imgShapeB t)).foldl (bindOne t) { gal := [], arr := [], failed := [] }

/-- The binding as the machine holds it. -/
def bindingOf (t : Block) (b : BindAcc) : Binding :=
  let phys := fun lg => (b.gal.find? (fun e => e.1 == lg)).map (·.2)
  { shapeA := imgShapeA t, shapeB := imgShapeB t
    gal := b.gal.foldl (fun m e => mapSet 0 m e.1 (e.2 + 1)) []
    arr := b.arr.foldl (fun m e => if e.2.2.1 = e.2.2.2 then m else mapSet 0 m ((e.1 * 8 + e.2.1) * 128 + e.2.2.1) (e.2.2.2 + 1)) []
    narrow := b.arr.foldl (fun m e => match phys e.1 with
      | some g => mapSet 0 m (arrKey g e.2.1 e.2.2.2) (arrNarrow t g e.2.1 e.2.2.2)
      | none => m) [] }

/-- The shape that the module can offer this image: bound galleries of each hall. -/
def boundShape (b : BindAcc) : Nat :=
  (b.gal.filter (fun e => decide (e.1 < 24))).length + (b.gal.filter (fun e => decide (24 ≤ e.1))).length * 256

/-! ## What a load sets (R219 step 6) -/

/-- Token counters from the image. -/
def initTokens (s : Block) : Block :=
  let vals := s.bind.gal.foldl (fun (m : SMap Nat) e => (List.range 256).foldl (fun m c => mapSet 0 m ((e.2 - 1) * 256 + c) (initTok s e.1 c)) m) []
  tokWrite true vals { s with tok := { s.tok with start := vals } }

/-- Every cset at rung 0 with NEED of 0x2310.02 (R139). -/
def initCsets (s : Block) : Block :=
  setDom 0x234100 ((List.range 1024).flatMap (fun i => leBytes 4 (mkCword 0 (pinned s i) false false false (numF s 0x231002) 0))) s

/-- A format fault for each precision-table entry whose rung-0 format is neither 0x10 nor 0x11; it is used as 0x10 (R192,
R35). -/
def precFaults (s : Block) : Block :=
  forEach (List.range (min 1024 (partCount s 6))) (fun c s =>
    let f := fld (precWord s c) 224 8
    if f = 0x10 ∨ f = 0x11 then s else logFault .format 255 (partOff s 6 + 32 * c) f 0 s) s

/-- Only the landings of bound arrays keep their power: what the others held is lost, and reads as undefined (R20,
R112, log 66). -/
def powerLandings (s : Block) : Block :=
  let used := s.bind.gal.map (fun e => (e.2 - 1, (List.range 1024).map (fun i => arrKey (e.2 - 1) (i / 128) (arrOf s e.1 (i / 128) (i % 128)))))
  let bound := fun k => used.any (fun e => e.1 == arrGal (k / 64) && e.2.contains (k / 64))
  { s with arr := { s.arr with rows := mapFilter bound s.arr.rows, groups := mapFilter bound s.arr.groups } }

/-- What ends with the program before. -/
def clearProgram (s : Block) : Block :=
  let s := restoreFrames s
  { s with
    freeze := none, side := [], sideA := [], sideB := [], stoppedTags := []
    arr := { s.arr with streams := [], contribs := [], held := [], groups := [], ports := [] }
    vec := { s.vec with jobs := [], writes := [], mwrites := [], zwrites := [], convs := [], portFree := [], flags := [] }
    gals := { s.gals with alcPair := false, quadPair := false, nextPair := none, csets := [] }
    queues := { s.queues with descs := [], cancelled := 0 }
    colls := { s.colls with colls := [], heldReady := [], heldBells := [], doneBells := [], doneReds := [], cache := [], sendIndex := [], bits := 0,
                            reuses := 0, pulls := 0, rejects := [], gathers := [] }
    upd := { s.upd with log := [], checks := [], etaWritten := false, etaFirst := true, etaLate := false, etaFresh := false }
    bnd := { s.bnd with phase := .none, wait := .nothing, next := 0, bits := 0, sums := [], decs := [], storm := false, stormNow := false,
                        attempt := 0, votes := [], agrees := [], splitFrom := [], resume := false, sinceDown := [], atZero := [], reserve := [],
                        ctxDigest := zeros 64, manifest := [], commitPages := [], underConnWait := false }
    recov := { s.recov with parkPending := false, replay := false } }

/-- The scheduler core sets tokens, lanes, csets, step number, routes (R273) and run list; sweeps give up bound galleries. -/
def finishLoad (digest : Bytes) (s : Block) : Block :=
  let s := precFaults (initCsets (initTokens (powerLandings s)))
  let s := laneSeed1 (laneSeed0 s)
  let s := laneAction true { s with lanes := { s.lanes with drawn := false, drawnStep := false } }
  let s := setNum 0x600001 (imgStart s) (setDom 0x603002 digest s)
  let s := setNum 0x235002 0 (setNum 0x600005 0 s)
  let s := setNum 0x607000 (num s 0x607000 &&& 0xF2) s
  let s := sweepYield (setRelBit 1 false s)
  adoptMarks <| buildRun <| buildRoutes { s with
    colls := { s.colls with gathers := imgGathers s }
    prog := { s.prog with loaded := true, started := false, issuing := false }
    rel := { s.rel with covered := [], sinceCover := 0, sentinels := [], pendingFences := [] } }

/-- The outcome of a load: 0 to 7 the load status (R222), 256 a refused adoption (R412). -/
def tryLoad (addr size : Nat) (s : Block) : Nat × Block :=
  if stepRunning s && s.prog.started then (7, s)
  else if size < 512 ∨ 2 ^ 23 + 256 < size then (3, s)
  else
    let (d, s1) := memRead 0 addr size s
    let img := (plain d).take (size - 256)
    let trailer := (plain d).drop (size - 256)
    if anyPoison d || !(trailerOk s img trailer) then (1, s1)
    else
      let st := formStatus (withImage img s1) size
      if st ≠ 0 then (st, setNum 0x603003 (offered s1 0 + offered s1 1 * 256) s1)
      else
        let (refused, s2) := adoptOwn s1
        if refused then (256, setNum 0x600002 (putBit (num s2 0x600002) 7 true) s2)
        else
          let t := withImage img s2
          let b := bindAll t
          if b.failed ≠ [] then (5, setNum 0x603003 (boundShape b) s2)
          else
            let s3 := clearProgram s2
            let s3 := withImage img { s3 with bind := bindingOf t b, prog := { s3.prog with source := addr } }
            let s3 := setNum 0x603003 (offered s3 0 + offered s3 1 * 256) s3
            (0, finishLoad (sha512 img) s3)

/-- PROGRAM_LOAD (R219, R393): a long request, unless adoption is refused. -/
def doLoad (r : ReqF) (addr size : Nat) (s : Block) : Block :=
  let (st, s) := tryLoad addr size s
  if st = 256 then respond r 0x10 stState [] s
  else longDone 0x10 st r.seq (setNum 0x603001 st (respond r 0x10 stAccepted [] s))

end Sys2Proof.Machine
end

