-- ==== Sys2Proof/Machine/Recovery.lean ====
section
/-! DEFINITION. Parking, saving and restoring contexts, takeover and re-mirror (R365 to R370), replay (R373),
gallery reset (R375), and the messages of holders (R364). The mailbox requests that start them stand in
Requests.lean. -/

namespace Sys2Proof.Machine

/-! ## Unloading -/

/-- No program (R375). -/
def progZero : Prog :=
  { loaded := false, started := false, issuing := false, bufA := [], bufB := [], badA := [], badB := [], size := 0, source := 0,
    runList := [], segDone := 0, offset := 0, lastBank := 0 }

/-- No binding. -/
def bindZero : Binding := { shapeA := 0, shapeB := 0, gal := [], arr := [], narrow := [] }

/-- The program is unloaded. -/
def unload (s : Block) : Block :=
  let s := clearProgram s
  activationIdle <| powerLandings (setDom 0x603002 (zeros 64) { s with prog := progZero, bind := bindZero, recov := { s.recov with job := none } })

/-! ## Park, start and resume -/

/-- A request of this group that the module's state does not allow: STATE, and code 1 in 0x6073 (log 94). -/
def refuseState (typ : Nat) (r : ReqF) (s : Block) : Block := respond r typ stState [] (setNum 0x607300 1 s)

/-- PARK (R365): after the next boundary, or at once when nothing issues. -/
def doPark (r : ReqF) (s : Block) : Block :=
  if !s.prog.loaded || (!s.prog.started && !(isParked s)) then refuseState 0x12 r s
  else
    let s := respond r 0x12 stAccepted [] s
    let s := { s with recov := { s.recov with parkPending := true, parkReqs := s.recov.parkReqs ++ [(r.port, r.seq)] } }
    if isParked s then goParked s else setRecov 0 true s

/-- START (R219, R393). -/
def doStart (r : ReqF) (s : Block) : Block :=
  if !s.prog.loaded || s.prog.started || s.bnd.phase == .actions || s.recov.job.isSome then refuseState 0x11 r s
  else beginResume 0x11 r { s with recov := { s.recov with replay := false } }

/-- RESUME (R365): also leaves HALTED, and issues a program loaded or restored while the module was parked, or after a warm
reset (R375). -/
def doResume (r : ReqF) (s : Block) : Block :=
  if !(atRest s) || s.bnd.phase == .actions || s.recov.job.isSome then refuseState 0x13 r s
  else beginResume 0x13 r { s with recov := { s.recov with replay := false } }

/-- The manifest's step number and η. -/
def mfStep (m : Bytes) : Nat := leAt m 8 8
def mfEta (m : Bytes) : Nat := leAt m 0x1B0 4

/-- REPLAY_START (R373). -/
def doReplay (r : ReqF) (s : Block) : Block :=
  let m := slice (dom s 0x608400) 0 4096
  let fail := fun n => respond r 0x11 stFailed [] (setNum 0x607300 n s)
  if !(atRest s) || s.bnd.phase == .actions || s.recov.job.isSome then refuseState 0x11 r s
  else if slice m 0x18 64 ≠ dom s 0x603002 then fail 4
  else if slice m 0x58 64 ≠ digestForce s then fail 7
  else
    let s := setNum 0x607300 0 (setNum 0x600001 (mfStep m) s)
    beginResume 0x11 r { s with
      recov := { s.recov with replay := true, replayManifest := m }
      upd := { s.upd with eta := mfEta m } }

/-! ## Save and restore (R366) -/

/-- A request of the recovery group that ends at once: ACCEPTED, its effect, its result in 0x6073, and
alert 0x0A. -/
def recovEnd (typ code : Nat) (r : ReqF) (s : Block) : Block := longDone typ code r.seq (setNum 0x607300 code s)

/-- SAVE: the module's own context to a page-aligned address. -/
def doSave (r : ReqF) (addr : Nat) (s : Block) : Block :=
  if addr % 2 ^ 20 ≠ 0 ∨ 2 ^ 39 ≤ addr then respond r 0x14 stLength [] s
  else
    let s := respond r 0x14 stAccepted [] s
    if !(atRest s) || s.recov.job.isSome then recovEnd 0x14 1 r s
    else match mapGet [] s.recov.contexts s.arc.slot with
      | [] => recovEnd 0x14 2 r s
      | c => recovEnd 0x14 0 r (memWrite 0 false addr (c.map (fun b => (b, false))) s).2

/-- The checks of R366 after the first, in order: 0 when all pass. -/
def ctxStatus (c : Bytes) (nolanes : Bool) (s : Block) : Nat :=
  if !(ctxValid c) then 2
  else if leAt c 0 2 ≠ 1 then 3
  else if ctxProgram c ≠ slice (dom s 0x603002) 0 64 then 4
  else if ctxLanes c ≠ laneCount s ∧ !nolanes then 5
  else if ctxShape c ≠ shapeWord s then 6
  else if ctxConfig c ≠ digestForce s then 7
  else if nolanes && ctxDrawn c then 8 else 0

/-- Write the level byte of every tensor descriptor in both halls' copies. -/
def putLevels (c : Bytes) (s : Block) : Block :=
  let off := partOff s 4 + 1
  forEach (List.range (64 * partCount s 4)) (fun i s => bufPut (off + 64 * i) (nth c (4352 + i) 0) s) s

/-- Write the token counters of the bound galleries. -/
def putTokens (c : Bytes) (s : Block) : Block :=
  let vals := s.bind.gal.foldl (fun (m : SMap Nat) e => (List.range 256).foldl (fun m k =>
    mapSet 0 m ((e.2 - 1) * 256 + k) (leAt c (69888 + 4 * (256 * e.1 + k)) 4)) m) []
  tokWrite true vals { s with tok := { s.tok with start := vals } }

/-- Bank 0 of every bound lane from the context; the snapshot is equal (R186). -/
def putLanes (c : Bytes) (s : Block) : Block :=
  let gals := shapeGals s.bind.shapeA s.bind.shapeB
  let one := fun (m : SMap Nat) (e : Nat × Nat) => match physOf s e.1 with
    | none => m
    | some g => (List.range 1024).foldl (fun m n => mapSet (2 ^ 128) m (g * 1024 + n) (leAt c (119040 + 16 * (1024 * e.2 + n)) 16)) m
  let m := gals.zipIdx.foldl one []
  { s with lanes := { s.lanes with bank0 := m, snap := m, seedSnap := s.lanes.seed0 } }

/-- The reserve holds what the restored rungs need, in the order of R147 (log 77). -/
def restoreReserve (s : Block) : Block :=
  let s := forEach (regionUsed s) dropPage s
  let sets := ((precSets s).map (fun c => ({ (default : CDec) with cset := c, present := 0, proposal := rungOf s c }))).foldl (fun l d => prioInsert s d l) []
  countReserve (forEach sets (fun d s => takePages d.cset (pagesFor s (precPages s d.cset d.proposal)) s) s)

/-- What a restore sets (R366). -/
def applyContext (c : Bytes) (nolanes : Bool) (s : Block) : Block :=
  let s := setDom 0x234100 (slice c 256 4096) (setNum 0x600001 (ctxStep c) s)
  let s := restoreReserve (putTokens c (putLevels c s))
  let s := setNum 0x601002 (leAt c 164 8) (setNum 0x601001 (leAt c 160 4) s)
  let s := { s with upd := { s.upd with eta := leAt c 160 4, etaFresh := leAt c 164 8 == ctxStep c, etaWritten := false, etaFirst := true, etaLate := false } }
  let s := if nolanes then laneAction true (laneSeed0 s) else putLanes c s
  let s := laneSeed1 { s with lanes := { s.lanes with drawn := ctxDrawn c, drawnStep := false } }
  setRecov 2 true (buildRun { s with bnd := { s.bnd with ctxDigest := ctxHash c } })

/-- RESTORE (R366). -/
def doRestore (r : ReqF) (addr flags : Nat) (s : Block) : Block :=
  if addr % 2 ^ 20 ≠ 0 ∨ 2 ^ 39 ≤ addr then respond r 0x15 stLength [] s
  else
    let s := respond r 0x15 stAccepted [] s
    if !(atRest s) || s.bnd.phase == .actions || s.recov.job.isSome then recovEnd 0x15 1 r s
    else
      let (h, s) := memRead 0 addr 256 s
      let n := leAt (plain h) 4 4
      let (d, s) := if n < 256 ∨ 119040 + 16 * 49152 < n then (h, s) else memRead 0 addr n s
      let code := if anyPoison d then 2 else ctxStatus (plain d) (bit flags 0) s
      if code = 0 then recovEnd 0x15 0 r (applyContext (plain d) (bit flags 0) s) else recovEnd 0x15 code r s

/-! ## Takeover and re-mirror (R367 to R370) -/

/-- Pull a range of `size` bytes from a slot by RREQ; without a path the pull fails. -/
def pullRange (slot from0 toAddr size : Nat) (s : Block) : Block :=
  match s.recov.job with
  | none => s
  | some j =>
    if size = 0 then s
    else if (pathTo s slot 0).isNone then { s with recov := { s.recov with job := some { j with failed := true } } }
    else
      let s := { s with recov := { s.recov with job := some { j with pulls := j.pulls ++ [{ slot, addr := toAddr, size, got := 0 }] } } }
      forEach (List.range (ceilDiv size 8192)) (fun i s =>
        let n := min 8192 (size - 8192 * i)
        sendPacket 0
          { src := s.arc.slot, shall := 0, dst := slot, vc := 2, detour := false, hop := 0
            header := mkHeader 2 0 0 (lepochNo s) (n - 1) (from0 + 8192 * i) 0 0 0 0 (stepNo s) 0 ((toAddr + 8192 * i) % 2 ^ 39)
            data := [], poison := [] } s) s

/-- Copy a range inside the module; poison fails the job. -/
def copyRange (from0 toAddr : Nat) : Nat → Block → Block
  | 0, s => s
  | n + 1, s =>
    let r := memRead 0 from0 (2 ^ 20) s
    let s := { r.2 with recov := { r.2.recov with job := r.2.recov.job.map (fun j => { j with failed := j.failed || anyPoison r.1 }) } }
    copyRange (from0 + 2 ^ 20) (toAddr + 2 ^ 20) n (memWrite 0 false toAddr r.1 s).2

/-- The port toward a slot is up. -/
def slotUp (s : Block) (slot : Nat) : Bool :=
  slot == s.arc.slot || (match routePort s slot with
    | some i => portUp s i
    | none => false)

/-- Two entries hold the same pages of their owner. -/
def sameRange (a b : SliceEntry) : Bool := a.owner == b.owner && a.eighth == b.eighth && a.home == b.home && a.pages == b.pages

/-- The entries of a rank that may serve: their holder is not the slot that the rank left, and its port is up. -/
def servers (rank left : Nat) (s : Block) : List SliceEntry :=
  (sliceDir s).filter (fun e => e.owner == rank && e.holder != left && slotUp s e.holder)

/-- Steps 1 and 2 of R368: every eighth of a rank into its home pages, each range once, from the first holder that serves. -/
def pullRank (rank left : Nat) (s : Block) : Block :=
  let once := (servers rank left s).foldl (fun l e => if l.any (sameRange e) then l else l ++ [e]) []
  forEach once (fun e s =>
    if e.holder = s.arc.slot then copyRange (e.here * 2 ^ 20) (e.home * 2 ^ 20) e.pages s
    else pullRange e.holder (e.here * 2 ^ 20) (e.home * 2 ^ 20) (e.pages * 2 ^ 20) s) s

/-- Step 3: every eighth that the directory names the module as holder of, from its owner's home pages. -/
def pullHeld (s : Block) : Block :=
  forEach ((sliceDir s).filter (fun e => e.holder == s.arc.slot && rankSlot s e.owner != s.arc.slot)) (fun e s =>
    pullRange (rankSlot s e.owner) (e.home * 2 ^ 20) (e.here * 2 ^ 20) (e.pages * 2 ^ 20) s) s

/-- Every pull has arrived. -/
def pullsDone (j : TakeJob) : Bool := j.pulls.all (fun p => decide (p.size ≤ p.got))

/-- The end of a takeover or re-mirror. -/
def endJob (code : Nat) (s : Block) : Block :=
  match s.recov.job with
  | none => s
  | some j =>
    let s := { s with recov := { s.recov with job := none }, prog := { s.prog with issuing := false }, freeze := none }
    longDone j.typ code j.req.2 (setNum 0x607300 code s)

/-- Begin the rebuild segment with the initial token counts (R369). -/
def startRebuild (j : TakeJob) (s : Block) : Block :=
  let s := initTokens (startRun [imgRebuild s] s)
  { s with
    recov := { s.recov with job := some { j with rebuild := true } }
    prog := { s.prog with issuing := true }
    bnd := { s.bnd with bits := 0 }
    clk := { s.clk with nextIssue := s.clk.fcyc + 1 } }

/-- Step 5: restore the context, and set TAKEOVER. A context of another lane count or shape is not restored (R186, R366). -/
def finishTakeover (j : TakeJob) (s : Block) : Block :=
  let s := { s with bnd := { s.bnd with bits := 0 } }
  if j.ctx = [] then endJob 0 (setRecov 3 true (buildRun s))
  else if ctxLanes j.ctx ≠ laneCount s then endJob 5 s
  else if ctxShape j.ctx ≠ shapeWord s then endJob 6 s
  else endJob 0 (setRecov 3 true (applyContext j.ctx false s))

/-- Go on with a takeover or re-mirror as far as it can go. -/
def jobGo (s : Block) : Block :=
  match s.recov.job with
  | none => s
  | some j =>
    if j.failed then endJob 0x0C s
    else if !j.rebuild then
      if !(pullsDone j) then s
      else if j.typ = 0x17 then endJob 0 s
      else startRebuild j s
    else if bit s.bnd.bits 5 then endJob 0x0C s
    else if !s.prog.issuing && unitsQuiet s && s.queues.descs.isEmpty then finishTakeover j s
    else s

/-- Count an MWRITE that brings pulled data. -/
def pullArrive (p : Packet) (s : Block) : Block :=
  match s.recov.job with
  | none => s
  | some j =>
    let a := phAddr p.header
    let mine := fun (q : Pull) => q.slot == p.src && decide (q.addr ≤ a) && decide (a < q.addr + q.size)
    if phTgt p.header = 1 ∨ !(j.pulls.any mine) then s
    else
      let j := { j with
        failed := j.failed || p.poison.any id
        pulls := j.pulls.map (fun q => if mine q then { q with got := q.got + p.data.length } else q) }
      jobGo { s with recov := { s.recov with job := some j } }

/-- The contexts of a rank that the spare's store or a holder holds. What a holder holds is free (log 94). -/
def ctxsOf (rank : Nat) (s : Block) : List Bytes :=
  let far := ((holdersOf s rank).filter (fun h => h != s.arc.slot && slotUp s h)).map (Config.holderContext s.freeCtr)
  ((s.recov.contexts.map (·.2)) ++ far.filter ctxValid).filter (fun c => ctxRank c == rank)

/-- The step number in the beacon of a slot, when a link to it has one. -/
def slotStep (s : Block) (slot : Nat) : Option Nat :=
  ((List.range 18).find? (fun l => carries (link s l).state && (link s l).peerSlot == slot)).map (fun l => bcStep (link s l).beacon)

/-- A link's beacon from a slot reports SLICE_UNSAFE. -/
def slotUnsafe (s : Block) (slot : Nat) : Bool :=
  (List.range 18).any (fun l => carries (link s l).state && (link s l).peerSlot == slot && bcUnsafe (link s l).beacon)

/-- The step at which the job is parked, by a holder's beacon, or by the latest context held. -/
def parkedStep (rank : Nat) (s : Block) : Nat :=
  match (holdersOf s rank).findSome? (slotStep s) with
  | some t => t
  | none => maxNat ((ctxsOf rank s).map ctxStep)

/-- The slot that a rank left: the one its context names; 127 where no context says. -/
def leftSlot (rank : Nat) (s : Block) : Nat :=
  match (ctxsOf rank s).filter (fun c => ctxStep c == parkedStep rank s) with
  | c :: _ => ctxSlot c
  | [] => 127

/-- The checks of R368 for the slice source, after those on the request: 0 when all pass. -/
def sliceStatus (rank : Nat) (s : Block) : Nat :=
  let t := parkedStep rank s
  let cs := (ctxsOf rank s).filter (fun c => ctxStep c == t)
  let all := (sliceDir s).filter (fun e => e.owner == rank)
  let es := servers rank (leftSlot rank s) s
  if numF s 0x601300 = 1 ∨ (holdersOf s rank).any (fun h => h != s.arc.slot && h != leftSlot rank s && slotUnsafe s h) then 0x0B
  else if cs = [] ∨ !(cs.all (fun c => ctxHash c == ctxHash (cs.headD []))) then 0x09
  else if !((List.range 8).all (fun k => es.any (fun e => e.eighth == k))) || !(all.all (fun e => es.any (sameRange e))) then 0x0A
  else if es.any (fun e => e.holder != s.arc.slot && slotStep s e.holder != some t) then 0x09
  else 0

/-- A takeover or re-mirror begins. -/
def startJob (typ : Nat) (r : ReqF) (rank : Nat) (ctx : Bytes) (s : Block) : Block :=
  let j : TakeJob := { typ, req := (r.port, r.seq), rank, ctx, pulls := [], rebuild := false, failed := false }
  { s with recov := { s.recov with job := some j } }

/-- What every takeover needs first (R367, R369). -/
def takeStatus (rank : Nat) (s : Block) : Nat :=
  if !(atRest s) || s.bnd.phase == .actions || s.recov.job.isSome || rankSlot s rank != s.arc.slot then 1
  else if imgRebuild s = 0xFFFF then 0x0D else 0

/-- The context that a takeover restores; none where no copy starts at the step of the job. -/
def ctxFound (rank : Nat) (s : Block) : Bytes := ((ctxsOf rank s).filter (fun c => ctxStep c == parkedStep rank s)).headD []

/-- TAKEOVER_SLICES (R368). -/
def doTakeSlices (r : ReqF) (rank : Nat) (s : Block) : Block :=
  let s := respond r 0x16 stAccepted [] s
  let code := takeStatus rank s
  let code := if code = 0 then sliceStatus rank s else code
  if code ≠ 0 then recovEnd 0x16 code r s
  else jobGo (pullHeld (pullRank rank (leftSlot rank s) (startJob 0x16 r rank (ctxFound rank s) s)))

/-- TAKEOVER_TWIN (R368): the pages are in place; without a context software restores one with NOLANES. -/
def doTakeTwin (r : ReqF) (rank : Nat) (s : Block) : Block :=
  let s := respond r 0x16 stAccepted [] s
  let code := takeStatus rank s
  if code ≠ 0 then recovEnd 0x16 code r s
  else jobGo (pullHeld (startJob 0x16 r rank (ctxFound rank s) s))

/-- RE_MIRROR (R370). -/
def doReMirror (r : ReqF) (s : Block) : Block :=
  let s := respond r 0x17 stAccepted [] s
  if !(atRest s) || s.bnd.phase == .actions || s.recov.job.isSome then recovEnd 0x17 1 r s
  else jobGo (pullHeld (startJob 0x17 r 0x7F [] s))

/-! ## Contexts that arrive (R364) -/

/-- CONTEXT_MESSAGE: a part of an owner's context; a whole one that is valid is kept. -/
def doContextMsg (slot offset total : Nat) (data : Bytes) (s : Block) : Block :=
  let old := mapGet [] s.recov.ctxParts slot
  let old := if offset = 0 then [] else old
  let parts := old ++ [(offset, data)]
  let got := (parts.map (fun p => p.2.length)).foldl (· + ·) 0
  if got < total then { s with recov := { s.recov with ctxParts := mapSet [] s.recov.ctxParts slot parts } }
  else
    let c := (parts.foldl (fun b p => splice b p.1 p.2) []).take total
    let s := { s with recov := { s.recov with ctxParts := mapSet [] s.recov.ctxParts slot [] } }
    if ctxValid c then keepContext slot c s else s

def execContextMessage (slot offset total : Nat) (data : Bytes) (s : State) : Host.Outcome State Fault Refusal :=
  effect (doContextMsg slot offset total data) s

/-! ## Gallery reset (R375) -/

/-- Clear a gallery's own state: mezzanine, tile and mask registers, landings, token counters, bank 1. -/
def clearGallery (g : Nat) (s : Block) : Block :=
  let outA := fun k => arrGal k != g
  { s with
    mezz := { bytes := mapFilter (fun k => k / 2 ^ 23 != g) s.mezz.bytes, poison := s.mezz.poison.filter (fun k => k / 2 ^ 23 != g) }
    vec := { s.vec with
      tregs := mapFilter (fun k => k / 64 != g) s.vec.tregs, masks := mapFilter (fun k => k / 8 != g) s.vec.masks
      maskPoison := s.vec.maskPoison.filter (fun k => k / 8 != g), flags := mapFilter (fun k => k / 8 != g) s.vec.flags }
    arr := { s.arr with
      wbuf := mapFilter (fun k => outA (k / 2)) s.arr.wbuf, active := mapFilter outA s.arr.active, ports := mapFilter outA s.arr.ports
      rows := mapFilter (fun k => outA (k / 64)) s.arr.rows, groups := mapFilter (fun k => outA (k / 64)) s.arr.groups
      banOverflow := mapFilter (fun k => k / 8 != g) s.arr.banOverflow }
    tok := { s.tok with
      vals := mapFilter (fun k => k / 256 != g) s.tok.vals, start := mapFilter (fun k => k / 256 != g) s.tok.start
      incoming := s.tok.incoming.filter (fun i => i.key / 256 != g) }
    gals := { s.gals with
      keepers := mapFilter (fun k => k / 8 != g) s.gals.keepers, clocks := mapFilter (· != g) s.gals.clocks
      dummyBeats := mapFilter (· != g) s.gals.dummyBeats, csets := mapFilter (fun k => k / 1024 != g) s.gals.csets }
    lanes := { s.lanes with bank1 := mapFilter (fun k => k / 1024 != g) s.lanes.bank1, clear1 := setAdd s.lanes.clear1 g } }

/-- A gallery reset. A bound gallery is reset only while the module is parked, and the program is then
unloaded. -/
def resetGallery (g : Nat) (s : Block) : Block :=
  if (boundPhys s).contains g then
    if isParked s && s.recov.job.isNone then leaveActive (unload (clearGallery g s)) else s
  else clearGallery g s

end Sys2Proof.Machine
end

