-- ==== Sys2Proof/Machine/Receive.lean ====
section
/-! DEFINITION. What arrives from the arcade (R256 to R260, R269 to R275, R283): flits, packets, CTRL messages,
and the votes and agreements of peers (R146, R409, R411). -/

namespace Sys2Proof.Machine

/-! ## Votes and agreements -/

/-- A message that shows a split, where a member of the agreement group sent it (R411). -/
def markSplit (slot : Nat) (s : Block) : Block := { s with bnd := { s.bnd with splitFrom := setAdd s.bnd.splitFrom slot } }

/-- A step and attempt lie before the module's own. -/
def earlier (s : Block) (step attempt : Nat) : Bool :=
  decide (step < stepNo s) || (step == stepNo s && decide (attempt < s.bnd.attempt % 256))

/-- VOTE_MESSAGE (R146): matched by step number, and by the epoch in force. -/
def doVote (v : VoteF) (s : Block) : Block :=
  if v.step < stepNo s ∨ stepNo s + 2 ≤ v.step then markSplit v.slot (voteDiscard s)
  else if v.epoch != epochNo s then voteDiscard s
  else boundGo { s with bnd := { s.bnd with votes := s.bnd.votes ++ [v] } }

def execVoteMessage (v : VoteF) (s : State) : Host.Outcome State Fault Refusal := effect (doVote v) s

/-- AGREEMENT_MESSAGE (R409). -/
def doAgree (a : AgreeF) (s : Block) : Block :=
  if earlier s a.step a.attempt then (if a.step < stepNo s then markSplit a.slot s else s)
  else if s.bnd.agrees.any (fun b => b.slot == a.slot && b.step == a.step && b.attempt == a.attempt) then s
  else boundGo { s with bnd := { s.bnd with agrees := s.bnd.agrees ++ [a] } }

def execAgreementMessage (a : AgreeF) (s : State) : Host.Outcome State Fault Refusal := effect (doAgree a) s

/-! ## CTRL packets (R270, R272, layouts of log 42) -/

/-- Deliver the data of a CTRL packet; a subtype without a meaning here stays in the inbox. -/
def doCtrl (src h : Nat) (d : Bytes) (s : Block) : Block :=
  let b := d.drop 1
  match leAt d 0 1 with
  | 0x10 => doReady src (leAt b 0 2) (leAt b 7 2) (leAt b 2 1) (phCepoch h) (signed 32 (leAt b 3 4)) s
  | 0x20 => doContextMsg src (leAt b 0 4) (leAt b 4 4) (b.drop 8) s
  | 0x30 => doAgree { slot := src, step := leAt b 1 8, attempt := leAt b 0 1, eo := leAt b 9 4, prop := leAt b 13 4, ok := leAt b 17 1 != 0 } s
  | 0x31 =>
    let n := leAt b 14 2
    doVote { slot := src, step := leAt b 2 8, attempt := leAt b 1 1, epoch := leAt b 10 4, round := leAt b 0 1, items := voteItems n (b.drop 16) } s
  | 0x40 => doStreamAck { src := leAt b 0 1, dst := src, shall := leAt b 1 1, vc := leAt b 2 1, pseq := leAt b 3 2 } s
  | 0x41 => doGapRequest { src := leAt b 0 1, dst := src, shall := leAt b 1 1, vc := leAt b 2 1, pseq := leAt b 3 2 } s
  | 0x50 => doPortUp src (leAt b 0 2) s
  | 0x51 => doNoRoute (leAt b 0 1) { src := leAt b 1 1, dst := leAt b 2 1, shall := leAt b 3 1, vc := leAt b 4 1, pseq := leAt b 5 2 } s
  | 0x52 => doRejection (leAt b 0 1) (leAt b 1 2) s
  | _ => { s with arc := { s.arc with inbox := s.arc.inbox ++ [(src, d)] } }

/-! ## Packets (R271, R273, R283, R308) -/

/-- The link by which packets of a slot arrive, for the counters of 0x3310. -/
def arrivalLink (s : Block) (p : Packet) : Option Nat := (routePort s p.src).bind (fun i => portLink s i p.shall)

/-- Count a discarded packet: 4 duplicate, 5 out of order. -/
def countPacket (l : Option Nat) (i : Nat) (s : Block) : Block :=
  match l with
  | some l => linkCount l i 1 s
  | none => s

/-- An MWRITE or TOKEN of another attempt, step or configuration epoch, or an RREQ of another step or epoch, which carries no
ATTEMPT (R308). Data that a takeover pulls is of no A descriptor: a module that runs no step answers every RREQ (log 94). -/
def stalePacket (s : Block) (p : Packet) : Bool :=
  let h := p.header
  let pulled := match s.recov.job with
    | some j => j.pulls.any (fun q => q.slot == p.src)
    | none => false
  let other := phStep h != stepNo s % 65536 || phCepoch h != epochNo s % 65536
  ((phOp h == 1 || phOp h == 3) && !pulled && (other || phAttempt h != s.bnd.attempt % 256)) || (phOp h == 2 && stepRunning s && other)

/-- The effect of a packet in order. -/
def doPacketEffect (p : Packet) (s : Block) : Block :=
  let h := p.header
  if phOp h = 4 then packetToken h (doCtrl p.src h (p.data.take (phLen h + 1)) s)
  else if 1 ≤ phOp h ∧ phOp h ≤ 3 then pullArrive p (performEffect p s)
  else logFault .arcade 255 0 0x270 (phJob h) s

/-- A complete packet at its destination (R271). -/
def takePacket (l : Option Nat) (p : Packet) (s : Block) : Block :=
  if stalePacket s p then collBit 3 s
  else
    let k := rxKey p.src p.shall p.vc
    let e := mapGet 0 s.arc.rxSeq k
    let q := phPseq p.header
    if q = e then
      drainLoop (doPacketEffect p { s with arc := { s.arc with
        rxSeq := mapSet 0 s.arc.rxSeq k ((e + 1) % 65536), rxNew := setAdd s.arc.rxNew k } })
    else if (e + 65536 - q) % 65536 < 32768 then countPacket l 4 s
    else
      let s := countPacket l 5 s
      let t := mapGet 0 s.arc.gapTick k
      if t ≠ 0 ∧ s.clk.tick + 1 < t + 50 then s
      else
        let s := { s with arc := { s.arc with gapTick := mapSet 0 s.arc.gapTick k (s.clk.tick + 1) } }
        sendCtrl p.src 0 0 (leBytes 1 0x41 ++ leBytes 1 p.src ++ leBytes 1 p.shall ++ leBytes 1 p.vc ++ leBytes 2 e) s

/-- The port by which a packet on a detour goes on (R283): in its destination's stairwell to it, along this position's flight
link when it came by a stairwell port, and else to the destination's position and along the ring from there. -/
def detourPort (s : Block) (inPort : Option Nat) (p : Packet) : Option Nat :=
  let st := s.arc.slot / 9
  if p.dst / 9 ≠ st ∧ ((inPort.getD 8) < 8 ∨ p.dst % 9 = s.arc.slot % 9) then some (ringPort st (p.dst / 9)) else portTo s (p.dst % 9)

/-- The module that put a packet on a detour: the neighbour of this stairwell that it came from, or its source. -/
def detourer (s : Block) (inPort : Option Nat) (p : Packet) : Nat :=
  match inPort with
  | some i => if i < 8 then portSlot s i else p.src
  | none => p.src

/-- A packet for another module goes on (R273, R274). A relay whose onward port is down says so to the module that chose it
(R283). `l` is the link that it came by. -/
def forwardPacket (l : Option Nat) (p : Packet) (s : Block) : Block :=
  if 7 ≤ p.hop then logFault .arcade 255 0 0x273 (phJob p.header) s
  else
    let p := { p with hop := p.hop + 1 }
    let inPort := l.bind (portOf s)
    if p.detour then
      match (detourPort s inPort p).bind (fun i => portLink s i p.shall) with
      | some l => enqueue false l 0 p s
      | none => sendCtrl (detourer s inPort p) 0 0 (leBytes 1 0x51 ++ leBytes 1 s.arc.slot ++ leBytes 1 p.src ++ leBytes 1 p.dst ++
          leBytes 1 p.shall ++ leBytes 1 p.vc ++ leBytes 2 (phPseq p.header)) s
    else launch false 0 p s

/-- A packet that has arrived whole. -/
def packetIn (l : Option Nat) (p : Packet) (s : Block) : Block :=
  if p.dst = s.arc.slot then takePacket l p s else forwardPacket l p s

/-- MWRITE, RREQ and TOKEN as whole packets. -/
def onPacket (op : Nat) (p : Packet) (s : Block) : Block :=
  if phOp p.header = op then packetIn (arrivalLink s p) p s else s

def execMwrite (p : Packet) (s : State) : Host.Outcome State Fault Refusal := effect (onPacket 1 p) s
def execRreq (p : Packet) (s : State) : Host.Outcome State Fault Refusal := effect (onPacket 2 p) s
def execToken (p : Packet) (s : State) : Host.Outcome State Fault Refusal := effect (onPacket 3 p) s

/-! ## Flits (R256 to R260) -/

/-- Deliver a data flit: its buffer is freed, and a complete packet goes on. -/
def deliverFlit (l : Nat) (f : Flit) (s : Block) : Block :=
  let k := link s l
  let part := (if f.first then [] else mapGet [] k.partials f.vc) ++ [f]
  let k := { k with rxAny := true, tellAck := true, freed := mapMod 0 k.freed f.vc (· + 1) }
  if f.last then packetIn (some l) (flitsPacket part) (setLink l { k with partials := mapSet [] k.partials f.vc [] } s)
  else setLink l { k with partials := mapSet [] k.partials f.vc part } s

/-- Deliver the next flit of the reorder buffer when it is there. -/
def deliverNext (l : Nat) (s : Block) : Block :=
  let k := link s l
  match k.reorder.find? (fun f => f.lseq == k.expLseq) with
  | none => s
  | some f =>
    deliverFlit l f (setLink l { k with
      reorder := k.reorder.filter (fun g => g.lseq != f.lseq), expLseq := (k.expLseq + 1) % 65536 } s)

/-- A data flit takes its place in LSEQ order; one that has arrived before is discarded. -/
def dataFlitIn (l : Nat) (f : Flit) (s : Block) : Block :=
  let k := link s l
  if k.state ≠ 4 ∧ k.state ≠ 5 then s
  else if 1600 ≤ (f.lseq + 65536 - k.expLseq) % 65536 ∨ k.reorder.any (fun g => g.lseq == f.lseq) then s
  else
    let s := setLink l { k with reorder := k.reorder ++ [f] } s
    iter (deliverNext l) (k.reorder.length + 1) s

/-- The entries of a control flit (R260). -/
def doControl (l : Nat) (p : Bytes) (s : Block) : Block :=
  forEach (controlEntries p) (fun e s =>
    let (kind, lane, arg) := e
    if kind = 1 then doNak l lane arg s
    else if kind = 2 then retireLane l lane arg false false s
    else if kind = 3 then doLaneJoin l lane s
    else if kind = 4 then doDown l s else s) s

/-- A flit on a lane that carries flits (R259): discarded with a NAK when its CRC or codeword fails, otherwise its
acknowledgement and credits are taken and its content is performed. -/
def laneFlitIn (l lane : Nat) (b : Bytes) (uncorr : Bool) (s : Block) : Block :=
  let k := link s l
  let n := mapGet 0 k.rxCount lane
  let s := setLink l { k with rxCount := mapSet 0 k.rxCount lane (n + 1) } s
  let (hit, s) := inject 0x0C (laneLoc l lane) s
  if hit || uncorr || !(flitCrcOk b) then
    let s := if hit then s else linkCount l 0 1 s
    detect 0x0C (laneLoc l lane) hit 0 0 [] (modLink l (putFlit (controlFlit 1 lane n)) s)
  else
    let f := parseFlit b
    if 3 < f.kind then linkCount l 0 1 s
    else
      let s := releaseRetain (modLink l (takeAck f) s)
      modLink l idleFlits (if f.kind = 1 then dataFlitIn l f s
        else if f.kind = 2 then doControl l f.payload s
        else if f.kind = 3 then doBeacon l f.payload s
        else s)

/-- A flit on a lane. An injection 0x0D takes the lane's codeword lock, and 0x0E every lane's signal, before it arrives
(R352, log 44). -/
def flitIn (l lane : Nat) (b : Bytes) (uncorr : Bool) (s : Block) : Block :=
  if !(flows (link s l)) || !(bit (link s l).active lane) then s
  else
    let (down, s) := inject 0x0E (laneLoc l 0) s
    if down then linkGoes true l 1 7 s
    else
      let (drop, s) := inject 0x0D (laneLoc l lane) s
      if drop then retireLane l lane 1 true true s else laneFlitIn l lane b uncorr s

def execDataFlit (l lane : Nat) (flit : Bytes) (uncorr : Bool) (s : State) : Host.Outcome State Fault Refusal :=
  onLane l lane (flitIn l lane flit uncorr) s

def execIdleFlit (l lane : Nat) (flit : Bytes) (uncorr : Bool) (s : State) : Host.Outcome State Fault Refusal :=
  onLane l lane (flitIn l lane flit uncorr) s

end Sys2Proof.Machine
end

