-- ==== Sys2Proof/Machine/Views.lean ====
section
/-! DEFINITION. Objects as they are read (R395 to R397, R421): values that the state holds in other forms, and
the records of the CPER store (R354, R355). -/

namespace Sys2Proof.Machine

/-! ## CPER records (R354, R355; the section layouts of UEFI are those of log 50) -/

/-- A GUID in the byte order of UEFI: three little-endian fields, then eight bytes. -/
def guid (a b c d : Nat) : Bytes := leBytes 4 a ++ leBytes 2 b ++ leBytes 2 c ++ beBytes 8 d

def guidAqeisan : Bytes := guid 0x4E1B7A20 0x9C35 0x4D62 0xB8F071A3C5E9D204
def guidVendor : Bytes := guid 0xA7E3C015 0x4B92 0x4F6D 0x9C2861D0E4B5F7A9
def guidMemory : Bytes := guid 0xA5BC1114 0x6F64 0x4EDE 0xB8633E83ED7C83B1

/-- The Aqeisan section. -/
def vendorSection (r : Cper) : Bytes :=
  slice (leBytes 2 1 ++ leBytes 1 r.code ++ leBytes 1 r.flags ++ leBytes 1 r.tag ++ leBytes 1 r.kind ++ leBytes 2 (satN 16 r.gaps) ++
    leBytes 8 r.step ++ leBytes 8 r.tick ++ leBytes 8 r.loc ++ leBytes 8 r.addr ++ leBytes 4 r.epoch ++ leBytes 2 r.lepoch ++ zeros 2 ++
    (if r.code = 0x10 ∨ r.code = 0x11 then r.extra else [])) 0 64

/-- The Memory Error section: physical address, card, module, bank, row and column are valid. -/
def memorySection (r : Cper) : Bytes :=
  let off := r.addr % 2 ^ 20
  slice (leBytes 8 0x372 ++ zeros 8 ++ leBytes 8 r.addr ++ zeros 8 ++ zeros 2 ++ leBytes 2 (fld r.loc 33 3) ++ leBytes 2 (fld r.loc 25 8) ++
    leBytes 2 (fld r.loc 20 5) ++ zeros 2 ++ leBytes 2 (fld r.loc 6 14) ++ leBytes 2 ((off / 4096 * 256 + off % 256) % 2048)) 0 80

/-- A section descriptor. -/
def sectionDesc (off len sev : Nat) (g : Bytes) : Bytes :=
  slice (leBytes 4 off ++ leBytes 4 len ++ leBytes 2 0x0300 ++ zeros 2 ++ zeros 4 ++ g ++ zeros 16 ++ leBytes 4 sev) 0 72

/-- The bytes of a record. -/
def cperBytes (r : Cper) : Bytes :=
  let two := [0x06, 0x07, 0x12].contains r.code
  let n := if two then 2 else 1
  let base := 128 + 72 * n
  let len := base + 64 + (if two then 80 else 0)
  let head := slice ([0x43, 0x50, 0x45, 0x52] ++ leBytes 2 0x0101 ++ leBytes 4 0xFFFFFFFF ++ leBytes 2 n ++ leBytes 4 r.severity ++ leBytes 4 1 ++
    leBytes 4 len ++ zeros 8 ++ slice Config.serial 0 16 ++ zeros 16 ++ guidAqeisan ++ guidAqeisan ++ leBytes 8 r.id) 0 128
  head ++ sectionDesc base 64 r.severity guidVendor ++ (if two then sectionDesc (base + 64) 80 r.severity guidMemory else []) ++
    vendorSection r ++ (if two then memorySection r else [])

/-! ## Firmware images (R428, R441) -/

/-- Largest body of an image kind. -/
def imgLimit (kind : Nat) : Nat := nth [0x100000, 0x200000, 0x800000, 0x400000] kind 0

/-- The checks of an image: 0 valid, 3 kind, size or magic, 1 digest or signature, 2 SVN. -/
def imgCheck (s : Block) (kind : Nat) (b : Bytes) : Nat :=
  if leAt b 0 4 ≠ 0x4E344657 ∨ leAt b 4 1 ≠ kind ∨ imgLimit kind < leAt b 20 4 ∨ b.length ≠ 512 + leAt b 20 4 then 3
  else if slice b 64 64 ≠ sha512 (b.drop 512) ∨ !(ecdsaOk Config.firmwareKey (sha512 (slice b 0 128)) (slice b 128 132)) then 1
  else if imgSvn b < effCounter s kind then 2 else 0

/-- Each image provides an interface level that every other accepts. -/
def setCoherent (l : List Bytes) : Bool :=
  (List.range l.length).all (fun i => (List.range l.length).all (fun j =>
    i == j || decide (leAt (nth l j []) 24 2 ≤ leAt (nth l i []) 26 2)))

/-- Objects 0x8000. -/
def imageView (s : Block) (i : Nat) : Bytes :=
  let b := fwImage s (i / 4) (i % 4)
  let v := if b = [] then 0 else match imgCheck s (i % 4) b with
    | 0 => 1
    | 2 => 3
    | _ => 2
  slice b 0 28 ++ leBytes 1 v

/-! ## Keys (R446, R462) -/

/-- The challenge in 0x7200. -/
def challenge (s : Block) : Bytes := leBytes 32 (Config.trng s.sec.draws)

/-- The lifecycle count (R443). -/
def lifeCount (s : Block) : Nat := effCounter s 8

/-- The owner key is live: a record matches the count. -/
def ownerKey (s : Block) : Bytes := if s.sec.owner ≠ [] ∧ s.sec.ownerCount = lifeCount s ∧ lifecycle s = 2 then s.sec.owner else []

/-! ## Numbers -/

/-- The state as an object reads it: while the halls have no power, what they produced last (R399). -/
def asHeld (s : Block) : Block :=
  match s.dark with
  | none => s
  | some d => { s with
      arc := d.arc, mem := { s.mem with pmap := d.pmap }, logs := { s.logs with cper := d.cper }
      rel := { s.rel with marginal := d.marginal }
      recov := { s.recov with contexts := d.contexts, manifests := d.manifests }, upd := { s.upd with recA := d.recA } }

/-- A number as a powered module reads it. -/
def numNow (s : Block) (key : Nat) : Nat :=
  if 0x330001 ≤ key ∧ key ≤ 0x330012 then linkWord s (key - 0x330001)
  else if 0x101001 ≤ key ∧ key ≤ 0x101004 then fwVersion s (key - 0x101001)
  else match key with
    | 0x110005 => Config.siliconLevel % 256
    | 0x1F0004 => satN 16 s.store.unwritten.length
    | 0x523100 => b2n s.rel.clockGuard
    | 0x530200 => s.rel.floorMap.length
    | 0x700001 => lifecycle s
    | 0x700002 => lifeCount s
    | 0x700003 => debugLevel s
    | 0x403001 => s.pwr.inputMv
    | 0x403002 => if pstate s = 0 then 0 else s.pwr.readings.inputMa
    | 0x403003 => if pstate s = 0 then 0 else s.pwr.readings.powerW
    | 0x403004 => if pstate s = 0 then 0 else s.pwr.readings.hostW
    | 0x340106 => b2n (num s 0x340007 == 1 && (num s 0x340001 == 0 || s.pwr.plcaOk))
    | _ => num s key

/-- A number as it is read. -/
def readNum (s : Block) (key : Nat) : Nat := numNow (asHeld s) key

/-! ## Byte strings -/

/-- The nine entries of 0x6072: the module's own context first. -/
def ctxStoreView (s : Block) : Bytes :=
  let own := s.recov.contexts.filter (fun e => e.1 == s.arc.slot)
  let all := own ++ s.recov.contexts.filter (fun e => e.1 != s.arc.slot)
  (List.range 9).flatMap (fun i => match all[i]? with
    | some e => leBytes 1 e.1 ++ zeros 7 ++ leBytes 8 (ctxStep e.2)
    | none => leBytes 1 0xFF ++ zeros 15)

/-- A byte string as a powered module reads it. -/
def domNow (s : Block) (key : Nat) : Bytes :=
  if 0x331001 ≤ key ∧ key ≤ 0x331012 then
    (List.range 7).flatMap (fun i => leBytes 8 (mapGet 0 (link s (key - 0x331001)).counters i))
  else if 0x800001 ≤ key ∧ key ≤ 0x800008 then imageView s (key - 0x800001)
  else match key with
    | 0x1F0001 => digestForce s
    | 0x1F0003 => digestStaged s
    | 0x310100 => planDigest s
    | 0x333000 => (List.range 18).flatMap (fun l => slice (link s l).beacon 0 240)
    | 0x512000 => s.mem.fix.retired.flatMap (fun f => leBytes 4 (f / 8320 * 65536 + f % 8320))
    | 0x514000 => (List.range 524288).flatMap (fun p => leBytes 8 (pmapEntry s p))
    | 0x520100 => (List.range 50).flatMap (fun g => leBytes 2 (satN 16 (marginals s g).length))
    | 0x523000 => (List.range 50).map (fun g => BitVec.ofNat 8 (guardOf s g + 128 * b2n (galFenced s g)))
    | 0x530000 => s.rel.floorMap.flatMap (fun r => leBytes 8 r.1 ++ leBytes 8 r.2)
    | 0x540000 => s.logs.cper.flatMap cperBytes
    | 0x540200 => s.logs.fatal.flatMap (fun r => slice (cperBytes r) 0 1024)
    | 0x606200 => recordImage s.upd.recA
    | 0x607200 => ctxStoreView s
    | 0x608000 => slice (s.recov.manifests.getLastD []) 0 4096
    | 0x608100 => s.recov.manifests.flatMap (fun m => slice m 0 4096)
    | 0x700100 => if s.sec.identity = 0 then [] else slice (Config.identityPublic s.sec.identity) 0 132
    | 0x710000 => ownerKey s
    | 0x710200 => if ownerKey s = [] then zeros 64 else sha512 (ownerKey s)
    | 0x720000 => challenge s
    | 0x403100 => slice (s.pwr.readings.temps.flatMap (fun t => leBytes 2 (unsigned 16 t))) 0 100
    | _ => dom s key

/-- A byte string as it is read. -/
def readDom (s : Block) (key : Nat) : Bytes := domNow (asHeld s) key

/-- The value of an object: none when the manual does not define it. A WO object reads zero, subindex 0 of a
record its highest subindex (R395, R397). -/
def objValue (s : Block) (key : Nat) : Option Bytes :=
  match objFind key with
  | some o =>
    let n := typSize o.typ
    if o.acc = .wo then some (zeros n)
    else some (if n = 0 then readDom s key else leBytes n (readNum s key))
  | none =>
    if key % 256 = 0 ∧ 0 < objHighest (key / 256) then some (leBytes 1 (objHighest (key / 256))) else none

/-! ## Mirror slots (R388, R421) -/

/-- The object of a mirror slot. -/
def mirrorKey (slot : Nat) : Option Nat := if slot < 32 then mirrorLow[slot]? else mirrorHigh[slot - 32]?

end Sys2Proof.Machine
end

