-- ==== Sys2Proof/Machine/Reset.lean ====
section
/-! DEFINITION. Resets and boots: what a warm reset, a shutdown and a boot do to the halls, the links, the
memory, the objects and the firmware (R375, R397, R404, R427 to R431, R349, R350). -/

namespace Sys2Proof.Machine

/-! ## The halls -/

/-- Both halls, their SRAM and queues are as after a reset; the tick runs on. Floor-map records not yet written are lost
(R349). -/
def clearHalls (s : Block) : Block :=
  { s with
    clk := { clkReset with tick := s.clk.tick, phase := s.clk.phase }
    freeze := none, arr := arrReset, vec := vecReset, lanes := lanesReset, mezz := { bytes := [], poison := [] }
    tok := { vals := [], incoming := [], start := [] }, gals := galsReset, logs := { s.logs with queues := [], log := [] }
    prog := progReset, queues := { descs := [], nextId := s.queues.nextId, cancelled := 0 }, bind := bindZero
    side := [], sideA := [], sideB := [], stoppedTags := [], bnd := bndReset
    upd := { updReset with recA := s.upd.recA, recB := s.upd.recB }, colls := collsReset
    rel := { relReset with
      guard := s.rel.guard, clockGuard := s.rel.clockGuard, floorMap := s.rel.floorMap
      floorOld := s.rel.floorOld, guardZero := s.rel.guardZero }
    recov := { recovReset with contexts := s.recov.contexts, manifests := s.recov.manifests, signWait := s.recov.signWait }
    mem := { s.mem with cacheA := [], cacheB := [], flags0 := 0, flagsSide := 0 } }

/-! ## The arcade -/

/-- Lanes of a link that the floor map retires (R263). -/
def lostLanes (s : Block) (l : Nat) : Nat := maskOf ((List.range 25).map (fun i => floorHas s 0x0D (laneLoc l i)))

/-- A link after a reset of its die. `tell` sends a DOWN control flit with reason 12. With a slot of 72 or
above it is held in QUARANTINE (R264). -/
def linkAfterReset (s : Block) (tell : Bool) (l : Nat) : Link :=
  let k := link s l
  let k := if tell && carries k.state then putFlit (controlFlit 4 l 12) k else k
  let q := decide (72 ≤ s.arc.slot)
  { linkZero with state := if q then 6 else 0, reason := if q then 13 else 0, signal := k.signal, failed := lostLanes s l, out := k.out }

/-- The arcade dies after a reset. -/
def resetArcade (tell : Bool) (s : Block) : Block :=
  let ls := (List.range 18).foldl (fun m l => mapSet linkZero m l (linkAfterReset s tell l)) []
  { s with arc := { arcReset with slot := s.arc.slot, links := ls } }

/-! ## Status words that follow from what a reset keeps -/

/-- 0x5110 from the page map, the spares and the reserve (R252). -/
def memWord (s : Block) : Nat :=
  let noSpare := maskOf ((List.range 8).map (fun k => decide (8 ≤ mapGet 0 s.mem.fix.spareChanUsed k)))
  b2n (s.mem.pmap.any (fun e => e.2 != 0 && pePoisoned (e.2 - 1))) + 2 * b2n (!s.mem.fix.scrubBehind.isEmpty) +
    4 * b2n (!s.mem.fix.copies.isEmpty) + 8 * b2n (!s.mem.fix.migrate.isEmpty) + 32 * b2n (!s.mem.fix.fencedGroups.isEmpty) +
    64 * b2n (s.mem.pmap.any (fun e => e.2 != 0 && peRetired (e.2 - 1))) + 128 * b2n (decide (reserveCount s < 512)) + 256 * noSpare

/-- 0x5020 from the guard-bands and the floor map (R358). -/
def relWord (s : Block) : Nat :=
  4 * b2n (!s.rel.guard.isEmpty) + 8 * b2n s.rel.clockGuard +
    128 * b2n (decide (1048576 ≤ s.rel.floorMap.length + s.rel.floorWait.length))

/-- The lifecycle code that the counter regions give (R443). -/
def lifeCode (s : Block) : Nat :=
  if mapGet 0 s.fw.pairing 0 = 0 ∧ mapGet 0 s.fw.pairing 1 = 0 then 0 else 1 + effCounter s 8 % 3

/-- 0x7201 after a reset (R463). -/
def secWord (s : Block) : Nat :=
  let life := lifeCode s
  life + 16 * b2n (s.sec.identity != 0) + 32 * b2n s.sec.idkDiscarded + 64 * b2n (s.sec.owner != [] && s.sec.ownerCount == effCounter s 8 && life == 2)

/-! ## Objects (R397, R375) -/

/-- Objects that every reset keeps: the persistent ones, the epoch, the certificate chain. -/
def keepsAlways (key : Nat) : Bool :=
  key == 0x1F0002 || key == 0x700200 || (match objFind key with
    | some o => o.persist
    | none => false)

/-- Objects that a warm reset keeps besides: the counters of 0x5111, which survive resets (R251). -/
def keepsWarm (key : Nat) : Bool := keepsAlways key || key / 256 == 0x5111

/-- The words that a reset computes anew: memory, reliability, security, shape, recovery and declaration
status. -/
def freshWords (s : Block) : Block :=
  let w := relWord s
  let s := reportShape (setNum 0x511000 (memWord s) s)
  let s := setStatus 0x502000 w 0x8A 0x8A 7 (setNum 0x502000 0 s)
  let s := setNum 0x603003 (num s 0x600003) s
  let s := setNum 0x607000 (64 * b2n (numF s 0x601300 == 1) + 128 * b2n (orphaned s)) s
  let s := setNum 0x1F1005 (16 * b2n (stagedDiffers s)) s
  setSec (secWord s + 256 * fld (num s 0x720100) 8 4) s

/-- At a cold or warm reset the challenge takes a new value (R452) and the identity key is back (R453). -/
def resetKeys (s : Block) : Block := { s with sec := { s.sec with idkDiscarded := false, draws := s.sec.draws + 1 } }

/-- Every object that is not kept takes its default; latched power bits stay (R485), and of the security status what a
notify compares (R463). -/
def resetObjects (keep : Nat → Bool) (s : Block) : Block :=
  let latched := num s 0x402000 &&& 0xF800
  let sec := num s 0x720100 &&& 0xF
  let s := { s with store := { s.store with nums := mapFilter keep s.store.nums, doms := mapFilter keep s.store.doms } }
  setNum 0x402000 latched (setNum 0x720100 sec s)

/-! ## Vestibules (R384, R392) -/

/-- The window of a port after a warm reset: counts since cold reset, the response held and what was sent
stay. -/
def portWarm (p : Vport) : Vport :=
  { portReset with
    retrains := p.retrains, everUp := p.everUp, dbSeen := p.dbSeen, response := p.response, heldSeq := p.heldSeq
    mbState := if p.mbState = 2 then 2 else 0, alertSeq := p.alertSeq, held := p.held, out := p.out }

/-- The window of a port after a cold reset. -/
def portCold (p : Vport) : Vport := { portReset with out := p.out }

/-- A port loses its mainband, which trains again by itself while `trains` (R378, R382). -/
def portDown (trains : Bool) (p : Vport) : Vport := { p with link := b2n trains, mods := 0 }

/-- A port loses power: the request that it served is gone with what would have answered it. -/
def portOff (p : Vport) : Vport := { portDown false p with service := none, mbState := if p.mbState = 1 then 0 else p.mbState }

/-! ## Firmware selection (R429, R430) -/

/-- A set is valid and coherent. -/
def setRuns (s : Block) (set : Nat) : Bool :=
  let l := (List.range 4).map (fwImage s set)
  (List.range 4).all (fun k => imgCheck s k (fwImage s set k) == 0) && setCoherent l

/-- The set whose header generation equals counter 4. -/
def genSet (s : Block) : Nat := if setGen s 0 = effCounter s 4 then 0 else if setGen s 1 = effCounter s 4 then 1 else s.fw.activeSet

/-- The processors at the start: all run, those of fenced galleries do not; `other` runs the set that is not
active. -/
def startProcs (s : Block) (other : Bool) : SMap Proc :=
  (List.range 53).foldl (fun m n =>
    let off := decide (3 ≤ n) && galFenced s (n - 3)
    mapSet procOk m n { procOk with halted := off, staged := other }) []

/-- Every processor loads its image of a set (R431). -/
def loadSet (set : Nat) (s : Block) : Block := forEach (List.range 4) (fun k s => loadImage k (fwImage s set k) s) s

/-- Select the set to run: the answer is false when no set can (BOOT_FAIL). Staging and an activation that is
not committed are gone (R439). -/
def selectFirmware (s : Block) : Bool × Block :=
  let s := { s with fw := { s.fw with
    activeSet := genSet s, order := [], activating := false, deferred := false, staged := false, waitSbound := false, reverting := []
    waiting := [], reports := [] } }
  let act := s.fw.activeSet
  let s := setNum 0x800100 act (forEach (List.range 5) (fun c s => setNum (0x800201 + c) (effCounter s c) s) s)
  if setRuns s act then (true, loadSet act (setNum 0x801000 0 { s with fw := { s.fw with procs := startProcs s false } }))
  else if setRuns s (1 - act) then
    (true, loadSet (1 - act) (setFwBit 5 true (setNum 0x801000 0 { s with fw := { s.fw with procs := startProcs s true } })))
  else (false, setFwBit 9 true (setNum 0x801000 0 s))

/-- Give a replaced device what both hold: its key and counters; its image set is empty. -/
def pairDevice (d : Nat) (s : Block) : Block :=
  let imgs := (List.range 4).foldl (fun m k => mapSet (Config.provisionedImage d k) m (d * 4 + k) []) s.fw.images
  { s with fw := { s.fw with pairing := mapSet 0 s.fw.pairing d 1, images := imgs } }

/-- Bring both devices' counters level. -/
def levelCounters (s : Block) : Block := forEach [0, 1, 2, 3, 4, 8] (fun c s => raiseCounter c (effCounter s c) s) s

/-- Authenticate the counters (R429): false is COUNTER_FAIL. -/
def authCounters (s : Block) : Bool × Block :=
  let a := mapGet 0 s.fw.pairing 0
  let b := mapGet 0 s.fw.pairing 1
  if a = 0 ∧ b = 0 then (true, { s with fw := { s.fw with counters := [] } })
  else if a = 1 ∧ b = 1 then (true, levelCounters s)
  else if a = 1 ∧ b = 0 then (true, levelCounters (pairDevice 1 s))
  else if a = 0 ∧ b = 1 then (true, levelCounters (pairDevice 0 s))
  else (false, s)

/-! ## The floor map at boot (R349, R350) -/

/-- Fields of a record's location. -/
def recStack (r : Nat × Nat) : Nat := fld r.1 33 3
def recChan (r : Nat × Nat) : Nat := fld r.1 25 8
def recBank (r : Nat × Nat) : Nat := fld r.1 20 5
def recRow (r : Nat × Nat) : Nat := fld r.1 6 14
def recKey (r : Nat × Nat) : Nat := rowKey (recStack r) (recChan r) (recBank r) (recRow r)

/-- What a record does to the repair state. The channel map stands in for the logical channel that the
fenced one served. -/
def fixRec (s : Block) (r : Nat × Nat) : Block :=
  let f := s.mem.fix
  let put := fun (f : MemFix) => { s with mem := { s.mem with fix := f } }
  let bk := bankKey (recStack r) (recChan r) (recBank r)
  match recKind r.2 with
  | 0x08 => put { f with
      remap := mapSet 0 f.remap (recKey r) (8320 + recDetail r.2 + 1)
      spareUsed := mapMod 0 f.spareUsed bk (max (recDetail r.2 + 1)) }
  | 0x09 => put { f with
      spareRetired := setAdd f.spareRetired (recKey r), spareUsed := mapMod 0 f.spareUsed bk (max (recRow r - 8319)) }
  | 0x0A => put { f with retired := f.retired ++ [frameKey (recChan r) (recRow r)] }
  | 0x0B =>
    let st := recStack r
    let m := match logicalChan s st (recChan r) with
      | some c => mapSet 0 f.chanMap (st * 128 + c) (recDetail r.2 + 1)
      | none => f.chanMap
    put { f with
      chanMap := m, fencedChans := setAdd f.fencedChans (st * 136 + recChan r)
      spareChanUsed := mapMod 0 f.spareChanUsed st (max (recDetail r.2 - 127)) }
  | 0x0C => put { f with
      fencedGroups := setAdd f.fencedGroups (recStack r * 8 + recChan r / 16)
      fencedChans := f.fencedChans }
  | _ => s

/-- A page whose frame is retired takes a reserve frame, or is RETIRED. -/
def bootPage (fk : Nat) (s : Block) : Block :=
  if 8192 ≤ fk % 8320 then s
  else
    let page := fk / 8320 * 8192 + fk % 8320
    match reservePick s (fk / 8320) with
    | some nk => pmapSet page (peSetA (pmapDflt s page) nk)
        { s with mem := { s.mem with fix := { s.mem.fix with reserveUsed := setAdd s.mem.fix.reserveUsed nk } } }
    | none => pmapSet page (putBit (pmapDflt s page) 3 true) s

/-- Number of records of a kind. -/
def recCount (s : Block) (k : Nat) : Nat := ((floorRecs s).filter (fun r => recKind r.2 == k)).length

/-- Memory at boot: clean zeros, repair state and page map from the floor map (R231, R250). -/
def bootMemory (s : Block) : Block :=
  let s := (floorRecs s).foldl fixRec { s with mem := memReset, upd := { s.upd with recA := recNone, recB := recNone } }
  let groups := s.mem.fix.fencedGroups.flatMap (fun g => (List.range 8192).map (frameKey g))
  let s := forEach (s.mem.fix.retired ++ groups.filter (fun k => !(s.mem.fix.retired.contains k))) bootPage s
  let s := setNum 0x511105 (recCount s 0x0A) (setNum 0x511104 (recCount s 0x09) (setNum 0x511103 (recCount s 0x08) s))
  let s := setNum 0x511106 (satN 16 (recCount s 0x0B + recCount s 0x0C)) s
  let s := setNum 0x511107 ((s.mem.pmap.filter (fun e => e.2 != 0 && peRetired (e.2 - 1))).length) s
  setNum 0x511108 (reserveCount s) s

/-- The last record of a kind at a location. -/
def lastRec (s : Block) (kind loc : Nat) : Option (Nat × Nat) :=
  (floorRecs s).reverse.find? (fun r => recKind r.2 == kind && r.1 == loc)

/-- Guard-bands from the records (R344). -/
def bootGuards (s : Block) : Block :=
  let steps := fun g => match lastRec s 0x07 (locOf 3 g 0 0 0 0) with
    | some r => recDetail r.2 % 4
    | none => 0
  { s with rel := { s.rel with
    guard := (List.range 50).foldl (fun m g => mapSet 0 m g (steps g)) []
    clockGuard := (match lastRec s 0x07 (domLoc 10) with
      | some r => bit (recDetail r.2) 2
      | none => false) } }

/-- A later record supersedes this one: a guard-band, a row remap or a marginal count of the same place, or
the remap of a row whose frame is retired. -/
def superseded (s : Block) (later : List (Nat × Nat)) (r : Nat × Nat) : Bool :=
  ([0x07, 0x08, 0x0E].contains (recKind r.2) && later.any (fun q => q.1 == r.1 && recKind q.2 == recKind r.2)) ||
    (recKind r.2 == 0x08 && s.mem.fix.retired.any (fun fk => frameStack fk == recStack r && fk % 8320 == recRow r &&
      (match logicalChan s (recStack r) (recChan r) with
        | some c => fk / 8320 % 8 == c / 16
        | none => false)))

/-- Drop superseded records. -/
def compactGo (s : Block) : List (Nat × Nat) → List (Nat × Nat)
  | [] => []
  | r :: rest => if superseded s rest r then compactGo s rest else r :: compactGo s rest

/-- Compact the journal when it is more than 75 % full (R350). -/
def compactFloor (s : Block) : Block :=
  if s.rel.floorMap.length ≤ 786432 then s else { s with rel := { s.rel with floorMap := compactGo s s.rel.floorMap } }

/-! ## Defaults of the digest set and adoption without a program (R403, R412) -/

/-- A staged value of the digest set changed: without a program it is adopted at once. -/
def stagedWrite (s : Block) : Block := if s.prog.loaded then pendingBit s else adoptMarks (pendingBit (adoptOwn s).2)

/-- Keys of the digest set whose staged value is not its default. -/
def changedKeys (s : Block) : List Nat := ((s.store.nums.map (·.1)) ++ (s.store.doms.map (·.1))).filter inDigest

/-- Stage the default of every object of the digest set as one change. -/
def stageDefaults (s : Block) : Block :=
  let ks := changedKeys s
  let out := fun k => !inDigest k
  let s := { s with store := { s.store with nums := mapFilter out s.store.nums, doms := mapFilter out s.store.doms } }
  stagedWrite (forEach ks markUnwritten s)

/-- The digest that flash keeps with the epoch; an empty one stands for that of the defaults. -/
def keptDigest (s : Block) : Bytes :=
  if s.store.flashDigest = [] then sha512 (digestBytes (fun k => numDflt s.arc.slot k) domDflt) else s.store.flashDigest

/-- A loss of power overtakes the changes that are not yet in flash (R404, R467). -/
def loseChanges (s : Block) : Block :=
  { s with store := { s.store with unwritten := [], lost := s.store.unwritten.foldl setAdd s.store.lost } }

/-- The previous value of one object returns. -/
def restoreKey (key : Nat) (s : Block) : Block :=
  { s with store := { s.store with
      nums := mapSet (numDflt s.arc.slot key) s.store.nums key (mapGet (numDflt s.arc.slot key) s.store.flashN key)
      doms := mapSet (domDflt key) s.store.doms key (mapGet (domDflt key) s.store.flashD key) } }

/-- At boot the previous value of each of them returns, in force too, and the epoch rises where the digest differs from
the one that flash keeps (R404, R431 step 8). -/
def restoreLost (s : Block) : Block :=
  if s.store.lost.isEmpty then s
  else
    let s := forEach s.store.lost restoreKey s
    let s := adoptNow { s with store := { s.store with lost := [] } }
    let s := if digestForce s = keptDigest s then s else setEpoch (epochNo s + 1) s
    pendingBit s

/-- Step 3 of R445: memory, SRAM, contexts, manifests and the commit record are emptied, the digest set takes its
defaults, and the wipe-complete record is written. The page map is as cold boot builds it (log 54). -/
def wipe (s : Block) : Block :=
  let s := bootMemory (clearHalls s)
  let s := { s with
    upd := updReset, recov := { s.recov with contexts := [], manifests := [], signWait := [], ctxParts := [] }
    sec := { s.sec with wiped := lifeCount s + 1 } }
  let s := setNum 0x511000 (memWord s) s
  stageDefaults s

/-- A wipe that began ends: everything of step 3 is done, and WIPING is clear (log 99). -/
def wipeEnd (s : Block) : Block :=
  if bit (num s 0x720100) 7 then
    let s := wipe s
    setNum 0x720100 (putBit (num s 0x720100) 7 false) s
  else s

/-- After a reset in Returned, step 3 of R445 is repeated where no wipe-complete record stands for the count. -/
def wipeDue (s : Block) : Block := if lifecycle s = 3 ∧ s.sec.wiped ≠ lifeCount s + 1 then wipe s else s

/-! ## Shutdown -/

/-- What the objects that the halls produce read from now on (R399). -/
def darkOf (s : Block) : Dark :=
  { arc := s.arc, pmap := s.mem.pmap, cper := s.logs.cper, marginal := s.rel.marginal, contexts := s.recov.contexts
    manifests := s.recov.manifests, recA := s.upd.recA }

/-- A rail comes up after the one before it in the order of R469, and goes down before it. -/
def railUp (n : Nat) (s : Block) : Block := if s.pwr.rails + 1 = n then { s with pwr := { s.pwr with rails := n } } else s
def railDown (n : Nat) (s : Block) : Block := if n ≤ s.pwr.rails then { s with pwr := { s.pwr with rails := n - 1 } } else s

/-- Bring the rails up to, or down to, a place in the order; the host-site rails come up with those of place 4. -/
def railsTo (n : Nat) (s : Block) : Block :=
  if s.pwr.rails ≤ n then forEach (range' 1 n) railUp s else forEach ((range' 1 6).reverse.filter (fun i => decide (n < i))) railDown s

/-- Dormant: halls, stacks, arcade dies and host site lose power; memory is lost, the program unloaded, the
debug level Closed (R456, R453). Objects keep the last value the store held (R399). `tell`: a reset, which carrying links
report to their peers (R375). -/
def shutDown (tell : Bool) (s : Block) : Block :=
  let dark := if pstate s = 0 then s.dark else some (darkOf s)
  let s := unload s
  let s := resetArcade tell (clearHalls s)
  let s := railsTo 0 { s with
    dark
    mem := { memReset with fix := s.mem.fix }, upd := updReset
    logs := { s.logs with cper := [] }
    recov := { s.recov with contexts := [], manifests := [], signWait := [] }
    portA := portOff s.portA, portB := portOff s.portB
    fw := { s.fw with order := [], activating := false, deferred := false, waitSbound := false, reverting := [], waiting := [], reports := [] }
    pwr := { s.pwr with hostRails := false, trans := none, startAfter := none, offsetPolls := 0 } }
  let s := setNum 0xA10005 (if fld (num s 0xA10005) 0 2 = 1 then setFld (num s 0xA10005) 0 2 2 else num s 0xA10005) s
  let s := setNum 0x607000 (num s 0x607000 &&& 0xFC) s
  let s := setSec (putBit (setFld (num s 0x720100) 2 2 0) 7 false) s
  let s := setNum 0x402000 (num s 0x402000 &&& 0xF800) s
  setNum 0x401000 (setFld (num s 0x401000) 0 5 0) s

/-- Dormant without a reset. -/
def enterDormant (s : Block) : Block := shutDown false s

/-! ## Warm reset (R375) -/

/-- A warm reset: memory, the always-on domain, the store and the context store are kept. Recovery of the
commit record follows (R327). -/
def warmReset (s : Block) : Block :=
  let s := { s with pwr := { s.pwr with trans := none, startAfter := none, wakeAfter := false, standbyAfter := false, offsetPolls := 0 } }
  let s := resetArcade true (clearHalls s)
  let s := railsTo 6 { s with portA := portWarm s.portA, portB := portWarm s.portB }
  let s := freshWords (resetKeys (resetObjects keepsWarm s))
  let s := reportArcade (forEach (List.range 18) (applyPlan false) s)
  let (ok, s) := selectFirmware s
  if ok then wipeDue (recoverRecord (flushFatal s)) else enterDormant s

/-! ## Boot -/

/-- The fatal record of a rail fault is written at the next boot (R470). -/
def bootRecord (s : Block) : Block :=
  if s.pwr.fatalDue then detectFatal 0x18 (domLoc 10) false { s with pwr := { s.pwr with fatalDue := false } } else s

/-- Boot from step 2 of R431: false when no set runs. The halls, memory and links start; the module is in
Ready. -/
def bootHalls (s : Block) : Bool × Block :=
  let (ok, s) := selectFirmware s
  if !ok then (false, s)
  else
    let s := { s with dark := none, rel := { s.rel with floorOld := [] } }
    let s := compactFloor (bootMemory s)
    let s := resetArcade false (bootGuards (clearHalls s))
    let s := forEach (List.range 18) (applyPlan false) s
    let s := railsTo 6 { s with pwr := { s.pwr with hostRails := true, hcoreMv := 600 } }
    let s := reportArcade (freshWords s)
    let s := setNum 0x401000 (setFld (num s 0x401000) 0 5 2) s
    (true, bootRecord (flushFatal (wipeDue (restoreLost s))))

/-- The stored values of the digest set are in force, with the stored epoch, which rises by 1 when the
digest that flash keeps with it differs (R404). -/
def loadFlash (s : Block) : Block :=
  let s := { s with store := { s.store with
    nums := s.store.flashN, doms := s.store.flashD ++ mapFilter (fun k => k == 0x700200) s.store.doms
    forceN := digestPart s.store.flashN, forceD := digestPart s.store.flashD, unwritten := [], lost := [], changes := [] } }
  let e := s.store.flashEpoch
  let d := digestForce s
  if d = keptDigest s then setNum 0x1F0002 e s else setEpoch (e + 1) s

/-- A cold reset of the always-on domain: the tick starts at zero, the slot is sampled, every object that is
not persistent takes its default. The latched bits of 0x4020 keep their values (R10, R485); CLOCK_FAULT shows whether the
crystal runs. The counters of 0x5111 survive (R251). -/
def coldReset (slot : Nat) (s : Block) : Block :=
  let latched := (num s 0x402000 &&& 0xF000) + 2048 * b2n (bit (num s 0x402000) 11 && !s.pwr.crystal)
  let counts := mapFilter (fun k => k / 256 == 0x5111) s.store.nums
  let s := resetKeys (enterDormant s)
  let s := { s with
    clk := clkReset, arc := { s.arc with slot := slot % 128 }, dark := none
    portA := portCold s.portA, portB := portCold s.portB
    portico := { porticoReset with out := s.portico.out }, logs := { s.logs with fatalWait := [] }
    pwr := { s.pwr with inReset := false, wakeAfter := false, standbyAfter := false, plcaOk := false }
    sec := { s.sec with tapIr := 1, tapDr := [], tapOut := [] } }
  let s := loadFlash { s with store := { s.store with doms := mapFilter (fun k => k == 0x700200) s.store.doms } }
  let s := { s with store := { s.store with nums := counts.foldl (fun m e => mapSet (numDflt s.arc.slot e.1) m e.1 e.2) s.store.nums } }
  let s := setPwrBit 11 (!s.pwr.crystal) (setNum 0x402000 latched (setNum 0x401000 0x200 s))
  setNum 0x720100 (secWord s) s

/-- A boot from step 1 of R431: the counters are authenticated, then the halls start. -/
def bootFromRom (s : Block) : Bool × Block :=
  let (ok, s) := authCounters s
  if ok then bootHalls s else (false, setFwBit 8 true s)

/-- A boot that stops: the module stays in Dormant. -/
def bootStops (bitNo : Nat) (s : Block) : Block := setFwBit bitNo true s

/-- COLD_BOOT (R431). -/
def coldBoot (slot : Nat) (s : Block) : Block :=
  let s := coldReset slot s
  let (ok, s) := authCounters s
  if !ok then bootStops 8 s
  else
    let s := setNum 0x720100 (secWord s) s
    if !s.pwr.crystal || decide (850 ≤ s.pwr.hotJunction) then s else (bootHalls s).2

end Sys2Proof.Machine
end

