-- ==== Sys2Proof/Machine/Power.lean ====
section
/-! DEFINITION. Power states and their transitions, emergencies and Curbed, the input, the rails and the clocks
(R456 to R485). The end of a transition stands in Requests.lean, because it performs what waited for it. -/

namespace Sys2Proof.Machine

/-- The always-on domain runs and is not held in reset. -/
def alive (s : Block) : Bool := s.pwr.aon && !s.pwr.inReset

/-! ## Requests (R457 to R459, R464) -/

/-- The LAST_RESULT field: 0 done, 1 refused, 2 in progress. -/
def setResult (n : Nat) (s : Block) : Block := setNum 0x401000 (setFld (num s 0x401000) 12 4 n) s

/-- The TARGET field. -/
def setTarget (t : Nat) (s : Block) : Block := setNum 0x401000 (setFld (num s 0x401000) 8 3 t) s

/-- A transition begins from the present state. -/
def beginTrans (target : Nat) (req : Nat × Nat) (s : Block) : Block :=
  let s := setNum 0x401000 (putBit (num s 0x401000) 5 true) (setResult 2 s)
  { s with pwr := { s.pwr with trans := some (pstate s, target), transReq := req } }

/-- A transition, or a request that needed none, ends: LAST_RESULT, and 0x6073 and alert 0x0A for a mailbox
request (R393). -/
def endTrans (code : Nat) (s : Block) : Block :=
  let r := s.pwr.transReq
  let s := setNum 0x401000 (putBit (num s 0x401000) 5 false) (setResult code s)
  let s := { s with pwr := { s.pwr with trans := none, transReq := (0, 0) } }
  if r.2 = 0 then s else longDone 0x21 code (r.2 - 1) (setNum 0x607300 code s)

/-- Nothing runs that a transition out of Ready would stop. -/
def quiet (s : Block) : Bool := !(stepRunning s) && s.recov.job.isNone && s.bnd.phase != .actions

/-- A wake is possible: the crystal runs, the input is in range, and after a thermal trip every junction has
cooled below 85 °C (R473, R480). -/
def wakeOk (s : Block) : Bool := alive s && s.pwr.crystal && s.pwr.inputOk && decide (s.pwr.hotJunction < 850)

/-- A request for a target is permitted in the present state. -/
def powerMay (target : Nat) (s : Block) : Bool :=
  s.pwr.trans.isNone && (match pstate s with
    | 0 => target == 0 || wakeOk s
    | 1 => true
    | 2 => target == 2 || quiet s
    | 4 => target != 2 && quiet s
    | _ => false)

/-- Perform a permitted request. `req` is the port and SEQ plus 1 of a mailbox request. -/
def powerGo (target : Nat) (req : Nat × Nat) (s : Block) : Block :=
  let s := setTarget target s
  if pstate s = target then endTrans 0 { s with pwr := { s.pwr with transReq := req } }
  else if pstate s = 0 ∧ target = 1 then
    beginTrans 2 req { s with pwr := { s.pwr with standbyAfter := true } }
  else beginTrans target req s

/-- The power core restarts: power-state requests wait until it runs (R432, R458). -/
def powerWaits (s : Block) : Bool := decide (pstate s ≠ 0) && !(procRuns s 1)

/-- A power request of a plane, as it is held: port 2 is no vestibule. -/
def powerHeld (target : Nat) : Instr :=
  let r : ReqF := { port := 2, seq := 0 }
  if target = 0 then .powerRequestDormant r else if target = 1 then .powerRequestStandby r else .powerRequestReady r

/-- Hold a command that waits for a processor or for the end of a transition. -/
def holdReq (i : Instr) (s : Block) : Block := { s with fw := { s.fw with waiting := s.fw.waiting ++ [i] } }

/-- A write of 0x4011: ignored with LAST_RESULT 1 where it is not permitted. -/
def powerWrite (target : Nat) (s : Block) : Block :=
  if powerWaits s then holdReq (powerHeld target) s
  else if powerMay target s then powerGo target (0, 0) s else setResult 1 s

/-! ## Standby -/

/-- The mainbands rest in L1, or leave it. -/
def portRest (p : Vport) : Vport := if p.link = 2 then { p with link := 3 } else p

/-- The held alerts of a port whose mainband becomes active, in rising code order (R390). -/
def sendHeld (p : Vport) : Vport :=
  p.held.foldl (fun p e => match e.2 with
    | none => p
    | some h =>
      let seq := (p.alertSeq + 1) % 2 ^ 16
      { p with alertSeq := seq, out := p.out ++ [.alert e.1 seq h.step h.tick h.word] }) { p with held := [] }

/-- The mainband of a port that rests in L1 is active again. -/
def portWake (p : Vport) : Vport := if p.link = 3 then sendHeld { p with link := 2 } else p

/-- A link goes to DOWN with its lanes off; a trained one keeps its coefficients, so that its hold is over when
it leaves Standby (R457). What was not acknowledged waits. -/
def linkRest (k : Link) : Link :=
  if k.state = 9 ∨ k.state = 6 ∨ k.state = 8 then k
  else { k with
    state := 0, reason := 0, holdOver := carries k.state || k.holdOver, active := 0, tellAck := false, wait := k.sent ++ k.wait, sent := [], reorder := [],
    partials := [], freed := [], credits := [], spareTraining := false }

/-- Enter Standby. -/
def enterStandby (s : Block) : Block :=
  let s := forEach (List.range 18) (fun l s => modLink l linkRest s) s
  let s := railsTo 4 { s with
    portA := portRest s.portA, portB := portRest s.portB, gals := { s.gals with clocks := galsReset.clocks }
    arc := { s.arc with buildDue := true }, pwr := { s.pwr with offsetPolls := 0 } }
  let s := setNum 0x402000 (putBit (num s 0x402000) 0 false) s
  checkArmed (reportArcade (setNum 0x401000 (setFld (num s 0x401000) 0 5 1) s))

/-! ## Emergencies and Curbed (R477 to R479) -/

/-- The emergency bits of 0x4020. -/
def emergencies (s : Block) : Nat := num s 0x402000 &&& 0x7C

/-- The clock takes the next lower step and the module is in Curbed: record of detector 0x18, alert 0x0C. -/
def stepDown (inj : Bool) (s : Block) : Block :=
  if !(halls s) ∨ clockStep s = 2 then s
  else
    let s := setNum 0x401000 (setFld (setFld (num s 0x401000) 3 2 (clockStep s + 1)) 0 3 4) s
    let s := setPwrBit 0 true s
    let s := deferActivation (detect 0x18 (domLoc 10) inj 0 0 [] s)
    checkArmed (sweepStop (alert 0xC (num s 0x402000) s))

/-- Set or clear emergency bits; any that rises causes one step. From Standby to Ready the transition completes first
(R458). -/
def setEmergencies (inj : Bool) (bits : Nat) (s : Block) : Block :=
  let old := emergencies s
  let s := setPwrBits (num s 0x402000 - old + bits) s
  if bits - (bits &&& old) ≠ 0 ∧ s.pwr.trans ≠ some (1, 2) then stepDown inj s else s

/-- E_CURRENT (R477): hardware. -/
def doECurrent (amps : Nat) (s : Block) : Block :=
  if pstate s = 0 ∨ amps ≤ num s 0x410002 then s else setEmergencies false (emergencies s ||| 4) s
def execECurrent (amps : Nat) (s : State) : Host.Outcome State Fault Refusal := effect (doECurrent amps) s

/-- E_JUNCTION (R477): hardware. -/
def doEJunction (temp : Int) (s : Block) : Block :=
  if pstate s = 0 ∨ temp ≤ 10 * (num s 0x410003 : Int) then s else setEmergencies false (emergencies s ||| 16) s
def execEJunction (_sensor : Nat) (temp : Int) (s : State) : Host.Outcome State Fault Refusal := effect (doEJunction temp) s

/-- The highest junction sensor in a reading, those of the halls, the arcade dies and the stacks, and the inlet (R476,
R484). -/
def maxJunction (r : SensorF) : Int := ((r.temps.take 48).drop 1).foldl max (nth r.temps 0 0)
def inletOf (r : SensorF) : Int := nth r.temps 48 0

/-- The junction reading that the power core uses: an injection adds 20 °C (R479). -/
def coreJunction (s : Block) (r : SensorF) : Int := maxJunction r + (if 0 < s.pwr.offsetPolls then 200 else 0)

/-- The emergencies of a reading. -/
def readingBits (s : Block) (r : SensorF) : Nat :=
  4 * b2n (decide (1000 * num s 0x410002 < r.inputMa)) + 8 * b2n (decide (num s 0x410001 < r.avgPowerW)) +
    16 * b2n (decide (10 * (num s 0x410003 : Int) < coreJunction s r)) +
    32 * b2n (decide (10 * (num s 0x410004 : Int) < inletOf r)) + 64 * b2n (decide (r.inputMv < num s 0x410005))

/-- An injection of detector 0x18 takes effect at a poll: 200 ms of 1 ms polls. -/
def pollInject (s : Block) : Block :=
  let (hit, s) := inject 0x18 (domLoc 10) s
  if hit then { s with pwr := { s.pwr with offsetPolls := 200 } } else s

/-- Only an injection takes the junction over its limit (R479). -/
def injectedHeat (s : Block) : Bool :=
  decide (0 < s.pwr.offsetPolls) && decide (maxJunction s.pwr.readings ≤ 10 * (num s 0x410003 : Int))

/-- SENSOR_POLL (R476, R477, R484). In Dormant only the hardware sees the junctions and the input. -/
def doSensorPoll (r : SensorF) (s : Block) : Block :=
  let hot := if s.pwr.hotJunction = 0 ∨ maxJunction r < 850 then 0 else maxJunction r
  let s := { s with pwr := { s.pwr with hotJunction := hot, inputMv := r.inputMv } }
  if pstate s = 0 ∨ !(procRuns s 1) then s
  else
    let s := noteMirror 0x403003 (readNum s 0x403003) s
    let s := pollInject { s with pwr := { s.pwr with readings := r } }
    let bits := readingBits s r
    setEmergencies (injectedHeat s) bits { s with pwr := { s.pwr with offsetPolls := s.pwr.offsetPolls - 1 } }
def execSensorPoll (r : SensorF) (s : State) : Host.Outcome State Fault Refusal := effect (doSensorPoll r) s

/-- CURBED_STEP_TIMER: an emergency is still present 10 ms after a step. While the power core restarts, only the
emergencies that hardware acts on, current and junction, step the clock (R477, R478, R432). -/
def doStepTimer (s : Block) : Block :=
  let e := if procRuns s 1 then emergencies s else emergencies s &&& 0x14
  if pstate s = 4 ∧ e ≠ 0 then stepDown (e == 16 && injectedHeat s) s else s
def execCurbedStepTimer (s : State) : Host.Outcome State Fault Refusal := effect doStepTimer s

/-- Every emergency is clear with its margin (R478). -/
def marginsClear (s : Block) : Bool :=
  let r := s.pwr.readings
  emergencies s == 0 && decide (coreJunction s r ≤ 10 * (num s 0x410003 : Int) - 50) &&
    decide (inletOf r ≤ 10 * (num s 0x410004 : Int) - 20) && decide (100 * r.avgPowerW ≤ 95 * num s 0x410001) &&
    decide (r.inputMa + 5000 ≤ 1000 * num s 0x410002) && decide (num s 0x410005 + 1000 ≤ r.inputMv)

/-- The module leaves Curbed, for Active while a program runs: deferred activations go on, and one that has ended without
a program is committed (R439). -/
def leaveCurbed (s : Block) : Block :=
  commitIdle (undefer (setPwrBit 0 false (setPstate (if stepRunning s then 3 else 2) s)))

/-- CLOCK_STEP_UP (R478): only the power core steps up. -/
def doStepUp (s : Block) : Block :=
  if pstate s ≠ 4 ∨ clockStep s = 0 ∨ !(procRuns s 1) ∨ !(marginsClear s) then s
  else
    let c := clockStep s - 1
    let s := setNum 0x401000 (setFld (num s 0x401000) 3 2 c) s
    let s := detect 0x18 (domLoc 10) false 0 0 [] s
    let s := alert 0xC (num s 0x402000) s
    if c = 0 then leaveCurbed s else s
def execClockStepUp (s : State) : Host.Outcome State Fault Refusal := effect doStepUp s

/-! ## Shutdowns (R467, R470, R473, R480) -/

/-- Hardware stops everything but the always-on domain and latches a bit of 0x4020. Changes not yet in flash are lost
(R467). A transition in progress ends refused. -/
def crash (latch : Nat) (s : Block) : Block :=
  let s := setPwrBit latch true (loseChanges (enterDormant s))
  let s := { s with pwr := { s.pwr with wakeAfter := false, standbyAfter := false } }
  if bit (num s 0x401000) 5 then endTrans 1 s else s

/-- BROWNOUT; with the bulk node below 30 V the always-on domain stops too. -/
def doBrownout (aonLost : Bool) (s : Block) : Block :=
  if !(s.pwr.aon) then s
  else
    let s := crash 12 { s with pwr := { s.pwr with inputOk := false } }
    if aonLost then { s with pwr := { s.pwr with aon := false } } else s
def execBrownout (aonLost : Bool) (s : State) : Host.Outcome State Fault Refusal := effect (doBrownout aonLost) s

/-- RAIL_FAULT, also while the rails come up for a wake: the fatal record follows at the next boot. -/
def doRailFault (s : Block) : Block :=
  if pstate s = 0 ∧ s.pwr.trans.isNone then s else crash 14 { s with pwr := { s.pwr with fatalDue := true } }
def execRailFault (_rail : Nat) (s : State) : Host.Outcome State Fault Refusal := effect doRailFault s

/-- HOST_FAULT: only the host-site rails go off. -/
def doHostFault (s : Block) : Block :=
  if s.pwr.hostRails then setPwrBit 15 true { s with pwr := { s.pwr with hostRails := false } } else s
def execHostFault (s : State) : Host.Outcome State Fault Refusal := effect doHostFault s

/-- CLOCK_FAULT: the shutdown of R467 latches BROWNOUT too (log 54). -/
def doClockFault (s : Block) : Block :=
  if !(alive s) then (if s.pwr.aon then { s with pwr := { s.pwr with crystal := false } } else s)
  else
    let s := setPwrBit 11 true { s with pwr := { s.pwr with crystal := false } }
    if pstate s = 0 then s else crash 12 s
def execClockFault (s : State) : Host.Outcome State Fault Refusal := effect doClockFault s

/-- CRYSTAL_RUNS_AGAIN. -/
def doCrystal (s : Block) : Block := setPwrBit 11 false { s with pwr := { s.pwr with crystal := true } }
def execCrystalRunsAgain (s : State) : Host.Outcome State Fault Refusal := effect doCrystal s

/-- THERMAL_TRIP: fixed in hardware, armed in every state. The shutdown of R467 latches BROWNOUT too (log 54). In reset,
where no frame is sent, the bits are latched alone. -/
def doTrip (junction outlet : Int) (s : Block) : Block :=
  if !s.pwr.aon ∨ (junction ≤ 1150 ∧ outlet ≤ 750) then s
  else
    let s := { s with pwr := { s.pwr with hotJunction := if junction < 850 then 0 else junction } }
    if s.pwr.inReset then setNum 0x402000 (putBit (putBit (num s 0x402000) 12 true) 13 true) s
    else setPwrBit 13 true (crash 12 s)
def execThermalTrip (junction outlet : Int) (s : State) : Host.Outcome State Fault Refusal := effect (doTrip junction outlet) s

/-! ## Pins and input (R466, R483) -/

/-- PRST_N: above 1 µs the module is in reset until its release. Links that carry traffic tell their peers (R375). -/
def doPrst (ns : Nat) (s : Block) : Block :=
  if ns ≤ 1000 ∨ !s.pwr.aon then s
  else
    let s := shutDown true s
    { s with pwr := { s.pwr with inReset := true, wakeAfter := false, standbyAfter := false, transReq := (0, 0) } }
def execPrstN (ns : Nat) (s : State) : Host.Outcome State Fault Refusal := effect (doPrst ns) s

/-- INPUT_APPLIED: above 30 V the always-on domain starts, with the tick at zero (R473): a cold reset that keeps no
latched bit of 0x4020 (R485); the boot needs 52 V. An input of 64 V opens the hot-swap stage. -/
def doInput (mv : Nat) (s : Block) : Block :=
  if 64000 ≤ mv then doBrownout false { s with pwr := { s.pwr with inputMv := mv } }
  else
    let ok := decide (52000 < mv) || (s.pwr.inputOk && decide (41000 ≤ mv))
    let s := { s with pwr := { s.pwr with inputMv := mv, inputOk := ok } }
    if !s.pwr.aon ∧ 30000 < mv then
      setNum 0x402000 0 { s with pwr := { s.pwr with aon := true, inReset := true }, clk := { s.clk with tick := 0, phase := 0 } }
    else s
def execInputApplied (mv : Nat) (s : State) : Host.Outcome State Fault Refusal := effect (doInput mv) s

/-- COLD_BOOT: after the release of PRST_N, or on a steady input after the always-on domain started. -/
def doColdBoot (slotPins : Nat) (s : Block) : Block :=
  if s.pwr.aon && s.pwr.inReset && s.pwr.inputOk then coldBoot slotPins s else s
def execColdBoot (slotPins : Nat) (s : State) : Host.Outcome State Fault Refusal := effect (doColdBoot slotPins) s

/-- WAKE_N held for 1 µs: a wake from Dormant or Standby; during an entry to Dormant it follows the entry. -/
def doWake (ns : Nat) (s : Block) : Block :=
  if ns < 1000 ∨ !(alive s) then s
  else if powerWaits s then holdReq (.wakeN ns) s
  else match s.pwr.trans with
    | some (_, t) => if t = 0 then { s with pwr := { s.pwr with wakeAfter := true } } else s
    | none => if (pstate s = 0 ∧ wakeOk s) ∨ pstate s = 1 then powerGo 2 (0, 0) s else s
def execWakeN (ns : Nat) (s : State) : Host.Outcome State Fault Refusal := effect (doWake ns) s

/-- HOST_SITE_POWER_REQUEST: HCORE from 600 to 1,100 mV in steps of 5 mV; another voltage is no request of the
interface. While the power core restarts the rails stay as they are (R432). -/
def doHostPower (mv : Nat) (s : Block) : Block :=
  if procRuns s 1 && s.pwr.hostRails && decide (600 ≤ mv) && decide (mv ≤ 1100) && mv % 5 == 0 then { s with pwr := { s.pwr with hcoreMv := mv } } else s
def execHostSitePowerRequest (mv : Nat) (s : State) : Host.Outcome State Fault Refusal := effect (doHostPower mv) s

/-- COORDINATOR_BEACON_LOSS (R414). -/
def doBeaconLoss (s : Block) : Block := { s with pwr := { s.pwr with plcaOk := false } }
def execCoordinatorBeaconLoss (s : State) : Host.Outcome State Fault Refusal := effect doBeaconLoss s

/-- ALERT_N is asserted (R483). -/
def alertN (s : Block) : Bool := fld (num s 0x402000) 0 16 != 0 || fld (num s 0x801000) 8 2 != 0

/-- HALL_BRIDGE_VOTE_FAIL (R336): a fatal record, then a warm reset. -/
def doVoteFail (s : Block) : Block :=
  if !(halls s) then s
  else warmReset (detectFatal 0x0F (domLoc 8) false s)
def execHallBridgeVoteFail (s : State) : Host.Outcome State Fault Refusal := effect doVoteFail s

end Sys2Proof.Machine
end

