-- ==== Sys2Proof/Machine/Security.lean ====
section
/-! DEFINITION. Lifecycle, keys, debug levels and attestation (R443 to R455). -/

namespace Sys2Proof.Machine

/-! ## 0x7201 (R463) -/

/-- LAST_AUTH. -/
def setAuth (code : Nat) (s : Block) : Block := setNum 0x720100 (setFld (num s 0x720100) 8 4 code) s

/-- The debug level. -/
def setDebug (n : Nat) (s : Block) : Block := checkArmed (setSec (setFld (num s 0x720100) 2 2 n) s)

/-- The lifecycle code and OWNER as the count and the records now give them; every change sets the level to
Closed (R444, R453). -/
def lifeChanged (s : Block) : Block :=
  let w := secWord s
  let v := setFld (num s 0x720100) 0 4 (fld w 0 2)
  checkArmed (setSec (putBit v 6 (bit w 6)) s)

/-- The challenge takes a new value (R452). -/
def renew (s : Block) : Block := { s with sec := { s.sec with draws := s.sec.draws + 1 } }

/-- Serial and challenge at bytes 8 and 24, and the count at byte 56, of a record. -/
def recHere (s : Block) (r : Bytes) : Bool := slice r 8 16 == slice Config.serial 0 16 && slice r 24 32 == challenge s
def recCountOk (s : Block) (r : Bytes) : Bool := leAt r 56 4 == lifeCount s

/-- A change of lifecycle needs Ready and no program (R444). -/
def lifeMay (s : Block) : Bool := pstate s == 2 && !s.prog.loaded

/-- A request waits for the end of a transition or for the security core (R458, R432). -/
def secWaits (s : Block) : Bool := s.pwr.trans.isSome || !(procRuns s 0)

/-! ## Lifecycle changes (R444, R445) -/

/-- Raise the lifecycle count. -/
def raiseLife (n : Nat) (s : Block) : Block := lifeChanged (raiseCounter 8 (lifeCount s + n) s)

/-- The checks of an enrolment record in order: 0 accepted (R447, R452). -/
def enrolCheck (r : Bytes) (s : Block) : Nat :=
  if lifecycle s = 1 ∧ !(lifeMay s) then 7
  else if leAt r 0 4 ≠ 0x4E344F4B ∨ r.length ≠ 328 then 1
  else if !(recHere s r) then 2
  else if !(recCountOk s r) then 3
  else if lifecycle s = 1 then (if slice r 196 132 = zeros 132 then 0 else 6)
  else if lifecycle s = 2 then (if ecdsaOk (ownerKey s) (sha512 (slice r 0 196)) (slice r 196 132) then 0 else 6)
  else 4

/-- The owner of an accepted record is installed (R447); the first owner makes the module Deployed (R444). -/
def takeOwner (r : Bytes) (s : Block) : Block :=
  let n := if lifecycle s = 1 then 1 else 0
  let s := { s with sec := { s.sec with owner := slice r 64 132, ownerCount := lifeCount s + n } }
  if n = 1 then raiseLife 1 s else s

/-- An enrolment record (R447): Provisioned becomes Deployed; Deployed replaces the owner key. -/
def enrol (r : Bytes) (s : Block) : Block :=
  let code := enrolCheck r s
  let s := setAuth code (renew s)
  if code ≠ 0 then s else takeOwner r s

/-- The public key of a signer: 0 owner, 1 service. -/
def signerKey (s : Block) (signer : Nat) : Bytes := if signer = 0 then ownerKey s else Config.serviceKey

/-- By how much a lifecycle request raises the count; 0 where the change does not exist. -/
def lifeStep (s : Block) (target : Nat) : Nat :=
  match lifecycle s, target with
  | 1, 3 => 2
  | 2, 3 => 1
  | 3, 1 => 1
  | _, _ => 0

/-- The checks of a lifecycle request in order (R444, R452). -/
def lifeCheck (r : Bytes) (s : Block) : Nat :=
  let target := leAt r 4 1
  let signer := leAt r 5 1
  if !(lifeMay s) then 7
  else if leAt r 0 4 ≠ 0x4E344C43 ∨ r.length ≠ 196 ∨ 3 < target then 1
  else if !(recHere s r) then 2
  else if !(recCountOk s r) then 3
  else if lifeStep s target = 0 then 4
  else if !(signer = 1 ∨ (signer = 0 ∧ lifecycle s = 2)) then 5
  else if ecdsaOk (signerKey s signer) (sha512 (slice r 0 64)) (slice r 64 132) then 0 else 6

/-- A lifecycle request. A move into Returned sets WIPING: the wipe has begun, and `wipeEnd` ends it (R445). -/
def lifeRequest (r : Bytes) (s : Block) : Block :=
  let code := lifeCheck r s
  let s := setAuth code (renew s)
  if code ≠ 0 then s
  else
    let s := raiseLife (lifeStep s (leAt r 4 1)) s
    if lifecycle s = 3 then setNum 0x720100 (putBit (num s 0x720100) 7 true) s else s

/-- A write of 1 to 0x7120 (Blank only). -/
def generateKey (s : Block) : Block :=
  if !(lifeMay s) then setAuth 7 s
  else
    let s := { s with sec := { s.sec with identity := s.sec.identity + 1 } }
    setNum 0x720100 (putBit (num s 0x720100) 4 true) s

/-- A write of the certificate chain pairs both counter regions: Provisioned, count 0. -/
def installChain (chain : Bytes) (s : Block) : Block :=
  if !(lifeMay s) ∨ s.sec.identity = 0 then setAuth 7 s
  else
    let s := setDom 0x700200 (chain.take 8192) s
    lifeChanged { s with fw := { s.fw with counters := [], pairing := [(0, 1), (1, 1)] } }

/-! ## Debug tokens (R451 to R453) -/

/-- The level exists in the lifecycle state. -/
def levelOk (life level : Nat) : Bool :=
  level == 0 || life == 0 || life == 3 || (life == 2 && level == 1)

/-- The signer may ask for the level. -/
def signerOk (life level signer : Nat) : Bool :=
  level == 0 || (match life with
    | 0 => signer == 1 || signer == 2
    | 2 => signer == 0
    | 3 => signer == 1
    | _ => false)

/-- The checks of a token in order. -/
def tokenCheck (t : Bytes) (s : Block) : Nat :=
  let level := leAt t 4 1
  let signer := leAt t 5 1
  if leAt t 0 4 ≠ 0x4E344454 ∨ t.length ≠ 196 ∨ 2 < level then 1
  else if !(recHere s t) then 2
  else if !(recCountOk s t) then 3
  else if !(levelOk (lifecycle s) level) then 4
  else if !(signerOk (lifecycle s) level signer) then 5
  else if level = 0 ∨ signer = 2 then 0
  else if ecdsaOk (signerKey s signer) (sha512 (slice t 0 64)) (slice t 64 132) then 0 else 6

/-- A token: the answer says whether it was accepted. Entering Open discards the identity key. -/
def useToken (t : Bytes) (s : Block) : Bool × Block :=
  let code := tokenCheck t s
  let level := leAt t 4 1
  let s := setAuth code (renew s)
  if code ≠ 0 then (false, bumpNum 0x720200 32 1 s)
  else
    let s := if level = 2 then
        setNum 0x720100 (putBit (num s 0x720100) 5 true) { s with sec := { s.sec with idkDiscarded := true } }
      else s
    (true, setDebug level s)

/-- The TAP instruction TOKEN: the answer is the byte LAST_AUTH (R454). -/
def tapToken (t : Bytes) (s : Block) : Block :=
  let s := (useToken t s).2
  { s with sec := { s.sec with tapIr := 0x12, tapDr := t, tapOut := leBytes 1 (fld (num s 0x720100) 8 4) } }

/-- It waits as other requests do (R432, R458). -/
def doTapToken (t : Bytes) (s : Block) : Block := if secWaits s then holdReq (.tapToken t) s else tapToken t s

/-! ## Attestation (R449, R450) -/

/-- Bytes 0 to 607 of a report. -/
def reportHead (s : Block) (nonce : Bytes) : Bytes :=
  slice (leBytes 2 1 ++ leBytes 1 (lifecycle s) ++ leBytes 1 (debugLevel s) ++ leBytes 1 (pstate s) ++ leBytes 1 (signMode s) ++ zeros 2 ++
    slice Config.serial 0 16 ++ slice nonce 0 64 ++ leBytes 8 (stepNo s) ++ leBytes 4 (epochNo s) ++ leBytes 4 (lifeCount s) ++
    digestForce s ++ slice (dom s 0x603002) 0 64 ++ (List.range 4).flatMap (fun k => sha512 (runningImage s k)) ++
    (List.range 4).flatMap (fun k => leBytes 8 (fwVersion s k)) ++ (List.range 5).flatMap (fun c => leBytes 4 (effCounter s c)) ++
    zeros 4 ++ (if ownerKey s = [] then zeros 64 else sha512 (ownerKey s))) 0 608

/-- The 804-byte report with given bytes 0 to 607. -/
def sealReport (s : Block) (h : Bytes) : Bytes :=
  let d := sha512 h
  h ++ d ++ (if leAt h 5 1 = 0 ∧ signMode s = 0 then slice (Config.identitySign s.sec.identity d) 0 132 else zeros 132)

/-- The report of the present state. -/
def attest (s : Block) (nonce : Bytes) : Bytes := sealReport s (reportHead s nonce)

/-! ## Commands -/

/-- OWNER_ENROLMENT: a write of 0x7101 from the host plane. -/
def doEnrol (r : Bytes) (s : Block) : Block := if pstate s = 0 then s else if secWaits s then holdReq (.ownerEnrolment r) s else enrol r s
def execOwnerEnrolment (rec : Bytes) (s : State) : Host.Outcome State Fault Refusal := effect (doEnrol rec) s

/-- A lifecycle request: a write of 0x7110. -/
def doLifecycle (i : Instr) (r : Bytes) (s : Block) : Block := if pstate s = 0 then s else if secWaits s then holdReq i s else lifeRequest r s
def execLifecycleToReturned (rec : Bytes) (s : State) : Host.Outcome State Fault Refusal :=
  effect (doLifecycle (.lifecycleToReturned rec) rec) s
def execLifecycleToProvisioned (rec : Bytes) (s : State) : Host.Outcome State Fault Refusal :=
  effect (doLifecycle (.lifecycleToProvisioned rec) rec) s

end Sys2Proof.Machine
end

