-- ==== Sys2Proof/Machine/Firmware.lean ====
section
/-! DEFINITION. Firmware staging and activation, watchdogs and restarts of processors, and what the security
core writes and signs (R432 to R440, R334, R372, R404). Requests that wait for a restart are performed again
in Requests.lean. -/

namespace Sys2Proof.Machine

/-! ## Request 0x0040 (R437 to R440) -/

/-- The final code of a firmware request: 0x8021 and alert 0x0A. -/
def fwDone (code : Nat) (r : ReqF) (s : Block) : Block := longDone 0x40 code r.seq (setNum 0x802100 code s)

/-- The inactive set as a staging would leave it: the active set's images when nothing is staged, and the new
image over its kind. -/
def stagedSet (s : Block) (kind : Nat) (b : Bytes) : List Bytes :=
  let old := if s.fw.staged then 1 - s.fw.activeSet else s.fw.activeSet
  (List.range 4).map (fun k => if k = kind then b else fwImage s old k)

/-- Write the four images of a set. -/
def putSet (set : Nat) (l : List Bytes) (s : Block) : Block :=
  let m := (List.range 4).foldl (fun m k => mapSet (Config.provisionedImage set k) m (set * 4 + k) (nth l k [])) s.fw.images
  { s with fw := { s.fw with images := m } }

/-- FIRMWARE_STAGE (R438). While an activation is in progress the inactive set does not change (log 55). -/
def doStage (r : ReqF) (kind addr size : Nat) (s : Block) : Block :=
  if s.fw.activating then respond r 0x40 stState [] s
  else
    let s := respond r 0x40 stAccepted [] s
    if 4 ≤ kind ∨ size < 512 ∨ 512 + imgLimit kind < size then fwDone 3 r s
    else
      let (d, s) := memRead 0 addr size s
      let b := plain d
      let code := if anyPoison d then 1 else imgCheck s kind b
      if code ≠ 0 then fwDone code r s
      else
        let l := stagedSet s kind b
        if !(setCoherent l) then fwDone 4 r s
        else
          let s := putSet (1 - s.fw.activeSet) l s
          fwDone 0 r (setFwBit 2 true { s with fw := { s.fw with staged := true } })

/-- FIRMWARE_ACTIVATE (R439, R440). -/
def doActivate (r : ReqF) (s : Block) : Block :=
  if s.fw.activating then respond r 0x40 stState [] s
  else
    let s := respond r 0x40 stAccepted [] s
    if !s.fw.staged then fwDone 6 r s
    else
      let s := { s with fw := { s.fw with activating := true, order := activationOrder s, req := (r.port, r.seq) } }
      if pstate s = 4 ∨ emergencies s ≠ 0 then
        setNum 0x802100 7 (setFwBit 4 true { s with fw := { s.fw with deferred := true } })
      else activateNext (setFwBit 3 true s)

/-- FIRMWARE_ABANDON (R438). -/
def doAbandon (r : ReqF) (s : Block) : Block :=
  if s.fw.activating then respond r 0x40 stState [] s
  else
    let s := respond r 0x40 stAccepted [] s
    if s.fw.staged then fwDone 0 r (setFwBit 2 false { s with fw := { s.fw with staged := false } }) else fwDone 6 r s

/-! ## Restarts (R432, R434, R436) -/

/-- A processor restart is in progress. -/
def procRestarts (s : Block) (n : Nat) : Bool := !(proc s n).running && !(proc s n).held && !(proc s n).hold100 && decide (pstate s ≠ 0)

/-- A command that names a processor. -/
def onProc (n : Nat) (f : Block → Block) (s : State) : Host.Outcome State Fault Refusal :=
  if 53 ≤ n then .fault .noSuchUnit else effect f s

/-- PROCESSOR_WATCHDOG. -/
def doProcWatchdog (n : Nat) (s : Block) : Block := if procUp s n then trimBuffer (beginRestart n (proc s n).staged s) else s
def execProcessorWatchdog (n : Nat) (s : State) : Host.Outcome State Fault Refusal := onProc n (doProcWatchdog n) s

/-- LOCKSTEP_MISMATCH (R334): of the security core or the scheduler core. -/
def doLockstep (n : Nat) (s : Block) : Block :=
  if !(procUp s n) ∨ (n ≠ 0 ∧ n ≠ 2) then s
  else
    lockstepHit n false s
def execLockstepMismatch (n : Nat) (s : State) : Host.Outcome State Fault Refusal := onProc n (doLockstep n) s

/-- The restarted pair writes its latched event to the log. -/
def logLatched (n : Nat) (s : Block) : Block :=
  let code := if n = 2 then 0x04 else 0x05
  let (mine, rest) := s.pwr.lockLatch.partition (fun e => e.1 == code)
  forEach mine (fun e s => detect code (procLoc n) e.2 0 0 [] s) { s with pwr := { s.pwr with lockLatch := rest } }

/-- The restart test of a gallery control core resets its gallery where no program is bound to it (R375); a bound one
runs on (R432, log 97). -/
def testGallery (g : Nat) (s : Block) : Block := if (boundPhys s).contains g then s else clearGallery g s

/-- A gallery control core failed its restart test: it is held for 100 ms; at the third failure its gallery is
fenced and the core stays held (R434). -/
def gccFails (n fails : Nat) (inj : Bool) (s : Block) : Block :=
  let p := proc s n
  let s := testGallery (n - 3) (detect 0x17 (locOf 3 (n - 3) 0 0 0 0) inj 0 0 [] s)
  if inj then setProc n { p with hold100 := true } s
  else if fails < 3 then setProc n { p with fails, hold100 := true } s
  else reportProcs (fenceGal 2 (n - 3) 2 (setProc n { p with fails, held := true } s))

/-- A processor failed to reach running; the answer of the third time for a core that is not of a gallery is a
warm reset, which boots the previous set when the core ran a new image (R436). -/
def restartFails (n : Nat) (inj : Bool) (s : Block) : Block :=
  let p := proc s n
  let fails := p.fails + 1
  let new := s.fw.activating && (p.staged || !s.fw.reverting.isEmpty)
  if 3 ≤ n then
    let s := gccFails n fails inj s
    if new && decide (3 ≤ fails) && !inj then
      (if s.fw.reverting.isEmpty then revertActivation s else if s.fw.reverting.head? = some n then reverted s else s)
    else s
  else if fails < 3 then reportProcs (countRestart n (setProc n { p with fails } s))
  else
    let r := s.fw.req
    let s := warmReset s
    if new then longDone 0x40 8 r.2 (setNum 0x802100 8 s) else s

/-- The image set that a restarted processor runs. -/
def noteImage (n : Nat) (s : Block) : Block :=
  let set := if (proc s n).staged then 1 - s.fw.activeSet else s.fw.activeSet
  if s.fw.activating then loadImage (min n 3) (fwImage s set (min n 3)) s else s

/-- An action that waits for votes or agreements is set back to its start: what it mapped is free again. -/
def undoAction (s : Block) : Block :=
  let s := if s.bnd.next = 1 ∧ s.bnd.wait = .vote2 then forEach s.bnd.decs (fun d s => dropPages d.mapped s) s else s
  { s with bnd := { s.bnd with wait := .nothing } }

/-- The restarted scheduler core goes on with the boundary: an action that was interrupted part-way runs again from its
start (R435). -/
def resumeBoundary (s : Block) : Block :=
  let s := recoverRecord s
  if s.bnd.phase = .actions then boundGo (undoAction s) else s

/-- A processor runs again. The security core writes the fatal records that waited for it (R433). The scheduler core acts
on the commit record and goes on with the boundary (R435); a gallery control core has run its restart test; the head of
an activation's order, or of a reversion's, makes way for the next (R439). -/
def restartOk (n : Nat) (s : Block) : Block :=
  let s := noteImage n (reportProcs (setProc n { proc s n with running := true, fails := 0 } s))
  let s := if n = 0 then flushFatal s else s
  let s := if n = 0 ∨ n = 2 then logLatched n s else s
  let s := if n = 2 then resumeBoundary s else s
  let s := if 3 ≤ n then testGallery (n - 3) s else s
  if s.fw.activating && s.fw.order.head? == some n && (proc s n).staged then activated s
  else if s.fw.reverting.head? == some n then reverted s
  else s


/-- GCC_HOLD_EXPIRY (R434): the core restarts again. -/
def doGccHold (g : Nat) (s : Block) : Block :=
  let p := proc s (3 + g)
  if p.hold100 && !p.held then beginRestart (3 + g) p.staged s else s
def execGccHoldExpiry (gal : Nat) (s : State) : Host.Outcome State Fault Refusal := onGallery gal (doGccHold gal) s

/-! ## Flash writes and signatures (R404, R372, R450) -/

/-- One persistent object in both flash devices. -/
def writeFlash (key : Nat) (s : Block) : Block :=
  let st := s.store
  let isNum := (match objFind key with
    | some o => decide (typSize o.typ ≠ 0)
    | none => true)
  { s with store :=
    if isNum then { st with flashN := mapSet (numDflt s.arc.slot key) st.flashN key (num s key) }
    else { st with flashD := mapSet (domDflt key) st.flashD key (dom s key) } }

/-- The epoch in force in both flash devices, with the digest of the values in force (R404). -/
def writeEpoch (s : Block) : Block :=
  { s with store := { s.store with flashEpoch := num s 0x1F0002, flashDigest := digestForce s } }

/-- PERSIST_FLASH_WRITE: the oldest change that waits; the object's value, as it is now, holds every change to it. -/
def doPersist (s : Block) : Block :=
  match s.store.unwritten with
  | [] => s
  | k :: _ =>
    if pstate s = 0 ∨ !(procRuns s 0) then s
    else
      let s := if k = 0x1F0002 then writeEpoch s else writeFlash k s
      { s with store := { s.store with unwritten := setDel s.store.unwritten k } }
def execPersistFlashWrite (s : State) : Host.Outcome State Fault Refusal := effect doPersist s

/-- The signature of a manifest over its first 0xF3C bytes. -/
def signManifest (s : Block) (m : Bytes) : Bytes :=
  m.take 0xF7C ++ slice (Config.identitySign s.sec.identity (slice m 0xF3C 64)) 0 132

/-- MANIFEST_SIGNATURE: the oldest manifest that waits; without a live key it stays unsigned (R450). -/
def doSign (s : Block) : Block :=
  match s.recov.signWait with
  | [] => s
  | i :: r =>
    if pstate s = 0 ∨ !(procRuns s 0) then s
    else
      let l := s.recov.manifests
      let l := if signMode s = 0 then setNth l i (signManifest s (nth l i [])) else l
      { s with recov := { s.recov with manifests := l, signWait := r } }
def execManifestSignature (s : State) : Host.Outcome State Fault Refusal := effect doSign s

end Sys2Proof.Machine
end

