-- ==== Sys2Proof/Machine/Access.lean ====
section
/-! DEFINITION. Reading and writing objects (R395 to R404, R421, R462): the planes, the length rules, clamping, what
a write does besides storing, and the commands that are writes of one object. -/

namespace Sys2Proof.Machine

/-! ## Planes (R398, R399, R454, R460, R462, R484) -/

/-- Injection objects are open: level Balcony or Open, or Blank or Returned. -/
def injectMay (s : Block) : Bool := decide (1 ≤ debugLevel s) || lifecycle s == 0 || lifecycle s == 3

/-- The floor map may be cleared: Blank or Returned (R460). -/
def clearMay (s : Block) : Bool := lifecycle s == 0 || lifecycle s == 3

/-- What the debug access port reaches: at Closed only 0x1000 to 0x1FFF and 0x7000 to 0x7FFF (R454). -/
def debugReach (s : Block) (index : Nat) : Bool := decide (1 ≤ debugLevel s) || index / 4096 == 1 || index / 4096 == 7

/-- A plane may write an object. -/
def planeMay (s : Block) (pl : Plane) (index : Nat) : Bool :=
  match pl with
  | .debug => debugReach s index &&
      ((decide (0x3210 ≤ index) && decide (index ≤ 0x3212)) || index == 0x4021 || (index == 0x5301 && clearMay s) || index == 0x7110 ||
        ((index == 0x7120 || index == 0x7121) && lifecycle s == 0) || (index / 4096 == 10 && injectMay s))
  | .host =>
    match index / 4096 with
    | 1 => index == 0x1F10 || index == 0x1F20
    | 2 | 3 | 4 | 6 => true
    | 5 => index != 0x5301 || clearMay s
    | 7 => index == 0x7101 || index == 0x7110 || ((index == 0x7120 || index == 0x7121) && lifecycle s == 0)
    | 10 => injectMay s
    | _ => false
  | .portico =>
    match index / 4096 with
    | 1 => index == 0x1F10 || index == 0x1F20
    | 2 | 6 => true
    | 3 => !(decide (0x3210 ≤ index) && decide (index ≤ 0x3212))
    | 4 => index != 0x4021
    | 5 => index != 0x5301
    | _ => false

/-- A plane works in the present power state: the portico always, the others while the vestibules and halls are
powered (R399, R460). -/
def planeUp (s : Block) (pl : Plane) : Bool :=
  alive s && (match pl with
    | .portico => true
    | _ => decide (pstate s ≠ 0))

/-! ## Reading -/

/-- An object of eight bytes or fewer, which is read and written whole (R396): one of a fixed type, one whose maximum is
eight bytes or fewer, and subindex 0 of a record. -/
def smallObj (key : Nat) : Bool :=
  match objFind key with
  | some o => typSize o.typ != 0 || decide (o.hi ≤ 8)
  | none => true

/-- A read of `count` bytes from an offset: status and bytes. One that asks for a part of an object of eight bytes or
fewer is answered with LENGTH (log 95). -/
def objRead (s : Block) (key offset count : Nat) : Nat × Bytes :=
  match objValue s key with
  | none => (stNoObject, [])
  | some v =>
    if v.length < offset then (stNoObject, [])
    else if smallObj key ∧ (offset ≠ 0 ∨ count < v.length) then (stLength, [])
    else (stOk, (v.drop offset).take (min count 4096))

/-! ## Writing -/

/-- Count a clamped write (R400). -/
def countClamp (key : Nat) (s : Block) : Block := setNum 0x1E0002 key (bumpNum 0x1E0001 32 1 s)

/-- Count a refused write (R398). -/
def refuseWrite (s : Block) : Nat × Block := (stAccess, bumpNum 0x1E0003 32 1 s)

/-- What changes flash waits, as a command, while the security core restarts (R14, R432, R433). -/
def onFlash (i : Instr) (f : Block → Block) (s : Block) : Block :=
  if procRuns s 0 then f s else { s with fw := { s.fw with waiting := s.fw.waiting ++ [i] } }

/-- The action of a write-only number. -/
def actNum (key v : Nat) (s : Block) : Block :=
  match key with
  | 0x1F2000 => if v = 1 then stageDefaults s else s
  | 0x321200 => if halls s then resetLink v s else s
  | 0x401100 => powerWrite v s
  | 0x402100 => if v = 1 then setNum 0x402000 (num s 0x402000 &&& 0xFFFF0FFF) s else s
  | 0x512200 => { s with mem := { s.mem with fix := { s.mem.fix with clearPoisonReq := setAdd s.mem.fix.clearPoisonReq v } } }
  | 0x523200 => removeGuard v s
  | 0x530100 => if v = 1 then onFlash (.clearFloorMap .host 1) clearFloor s else s
  | 0x607500 => if halls s then resetGallery v s else s
  | 0x712000 => if v = 1 then onFlash (.generateIdentityKey .host 1) generateKey s else s
  | 0xA10004 => armInjection v s
  | _ => s

/-- The action of a write-only byte string. -/
def actDom (key : Nat) (v : Bytes) (s : Block) : Block :=
  match key with
  | 0x710100 => doEnrol v s
  | 0x711000 => doLifecycle (.lifecycleToReturned v) v s
  | 0x712100 => onFlash (.installCertificateChain .host v) (installChain v) s
  | _ => s

/-- Compliance mode follows a write of 0x3210 or 0x3211 while no program is loaded, in Standby or Ready (R254). -/
def laneWrite (key : Nat) (s : Block) : Block :=
  if (key = 0x321000 ∨ key = 0x321100) ∧ !s.prog.loaded ∧ (pstate s = 1 ∨ pstate s = 2) then applyLaneMode s else s

/-- η was written: since the snapshot of the boundary in progress, or before it (R321). -/
def etaWrite (key : Nat) (s : Block) : Block :=
  if key ≠ 0x601001 then s
  else if s.bnd.phase = .actions ∧ s.bnd.next ≠ 0 ∧ s.bnd.next ≠ 20 then { s with upd := { s.upd with etaLate := true } }
  else { s with upd := { s.upd with etaWritten := true } }

/-- What follows the storing of a value. -/
def afterStore (o : ObjDef) (s : Block) : Block :=
  let s := if o.persist then markUnwritten o.key s else s
  let s := if o.digest then stagedWrite s else s
  etaWrite o.key (laneWrite o.key s)

/-- A write of a fixed-size object. -/
def writeNum (o : ObjDef) (v : Nat) (s : Block) : Block :=
  let v' := clampNum o v
  let s := if v' = v then s else countClamp o.key s
  if o.acc = .wo then actNum o.key v' s else afterStore o (setNum o.key v' s)

/-- A write of a byte string: `v` is its whole new value. -/
def writeDom (o : ObjDef) (v : Bytes) (s : Block) : Block :=
  let v' := clampDom o v
  let s := if v' = v then s else countClamp o.key s
  if o.acc = .wo then actDom o.key v' s else afterStore o (setDom o.key v' s)

/-- The value that a write at an offset leaves: bytes from the offset are replaced, the length grows where needed
(R416). -/
def mergeDom (s : Block) (o : ObjDef) (offset : Nat) (data : Bytes) : Bytes :=
  splice (if o.acc = .wo then [] else dom s o.key) offset data

/-- Checks that every write makes before its value: none when it may be made. -/
def writeRefused (s : Block) (pl : Plane) (key : Nat) : Option Nat :=
  match objFind key with
  | none => if key % 256 = 0 ∧ 0 < objHighest (key / 256) then some stAccess else some stNoObject
  | some o => if o.acc = .const ∨ o.acc = .ro ∨ !(planeMay s pl (key / 256)) then some stAccess else none

/-- A write from a plane: the status and what it leaves. -/
def objWrite (pl : Plane) (key offset : Nat) (data : Bytes) (s : Block) : Nat × Block :=
  match writeRefused s pl key, objFind key with
  | some st, _ => if st = stAccess then refuseWrite s else (st, s)
  | none, none => (stNoObject, s)
  | none, some o =>
    let n := typSize o.typ
    if n ≠ 0 then
      if offset ≠ 0 ∨ data.length ≠ n then (stLength, s) else (stOk, writeNum o (leNat data) s)
    else if o.hi < offset then (stNoObject, s)
    else if smallObj key then (if offset ≠ 0 then (stLength, s) else (stOk, writeDom o data s))
    else (stOk, writeDom o (mergeDom s o offset data) s)

/-- The whole new value of a byte string (the end of a segmented download). -/
def objWriteWhole (pl : Plane) (key : Nat) (data : Bytes) (s : Block) : Nat × Block :=
  match writeRefused s pl key, objFind key with
  | some st, _ => if st = stAccess then refuseWrite s else (st, s)
  | none, none => (stNoObject, s)
  | none, some o =>
    if typSize o.typ ≠ 0 then (if data.length = typSize o.typ then (stOk, writeNum o (leNat data) s) else (stLength, s))
    else (stOk, writeDom o data s)

/-! ## Commands that are writes of one object -/

/-- A write of a number of `n` bytes from a plane that works; a value that does not fit the bytes is none of
the object's type. -/
def writeRow (pl : Plane) (key n v : Nat) (s : Block) : Block :=
  if planeUp s pl ∧ v < 256 ^ n then (objWrite pl key 0 (leBytes n v) s).2 else s

def execLinkReset (plane : Plane) (link : Nat) (s : State) : Host.Outcome State Fault Refusal := effect (writeRow plane 0x321200 1 link) s
def execLaneMode (plane : Plane) (mode : Nat) (s : State) : Host.Outcome State Fault Refusal := effect (writeRow plane 0x321000 1 mode) s
def execRestoreDefaults (plane : Plane) (value : Nat) (s : State) : Host.Outcome State Fault Refusal :=
  effect (writeRow plane 0x1F2000 1 value) s
def execClearPoisoned (plane : Plane) (page : Nat) (s : State) : Host.Outcome State Fault Refusal := effect (writeRow plane 0x512200 4 page) s
def execRemoveGuardBand (plane : Plane) (gal : Nat) (s : State) : Host.Outcome State Fault Refusal :=
  effect (writeRow plane 0x523200 1 gal) s
def execClearFloorMap (plane : Plane) (value : Nat) (s : State) : Host.Outcome State Fault Refusal :=
  effect (writeRow plane 0x530100 1 value) s
def execGalleryReset (plane : Plane) (gal : Nat) (s : State) : Host.Outcome State Fault Refusal := effect (writeRow plane 0x607500 1 gal) s
def execClearLatchedBits (plane : Plane) (value : Nat) (s : State) : Host.Outcome State Fault Refusal :=
  effect (writeRow plane 0x402100 1 value) s
def execGenerateIdentityKey (plane : Plane) (value : Nat) (s : State) : Host.Outcome State Fault Refusal :=
  effect (writeRow plane 0x712000 1 value) s
def execInjectionArm (plane : Plane) (count : Nat) (s : State) : Host.Outcome State Fault Refusal := effect (writeRow plane 0xA10004 2 count) s

/-- INSTALL_CERTIFICATE_CHAIN: a write of 0x7121. -/
def doInstall (pl : Plane) (chain : Bytes) (s : Block) : Block :=
  if planeUp s pl then (objWriteWhole pl 0x712100 chain s).2 else s
def execInstallCertificateChain (plane : Plane) (chain : Bytes) (s : State) : Host.Outcome State Fault Refusal :=
  effect (doInstall plane chain) s

end Sys2Proof.Machine
end

