-- ==== Sys2Proof/Machine/Vestibule.lean ====
section
/-! DEFINITION. The vestibules (R378 to R390): messages, the register window, doorbells, the mirror and the
aperture. Doorbell 63 and the mailbox stand in Requests.lean. -/

namespace Sys2Proof.Machine

/-! ## Messages -/

/-- A message reaches a port: its mainband is active, or rests in L1 and leaves it (R378). Anything else of the
module's is unchanged when the mainband is down. -/
def onPort (p : Nat) (f : Block → Block) (s : State) : Host.Outcome State Fault Refusal :=
  if 2 ≤ p then .fault .noSuchUnit
  else effect (fun s => if alive s && decide (2 ≤ (port s p).link) then f (vestibuleFlit p (modPort p portWake s)) else s) s

/-! ### Headers (R380) -/

/-- The 16-byte header of a mainband message: `len` is its LEN field, the bytes minus one. -/
structure VHead where
  op : Nat
  space : Nat
  cls : Nat
  tag : Nat
  len : Nat
  addr : Nat
  cst : Nat
  deriving DecidableEq, Repr, Inhabited

/-- The header's 128 bits, and the header that 128 bits hold. -/
def headBits (h : VHead) : Nat :=
  fld h.op 0 8 + fld h.space 0 1 * 2 ^ 8 + fld h.cls 0 2 * 2 ^ 9 + fld h.tag 0 12 * 2 ^ 11 + fld h.len 0 12 * 2 ^ 23 +
    fld h.addr 0 39 * 2 ^ 35 + fld h.cst 0 3 * 2 ^ 74
def headOf (w : Nat) : VHead :=
  { op := fld w 0 8, space := fld w 8 1, cls := fld w 9 2, tag := fld w 11 12, len := fld w 23 12, addr := fld w 35 39, cst := fld w 74 3 }

/-- The header of a message that the module sends: a completion, or an alert of 32 bytes (R390); a sideband message has
none. -/
def sentHead : VMsg → Option VHead
  | .completion tag cst space addr data _ => some { op := 3, space, cls := 0, tag, len := data.length - 1, addr, cst }
  | .alert _ _ _ _ _ => some { op := 4, space := 0, cls := 0, tag := 0, len := 31, addr := 0, cst := 0 }
  | .sideband _ => none

/-- Send a completion. -/
def complete (p tag cst space addr : Nat) (data : Bytes) (mask : List Bool) (s : Block) : Block :=
  modPort p (fun v => { v with out := v.out ++ [.completion tag cst space addr data mask] }) s

/-- The poison mask of `n` bytes without poison: one bit for each 32. -/
def cleanMask (n : Nat) : List Bool := List.replicate (ceilDiv n 32) false

/-! ## Window registers (R383, R384, R388) -/

/-- The value of a mirror slot, and its directory entry. For 2 µs after a change the slot shows the value before it
(R30). -/
def mirrorValue (s : Block) (slot : Nat) : Nat := match mirrorKey slot with
  | some k => match s.store.changes.find? (fun c => c.key == k && decide (s.clk.tick < c.tick + mirrorTicks)) with
    | some c => c.old
    | none => readNum s k
  | none => 0
def mirrorEntry (slot : Nat) : Nat := match mirrorKey slot with
  | some k => 2 ^ 31 + k
  | none => 0

/-- The 4-byte word of the window at an offset that is a multiple of 4. -/
def winWord (s : Block) (p off : Nat) : Nat :=
  let v := port s p
  if off = 0x00 then 0x4E340000 + Config.siliconLevel % 256 * 256 + p
  else if off = 0x04 then 0x01000100
  else if off = 0x08 then v.retrains % 65536 * 2 ^ 16 + v.repairs % 256 * 256 + v.mods % 16 * 16 + v.link % 4
  else if off = 0x0C then v.err
  else if off = 0x10 then v.pend
  else if off = 0x14 then v.alertEn
  else if off = 0x18 then v.retryCnt
  else if off = 0x1C then v.poisonCnt
  else if off = 0x20 then v.dbSeen
  else if off = 0x24 then v.mbState % 4 * 2 ^ 30
  else if 0x200 ≤ off ∧ off < 0x2F8 then mapGet 0 v.dbmap ((off - 0x200) / 4)
  else if 0x2000 ≤ off ∧ off < 0x3020 then leNat ((List.range 4).map (fun i => mapGet (0 : Byte) v.request (off - 0x2000 + i)))
  else if 0x4000 ≤ off ∧ off < 0x5020 then leAt v.response (off - 0x4000) 4
  else if 0x8000 ≤ off ∧ off < 0xC000 then fld (mirrorValue s ((off - 0x8000) / 8)) (8 * (off % 8)) 32
  else if 0xC000 ≤ off ∧ off < 0xE000 then mirrorEntry ((off - 0xC000) / 4)
  else 0

/-- Areas that take an access of any length that starts at a multiple of 4 (log 59). -/
def winArea (off : Nat) : Bool :=
  (decide (0x2000 ≤ off) && decide (off < 0x3020)) || (decide (0x4000 ≤ off) && decide (off < 0x5020)) ||
    (decide (0xC000 ≤ off) && decide (off < 0xE000))

/-- A window access has a form that R383 allows. -/
def winOk (off len : Nat) : Bool :=
  decide (off + len ≤ 65536) &&
    (((len == 4 || len == 8) && off % len == 0) || (winArea off && decide (1 ≤ len) && decide (len ≤ 4096) && off % 4 == 0))

/-- The counters that a read of their word clears. -/
def winClear (off : Nat) (v : Vport) : Vport :=
  if off = 0x18 then { v with retryCnt := 0 } else if off = 0x1C then { v with poisonCnt := 0 } else v

/-- A window read. -/
def winRead (p tag off len : Nat) (s : Block) : Block :=
  if !(winOk off len) then complete p tag 1 0 off (zeros len) (cleanMask len) (vstErr p 6 s)
  else
    let ws := (List.range (ceilDiv len 4)).map (fun i => off + 4 * i)
    let d := (ws.flatMap (fun o => leBytes 4 (winWord s p o))).take len
    complete p tag 0 0 off d (cleanMask len) (modPort p (fun v => ws.foldl (fun v o => winClear o v) v) s)

/-- A message by its OP: a read of the window is performed, writes come by their own commands, completions and alerts are
the module's to send, and any other code is discarded with BAD_MSG (R380). -/
def takeHead (p : Nat) (h : VHead) (s : Block) : Block :=
  if h.op = 1 then winRead p h.tag h.addr (h.len + 1) s
  else if 2 ≤ h.op ∧ h.op ≤ 4 then s
  else vstErr p 6 s

/-- VESTIBULE_READ: a message with no data on the window. A length above 4,096 is none of a message's. -/
def doVread (p : Nat) (m : VmsgF) (off len : Nat) (s : Block) : Block :=
  if len = 0 ∨ 4096 < len then s else takeHead p { op := m.op, space := 0, cls := 0, tag := m.tag, len := len - 1, addr := off, cst := 0 } s
def execVestibuleRead (port : Nat) (m : VmsgF) (addr len : Nat) (s : State) : Host.Outcome State Fault Refusal :=
  onPort port (doVread port m addr len) s

/-- Reads of the two counters that clear. -/
def execVstRetryCntRead (port tag : Nat) (s : State) : Host.Outcome State Fault Refusal := onPort port (winRead port tag 0x18 4) s
def execVstPoisonCntRead (port tag : Nat) (s : State) : Host.Outcome State Fault Refusal := onPort port (winRead port tag 0x1C 4) s

/-! ## Doorbells (R385 to R387) -/

/-- A ring is counted. -/
def countRing (p : Nat) (s : Block) : Block := modPort p (fun v => { v with dbSeen := (v.dbSeen + 1) % 2 ^ 32 }) s

/-- A ring of a program doorbell. -/
def ringProgram (p n v : Nat) (s : Block) : Block :=
  let m := mapGet 0 (port s p).dbmap n
  let k := v % 65536
  let s :=
    if !(bit m 31) ∨ k = 0 then vstErr p 4 s
    else match physOf s (min (fld m 8 6) 47) with
      | some g => tokAdd g (fld m 0 8) k s
      | none => s
  countRing p s

/-- An ARED of the CID has passed the phase of a doorbell, or has ended. -/
def bellPassed (s : Block) (cid phase : Nat) : Bool :=
  let live := s.colls.colls.filter (fun c => c.cid == cid && c.op == 12)
  live.any (fun c => if phase = 1 then c.anchorSet || decide (2 ≤ c.phase) else decide (4 ≤ c.phase)) ||
    (live.isEmpty && s.colls.doneReds.contains cid)

/-- A ring of the collective doorbell. -/
def ringColl (p v : Nat) (s : Block) : Block :=
  let cid := fld v 0 10
  let phase := fld v 10 2
  let att := fld v 12 8
  let b := (cid, phase, att)
  let s :=
    if phase = 0 ∨ phase = 3 ∨ att ≠ s.bnd.attempt % 256 then vstErr p 3 s
    else if s.colls.heldBells.any (fun e => e.1 == b) ∨ s.colls.doneBells.contains b then s
    else if bellPassed s cid phase then vstErr p 3 s
    else collsGo { s with colls := { s.colls with heldBells := s.colls.heldBells ++ [(b, p)] } }
  countRing p s

/-- PROGRAM_DOORBELL: doorbells 0 to 61. -/
def doRing (p n v : Nat) (s : Block) : Block := if n < 62 then ringProgram p n v s else s
def execProgramDoorbell (port n value : Nat) (s : State) : Host.Outcome State Fault Refusal := onPort port (doRing port n value) s

/-- Doorbell 62 with phase 1 and with phase 2. -/
def execCollectiveDoorbellAnchor (port value : Nat) (s : State) : Host.Outcome State Fault Refusal :=
  onPort port (ringColl port (setFld value 10 2 1)) s
def execCollectiveDoorbellSums (port value : Nat) (s : State) : Host.Outcome State Fault Refusal :=
  onPort port (ringColl port (setFld value 10 2 2)) s

/-! ## Window writes -/

/-- Write one word of the window, or the first `n` bytes of one of the request buffer. `mb` performs a ring of
doorbell 63. -/
def winPut (mb : Nat → Nat → Block → Block) (p off n v : Nat) (s : Block) : Block :=
  if off = 0x0C then modPort p (fun q => { q with err := q.err - (q.err &&& v) }) s
  else if off = 0x10 then modPort p (fun q => { q with pend := q.pend - (q.pend &&& v) }) s
  else if off = 0x14 then modPort p (fun q => { q with alertEn := v }) s
  else if 0x100 ≤ off ∧ off < 0x1F8 then ringProgram p ((off - 0x100) / 4) v s
  else if off = 0x1F8 then ringColl p v s
  else if off = 0x1FC then mb p v s
  else if 0x200 ≤ off ∧ off < 0x2F8 then
    modPort p (fun q => { q with dbmap := mapSet 0 q.dbmap ((off - 0x200) / 4) (v &&& 0x80003FFF) }) s
  else if 0x2000 ≤ off ∧ off < 0x3020 then
    modPort p (fun q => { q with request := (List.range n).foldl (fun m i => mapSet (0 : Byte) m (off - 0x2000 + i) (BitVec.ofNat 8 (fld v (8 * i) 8))) q.request }) s
  else if 0x8000 ≤ off ∧ off < 0xE000 then vstErr p 5 s
  else s

/-- A window write, word by word in rising order; another form is ignored with BAD_MSG. -/
def winWrite (mb : Nat → Nat → Block → Block) (p off : Nat) (d : Bytes) (s : Block) : Block :=
  if !(winOk off d.length) then vstErr p 6 s
  else forEach (List.range (ceilDiv d.length 4)) (fun i s => winPut mb p (off + 4 * i) (min 4 (d.length - 4 * i)) (leAt d (4 * i) 4) s) s

/-! ## The aperture (R389) -/

/-- An aperture access of 1 to 4,096 bytes inside one 4 KiB block. -/
def apOk (addr len : Nat) : Bool :=
  decide (1 ≤ len) && decide (len ≤ 4096) && decide (addr < 2 ^ 39) && addr / 4096 == (addr + len - 1) / 4096

/-- Poison of each 32-byte unit of a transfer. -/
def unitMask (d : List (Byte × Bool)) : List Bool := (List.range (ceilDiv d.length 32)).map (fun i => anyPoison ((d.drop (32 * i)).take 32))

/-- A read through the aperture. -/
def apRead (p tag addr len : Nat) (s : Block) : Block :=
  if !(apOk addr len) then complete p tag 1 1 addr (zeros len) (cleanMask len) (vstErr p 6 s)
  else if !(halls s) ∨ bit (num s 0x720100) 7 then complete p tag 2 1 addr (zeros len) (cleanMask len) (vstErr p 1 s)
  else
    let (d, s) := memRead p addr len s
    let m := unitMask d
    let n := (m.filter id).length
    if n = 0 then complete p tag 0 1 addr (plain d) m s
    else
      let secs := (List.range (ceilDiv (addr % 32 + len) 32)).filter (fun i =>
        anyPoison ((d.drop (32 * i - addr % 32)).take (if i = 0 then 32 - addr % 32 else 32)))
      let s := forEach secs (fun i s => cperNow 0 0 0 0xFF 0 (domLoc 10) ((addr / 32 + i) * 32) [] s) s
      let s := vstErr p 0 (modPort p (fun v => { v with poisonCnt := satN 32 (v.poisonCnt + n) }) s)
      complete p tag 3 1 addr (plain d) m s

def execApertureRead (port tag addr len _cls : Nat) (s : State) : Host.Outcome State Fault Refusal :=
  onPort port (if len = 0 ∨ 4096 < len then id else apRead port tag addr len) s

/-- A write through the aperture: the units that the mask marks are written as poison. -/
def apWrite (p addr : Nat) (d : Bytes) (mask : List Bool) (s : Block) : Block :=
  if !(apOk addr d.length) then vstErr p 6 s
  else if !(halls s) ∨ bit (num s 0x720100) 7 then vstErr p 1 s
  else (memWrite p false addr (withPoison d mask 32) s).2

def execApertureWrite (port addr _cls : Nat) (data : Bytes) (mask : List Bool) (s : State) : Host.Outcome State Fault Refusal :=
  onPort port (if data.length = 0 ∨ 4096 < data.length then id else apWrite port addr data mask) s

/-! ## The mainband (R382, R384, R390) -/

/-- VESTIBULE_LINK_DOWN: while the halls run the mainband trains again by itself. -/
def doVlinkDown (p : Nat) (s : Block) : Block := modPort p (portDown (halls s)) s
def execVestibuleLinkDown (port : Nat) (s : State) : Host.Outcome State Fault Refusal :=
  if 2 ≤ port then .fault .noSuchUnit else effect (doVlinkDown port) s

/-- The mainband becomes active on its modules `mods` with `repairs` lanes repaired: a further training counts in RETRAINS,
and held alerts are sent. -/
def portUpNow (mods repairs : Nat) (v : Vport) : Vport :=
  sendHeld { v with link := 2, mods, repairs, everUp := true, retrains := if v.everUp then satN 16 (v.retrains + 1) else v.retrains }

/-- VESTIBULE_LINK_UP: it trains while the halls run. Which modules could be repaired, at least one, and how many lanes
needed it is open (R378, log 98). -/
def doLinkUp (p : Nat) (s : Block) : Block :=
  if halls s && decide ((port s p).link < 2) then
    let (w, s) := fresh s
    modPort p (portUpNow (1 + w % 15) (fld w 8 8)) s
  else s
def execVestibuleLinkUp (port : Nat) (s : State) : Host.Outcome State Fault Refusal :=
  if 2 ≤ port then .fault .noSuchUnit else effect (doLinkUp port) s

end Sys2Proof.Machine
end

