-- ==== Sys2Proof/Machine/Requests.lean ====
section
/-! DEFINITION. The mailbox (R391 to R394, R461): taking a request, the states that refuse it, the processors it
waits for, and performing it; doorbell 63 and window writes; what goes on when a processor runs again or a
power transition ends (R432, R457). -/

namespace Sys2Proof.Machine

/-! ## Requests -/

/-- The request type, port and SEQ of a mailbox command. -/
def reqHead : Instr → Option (Nat × ReqF)
  | .objectRead r _ _ _ _ => some (0x01, r)
  | .objectWrite r _ _ _ _ => some (0x02, r)
  | .digestQuery r => some (0x03, r)
  | .programLoad r _ _ => some (0x10, r)
  | .start r => some (0x11, r)
  | .replayStart r => some (0x11, r)
  | .park r => some (0x12, r)
  | .resume r => some (0x13, r)
  | .save r _ => some (0x14, r)
  | .restore r _ _ => some (0x15, r)
  | .takeoverSlices r _ => some (0x16, r)
  | .takeoverTwin r _ => some (0x16, r)
  | .reMirror r => some (0x17, r)
  | .warmReset r => some (0x20, r)
  | .powerRequestDormant r => some (0x21, r)
  | .powerRequestStandby r => some (0x21, r)
  | .powerRequestReady r => some (0x21, r)
  | .attestationReport r _ => some (0x30, r)
  | .debugToken r _ => some (0x31, r)
  | .firmwareStage r _ _ _ => some (0x40, r)
  | .firmwareActivate r => some (0x40, r)
  | .firmwareAbandon r => some (0x40, r)
  | _ => none

/-- The status that a request is refused with in the present power and lifecycle state (R461, R445). -/
def gate (typ : Nat) (s : Block) : Option Nat :=
  let prov := lifecycle s == 1
  if bit (num s 0x720100) 7 ∧ typ ≠ 1 ∧ typ ≠ 3 then some stState
  else if typ = 0x10 then (if pstate s = 1 then some stState else if prov then some stAccess else none)
  else if typ = 0x11 ∨ typ = 0x13 then (if prov then some stAccess else none)
  else if typ = 0x12 ∨ (0x14 ≤ typ ∧ typ ≤ 0x17) then (if pstate s = 1 then some stState else if prov then some stAccess else none)
  else if typ = 0x40 then (if pstate s = 1 then some stState else none)
  else none

/-- Refuse a request. A refused load reads 0x06 in 0x6030.01 (R461). -/
def refuseReq (typ : Nat) (r : ReqF) (status : Nat) (s : Block) : Block :=
  respond r typ status [] (if typ = 0x10 then setNum 0x603001 6 s else s)

/-- Processors that a request needs; while one of them restarts the request waits (R432). -/
def reqNeeds (typ : Nat) : List Nat :=
  if typ = 0x10 then [0, 2] else if 0x11 ≤ typ ∧ typ ≤ 0x17 then [2] else if typ = 0x30 ∨ typ = 0x31 ∨ typ = 0x40 then [0]
  else if typ = 0x21 then [1] else []

/-- A mailbox request that was taken before waits: requests of the two ports are performed in the order in which they were
taken (R392). -/
def mailboxWaits (s : Block) : Bool := s.fw.waiting.any (fun i => match reqHead i with
  | some (_, r) => decide (r.port < 2)
  | none => false)

/-- A request waits: for a processor, the power core too where it leaves Standby; a debug token for the end of a transition
(R458); every one behind an earlier one that waits. -/
def reqWaits (typ : Nat) (s : Block) : Bool :=
  (reqNeeds typ).any (fun n => !(procRuns s n)) || (typ == 0x31 && s.pwr.trans.isSome) ||
    ((typ == 0x11 || typ == 0x13) && pstate s == 1 && !(procRuns s 1)) || (mailboxWaits s || !s.fw.reports.isEmpty)

/-- Hold a request. Of an attestation request the values of its report are taken now (R450). -/
def holdRequest (i : Instr) (s : Block) : Block :=
  match i with
  | .attestationReport r n =>
    if n.length = 64 ∧ !(procRuns s 0) then { s with fw := { s.fw with reports := s.fw.reports ++ [(r, reportHead s n)] } } else holdReq i s
  | _ => holdReq i s

/-! ## Performing -/

/-- An object read. -/
def doObjRead (r : ReqF) (index sub offset count : Nat) (s : Block) : Block :=
  let (st, d) := objRead s (index * 256 + sub) offset count
  respond r 0x01 st d s

/-- An object write from the host plane. -/
def doObjWrite (r : ReqF) (index sub offset : Nat) (data : Bytes) (s : Block) : Block :=
  let (st, s) := objWrite .host (index * 256 + sub) offset data s
  respond r 0x02 st [] s

/-- The values of 0x1F00.01 to 0x1F00.04. -/
def digestObject (s : Block) : Bytes := digestForce s ++ leBytes 4 (epochNo s) ++ digestStaged s ++ leBytes 2 (readNum s 0x1F0004)

/-- A start or resume in Standby, or while Standby is entered, leaves it first (R457); during an entry to Dormant it is
refused; otherwise it is performed at once. -/
def fromStandby (i : Instr) (typ : Nat) (r : ReqF) (f : Block → Block) (s : Block) : Block :=
  let wait := fun (s : Block) => { s with pwr := { s.pwr with startAfter := some i } }
  match s.pwr.trans with
  | none => if pstate s = 1 then wait (powerGo 2 (0, 0) s) else f s
  | some (_, 0) => refuseState typ r s
  | some _ => if s.pwr.startAfter.isNone then wait s else refuseState typ r s

/-- A power-state request (R458, R459). One that is refused writes 1 to 0x6073 too (R393, log 94). -/
def doPower (r : ReqF) (target : Nat) (s : Block) : Block :=
  if powerMay target s then powerGo target (r.port, r.seq + 1) (respond r 0x21 stAccepted [] s)
  else refuseState 0x21 r (setResult 1 s)

/-- An attestation report. -/
def doAttest (r : ReqF) (nonce : Bytes) (s : Block) : Block :=
  if nonce.length = 64 then respond r 0x30 stOk (attest s nonce) s else respond r 0x30 stLength [] s

/-- A debug token. -/
def doToken (r : ReqF) (tok : Bytes) (s : Block) : Block :=
  let (ok, s) := useToken tok s
  respond r 0x31 (if ok then stOk else stFailed) [] s

/-- A warm reset, answered before it. -/
def doWarm (r : ReqF) (s : Block) : Block := warmReset (respond r 0x20 stOk [] s)

/-- Perform a request that nothing refuses. -/
def performReq (i : Instr) (s : Block) : Block :=
  match i with
  | .objectRead r a b o n => doObjRead r a b o n s
  | .objectWrite r a b o d => doObjWrite r a b o d s
  | .digestQuery r => respond r 0x03 stOk (digestObject s) s
  | .programLoad r a n => doLoad r a n s
  | .start r => fromStandby i 0x11 r (doStart r) s
  | .replayStart r => fromStandby i 0x11 r (doReplay r) s
  | .park r => doPark r s
  | .resume r => fromStandby i 0x13 r (doResume r) s
  | .save r a => doSave r a s
  | .restore r a f => doRestore r a f s
  | .takeoverSlices r k => doTakeSlices r k s
  | .takeoverTwin r k => doTakeTwin r k s
  | .reMirror r => doReMirror r s
  | .warmReset r => doWarm r s
  | .powerRequestDormant r => doPower r 0 s
  | .powerRequestStandby r => doPower r 1 s
  | .powerRequestReady r => doPower r 2 s
  | .attestationReport r n => doAttest r n s
  | .debugToken r t => doToken r t s
  | .firmwareStage r k a n => doStage r k a n s
  | .firmwareActivate r => doActivate r s
  | .firmwareAbandon r => doAbandon r s
  | _ => s

/-- Perform a request now, refuse it, or let it wait. -/
def serve (i : Instr) (s : Block) : Block :=
  match reqHead i with
  | none => s
  | some (typ, r) =>
    match gate typ s with
    | some st => refuseReq typ r st s
    | none => if reqWaits typ s then holdRequest i s else performReq i s

/-- The mailbox takes a ring of doorbell 63 with a SEQ (R392); `f` reads and performs the request. -/
def ringMailbox (p seq typ : Nat) (f : Block → Block) (s : Block) : Block :=
  let seq := seq % 2 ^ 32
  let s := countRing p s
  let v := port s p
  match v.service with
  | some (q, _) => if q = seq then s else vstErr p 2 s
  | none =>
    if v.heldSeq = seq + 1 then alert 9 (seq + leAt v.response 12 2 * 2 ^ 32) s
    else f (modPort p (fun v => { v with service := some (seq, typ), mbState := 1 }) s)

/-- A request command: the request is in the buffer and its ring arrives. -/
def mailboxIn (i : Instr) (s : State) : Host.Outcome State Fault Refusal :=
  match reqHead i with
  | none => effect id s
  | some (typ, r) => onPort r.port (ringMailbox r.port r.seq typ (serve i)) s

/-! ## The request buffer (R391, R393, R437) -/

/-- The command that a request's type and payload spell, or the status that answers it. -/
def parseReq (typ : Nat) (r : ReqF) (d : Bytes) : Nat ⊕ Instr :=
  let need := fun (n : Nat) (i : Instr) => if d.length = n then (Sum.inr i : Nat ⊕ Instr) else Sum.inl stLength
  match typ with
  | 0x01 => need 12 (.objectRead r (leAt d 0 2) (leAt d 2 1) (leAt d 4 4) (leAt d 8 4))
  | 0x02 => if d.length < 8 then .inl stLength else .inr (.objectWrite r (leAt d 0 2) (leAt d 2 1) (leAt d 4 4) (d.drop 8))
  | 0x03 => need 0 (.digestQuery r)
  | 0x10 => need 12 (.programLoad r (leAt d 0 8) (leAt d 8 4))
  | 0x11 => need 4 (if bit (leAt d 0 4) 0 then .replayStart r else .start r)
  | 0x12 => need 0 (.park r)
  | 0x13 => need 0 (.resume r)
  | 0x14 => need 8 (.save r (leAt d 0 8))
  | 0x15 => need 12 (.restore r (leAt d 0 8) (leAt d 8 4))
  | 0x16 =>
    if d.length ≠ 2 ∨ 1 < leAt d 1 1 then .inl stLength
    else .inr (if leAt d 1 1 = 0 then .takeoverSlices r (leAt d 0 1) else .takeoverTwin r (leAt d 0 1))
  | 0x17 => need 0 (.reMirror r)
  | 0x20 => need 0 (.warmReset r)
  | 0x21 =>
    if d.length ≠ 1 ∨ 2 < leAt d 0 1 then .inl stLength
    else .inr (if leAt d 0 1 = 0 then .powerRequestDormant r else if leAt d 0 1 = 1 then .powerRequestStandby r else .powerRequestReady r)
  | 0x30 => need 64 (.attestationReport r d)
  | 0x31 => .inr (.debugToken r d)
  | 0x40 =>
    let op := leAt d 0 1
    if op = 1 then need 16 (.firmwareStage r (leAt d 1 1) (leAt d 4 8) (leAt d 12 4))
    else if d.length < 2 ∨ leAt d 1 1 ≠ 0xFF then .inl stLength
    else if op = 2 then .inr (.firmwareActivate r)
    else if op = 3 then .inr (.firmwareAbandon r)
    else .inl stLength
  | _ => .inl stType

/-- Perform what the request buffer of a port holds. -/
def serveBuffer (p seq : Nat) (s : Block) : Block :=
  let b := (List.range 0x1020).map (fun i => mapGet (0 : Byte) (port s p).request i)
  let typ := leAt b 2 2
  let len := leAt b 8 4
  let r : ReqF := { port := p, seq }
  if leAt b 0 1 ≠ 1 then respond r typ stVersion [] s
  else if 4096 < len then respond r typ stLength [] s
  else match parseReq typ r (slice b 32 len) with
    | .inl st => respond r typ st [] s
    | .inr i => serve i s

/-- Doorbell 63. -/
def ringBuffer (p v : Nat) (s : Block) : Block :=
  let typ := leNat ((List.range 2).map (fun i => mapGet (0 : Byte) (port s p).request (2 + i)))
  ringMailbox p v typ (serveBuffer p (v % 2 ^ 32)) s

/-- WINDOW_REGISTER_WRITE: any window write of 1 to 4,096 bytes. -/
def doWindowWrite (p off : Nat) (d : Bytes) (s : Block) : Block :=
  if d.length = 0 ∨ 4096 < d.length then s else winWrite ringBuffer p off d s
def execWindowRegisterWrite (port addr : Nat) (data : Bytes) (s : State) : Host.Outcome State Fault Refusal :=
  onPort port (doWindowWrite port addr data) s

/-! ## What waited -/

/-- Perform a held command. -/
def redo (i : Instr) (s : Block) : Block :=
  match i with
  | .ownerEnrolment r => doEnrol r s
  | .lifecycleToReturned r => doLifecycle i r s
  | .lifecycleToProvisioned r => doLifecycle i r s
  | .tapToken t => doTapToken t s
  | .clearFloorMap _ _ => onFlash i clearFloor s
  | .generateIdentityKey _ _ => onFlash i generateKey s
  | .installCertificateChain _ c => onFlash i (installChain c) s
  | .wakeN t => doWake t s
  | .powerRequestDormant r => if r.port < 2 then serve i s else powerWrite 0 s
  | .powerRequestStandby r => if r.port < 2 then serve i s else powerWrite 1 s
  | .powerRequestReady r => if r.port < 2 then serve i s else powerWrite 2 s
  | _ => serve i s

/-- Perform what waited for an entry to Dormant to end: token and lifecycle requests, whose effect needs no port (R458). -/
def redoDark (i : Instr) (s : Block) : Block :=
  match i with
  | .ownerEnrolment r => enrol r s
  | .lifecycleToReturned r => lifeRequest r s
  | .lifecycleToProvisioned r => lifeRequest r s
  | .tapToken t => tapToken t s
  | .debugToken _ t => (useToken t s).2
  | _ => s

/-- Perform what waited; what must wait on is held again. -/
def redoAll (s : Block) : Block :=
  let l := s.fw.waiting
  forEach l redo { s with fw := { s.fw with waiting := [] } }

/-- A start or resume that the scheduler core's restart cut short is answered INTERRUPTED (R392). -/
def interruptReq (s : Block) : Block :=
  match s.bnd.req with
  | some (typ, r) => respond r typ stInterrupted [] { s with bnd := { s.bnd with req := none } }
  | none => s

/-- The reports taken while the security core restarted are signed and answered (R450). -/
def answerReports (s : Block) : Block :=
  forEach s.fw.reports (fun e s => respond e.1 0x30 stOk (sealReport s e.2) s) { s with fw := { s.fw with reports := [] } }

/-- What waited for a processor goes on, the reports of the security core first. -/
def goesOnFor (n : Nat) (s : Block) : Block := redoAll (if n = 0 then answerReports s else s)

/-- A processor runs again after its restart. -/
def afterRestart (n : Nat) (s : Block) : Block := goesOnFor n (restartOk n (if n = 2 then interruptReq s else s))

/-- PROCESSOR_RESTART_DONE (R432): the processor runs again, or failed to; a failing restart test may be an
injection of detector 0x17. -/
def doRestartDone (n : Nat) (ok : Bool) (s : Block) : Block :=
  if !(procRestarts s n) then s
  else
    let (hit, s) := if 3 ≤ n then inject 0x17 (locOf 3 (n - 3) 0 0 0 0) s else (false, s)
    if !ok || hit then restartFails n (ok && hit) s
    else afterRestart n s

/-- ACTIVATION_NEXT_RESTART (R439): the processor at the head of the order has restarted on the staged set, or
failed to, which reverts the activation. -/
def doActivationNext (ok : Bool) (s : Block) : Block :=
  match s.fw.order with
  | [] => s
  | n :: _ =>
    if !(s.fw.activating && procRestarts s n && (proc s n).staged) then s
    else if ok then afterRestart n s else revertActivation s
def execActivationNextRestart (ok : Bool) (s : State) : Host.Outcome State Fault Refusal := effect (doActivationNext ok) s

def execProcessorRestartDone (n : Nat) (ok : Bool) (s : State) : Host.Outcome State Fault Refusal := onProc n (doRestartDone n ok) s

/-! ## The end of a power transition (R457, R458) -/

/-- Ready is reached from Standby: the mainbands leave L1, what waited to start starts, and an emergency found
meanwhile causes its step. -/
def leaveStandby (s : Block) : Block :=
  let s := railsTo 6 { s with portA := portWake s.portA, portB := portWake s.portB }
  let s := commitIdle (endTrans 0 (setPstate 2 s))
  let s := if emergencies s ≠ 0 then stepDown false s else s
  match s.pwr.startAfter with
  | some i => serve i { s with pwr := { s.pwr with startAfter := none } }
  | none => s

/-- Ready is reached from Dormant, by a boot from step 1 of R431; a request to Standby goes on. -/
def wakeDone (s : Block) : Block :=
  let (ok, s) := if wakeOk s then bootFromRom s else (false, s)
  let after := s.pwr.standbyAfter
  let s := { s with pwr := { s.pwr with standbyAfter := false } }
  if !ok then endTrans 1 s
  else if after then { s with pwr := { s.pwr with trans := some (2, 1) } }
  else endTrans 0 s

/-- Dormant is reached; a wake that came meanwhile follows. -/
def sleepDone (s : Block) : Block :=
  let again := s.pwr.wakeAfter
  let l := s.fw.waiting
  let s := forEach l redoDark (endTrans 0 (enterDormant { s with pwr := { s.pwr with wakeAfter := false } }))
  if again && wakeOk s then powerGo 2 (0, 0) s else s

/-- Standby is reached; a start or resume that came meanwhile leaves it again (R457). -/
def restDone (s : Block) : Block :=
  let s := endTrans 0 (enterStandby s)
  if s.pwr.startAfter.isSome then powerGo 2 (0, 0) s else s

/-- POWER_TRANSITION_DONE: it waits for a power core that restarts (R432). -/
def doTransDone (s : Block) : Block :=
  match s.pwr.trans with
  | none => s
  | some (src, tgt) =>
    if pstate s ≠ 0 ∧ !(procRuns s 1) then s
    else if tgt = 0 then sleepDone s
    else redoAll (if tgt = 1 then restDone s else if src = 0 then wakeDone s else leaveStandby s)
def execPowerTransitionDone (s : State) : Host.Outcome State Fault Refusal := effect doTransDone s

/-! ## One command for each request -/

def execObjectRead (r : ReqF) (index sub offset count : Nat) (s : State) : Host.Outcome State Fault Refusal :=
  mailboxIn (.objectRead r index sub offset count) s
def execObjectWrite (r : ReqF) (index sub offset : Nat) (data : Bytes) (s : State) : Host.Outcome State Fault Refusal :=
  mailboxIn (.objectWrite r index sub offset data) s
def execDigestQuery (r : ReqF) (s : State) : Host.Outcome State Fault Refusal := mailboxIn (.digestQuery r) s
def execProgramLoad (r : ReqF) (addr size : Nat) (s : State) : Host.Outcome State Fault Refusal := mailboxIn (.programLoad r addr size) s
def execStart (r : ReqF) (s : State) : Host.Outcome State Fault Refusal := mailboxIn (.start r) s
def execReplayStart (r : ReqF) (s : State) : Host.Outcome State Fault Refusal := mailboxIn (.replayStart r) s
def execPark (r : ReqF) (s : State) : Host.Outcome State Fault Refusal := mailboxIn (.park r) s
def execResume (r : ReqF) (s : State) : Host.Outcome State Fault Refusal := mailboxIn (.resume r) s
def execSave (r : ReqF) (addr : Nat) (s : State) : Host.Outcome State Fault Refusal := mailboxIn (.save r addr) s
def execRestore (r : ReqF) (addr flags : Nat) (s : State) : Host.Outcome State Fault Refusal := mailboxIn (.restore r addr flags) s
def execTakeoverSlices (r : ReqF) (rank : Nat) (s : State) : Host.Outcome State Fault Refusal := mailboxIn (.takeoverSlices r rank) s
def execTakeoverTwin (r : ReqF) (rank : Nat) (s : State) : Host.Outcome State Fault Refusal := mailboxIn (.takeoverTwin r rank) s
def execReMirror (r : ReqF) (s : State) : Host.Outcome State Fault Refusal := mailboxIn (.reMirror r) s

/-- WARM_RESET: with the mainband down or in L1 it is the sideband's request, which has no response (R379). -/
def execWarmReset (r : ReqF) (s : State) : Host.Outcome State Fault Refusal :=
  if 2 ≤ r.port then .fault .noSuchUnit
  else if (port s.toBlock r.port).link ≠ 2 then effect (fun s => if alive s && decide (pstate s ≠ 0) then warmReset s else s) s
  else mailboxIn (.warmReset r) s

def execPowerRequestDormant (r : ReqF) (s : State) : Host.Outcome State Fault Refusal := mailboxIn (.powerRequestDormant r) s
def execPowerRequestStandby (r : ReqF) (s : State) : Host.Outcome State Fault Refusal := mailboxIn (.powerRequestStandby r) s
def execPowerRequestReady (r : ReqF) (s : State) : Host.Outcome State Fault Refusal := mailboxIn (.powerRequestReady r) s
def execAttestationReport (r : ReqF) (nonce : Bytes) (s : State) : Host.Outcome State Fault Refusal :=
  mailboxIn (.attestationReport r nonce) s
def execDebugToken (r : ReqF) (tok : Bytes) (s : State) : Host.Outcome State Fault Refusal := mailboxIn (.debugToken r tok) s
def execFirmwareStage (r : ReqF) (kind addr size : Nat) (s : State) : Host.Outcome State Fault Refusal :=
  mailboxIn (.firmwareStage r kind addr size) s
def execFirmwareActivate (r : ReqF) (s : State) : Host.Outcome State Fault Refusal := mailboxIn (.firmwareActivate r) s
def execFirmwareAbandon (r : ReqF) (s : State) : Host.Outcome State Fault Refusal := mailboxIn (.firmwareAbandon r) s

end Sys2Proof.Machine
end

