-- ==== Sys2Proof/Machine/Debug.lean ====
section
/-! DEFINITION. The debug access port (R452 to R455): the TAP's instructions, the debug space and the halting of
firmware processors. -/

namespace Sys2Proof.Machine

/-! ## The TAP (R454) -/

/-- An instruction with its data register as it stands after the shift, and what it shifted out. -/
def tapShift (ir : Nat) (dr out : Bytes) (s : Block) : Block :=
  { s with sec := { s.sec with tapIr := ir, tapDr := dr, tapOut := out } }

/-- The port works while the module is out of reset. -/
def onTap (f : Block → Block) (s : Block) : Block := if alive s then f s else s

/-- An instruction that is not allowed at the present level acts as BYPASS; in Dormant only the portico is
reachable (R460). `dr` is what was shifted in: the bypass register keeps its last bit. -/
def asBypass (last : Nat) (s : Block) : Block := tapShift 0xFF (leBytes 1 (last % 2)) (zeros 1) s
def tapAt (level last : Nat) (f : Block → Block) (s : Block) : Block :=
  onTap (fun s => if pstate s = 0 ∨ debugLevel s < level then asBypass last s else f s) s

/-- The last bit shifted in of a byte string: its most significant one. -/
def lastBit (d : Bytes) : Nat := fld (leAt d (d.length - 1) 1) 7 1

/-- BYPASS. -/
def doBypass (b : Bool) (s : Block) : Block := onTap (asBypass (b2n b)) s
def execBypass (bit : Bool) (s : State) : Host.Outcome State Fault Refusal := effect (doBypass bit) s

/-- IDCODE. -/
def idCode : Nat := Config.siliconLevel % 16 * 2 ^ 28 + 0x4E34 * 2 ^ 12 + 1
def doIdcode (s : Block) : Block := onTap (tapShift 0x01 (leBytes 4 idCode) (leBytes 4 idCode)) s
def execIdcode (s : State) : Host.Outcome State Fault Refusal := effect doIdcode s

/-- EXTEST and SAMPLE/PRELOAD: the bits of the chain are free (log 11). -/
def boundary (ir : Nat) (d : Bytes) (s : Block) : Block :=
  tapShift ir d (slice (Config.boundaryScan s.freeCtr) 0 d.length) { s with freeCtr := s.freeCtr + 1 }
def doExtest (d : Bytes) (s : Block) : Block := tapAt 2 (lastBit d) (boundary 0x00 d) s
def doSample (d : Bytes) (s : Block) : Block := tapAt 2 (lastBit d) (boundary 0x02 d) s
def execExtest (shiftIn : Bytes) (s : State) : Host.Outcome State Fault Refusal := effect (doExtest shiftIn) s
def execSamplePreload (shiftIn : Bytes) (s : State) : Host.Outcome State Fault Refusal := effect (doSample shiftIn) s

/-! ## Objects through the TAP (R391, R398, R454) -/

/-- The answer of an object request: status and payload. -/
def debugServe (i : Instr) (s : Block) : Nat × Bytes × Block :=
  match i with
  | .objectRead _ index sub offset count =>
    if debugReach s index then
      let (st, d) := objRead s (index * 256 + sub) offset count
      (st, d, s)
    else (stAccess, [], s)
  | .objectWrite _ index sub offset data =>
    match gate 2 s with
    | some st => (st, [], s)
    | none =>
      let (st, s) := objWrite .debug (index * 256 + sub) offset data s
      (st, [], s)
  | .digestQuery _ => (stOk, digestObject s, s)
  | _ => (stType, [], s)

/-- DBGOBJ: a mailbox request of type 1 to 3 with its header; the response is shifted out. -/
def dbgObj (b : Bytes) (s : Block) : Block :=
  let typ := leAt b 2 2
  let seq := leAt b 4 4
  let len := leAt b 8 4
  let r : ReqF := { port := 0, seq }
  let (st, d, s) :=
    if leAt b 0 1 ≠ 1 then (stVersion, [], s)
    else if typ = 0 ∨ 3 < typ then (stType, [], s)
    else if 4096 < len ∨ b.length < 32 + len then (stLength, [], s)
    else match parseReq typ r (slice b 32 len) with
      | .inl st => (st, [], s)
      | .inr i => debugServe i s
  tapShift 0x10 b (respHeader typ seq d.length st (stepNo s) ++ d) s
def doDbgobj (b : Bytes) (s : Block) : Block := tapAt 0 (lastBit b) (dbgObj b) s
def execDbgobj (req : Bytes) (s : State) : Host.Outcome State Fault Refusal := effect (doDbgobj req) s

/-- TOKEN. -/
def doTapTok (t : Bytes) (s : Block) : Block := tapAt 0 (lastBit t) (doTapToken t) s
def execTapToken (tok : Bytes) (s : State) : Host.Outcome State Fault Refusal := effect (doTapTok tok) s

/-! ## The debug space (R455) -/

/-- A debug address: gallery, region, array key and byte offset. -/
structure DbgAddr where
  gal : Nat
  region : Nat
  arr : Nat
  off : Nat
  deriving DecidableEq, Repr, Inhabited

/-- The size of a region in bytes: 0 where there is none. -/
def regionSize (r : Nat) : Nat := nth [0x2000, 0x100, 0x400, 0x10000, 0x800000, 0x400, 0x800, 0x100] r 0

/-- The parts of a listed and aligned address; none elsewhere. -/
def dbgAddr (a : Nat) : Option DbgAddr :=
  let gal := fld a 42 6
  let region := fld a 38 4
  let off := fld a 0 27
  let phys := fld a 27 8
  if 50 ≤ gal ∨ regionSize region ≤ off ∨ off % 8 ≠ 0 ∨ (region < 3 ∧ 132 ≤ phys) then none
  else some { gal, region, arr := (gal * 8 + fld a 35 3) * 132 + phys, off }

/-- Token counter `off / 4` and the next, tile elements, flag bytes and so on: the eight bytes at an address. An
undefined landing byte takes the byte of a free value (R112). -/
def dbgBytes (s : Block) (free : Nat) (a : DbgAddr) : Bytes :=
  let at' := fun (i : Nat) => a.off + i
  let frees := leBytes 8 free
  match a.region with
  | 0 => (List.range 8).map (fun i => (valueByte s a.arr (at' i)).getD (nth frees i 0))
  | 1 => slice (leBytes 4 (unitWord s a.arr (a.off / 4)) ++ leBytes 4 (unitWord s a.arr (a.off / 4 + 1))) 0 8
  | 2 => (List.range 8).map (fun i =>
      let (v, ok) := markByte s a.arr (at' i)
      if ok then BitVec.ofNat 8 v else BitVec.ofNat 8 (v + (nth frees i 0).toNat % 8))
  | 3 =>
    let t := treg s a.gal (a.off / 1024)
    let l := a.off % 1024 / 4
    leBytes 4 ((nth t l default).bits).toNat ++ leBytes 4 ((nth t (l + 1) default).bits).toNat
  | 4 => plain (mezzRead s a.gal a.off 8)
  | 5 => leBytes 4 (tokVal s a.gal (a.off / 4)) ++ leBytes 4 (tokVal s a.gal (a.off / 4 + 1))
  | 6 => (List.range 8).map (fun i =>
      BitVec.ofNat 8 (nth (laneFlags s a.gal (at' i / 1024) (at' i / 256 % 4)) (at' i % 256) 0))
  | 7 => slice (leBytes 32 (maskReg s a.gal (a.off / 32))) (a.off % 32) 8
  | _ => zeros 8

/-- A read of the debug space: zero in Standby and at an unlisted address. -/
def dbgRead (addr : Nat) (s : Block) : Block :=
  if pstate s < 2 then tapShift 0x11 (leBytes 8 (addr % 2 ^ 48)) (zeros 8) s
  else
    match dbgAddr addr with
    | none => tapShift 0x11 (leBytes 8 (addr % 2 ^ 48)) (zeros 8) s
    | some a =>
      let (w, s) := if a.region = 0 ∨ a.region = 2 then fresh s else (0, s)
      tapShift 0x11 (leBytes 8 (addr % 2 ^ 48)) (dbgBytes s w a) s

/-- A token counter takes a value: its recorded increments are in it. -/
def setToken (g ctr v : Nat) (s : Block) : Block :=
  { s with tok := { s.tok with
      vals := mapSet 0 s.tok.vals (tokKey g ctr) (v % 2 ^ 32)
      incoming := s.tok.incoming.filter (fun i => i.key != tokKey g ctr) } }

/-- Replace an element of a tile register; its poison is cleared. -/
def setTileElem (g r l v : Nat) (s : Block) : Block :=
  setTreg g r (setNth (treg s g r) l { bits := BitVec.ofNat 32 v, poison := false }) s

/-- A write to eight bytes of a lane flag bank: a 1 clears its flag, a 0 has no effect (R169). -/
def setFlagBytes (g off : Nat) (d : Bytes) (s : Block) : Block :=
  let k := (g * 2 + off / 1024) * 4 + off / 256 % 4
  let fl := laneFlags s g (off / 1024) (off / 256 % 4)
  let new := (List.range 8).foldl (fun m i => setNth m (off % 256 + i) (nth m (off % 256 + i) 0 &&& (255 - (nth d i 0).toNat))) fl
  { s with vec := { s.vec with flags := mapSet flagZero s.vec.flags k new } }

/-- Replace eight bytes of a mask register, which then carries no mask-poison. -/
def setMaskBytes (g off : Nat) (d : Bytes) (s : Block) : Block :=
  let k := off / 32
  let s := setMask g k (leNat (splice (leBytes 32 (maskReg s g k)) (off % 32) d)) s
  if k = 0 then s else { s with vec := { s.vec with maskPoison := setDel s.vec.maskPoison (g * 8 + k) } }

/-- Eight bytes written to the debug space: regions 3 to 7. -/
def dbgPut (a : DbgAddr) (data : Nat) (s : Block) : Block :=
  let d := leBytes 8 data
  match a.region with
  | 3 =>
    let r := a.off / 1024
    let l := a.off % 1024 / 4
    setTileElem a.gal r (l + 1) (fld data 32 32) (setTileElem a.gal r l (fld data 0 32) s)
  | 4 => { s with mezz := mezzPuts a.gal a.off (d.map (fun b => (b, false))) s.mezz }
  | 5 => setToken a.gal (a.off / 4 + 1) (fld data 32 32) (setToken a.gal (a.off / 4) (fld data 0 32) s)
  | 6 => setFlagBytes a.gal a.off d s
  | 7 => setMaskBytes a.gal a.off d s
  | _ => s

/-- A write of the debug space: performed at Open, while the halls run. -/
def dbgWrite (addr data : Nat) (s : Block) : Block :=
  let s := tapShift 0x11 (leBytes 8 (addr % 2 ^ 48) ++ leBytes 8 data) (zeros 8) s
  if pstate s < 2 ∨ debugLevel s < 2 then s
  else match dbgAddr addr with
    | none => s
    | some a => dbgPut a data s

/-- DBGMEM_READ: in Dormant, where the level is always Closed, it reads zero. -/
def doDbgRead (addr : Nat) (s : Block) : Block :=
  if alive s ∧ pstate s = 0 then dbgRead addr s else tapAt 1 0 (dbgRead addr) s
def execDbgmemRead (addr : Nat) (s : State) : Host.Outcome State Fault Refusal := effect (doDbgRead addr) s

/-- DBGMEM_WRITE. -/
def doDbgWrite (addr data : Nat) (s : Block) : Block := tapAt 1 0 (dbgWrite addr data) s
def execDbgmemWrite (addr data : Nat) (s : State) : Host.Outcome State Fault Refusal := effect (doDbgWrite addr data) s

/-! ## Firmware processors at Open (R454) -/

/-- A gallery control core of a fenced gallery is not powered. -/
def coreThere (s : Block) (n : Nat) : Bool := procUp s n && (decide (n < 3) || !(galFenced s (n - 3)))

/-- CORECTL_HALT. -/
def haltProc (n : Nat) (s : Block) : Block :=
  tapShift 0x20 [] [] (if coreThere s n then setProc n { proc s n with halted := true } s else s)
def execCorectlHalt (n : Nat) (s : State) : Host.Outcome State Fault Refusal := onProc n (tapAt 2 0 (haltProc n)) s

/-- CORECTL_STEP: one instruction of the processor's firmware; a halted processor stays halted. -/
def stepProc (_n : Nat) (s : Block) : Block := tapShift 0x20 [] [] s
def execCorectlStep (n : Nat) (s : State) : Host.Outcome State Fault Refusal := onProc n (tapAt 2 0 (stepProc n)) s

/-- CORECTL_RESUME: what waited for the processor goes on. -/
def resumeProc (n : Nat) (s : Block) : Block :=
  let s := tapShift 0x20 [] [] s
  if coreThere s n && (proc s n).halted then
    let s := goesOnFor n (setProc n { proc s n with halted := false } s)
    if n = 2 then boundGo s else s
  else s
def execCorectlResume (n : Nat) (s : State) : Host.Outcome State Fault Refusal := onProc n (tapAt 2 0 (resumeProc n)) s

end Sys2Proof.Machine
end

