-- ==== Sys2Proof/Machine/Portico.lean ====
section
/-! DEFINITION. The portico (R415 to R418, R420): the frames it serves, one at a time, the responses it repeats,
and segmented transfers. -/

namespace Sys2Proof.Machine

/-! ## Frames -/

/-- The services of R416. -/
def svcRead : Nat := 1
def svcWrite : Nat := 2
def svcStart : Nat := 3
def svcSegment : Nat := 4
def svcEnd : Nat := 5
def svcAbort : Nat := 6
def svcDigest : Nat := 8

/-- What serving a frame gives: the status, the flags beside bit 0, XFER and the data. -/
structure Served where
  status : Nat
  flags : Nat
  xfer : Nat
  data : Bytes
  deriving DecidableEq, Repr, Inhabited

def servedStatus (st : Nat) (f : FrameF) : Served := { status := st, flags := 0, xfer := f.xfer, data := [] }

/-- The response frame. -/
def respFrame (svc : Nat) (f : FrameF) (a : Served) : OutFrame :=
  { eth := ethHeader f.src, svc, flags := 1 + a.flags, seq := f.seq, status := a.status, index := f.index, sub := f.sub,
    len := a.data.length, offset := f.offset, xfer := a.xfer, data := a.data }

/-- Send a frame (0x3401.02). -/
def sendFrame (o : OutFrame) (s : Block) : Block :=
  bumpNum 0x340102 32 1 { s with portico := { s.portico with out := s.portico.out ++ [o] } }

/-- The response kept for a source that repeats its last SEQ (R418). -/
def kept (s : Block) (src seq : Nat) : Option OutFrame :=
  (s.portico.last.find? (fun e => e.1 == src && e.2.1 == seq)).map (·.2.2)

/-- Keep the last SEQ and response of each of the last 16 sources, newest first. -/
def keepFrame (src seq : Nat) (o : OutFrame) (s : Block) : Block :=
  let rest := s.portico.last.filter (fun e => e.1 != src)
  { s with portico := { s.portico with last := ((src, seq, o) :: rest).take 16 } }

/-- With COUNTER_FAIL the portico answers only 0x1000, 0x1100 and 0x8010 (R429). -/
def porticoAnswers (s : Block) (index : Nat) : Bool :=
  !(bit (num s 0x801000) 8) || index == 0x1000 || index == 0x1100 || index == 0x8010

/-- Serve a frame: `p` performs its service. -/
def serveFrame (f : FrameF) (p : Block → Served × Block) (s : Block) : Block :=
  match kept s f.src f.seq with
  | some o => sendFrame o s
  | none =>
    if !(porticoAnswers s (if f.svc = svcDigest then 0x1F00 else f.index)) then s
    else
      let (a, s) := if f.ver ≠ 1 then (servedStatus stVersion f, s)
        else if 1024 < f.len then (servedStatus stLength f, s)
        else p s
      let o := respFrame f.svc f a
      sendFrame o (keepFrame f.src f.seq o s)

/-! ## Reads and writes -/

/-- PORTICO_READ. -/
def porticoGet (f : FrameF) (s : Block) : Served × Block :=
  let (st, d) := objRead s (f.index * 256 + f.sub) f.offset f.len
  ({ status := st, flags := 0, xfer := f.xfer, data := d }, s)

/-- PORTICO_WRITE. -/
def porticoPut (f : FrameF) (s : Block) : Served × Block :=
  if f.data.length < f.len then (servedStatus stLength f, s)
  else
    let (st, s) := objWrite .portico (f.index * 256 + f.sub) f.offset (f.data.take f.len) s
    (servedStatus st f, s)

/-- PORTICO_DIGEST_QUERY: 152 bytes. -/
def digestAnswer (s : Block) : Bytes :=
  digestForce s ++ leBytes 4 (epochNo s) ++ digestStaged s ++ leBytes 1 s.arc.slot ++ zeros 3 ++ slice Config.serial 0 16
def porticoDigest (f : FrameF) (s : Block) : Served × Block :=
  ({ status := stOk, flags := 0, xfer := f.xfer, data := digestAnswer s }, s)

/-! ## Segmented transfers (R402, R417) -/

/-- The open transfer that a frame names. -/
def xferOf (s : Block) (f : FrameF) : Option Xfer := s.portico.xfers.find? (fun x => x.id == f.xfer && x.src == f.src)

def putXfer (x : Xfer) (s : Block) : Block :=
  { s with portico := { s.portico with xfers := s.portico.xfers.map (fun y => if y.id = x.id then x else y) } }
def dropXfer (id : Nat) (s : Block) : Block :=
  { s with portico := { s.portico with xfers := s.portico.xfers.filter (fun y => y.id != id) } }

/-- Open a transfer; its number is the next one not 0. -/
def openXfer (x : Xfer) (s : Block) : Block :=
  { s with portico := { s.portico with
      xfers := s.portico.xfers ++ [x]
      nextXfer := if s.portico.nextXfer + 1 < 2 ^ 32 then s.portico.nextXfer + 1 else 1 } }

/-- SEGMENT_START: with four data bytes a download of that total length, with none an upload. An upload of up to
64 KiB reads the copy made here. -/
def porticoStart (f : FrameF) (s : Block) : Served × Block :=
  let key := f.index * 256 + f.sub
  let down := f.len != 0
  if s.portico.xfers.any (fun x => x.src == f.src) ∨ 4 ≤ s.portico.xfers.length then (servedStatus stState f, s)
  else if down ∧ (f.len ≠ 4 ∨ f.data.length < 4) then (servedStatus stLength f, s)
  else
    match objValue s key with
    | none => (servedStatus stNoObject f, s)
    | some v =>
      let id := s.portico.nextXfer
      let total := if down then leAt f.data 0 4 else v.length
      let x : Xfer := { id, src := f.src, index := f.index, sub := f.sub, download := down, total, next := 0,
                        data := if down then [] else v, live := !down && decide (65536 < v.length), dirty := false }
      ({ status := stOk, flags := 0, xfer := id, data := if down then [] else leBytes 4 total }, openXfer x s)

/-- A download's segment. -/
def segmentIn (x : Xfer) (f : FrameF) (s : Block) : Served × Block :=
  if f.offset ≠ x.next ∨ f.data.length < f.len ∨ x.total < x.next + f.len then (servedStatus stLength f, s)
  else (servedStatus stOk f, putXfer { x with next := x.next + f.len, data := x.data ++ f.data.take f.len } s)

/-- An upload's segment: the last one carries the mark, and CHANGED when the object that is read live has changed since
the start: its value was written, or differs at a segment from the one at the start. -/
def segmentOut (x : Xfer) (f : FrameF) (s : Block) : Served × Block :=
  if f.offset ≠ x.next then (servedStatus stLength f, s)
  else
    let v := if x.live then (objValue s (x.index * 256 + x.sub)).getD [] else x.data
    let d := ((v.take x.total).drop x.next).take f.len
    let next := x.next + d.length
    let last := decide (min x.total v.length ≤ next)
    let dirty := x.dirty || v != x.data
    let flags := b2n last * 2 + b2n (last && dirty) * 4
    ({ status := stOk, flags, xfer := x.id, data := d }, putXfer { x with next, dirty } s)

/-- SEGMENT. -/
def porticoSegment (f : FrameF) (s : Block) : Served × Block :=
  match xferOf s f with
  | none => (servedStatus stState f, s)
  | some x => if x.download then segmentIn x f s else segmentOut x f s

/-- SEGMENT_END: the store accepts a complete download as one whole write. -/
def porticoEnd (f : FrameF) (s : Block) : Served × Block :=
  match xferOf s f with
  | none => (servedStatus stState f, s)
  | some x =>
    if !x.download then (servedStatus stOk f, dropXfer x.id s)
    else if x.next ≠ x.total then (servedStatus stLength f, s)
    else
      let (st, s) := objWriteWhole .portico (x.index * 256 + x.sub) x.data (dropXfer x.id s)
      (servedStatus st f, s)

/-- SEGMENT_ABORT. -/
def porticoAbort (f : FrameF) (s : Block) : Served × Block :=
  match xferOf s f with
  | none => (servedStatus stState f, s)
  | some x => (servedStatus stOk f, dropXfer x.id s)

/-! ## The services and the queue (R415, R416, R418) -/

/-- A frame that only an answer of TYPE meets. -/
def porticoType (f : FrameF) (s : Block) : Served × Block := (servedStatus stType f, s)

/-- Serve a request by its SVC. A notify is sent by modules only and has no response (log 96). -/
def serveSvc (f : FrameF) (s : Block) : Block :=
  match f.svc with
  | 1 => serveFrame f (porticoGet f) s
  | 2 => serveFrame f (porticoPut f) s
  | 3 => serveFrame f (porticoStart f) s
  | 4 => serveFrame f (porticoSegment f) s
  | 5 => serveFrame f (porticoEnd f) s
  | 6 => serveFrame f (porticoAbort f) s
  | 7 => s
  | 8 => serveFrame f (porticoDigest f) s
  | _ => serveFrame f (porticoType f) s

/-- Serve what waits, in arrival order. -/
def serveQueue (s : Block) : Block :=
  forEach s.portico.queue serveSvc { s with portico := { s.portico with queue := [] } }

/-- A frame that the module accepts is addressed to it or to everyone, untagged, of its EtherType and whole (R415). -/
def frameGood (f : FrameF) : Bool := f.etherType == 0x88B5 && !f.tagged && f.fcsOk
def frameMine (f : FrameF) : Bool := f.dst == Config.macAddress || f.dst == 2 ^ 48 - 1

/-- Traffic on the segment may show that the coordinator's BEACON is back: no rule says when (log 55). -/
def plcaHear (s : Block) : Block :=
  if s.pwr.plcaOk then s
  else
    let (w, s) := fresh s
    { s with pwr := { s.pwr with plcaOk := bit w 0 } }

/-- Put a request behind those that wait; one that finds the queue full is dropped and counted. -/
def queueFrame (f : FrameF) (s : Block) : Block :=
  if 16 ≤ s.portico.queue.length then bumpNum 0x340103 32 1 s
  else { s with portico := { s.portico with queue := s.portico.queue ++ [f] } }

/-- A frame arrives. `f.waits`: an earlier request is still being served. -/
def arrive (f : FrameF) (s : Block) : Block :=
  if !(alive s) then s
  else if !(frameGood f) then bumpNum 0x340104 32 1 s
  else if !(frameMine f) then s
  else
    let s := bumpNum 0x340101 32 1 (plcaHear s)
    if f.waits then queueFrame f s else serveSvc f (serveQueue s)

/-- A row of the portico brings frames of its own service, or of an SVC that names none. -/
def onSvc (svc : Nat) (f : FrameF) (s : Block) : Block :=
  if f.svc = svc ∨ f.svc = 0 ∨ 7 ≤ f.svc ∧ f.svc ≠ svcDigest then arrive f s else s

def doPorticoRead (f : FrameF) (s : Block) : Block := onSvc svcRead f s
def execPorticoRead (f : FrameF) (s : State) : Host.Outcome State Fault Refusal := effect (doPorticoRead f) s
def doPorticoWrite (f : FrameF) (s : Block) : Block := onSvc svcWrite f s
def execPorticoWrite (f : FrameF) (s : State) : Host.Outcome State Fault Refusal := effect (doPorticoWrite f) s
def doPorticoDigest (f : FrameF) (s : Block) : Block := onSvc svcDigest f s
def execPorticoDigestQuery (f : FrameF) (s : State) : Host.Outcome State Fault Refusal := effect (doPorticoDigest f) s
def doSegmentStart (f : FrameF) (s : Block) : Block := onSvc svcStart f s
def execSegmentStart (f : FrameF) (s : State) : Host.Outcome State Fault Refusal := effect (doSegmentStart f) s
def doSegment (f : FrameF) (s : Block) : Block := onSvc svcSegment f s
def execSegment (f : FrameF) (s : State) : Host.Outcome State Fault Refusal := effect (doSegment f) s
def doSegmentEnd (f : FrameF) (s : Block) : Block := onSvc svcEnd f s
def execSegmentEnd (f : FrameF) (s : State) : Host.Outcome State Fault Refusal := effect (doSegmentEnd f) s
def doSegmentAbort (f : FrameF) (s : Block) : Block := onSvc svcAbort f s
def execSegmentAbort (f : FrameF) (s : State) : Host.Outcome State Fault Refusal := effect (doSegmentAbort f) s

/-- SEGMENT_TIMEOUT: the transfer has been idle for 2 s. -/
def doSegmentTimeout (xfer : Nat) (s : Block) : Block := if alive s then dropXfer xfer s else s
def execSegmentTimeout (xfer : Nat) (s : State) : Host.Outcome State Fault Refusal := effect (doSegmentTimeout xfer) s

end Sys2Proof.Machine
end

