-- ==== Sys2Proof/Machine/Dispatch.lean ====
section
/-! DEFINITION. One arm for each command of the opcode table. -/

namespace Sys2Proof.Machine

def exec (i : Instr) (s : State) : Host.Outcome State Fault Refusal :=
  match i with
  | .bundleIssue => Sys2Proof.Machine.execBundleIssue s
  | .mloadW x f => Sys2Proof.Machine.execMloadW x f s
  | .mstream x f => Sys2Proof.Machine.execMstream x f s
  | .landingWrite => Sys2Proof.Machine.execLandingWrite s
  | .mopen x f => Sys2Proof.Machine.execMopen x f s
  | .mclose x f => Sys2Proof.Machine.execMclose x f s
  | .mdrain x f => Sys2Proof.Machine.execMdrain x f s
  | .mshift x f => Sys2Proof.Machine.execMshift x f s
  | .landingOpRelease => Sys2Proof.Machine.execLandingOpRelease s
  | .drainStart => Sys2Proof.Machine.execDrainStart s
  | .vadd x f => Sys2Proof.Machine.execVadd x f s
  | .vsub x f => Sys2Proof.Machine.execVsub x f s
  | .vmul x f => Sys2Proof.Machine.execVmul x f s
  | .vfma x f => Sys2Proof.Machine.execVfma x f s
  | .vmax x f => Sys2Proof.Machine.execVmax x f s
  | .vmin x f => Sys2Proof.Machine.execVmin x f s
  | .vabs x f => Sys2Proof.Machine.execVabs x f s
  | .vneg x f => Sys2Proof.Machine.execVneg x f s
  | .vsel x f => Sys2Proof.Machine.execVsel x f s
  | .vmov x f => Sys2Proof.Machine.execVmov x f s
  | .vtrn x f => Sys2Proof.Machine.execVtrn x f s
  | .vand x f => Sys2Proof.Machine.execVand x f s
  | .vor x f => Sys2Proof.Machine.execVor x f s
  | .vxor x f => Sys2Proof.Machine.execVxor x f s
  | .vshl x f => Sys2Proof.Machine.execVshl x f s
  | .vshr x f => Sys2Proof.Machine.execVshr x f s
  | .vexp2 x f => Sys2Proof.Machine.execVexp2 x f s
  | .vlog2 x f => Sys2Proof.Machine.execVlog2 x f s
  | .vrcp x f => Sys2Proof.Machine.execVrcp x f s
  | .vrsq x f => Sys2Proof.Machine.execVrsq x f s
  | .vscale x f => Sys2Proof.Machine.execVscale x f s
  | .vred x f => Sys2Proof.Machine.execVred x f s
  | .vsmax x f => Sys2Proof.Machine.execVsmax x f s
  | .vcmp x f => Sys2Proof.Machine.execVcmp x f s
  | .vmset x f => Sys2Proof.Machine.execVmset x f s
  | .vmlog x f => Sys2Proof.Machine.execVmlog x f s
  | .vcvt x f => Sys2Proof.Machine.execVcvt x f s
  | .vqnt x f => Sys2Proof.Machine.execVqnt x f s
  | .vdqn x f => Sys2Proof.Machine.execVdqn x f s
  | .vrnd x f => Sys2Proof.Machine.execVrnd x f s
  | .vld x f => Sys2Proof.Machine.execVld x f s
  | .vst x f => Sys2Proof.Machine.execVst x f s
  | .vflg x f => Sys2Proof.Machine.execVflg x f s
  | .vsolve x f => Sys2Proof.Machine.execVsolve x f s
  | .dget x f => Sys2Proof.Machine.execDget x f s
  | .dput x f => Sys2Proof.Machine.execDput x f s
  | .dmov x f => Sys2Proof.Machine.execDmov x f s
  | .add f => Sys2Proof.Machine.execAdd f s
  | .max f => Sys2Proof.Machine.execMax f s
  | .xor f => Sys2Proof.Machine.execXor f s
  | .updatePass1 d => Sys2Proof.Machine.execUpdatePass1 d s
  | .updatePass2 d => Sys2Proof.Machine.execUpdatePass2 d s
  | .queueHoldEnd => Sys2Proof.Machine.execQueueHoldEnd s
  | .descriptorCompletion id ok => Sys2Proof.Machine.execDescriptorCompletion id ok s
  | .asendData x f => Sys2Proof.Machine.execAsendData x f s
  | .asendTokenOnly x f => Sys2Proof.Machine.execAsendTokenOnly x f s
  | .aredReduceScatter x f => Sys2Proof.Machine.execAredReduceScatter x f s
  | .aredAllReduce x f => Sys2Proof.Machine.execAredAllReduce x f s
  | .aredPhase2 cid => Sys2Proof.Machine.execAredPhase2 cid s
  | .agathPush x f => Sys2Proof.Machine.execAgathPush x f s
  | .agathReuse x f => Sys2Proof.Machine.execAgathReuse x f s
  | .swait x ctr value => Sys2Proof.Machine.execSwait x ctr value s
  | .stallRelease => Sys2Proof.Machine.execStallRelease s
  | .ssignal x ctr value target => Sys2Proof.Machine.execSsignal x ctr value target s
  | .sbound => Sys2Proof.Machine.execSbound s
  | .boundaryActions => Sys2Proof.Machine.execBoundaryActions s
  | .connectivityRetry => Sys2Proof.Machine.execConnectivityRetry s
  | .voteTimeout => Sys2Proof.Machine.execVoteTimeout s
  | .agreementTimeout => Sys2Proof.Machine.execAgreementTimeout s
  | .watchdogAbort => Sys2Proof.Machine.execWatchdogAbort s
  | .side x length mask ve => Sys2Proof.Machine.execSide x length mask ve s
  | .sideSlicePlace hall => Sys2Proof.Machine.execSideSlicePlace hall s
  | .checked x alcoves quads => Sys2Proof.Machine.execChecked x alcoves quads s
  | .cwake x mask ve => Sys2Proof.Machine.execCwake x mask ve s
  | .galleryClockStop gal => Sys2Proof.Machine.execGalleryClockStop gal s
  | .galleryClockRestart gal => Sys2Proof.Machine.execGalleryClockRestart gal s
  | .wakeHoldEnd => Sys2Proof.Machine.execWakeHoldEnd s
  | .currentKeeperCycle => Sys2Proof.Machine.execCurrentKeeperCycle s
  | .rampDownStart gal alcove => Sys2Proof.Machine.execRampDownStart gal alcove s
  | .rampDownEnd gal alcove => Sys2Proof.Machine.execRampDownEnd gal alcove s
  | .rampUpEnd gal alcove => Sys2Proof.Machine.execRampUpEnd gal alcove s
  | .rampHoldEnd => Sys2Proof.Machine.execRampHoldEnd s
  | .fetchHoldEnd => Sys2Proof.Machine.execFetchHoldEnd s
  | .errorQueuePop queue => Sys2Proof.Machine.execErrorQueuePop queue s
  | .rowRemap stack chan bank row => Sys2Proof.Machine.execRowRemap stack chan bank row s
  | .pageMigration page => Sys2Proof.Machine.execPageMigration page s
  | .channelCopy stack chan => Sys2Proof.Machine.execChannelCopy stack chan s
  | .channelCopyEnd stack chan => Sys2Proof.Machine.execChannelCopyEnd stack chan s
  | .patrolScrub stack done => Sys2Proof.Machine.execPatrolScrub stack done s
  | .dataFlit link lane flit uncorr => Sys2Proof.Machine.execDataFlit link lane flit uncorr s
  | .idleFlit link lane flit uncorr => Sys2Proof.Machine.execIdleFlit link lane flit uncorr s
  | .nak link lane count => Sys2Proof.Machine.execNak link lane count s
  | .laneRetire link lane reason => Sys2Proof.Machine.execLaneRetire link lane reason s
  | .laneJoin link lane => Sys2Proof.Machine.execLaneJoin link lane s
  | .down link reason => Sys2Proof.Machine.execDown link reason s
  | .spareLaneTrained link => Sys2Proof.Machine.execSpareLaneTrained link s
  | .beacon link payload => Sys2Proof.Machine.execBeacon link payload s
  | .beaconPeriod link => Sys2Proof.Machine.execBeaconPeriod link s
  | .replayTimeout link lseq => Sys2Proof.Machine.execReplayTimeout link lseq s
  | .lossOfSignal link => Sys2Proof.Machine.execLossOfSignal link s
  | .linkNoFlit link => Sys2Proof.Machine.execLinkNoFlit link s
  | .laneLossOfLock link lane => Sys2Proof.Machine.execLaneLossOfLock link lane s
  | .laneErrorSecond link counts => Sys2Proof.Machine.execLaneErrorSecond link counts s
  | .laneNoFlit link lane => Sys2Proof.Machine.execLaneNoFlit link lane s
  | .linkHoldExpiry link signal => Sys2Proof.Machine.execLinkHoldExpiry link signal s
  | .linkTrainingDone link lockedLanes => Sys2Proof.Machine.execLinkTrainingDone link lockedLanes s
  | .linkTrainingTimeout link => Sys2Proof.Machine.execLinkTrainingTimeout link s
  | .alignDone link lockedLanes => Sys2Proof.Machine.execAlignDone link lockedLanes s
  | .alignTimeout link => Sys2Proof.Machine.execAlignTimeout link s
  | .mwrite p => Sys2Proof.Machine.execMwrite p s
  | .rreq p => Sys2Proof.Machine.execRreq p s
  | .token p => Sys2Proof.Machine.execToken p s
  | .streamAcknowledgement t => Sys2Proof.Machine.execStreamAcknowledgement t s
  | .streamAckPeriod => Sys2Proof.Machine.execStreamAckPeriod s
  | .gapRequest t => Sys2Proof.Machine.execGapRequest t s
  | .readyMessage slot cid step attempt cepoch eloc => Sys2Proof.Machine.execReadyMessage slot cid step attempt cepoch eloc s
  | .voteMessage v => Sys2Proof.Machine.execVoteMessage v s
  | .agreementMessage a => Sys2Proof.Machine.execAgreementMessage a s
  | .contextMessage slot offset total data => Sys2Proof.Machine.execContextMessage slot offset total data s
  | .portUpMessage slot bits => Sys2Proof.Machine.execPortUpMessage slot bits s
  | .noRoute relay t => Sys2Proof.Machine.execNoRoute relay t s
  | .mwriteRejection slot cid pseq => Sys2Proof.Machine.execMwriteRejection slot cid pseq s
  | .linkReset plane link => Sys2Proof.Machine.execLinkReset plane link s
  | .laneMode plane mode => Sys2Proof.Machine.execLaneMode plane mode s
  | .vestibuleRead port tag addr len => Sys2Proof.Machine.execVestibuleRead port tag addr len s
  | .windowRegisterWrite port addr data => Sys2Proof.Machine.execWindowRegisterWrite port addr data s
  | .vstRetryCntRead port tag => Sys2Proof.Machine.execVstRetryCntRead port tag s
  | .vstPoisonCntRead port tag => Sys2Proof.Machine.execVstPoisonCntRead port tag s
  | .apertureRead port tag addr len cls => Sys2Proof.Machine.execApertureRead port tag addr len cls s
  | .apertureWrite port addr cls data mask => Sys2Proof.Machine.execApertureWrite port addr cls data mask s
  | .programDoorbell port n value => Sys2Proof.Machine.execProgramDoorbell port n value s
  | .collectiveDoorbellAnchor port value => Sys2Proof.Machine.execCollectiveDoorbellAnchor port value s
  | .collectiveDoorbellSums port value => Sys2Proof.Machine.execCollectiveDoorbellSums port value s
  | .vestibuleLinkDown port => Sys2Proof.Machine.execVestibuleLinkDown port s
  | .vestibuleLinkUp port => Sys2Proof.Machine.execVestibuleLinkUp port s
  | .objectRead r index sub offset count => Sys2Proof.Machine.execObjectRead r index sub offset count s
  | .objectWrite r index sub offset data => Sys2Proof.Machine.execObjectWrite r index sub offset data s
  | .digestQuery r => Sys2Proof.Machine.execDigestQuery r s
  | .programLoad r addr size => Sys2Proof.Machine.execProgramLoad r addr size s
  | .start r => Sys2Proof.Machine.execStart r s
  | .replayStart r => Sys2Proof.Machine.execReplayStart r s
  | .park r => Sys2Proof.Machine.execPark r s
  | .resume r => Sys2Proof.Machine.execResume r s
  | .save r addr => Sys2Proof.Machine.execSave r addr s
  | .restore r addr flags => Sys2Proof.Machine.execRestore r addr flags s
  | .takeoverSlices r rank => Sys2Proof.Machine.execTakeoverSlices r rank s
  | .takeoverTwin r rank => Sys2Proof.Machine.execTakeoverTwin r rank s
  | .reMirror r => Sys2Proof.Machine.execReMirror r s
  | .warmReset r => Sys2Proof.Machine.execWarmReset r s
  | .powerRequestDormant r => Sys2Proof.Machine.execPowerRequestDormant r s
  | .powerRequestStandby r => Sys2Proof.Machine.execPowerRequestStandby r s
  | .powerRequestReady r => Sys2Proof.Machine.execPowerRequestReady r s
  | .powerTransitionDone => Sys2Proof.Machine.execPowerTransitionDone s
  | .attestationReport r nonce => Sys2Proof.Machine.execAttestationReport r nonce s
  | .debugToken r tok => Sys2Proof.Machine.execDebugToken r tok s
  | .firmwareStage r kind addr size => Sys2Proof.Machine.execFirmwareStage r kind addr size s
  | .firmwareActivate r => Sys2Proof.Machine.execFirmwareActivate r s
  | .activationNextRestart ok => Sys2Proof.Machine.execActivationNextRestart ok s
  | .firmwareAbandon r => Sys2Proof.Machine.execFirmwareAbandon r s
  | .porticoRead f => Sys2Proof.Machine.execPorticoRead f s
  | .porticoWrite f => Sys2Proof.Machine.execPorticoWrite f s
  | .segmentStart f => Sys2Proof.Machine.execSegmentStart f s
  | .segment f => Sys2Proof.Machine.execSegment f s
  | .segmentEnd f => Sys2Proof.Machine.execSegmentEnd f s
  | .segmentAbort f => Sys2Proof.Machine.execSegmentAbort f s
  | .segmentTimeout xfer => Sys2Proof.Machine.execSegmentTimeout xfer s
  | .porticoDigestQuery f => Sys2Proof.Machine.execPorticoDigestQuery f s
  | .restoreDefaults plane value => Sys2Proof.Machine.execRestoreDefaults plane value s
  | .clearPoisoned plane page => Sys2Proof.Machine.execClearPoisoned plane page s
  | .removeGuardBand plane gal => Sys2Proof.Machine.execRemoveGuardBand plane gal s
  | .clearFloorMap plane value => Sys2Proof.Machine.execClearFloorMap plane value s
  | .galleryReset plane gal => Sys2Proof.Machine.execGalleryReset plane gal s
  | .clearLatchedBits plane value => Sys2Proof.Machine.execClearLatchedBits plane value s
  | .ownerEnrolment rec => Sys2Proof.Machine.execOwnerEnrolment rec s
  | .lifecycleToReturned rec => Sys2Proof.Machine.execLifecycleToReturned rec s
  | .lifecycleToProvisioned rec => Sys2Proof.Machine.execLifecycleToProvisioned rec s
  | .generateIdentityKey plane value => Sys2Proof.Machine.execGenerateIdentityKey plane value s
  | .installCertificateChain plane chain => Sys2Proof.Machine.execInstallCertificateChain plane chain s
  | .injectionArm plane count => Sys2Proof.Machine.execInjectionArm plane count s
  | .bypass bit => Sys2Proof.Machine.execBypass bit s
  | .idcode => Sys2Proof.Machine.execIdcode s
  | .extest shiftIn => Sys2Proof.Machine.execExtest shiftIn s
  | .samplePreload shiftIn => Sys2Proof.Machine.execSamplePreload shiftIn s
  | .dbgobj req => Sys2Proof.Machine.execDbgobj req s
  | .dbgmemRead addr => Sys2Proof.Machine.execDbgmemRead addr s
  | .dbgmemWrite addr data => Sys2Proof.Machine.execDbgmemWrite addr data s
  | .tapToken tok => Sys2Proof.Machine.execTapToken tok s
  | .corectlHalt proc => Sys2Proof.Machine.execCorectlHalt proc s
  | .corectlStep proc => Sys2Proof.Machine.execCorectlStep proc s
  | .corectlResume proc => Sys2Proof.Machine.execCorectlResume proc s
  | .prstN ns => Sys2Proof.Machine.execPrstN ns s
  | .coldBoot slotPins => Sys2Proof.Machine.execColdBoot slotPins s
  | .wakeN ns => Sys2Proof.Machine.execWakeN ns s
  | .inputApplied mv => Sys2Proof.Machine.execInputApplied mv s
  | .brownout aonLost => Sys2Proof.Machine.execBrownout aonLost s
  | .railFault rail => Sys2Proof.Machine.execRailFault rail s
  | .hostFault => Sys2Proof.Machine.execHostFault s
  | .clockFault => Sys2Proof.Machine.execClockFault s
  | .eCurrent amps => Sys2Proof.Machine.execECurrent amps s
  | .eJunction sensor temp => Sys2Proof.Machine.execEJunction sensor temp s
  | .sensorPoll r => Sys2Proof.Machine.execSensorPoll r s
  | .curbedStepTimer => Sys2Proof.Machine.execCurbedStepTimer s
  | .clockStepUp => Sys2Proof.Machine.execClockStepUp s
  | .thermalTrip junction outlet => Sys2Proof.Machine.execThermalTrip junction outlet s
  | .processorWatchdog proc => Sys2Proof.Machine.execProcessorWatchdog proc s
  | .lockstepMismatch proc => Sys2Proof.Machine.execLockstepMismatch proc s
  | .processorRestartDone proc ok => Sys2Proof.Machine.execProcessorRestartDone proc ok s
  | .gccHoldExpiry gal => Sys2Proof.Machine.execGccHoldExpiry gal s
  | .hallBridgeVoteFail => Sys2Proof.Machine.execHallBridgeVoteFail s
  | .targetedSentinel gal fails unit badCols => Sys2Proof.Machine.execTargetedSentinel gal fails unit badCols s
  | .marginSweep => Sys2Proof.Machine.execMarginSweep s
  | .sweepPoint r => Sys2Proof.Machine.execSweepPoint r s
  | .persistFlashWrite => Sys2Proof.Machine.execPersistFlashWrite s
  | .floorMapRecordWrite => Sys2Proof.Machine.execFloorMapRecordWrite s
  | .manifestSignature => Sys2Proof.Machine.execManifestSignature s
  | .cperNotify => Sys2Proof.Machine.execCperNotify s
  | .linkSignalDetect link => Sys2Proof.Machine.execLinkSignalDetect link s
  | .crystalRunsAgain => Sys2Proof.Machine.execCrystalRunsAgain s
  | .hostSitePowerRequest mv => Sys2Proof.Machine.execHostSitePowerRequest mv s
  | .coordinatorBeaconLoss => Sys2Proof.Machine.execCoordinatorBeaconLoss s
  | .adapterRetry port => Sys2Proof.Machine.execAdapterRetry port s
  | .hallBridgeCrcError vote => Sys2Proof.Machine.execHallBridgeCrcError vote s

end Sys2Proof.Machine
end

