-- ==== Sys2Proof/Machine/Step.lean ====
section
/-! DEFINITION. One step: the command at the front of the queue, or an idle cycle. -/

namespace Sys2Proof.Machine

/-- What the block does with no command waiting: one cycle passes, with what happens in it (log 1); the first route
build after the links came up (log 54), portico requests that waited (log 56), and the end of a wipe in progress (log 99). -/
def idle (s : Block) : Block := wipeEnd (serveQueue (firstBuild (jobGo (autoCycle s))))

/-- Take the command at the front of the queue and execute it on the state with the rest. -/
def step (s : State) : Host.Outcome State Fault Refusal :=
  match s.pending with
  | [] => effect idle s
  | i :: rest => exec i { s with pending := rest }

/-- The state with the command that a word spells at the front of its queue. -/
def State.withFetchWord (s : State) (nbits w : Nat) : State :=
  match Sys2Proof.decodeTableWord nbits w with
  | some i => { s with pending := i :: s.pending }
  | none => s

end Sys2Proof.Machine
end

