-- ==== Sys2Proof/WellFormed.lean ====
section
/-! DEFINITION. Well-formed commands: every operand fits the field, the unit numbers or the size that the spec
gives it. Nothing in the machine relies on it: a command that is not well-formed still has a meaning. -/

namespace Sys2Proof

/-- A value fits a field of `w` bits. -/
def fits (w n : Nat) : Bool := decide (n < 2 ^ w)

/-- A number below a limit. -/
def below (m n : Nat) : Bool := decide (n < m)

/-! ## Slots -/

/-- A slot's context: logical gallery 0 to 47, job tag, bundle offset, descriptor bank and the offsets of R195. -/
def SlotCtx.wf (x : SlotCtx) : Bool :=
  below 48 x.gal && fits 8 x.tag && fits 32 x.bundle && fits 8 x.bank && fits 23 x.moff && fits 22 x.roff && fits 12 x.xoff
/-- R67. -/
def MloadF.wf (f : MloadF) : Bool :=
  fits 3 f.alcove && fits 7 f.first && fits 7 f.count && fits 8 f.fmt && fits 4 f.width && fits 8 f.lvl && fits 23 f.src && fits 23 f.arrStride && fits 23 f.scaleSrc
/-- R70. -/
def MstreamF.wf (f : MstreamF) : Bool :=
  fits 3 f.alcove && fits 7 f.first && fits 7 f.count && fits 2 f.bus && fits 6 f.group && fits 20 f.nRows && fits 6 f.rowDesc && fits 23 f.rowBase && fits 16 f.rowPitch && fits 23 f.passStride && fits 64 f.rowMask && fits 16 f.kMask && fits 1 f.advance && fits 23 f.wPassStride
/-- R103. -/
def MopenF.wf (f : MopenF) : Bool :=
  fits 3 f.alcove && fits 7 f.first && fits 7 f.count && fits 6 f.group && fits 6 f.base && fits 6 f.rows && fits 8 f.fmt && fits 2 f.mode && fits 10 f.anchor
/-- R106, R167. -/
def DrainF.wf (f : DrainF) : Bool :=
  fits 3 f.alcove && fits 7 f.first && fits 7 f.count && fits 6 f.group && fits 1 f.clear && fits 6 f.dst && fits 8 f.ofmt && fits 3 f.fmask
/-- R107. -/
def MshiftF.wf (f : MshiftF) : Bool :=
  fits 3 f.alcove && fits 7 f.first && fits 7 f.count && fits 6 f.group && fits 6 f.row0 && fits 6 f.nrows && fits 7 f.ksrc && fits 11 f.kimm
/-- R159. -/
def VecF.wf (f : VecF) : Bool :=
  fits 4 f.ntiles && fits 6 f.dst && fits 2 f.dstride && fits 18 f.a && fits 18 f.b && fits 18 f.c && fits 3 f.mask && fits 1 f.mzero && fits 8 f.fmt && fits 1 f.sat && fits 16 f.aux
/-- R113. -/
def VqntF.wf (f : VqntF) : Bool :=
  fits 6 f.src && fits 4 f.ntiles && fits 1 f.axis && fits 8 f.srcFmt && fits 6 f.desc && fits 14 f.kspan && fits 9 f.kvalid && fits 22 f.row0 && fits 23 f.dstElem && fits 23 f.dstScale && fits 23 f.dstOut && fits 1 f.rnd && fits 1 f.rng && fits 1 f.smode && fits 8 f.fscale
/-- R198. -/
def VdqnF.wf (f : VdqnF) : Bool :=
  fits 4 f.ntiles && fits 6 f.dst && fits 2 f.dstride && fits 6 f.desc && fits 1 f.axis && fits 14 f.kspan && fits 9 f.kvalid && fits 23 f.srcElem && fits 23 f.srcScale && fits 23 f.srcOut && fits 8 f.ofmt && fits 1 f.unturn && fits 3 f.mask && fits 1 f.mzero
/-- R198. -/
def VmemF.wf (f : VmemF) : Bool :=
  fits 4 f.ntiles && fits 6 f.reg && fits 2 f.dstride && fits 23 f.addr && fits 16 f.pitch && fits 8 f.sfmt && fits 3 f.mask && fits 1 f.mzero && fits 1 f.layout
/-- R199. -/
def DslotF.wf (f : DslotF) : Bool :=
  fits 36 f.loff && fits 8 f.token && fits 12 f.xdesc
/-- R202. -/
def AslotF.wf (f : AslotF) : Bool :=
  fits 8 f.token && fits 10 f.adesc

/-! ## Memory operations, packets and messages -/

/-- A memory-side operation: an element type code, a logical address of 39 bits, 1 to 8,192 bytes and a poison bit
for each 32 bytes. -/
def MemOpF.wf (f : MemOpF) : Bool :=
  fits 8 f.tag && fits 4 f.mtype && fits 39 f.addr && below 8193 f.data.length && !f.data.isEmpty &&
    f.poison.length == (f.data.length + 31) / 32

def DescF.wf (d : DescF) : Bool := d.ctx.wf && d.slot.wf

/-- A packet (R269): slots 0 to 71, a 256-bit header, up to 8,192 bytes and a poison bit for each 16 bytes. -/
def Packet.wf (p : Packet) : Bool :=
  below 72 p.src && below 2 p.shall && below 72 p.dst && below 4 p.vc && fits 3 p.hop && fits 256 p.header &&
    below 8193 p.data.length && p.poison.length == (p.data.length + 15) / 16

def StreamF.wf (t : StreamF) : Bool := below 72 t.dst && below 2 t.shall && below 4 t.vc && fits 16 t.pseq

/-- A vote (R145): rounds 1 and 2, csets 0 to 1,023. -/
def VoteF.wf (v : VoteF) : Bool :=
  below 72 v.slot && fits 64 v.step && fits 32 v.attempt && fits 32 v.epoch && (v.round == 1 || v.round == 2) &&
    v.items.all (fun e => below 1024 e.1)

def AgreeF.wf (a : AgreeF) : Bool :=
  below 72 a.slot && fits 64 a.step && fits 32 a.attempt && fits 32 a.eo && fits 32 a.prop

/-- A mailbox request: vestibule A or B and a 32-bit SEQ. -/
def ReqF.wf (r : ReqF) : Bool := below 2 r.port && fits 32 r.seq

/-- The result of a suite names units that a gallery has (R341, R346). -/
def SuiteResult.wf : SuiteResult → Bool
  | .pass => true
  | .columns alc arr cols => below 8 alc && below 132 arr && cols.all (below 16)
  | .landing alc arr => below 8 alc && below 132 arr
  | .banister alc => below 8 alc
  | .vector quad => below 4 quad

/-- A portico frame (R415). -/
def FrameF.wf (f : FrameF) : Bool :=
  fits 48 f.src && fits 48 f.dst && fits 16 f.etherType && fits 8 f.ver && fits 8 f.svc && fits 32 f.seq && fits 16 f.index && fits 8 f.sub && fits 16 f.len && fits 32 f.offset &&
    fits 32 f.xfer && fits 16 f.data.length

/-- Sensor readings: 50 temperatures (R476). -/
def SensorF.wf (r : SensorF) : Bool := r.temps.length == 50

/-! ## Commands -/

/-- An object write of a number of `n` bytes. -/
def byteWf (n v : Nat) : Bool := decide (v < 256 ^ n)

/-- Units: physical galleries, links, lanes of a link, ports, stacks, channels, processors. -/
def galWf (g : Nat) : Bool := below 50 g
def linkWf (l : Nat) : Bool := below 18 l
def laneWf (l : Nat) : Bool := below 25 l
def portWf (p : Nat) : Bool := below 2 p
def procWf (n : Nat) : Bool := below 53 n

/-- Every operand is one that the spec admits. -/
def Instr.wf : Instr → Bool
  | .bundleIssue => true
  | .mloadW x f => x.wf && f.wf
  | .mstream x f => x.wf && f.wf
  | .landingWrite => true
  | .mopen x f => x.wf && f.wf
  | .mclose x f => x.wf && f.wf
  | .mdrain x f => x.wf && f.wf
  | .mshift x f => x.wf && f.wf
  | .landingOpRelease => true
  | .drainStart => true
  | .vadd x f => x.wf && f.wf
  | .vsub x f => x.wf && f.wf
  | .vmul x f => x.wf && f.wf
  | .vfma x f => x.wf && f.wf
  | .vmax x f => x.wf && f.wf
  | .vmin x f => x.wf && f.wf
  | .vabs x f => x.wf && f.wf
  | .vneg x f => x.wf && f.wf
  | .vsel x f => x.wf && f.wf
  | .vmov x f => x.wf && f.wf
  | .vtrn x f => x.wf && f.wf
  | .vand x f => x.wf && f.wf
  | .vor x f => x.wf && f.wf
  | .vxor x f => x.wf && f.wf
  | .vshl x f => x.wf && f.wf
  | .vshr x f => x.wf && f.wf
  | .vexp2 x f => x.wf && f.wf
  | .vlog2 x f => x.wf && f.wf
  | .vrcp x f => x.wf && f.wf
  | .vrsq x f => x.wf && f.wf
  | .vscale x f => x.wf && f.wf
  | .vred x f => x.wf && f.wf
  | .vsmax x f => x.wf && f.wf
  | .vcmp x f => x.wf && f.wf
  | .vmset x f => x.wf && f.wf
  | .vmlog x f => x.wf && f.wf
  | .vcvt x f => x.wf && f.wf
  | .vqnt x f => x.wf && f.wf
  | .vdqn x f => x.wf && f.wf
  | .vrnd x f => x.wf && f.wf
  | .vld x f => x.wf && f.wf
  | .vst x f => x.wf && f.wf
  | .vflg x f => x.wf && f.wf
  | .vsolve x f => x.wf && f.wf
  | .dget x f => x.wf && f.wf
  | .dput x f => x.wf && f.wf
  | .dmov x f => x.wf && f.wf
  | .add f => f.wf
  | .max f => f.wf
  | .xor f => f.wf
  | .updatePass1 d => d.wf
  | .updatePass2 d => d.wf
  | .queueHoldEnd => true
  | .descriptorCompletion _ _ => true
  | .asendData x f => x.wf && f.wf
  | .asendTokenOnly x f => x.wf && f.wf
  | .aredReduceScatter x f => x.wf && f.wf
  | .aredAllReduce x f => x.wf && f.wf
  | .aredPhase2 cid => below 1024 cid
  | .agathPush x f => x.wf && f.wf
  | .agathReuse x f => x.wf && f.wf
  | .swait x ctr value => x.wf && fits 8 ctr && fits 32 value
  | .stallRelease => true
  | .ssignal x ctr value target => x.wf && fits 8 ctr && fits 32 value && fits 6 target
  | .sbound => true
  | .boundaryActions => true
  | .connectivityRetry => true
  | .voteTimeout => true
  | .agreementTimeout => true
  | .watchdogAbort => true
  | .side x length mask ve => x.wf && fits 16 length && fits 8 mask && fits 1 ve
  | .sideSlicePlace hall => below 2 hall
  | .checked x alcoves quads => x.wf && fits 1 alcoves && fits 1 quads
  | .cwake x mask ve => x.wf && fits 8 mask && fits 1 ve
  | .galleryClockStop gal => galWf gal
  | .galleryClockRestart gal => galWf gal
  | .wakeHoldEnd => true
  | .currentKeeperCycle => true
  | .rampDownStart gal alcove => galWf gal && below 8 alcove
  | .rampDownEnd gal alcove => galWf gal && below 8 alcove
  | .rampUpEnd gal alcove => galWf gal && below 8 alcove
  | .rampHoldEnd => true
  | .fetchHoldEnd => true
  | .errorQueuePop queue => below 52 queue
  | .rowRemap stack chan bank row => below 8 stack && below 136 chan && below 32 bank && below 8384 row
  | .pageMigration page => fits 19 page
  | .channelCopy stack chan => below 8 stack && below 136 chan
  | .channelCopyEnd stack chan => below 8 stack && below 136 chan
  | .patrolScrub stack _ => below 8 stack
  | .dataFlit link lane flit _ => linkWf link && laneWf lane && flit.length == 256
  | .idleFlit link lane flit _ => linkWf link && laneWf lane && flit.length == 256
  | .nak link lane count => linkWf link && laneWf lane && fits 8 count
  | .laneRetire link lane reason => linkWf link && laneWf lane && fits 8 reason
  | .laneJoin link lane => linkWf link && laneWf lane
  | .down link reason => linkWf link && fits 8 reason
  | .spareLaneTrained link => linkWf link
  | .beacon link payload => linkWf link && payload.length == 240
  | .beaconPeriod link => linkWf link
  | .replayTimeout link lseq => linkWf link && fits 16 lseq
  | .lossOfSignal link => linkWf link
  | .linkNoFlit link => linkWf link
  | .laneLossOfLock link lane => linkWf link && laneWf lane
  | .laneErrorSecond link counts => linkWf link && counts.all (fun e => laneWf e.1)
  | .laneNoFlit link lane => linkWf link && laneWf lane
  | .linkHoldExpiry link _ => linkWf link
  | .linkTrainingDone link lockedLanes => linkWf link && fits 25 lockedLanes
  | .linkTrainingTimeout link => linkWf link
  | .alignDone link lockedLanes => linkWf link && fits 25 lockedLanes
  | .alignTimeout link => linkWf link
  | .mwrite p => p.wf
  | .rreq p => p.wf
  | .token p => p.wf
  | .streamAcknowledgement t => t.wf
  | .streamAckPeriod => true
  | .gapRequest t => t.wf
  | .readyMessage slot cid step attempt cepoch _ => below 72 slot && below 1024 cid && fits 16 step && fits 8 attempt && fits 16 cepoch
  | .voteMessage v => v.wf
  | .agreementMessage a => a.wf
  | .contextMessage slot offset total data => below 72 slot && fits 32 offset && fits 32 total && below 8193 data.length
  | .portUpMessage slot bits => below 72 slot && fits 18 bits
  | .noRoute relay t => below 72 relay && t.wf
  | .mwriteRejection slot cid pseq => below 72 slot && below 1024 cid && fits 16 pseq
  | .linkReset _ link => byteWf 1 link
  | .laneMode _ mode => byteWf 1 mode
  | .vestibuleRead port m addr len => portWf port && fits 8 m.op && below 4096 m.tag && fits 64 addr && below 4097 len && below len 0
  | .windowRegisterWrite port addr data => portWf port && fits 64 addr && below 4097 data.length
  | .vstRetryCntRead port tag => portWf port && below 4096 tag
  | .vstPoisonCntRead port tag => portWf port && below 4096 tag
  | .apertureRead port tag addr len cls => portWf port && below 4096 tag && below 4 cls && fits 64 addr && below 4097 len && below len 0
  | .apertureWrite port addr cls data mask =>
    portWf port && below 4 cls && fits 64 addr && below 4097 data.length && mask.length == (data.length + 31) / 32
  | .programDoorbell port n value => portWf port && below 62 n && fits 32 value
  | .collectiveDoorbellAnchor port value => portWf port && fits 32 value
  | .collectiveDoorbellSums port value => portWf port && fits 32 value
  | .vestibuleLinkDown port => portWf port
  | .vestibuleLinkUp port => portWf port
  | .objectRead r index sub offset count => r.wf && fits 16 index && fits 8 sub && fits 32 offset && fits 32 count
  | .objectWrite r index sub offset data => r.wf && fits 16 index && fits 8 sub && fits 32 offset && below 4089 data.length
  | .digestQuery r => r.wf
  | .programLoad r addr size => r.wf && fits 64 addr && fits 32 size
  | .start r => r.wf
  | .replayStart r => r.wf
  | .park r => r.wf
  | .resume r => r.wf
  | .save r addr => r.wf && fits 64 addr
  | .restore r addr flags => r.wf && fits 64 addr && fits 32 flags
  | .takeoverSlices r rank => r.wf && fits 8 rank
  | .takeoverTwin r rank => r.wf && fits 8 rank
  | .reMirror r => r.wf
  | .warmReset r => r.wf
  | .powerRequestDormant r => r.wf
  | .powerRequestStandby r => r.wf
  | .powerRequestReady r => r.wf
  | .powerTransitionDone => true
  | .attestationReport r nonce => r.wf && nonce.length == 64
  | .debugToken r tok => r.wf && tok.length == 196
  | .firmwareStage r kind addr size => r.wf && fits 8 kind && fits 64 addr && fits 32 size
  | .firmwareActivate r => r.wf
  | .activationNextRestart _ => true
  | .firmwareAbandon r => r.wf
  | .porticoRead f => f.wf
  | .porticoWrite f => f.wf
  | .segmentStart f => f.wf
  | .segment f => f.wf
  | .segmentEnd f => f.wf
  | .segmentAbort f => f.wf
  | .segmentTimeout xfer => fits 32 xfer
  | .porticoDigestQuery f => f.wf
  | .restoreDefaults _ value => byteWf 1 value
  | .clearPoisoned _ page => byteWf 4 page
  | .removeGuardBand _ gal => byteWf 1 gal
  | .clearFloorMap _ value => byteWf 1 value
  | .galleryReset _ gal => byteWf 1 gal
  | .clearLatchedBits _ value => byteWf 1 value
  | .ownerEnrolment _ => true
  | .lifecycleToReturned _ => true
  | .lifecycleToProvisioned _ => true
  | .generateIdentityKey _ value => byteWf 1 value
  | .installCertificateChain _ chain => below 16385 chain.length
  | .injectionArm _ count => byteWf 2 count
  | .bypass _ => true
  | .idcode => true
  | .extest _ => true
  | .samplePreload _ => true
  | .dbgobj req => below 4129 req.length
  | .dbgmemRead addr => fits 48 addr
  | .dbgmemWrite addr data => fits 48 addr && fits 64 data
  | .tapToken tok => tok.length == 196
  | .corectlHalt proc => procWf proc
  | .corectlStep proc => procWf proc
  | .corectlResume proc => procWf proc
  | .prstN _ => true
  | .coldBoot slotPins => fits 7 slotPins
  | .wakeN _ => true
  | .inputApplied _ => true
  | .brownout _ => true
  | .railFault _ => true
  | .hostFault => true
  | .clockFault => true
  | .eCurrent _ => true
  | .eJunction sensor _ => below 50 sensor
  | .sensorPoll r => r.wf
  | .curbedStepTimer => true
  | .clockStepUp => true
  | .thermalTrip _ _ => true
  | .processorWatchdog proc => procWf proc
  | .lockstepMismatch proc => procWf proc
  | .processorRestartDone proc _ => procWf proc
  | .gccHoldExpiry gal => galWf gal
  | .hallBridgeVoteFail => true
  | .targetedSentinel gal fails unit badCols => galWf gal && (SuiteResult.of fails unit badCols).wf
  | .marginSweep => true
  | .sweepPoint r => r.wf
  | .persistFlashWrite => true
  | .floorMapRecordWrite => true
  | .manifestSignature => true
  | .cperNotify => true
  | .linkSignalDetect link => linkWf link
  | .crystalRunsAgain => true
  | .hostSitePowerRequest _ => true
  | .coordinatorBeaconLoss => true
  | .adapterRetry port => portWf port
  | .hallBridgeCrcError _ => true

end Sys2Proof
end

