-- ==== Sys2Proof/Safety.lean ====
section
/-! DEFINITION. What counts as a safe run, and the words in which the statements about commands are made: the
units a command names, its place in a bundle, when a slot reaches its gallery, which commands store to memory. -/

namespace Sys2Proof

open Machine

/-- An outcome that goes on. -/
def goesOn (o : Host.Outcome State Fault Refusal) : Prop := ∃ t, o = .next t

/-- A state all of whose steps go on, for `n` steps. -/
def safeFor : Nat → State → Prop
  | 0, _ => True
  | n + 1, s => ∃ t, step s = .next t ∧ safeFor n t

/-- The outcome of a command is a next state whose block meets a condition; the queue is as before. -/
def answers (c : Instr) (s : State) (p : Block → Prop) : Prop :=
  ∃ t : State, exec c s = .next t ∧ t.pending = s.pending ∧ p t.toBlock

/-! ## Units -/

/-- Every unit that the command names exists: links 0 to 17, lanes 0 to 24, vestibules 0 and 1, physical
galleries 0 to 49, processors 0 to 52, stacks 0 to 7, channels 0 to 135. -/
def unitThere : Instr → Bool
  | .dataFlit l n _ _ | .idleFlit l n _ _ | .nak l n _ | .laneRetire l n _ | .laneJoin l n | .laneLossOfLock l n
  | .laneNoFlit l n => linkWf l && laneWf n
  | .down l _ | .spareLaneTrained l | .beacon l _ | .beaconPeriod l | .replayTimeout l _ | .lossOfSignal l
  | .linkNoFlit l | .laneErrorSecond l _ | .linkHoldExpiry l _ | .linkTrainingDone l _ | .linkTrainingTimeout l
  | .alignDone l _ | .alignTimeout l | .linkSignalDetect l => linkWf l
  | .rampDownStart g a | .rampDownEnd g a | .rampUpEnd g a => galWf g && below 8 a
  | .galleryClockStop g | .galleryClockRestart g | .gccHoldExpiry g | .targetedSentinel g _ _ _ => galWf g
  | .sideSlicePlace h => below 2 h
  | .processorWatchdog n | .lockstepMismatch n | .corectlHalt n | .corectlStep n | .corectlResume n
  | .processorRestartDone n _ => procWf n
  | .vestibuleRead p _ _ _ | .windowRegisterWrite p _ _ | .vstRetryCntRead p _ | .vstPoisonCntRead p _
  | .apertureRead p _ _ _ _ | .apertureWrite p _ _ _ _ | .programDoorbell p _ _ | .collectiveDoorbellAnchor p _
  | .collectiveDoorbellSums p _ | .vestibuleLinkDown p | .vestibuleLinkUp p | .adapterRetry p => portWf p
  | .objectRead r _ _ _ _ | .objectWrite r _ _ _ _ | .digestQuery r | .programLoad r _ _ | .start r | .replayStart r
  | .park r | .resume r | .save r _ | .restore r _ _ | .takeoverSlices r _ | .takeoverTwin r _ | .reMirror r
  | .warmReset r | .powerRequestDormant r | .powerRequestStandby r | .powerRequestReady r | .attestationReport r _
  | .debugToken r _ | .firmwareStage r _ _ _ | .firmwareActivate r | .firmwareAbandon r => portWf r.port
  | .errorQueuePop q => below 52 q
  | .rowRemap s c b r => below 8 s && below 136 c && below 32 b && below 8384 r
  | .pageMigration p => below 524288 p
  | .channelCopy s c | .channelCopyEnd s c => below 8 s && below 136 c
  | .patrolScrub s _ => below 8 s
  | _ => true

/-! ## Slots -/

/-- The context of a V slot. -/
def vSlot : Instr → Option SlotCtx
  | .vadd x _ | .vsub x _ | .vmul x _ | .vfma x _ | .vmax x _ | .vmin x _ | .vabs x _ | .vneg x _ | .vsel x _
  | .vmov x _ | .vtrn x _ | .vand x _ | .vor x _ | .vxor x _ | .vshl x _ | .vshr x _ | .vexp2 x _ | .vlog2 x _
  | .vrcp x _ | .vrsq x _ | .vscale x _ | .vred x _ | .vsmax x _ | .vcmp x _ | .vmset x _ | .vmlog x _ | .vcvt x _
  | .vqnt x _ | .vdqn x _ | .vrnd x _ | .vld x _ | .vst x _ | .vflg x _ | .vsolve x _ => some x
  | _ => none

/-- The context of an M slot, a V slot, a D slot or an A slot: the slots that need a running gallery. -/
def unitSlot : Instr → Option SlotCtx
  | .mloadW x _ | .mstream x _ | .mopen x _ | .mclose x _ | .mdrain x _ | .mshift x _ => some x
  | .dget x _ | .dput x _ | .dmov x _ => some x
  | .asendData x _ | .asendTokenOnly x _ | .aredReduceScatter x _ | .aredAllReduce x _ | .agathPush x _
  | .agathReuse x _ => some x
  | i => vSlot i

/-- The context of any slot of a bundle. -/
def anySlot : Instr → Option SlotCtx
  | .swait x _ _ | .ssignal x _ _ _ | .side x _ _ _ | .checked x _ _ | .cwake x _ _ => some x
  | i => unitSlot i

/-- The context of a slot that needs the clock of its gallery: M, V, D, A and S slots, and SIDE. -/
def clockSlot : Instr → Option SlotCtx
  | .swait x _ _ | .ssignal x _ _ _ | .side x _ _ _ => some x
  | i => unitSlot i

/-- The form in which a freeze keeps a slot: a SIDE with the galleries that it reached. -/
def heldForm (s : Block) : Instr → HeldSlot
  | .side x l m v => .slot (.side x l m v) (physOf s x.gal).toList
  | i => .slot i []

/-- A slot reaches the physical gallery `g`: nothing freezes the module, its logical gallery is bound to `g`, and
the clock of `g` runs. -/
def reaches (s : Block) (x : SlotCtx) (g : Nat) : Prop :=
  s.freeze = none ∧ physOf s x.gal = some g ∧ (gclk s g).running = true

/-- A gallery's free vector port (R155). -/
def vPortFree (s : Block) (g : Nat) : Prop := mapGet 0 s.vec.portFree g ≤ cyc s

/-! ## Collectives -/

/-- The descriptor that an A slot puts in its queue (R202, R204). -/
def aDesc (op g : Nat) (x : SlotCtx) (f : AslotF) (s : Block) : Desc :=
  { id := s.queues.nextId, op, gal := g, gals := [g], ctx := x, slot := default, adesc := f.adesc % 1024, token := f.token
    performed := false, failed := false }

/-- The collective that an A slot issues: its descriptor's group, in the present step and attempt (R290, R292, R308). -/
def aColl (op mode : Nat) (f : AslotF) (s : Block) : Coll :=
  { desc := s.queues.nextId, cid := f.adesc % 1024, op, mode, attempt := s.bnd.attempt, step := stepNo s
    members := collMembers s (collDesc s (f.adesc % 1024)), ready := [], eloc := 0, phase := 0, anchor := 0
    anchorSet := false, arrStair := [], arrFinal := [], arrCopy := [], forwarded := [], copied := false }

/-- The block with both in place, and the faults of the descriptor's codes logged (R291). -/
def aIssued (op mode g : Nat) (x : SlotCtx) (f : AslotF) (s : Block) : Block :=
  let d := collDesc s (f.adesc % 1024)
  let b := slotFaultIf (op == 12 && !(isEntryFmt (cdSfmtCode d))) .format g x (cdSfmtCode d)
    (slotFaultIf (decide (2 ≤ cdMode d)) .program g x (cdMode d) s)
  { b with
    queues := { s.queues with descs := s.queues.descs ++ [aDesc op g x f s], nextId := s.queues.nextId + 1 }
    colls := { s.colls with colls := s.colls.colls ++ [aColl op mode f s] } }

/-- The ready round of a collective whose exponent word is `e` (R294): a ready message goes to every other member, and
those that came before are taken. -/
def readyRound (c : Coll) (e : Int) (s : Block) : Block :=
  let b := forEach (c.members.filter (fun m => m.1 != s.arc.slot)) (fun m b =>
    sendCtrlFor (c.desc + 1) m.1 0 (epochNo b) (leBytes 1 0x10 ++ leBytes 2 c.cid ++ leBytes 1 (c.attempt % 256) ++
      leBytes 4 (unsigned 32 e) ++ leBytes 2 (stepNo b)) b)
    (modColl c.desc (fun c => { c with eloc := e, ready := [(s.arc.slot, e)] }) s)
  let held := heldFor b c.cid
  forEach held takeReady { b with colls := { b.colls with heldReady := b.colls.heldReady.filter (fun r => !(held.contains r)) } }

/-! ## Requests -/

/-- A mailbox request is taken into service and may be performed at once: its port carries traffic, serves nothing
else and does not hold the response with this number; the states and the processors it needs are there; no injection hits its
message. `b` is the block with the ring counted and the request in service (R392, R461). -/
def taken (i : Instr) (r : ReqF) (s : State) (b : Block) : Prop :=
  ∃ typ, reqHead i = some (typ, r) ∧ r.port < 2 ∧ alive s.toBlock = true ∧ (port s.toBlock r.port).link = 2 ∧
    injects s.toBlock 0x19 (domLoc 9) = false ∧ (port s.toBlock r.port).service = none ∧ (port s.toBlock r.port).heldSeq ≠ r.seq % 2 ^ 32 + 1 ∧
    b = modPort r.port (fun v => { v with service := some (r.seq % 2 ^ 32, typ), mbState := 1 })
      (countRing r.port s.toBlock) ∧ gate typ b = none ∧ reqWaits typ b = false

/-! ## Memory -/

/-- The sector where a logical address lies (R226, R230). -/
def sectorOf (s : Block) (a : Nat) : Nat := secKey (peHere (pmapEntry s (a / 2 ^ 20))) (a % 2 ^ 20)

/-- A whole sector of a page that is VALID and neither retired, MIRRORED nor SHADOW (R232), with no symbol error; no
injection is armed. -/
def plainSector (s : Block) (a : Nat) : Prop :=
  let e := pmapEntry s (a / 2 ^ 20)
  a % 32 = 0 ∧ a < 2 ^ 39 ∧ peUsable e = true ∧ bit e 1 = false ∧ bit e 2 = false ∧ armed s = false ∧
    mapGet 0 s.mem.symErr (sectorOf s a) = 0

/-- The commands whose effect may store to memory: transfers, collectives, the updates and the memory-side operations;
what lets held or waiting work go on (bundles, cycles, the ends of freezes, boundaries, restarts); packets; host accesses,
collective doorbells and requests; resets and power-downs, which clear memory. -/
def mayStore : Instr → Bool
  | .bundleIssue | .landingWrite | .landingOpRelease | .drainStart | .dget _ _ | .dput _ _ | .dmov _ _ | .add _
  | .max _ | .xor _ | .updatePass1 _ | .updatePass2 _ | .queueHoldEnd | .descriptorCompletion _ _ | .asendData _ _
  | .asendTokenOnly _ _ | .aredReduceScatter _ _ | .aredAllReduce _ _ | .aredPhase2 _ | .agathPush _ _
  | .agathReuse _ _ | .stallRelease | .boundaryActions | .voteTimeout | .agreementTimeout | .sideSlicePlace _
  | .wakeHoldEnd | .rampDownStart _ _ | .rampDownEnd _ _ | .rampUpEnd _ _ | .rampHoldEnd | .fetchHoldEnd
  | .pageMigration _ | .dataFlit _ _ _ _ | .idleFlit _ _ _ _ | .mwrite _ | .rreq _ | .token _
  | .readyMessage _ _ _ _ _ _ | .voteMessage _ | .agreementMessage _ | .windowRegisterWrite _ _ _
  | .apertureRead _ _ _ _ _ | .apertureWrite _ _ _ _ _ | .collectiveDoorbellAnchor _ _ | .collectiveDoorbellSums _ _
  | .objectRead _ _ _ _ _ | .objectWrite _ _ _ _ _ | .digestQuery _ | .programLoad _ _ _ | .start _ | .replayStart _
  | .park _ | .resume _ | .save _ _ | .restore _ _ _ | .takeoverSlices _ _ | .takeoverTwin _ _ | .reMirror _
  | .warmReset _ | .powerRequestDormant _ | .powerRequestStandby _ | .powerRequestReady _ | .powerTransitionDone
  | .attestationReport _ _ | .debugToken _ _ | .firmwareStage _ _ _ _ | .firmwareActivate _ | .activationNextRestart _
  | .firmwareAbandon _ | .corectlResume _ | .prstN _ | .coldBoot _ | .inputApplied _ | .brownout _ | .railFault _
  | .clockFault | .thermalTrip _ _ | .processorRestartDone _ _ | .hallBridgeVoteFail => true
  | _ => false

end Sys2Proof
end

