-- ==== Sys2Proof/Certificates/Slice0/Obligations.lean ====
section
/-! DEFINITION. The statements about this model, for the provers. Each one's docstring names the rule of spec/ it
comes from, or the log entry of a choice it rests on. -/

open Sys2Proof Sys2Proof.Machine

/-! ## The machine as a whole -/

/-- A step takes the command at the front of the queue and is that command's execution on the state with the queue's
rest. -/
def Obligations.StepTakesTheFrontCommand : Prop :=
  ∀ (s : State) (c : Instr) (rest : List Instr), s.pending = c :: rest → step s = exec c { s with pending := rest }

/-- With no command waiting a step is one idle cycle of the block. In Dormant and Standby, with no takeover in progress,
no injection of a lockstep mismatch armed, no portico frame waiting and no wipe in progress, it lets 38,760 units of
1/969 ns (40 ns, one local tick) pass and changes nothing else. The model's choice (logs 1, 56 and 99). -/
def Obligations.EmptyQueueIdles : Prop :=
  ∀ s : State, s.pending = [] →
    step s = .next { s with toBlock := idle s.toBlock } ∧
    (halls s.toBlock = false → s.recov.job = none → injects s.toBlock 0x04 (procLoc 2) = false →
      injects s.toBlock 0x05 (procLoc 0) = false → s.portico.queue = [] → (num s.toBlock 0x720100).testBit 7 = false →
      step s = .next { s with clk := { s.clk with
        tick := (s.clk.tick + (s.clk.phase + 38760) / 38760) % 2 ^ 64, phase := (s.clk.phase + 38760) % 38760 } })

/-- Every command either answers a next state, with the queue as before, or names a unit that the module does not have:
then it is the fault noSuchUnit, and the command is not well-formed. No command is refused. -/
def Obligations.EveryCommandGoesOnOrNamesAMissingUnit : Prop :=
  ∀ (c : Instr) (s : State),
    (unitThere c = true → ∃ t : State, exec c s = .next t ∧ t.pending = s.pending) ∧
    (unitThere c = false → exec c s = .fault .noSuchUnit ∧ c.wf = false)

/-- The memory after reset is in its canonical form. -/
def Obligations.ResetMemoryIsCanonical : Prop :=
  Memory.wf State.reset.mem.bytes = true

/-- Every step keeps the memory's canonical form: addresses strictly rising, and no entry that holds zero, which is what
an unlisted address reads as (R250, log 26). From any state in that form, reached by a run or not. -/
def Obligations.EveryStepKeepsTheMemoryCanonical : Prop :=
  ∀ s t : State, Memory.wf s.mem.bytes = true → step s = .next t → Memory.wf t.mem.bytes = true

/-- A command that gives no store leaves every byte of memory as it was: every command but those that `mayStore` names. -/
def Obligations.OtherCommandsKeepEveryByteOfMemory : Prop :=
  ∀ (c : Instr) (s t : State), mayStore c = false → exec c s = .next t →
    ∀ a : Nat, mapGet (0 : Byte) t.mem.bytes a = mapGet (0 : Byte) s.mem.bytes a

/-- The module after a cold reset that ended in Ready: the power state is Ready with no limit, the galleries' clocks are
stopped until woken, the arrays, the vector engines, the token counters and the queues are clear, both vestibule links and
every arcade link are down, every page of memory reads as zero and no program is loaded. Log 26 names what the spec leaves
to the model. -/
def Obligations.ResetStateIsReady : Prop :=
  let s := State.reset
  pstate s.toBlock = 2 ∧ s.freeze = none ∧ s.pending = [] ∧
  (∀ g, g < 50 → (gclk s.toBlock g).running = false) ∧
  (∀ g r, treg s.toBlock g r = tregZero) ∧
  (∀ g k, k % 8 ≠ 0 → maskReg s.toBlock g k = 0) ∧
  (∀ g ctr, tokVal s.toBlock g ctr = 0) ∧
  (∀ arr u, lrow s.toBlock arr u = lrowReset) ∧
  (∀ l, (link s.toBlock l).state = 0) ∧
  (∀ p, (port s.toBlock p).link = 0) ∧
  (∀ a, mapGet (0 : Byte) s.mem.bytes a = 0) ∧
  s.prog.loaded = false ∧ s.queues.descs = [] ∧ s.logs.queues = []

/-! ## Slots -/

/-- R209: while the module is frozen no slot takes effect. The freeze keeps it, behind those it already keeps, and
nothing else changes. That it comes last among those kept is the model's choice (log 23). A slot, other than a CHECKED,
of a logical gallery that no physical gallery is bound to is discarded with a program fault of the bundle, and has no
other effect (the model's choice, log 63; CHECKED reaches no gallery, log 79).
R218: an M, V, D, A or S slot or a SIDE for a gallery whose clock is stopped restarts the clock and freezes the module
in a wake hold that keeps the slot. -/
def Obligations.ASlotThatWaitsOrIsLost : Prop :=
  (∀ (i : Instr) (x : SlotCtx) (s : State) (z : Freeze), anySlot i = some x → s.freeze = some z →
    exec i s = .next { s with freeze := some { z with held := z.held ++ [heldForm s.toBlock i] } }) ∧
  (∀ (i : Instr) (x : SlotCtx) (s : State), anySlot i = some x → (∀ y a q, i ≠ .checked y a q) → s.freeze = none →
    physOf s.toBlock x.gal = none →
    exec i s = .next { s with toBlock := logFault .program 255 x.bundle 0x194 x.tag s.toBlock }) ∧
  (∀ (i : Instr) (x : SlotCtx) (s : State) (g : Nat), clockSlot i = some x → s.freeze = none →
    physOf s.toBlock x.gal = some g → (gclk s.toBlock g).running = false →
    exec i s = .next { s with
      gals := { s.gals with clocks := mapSet clkRuns s.gals.clocks g { gclk s.toBlock g with restarting := true } }
      freeze := some { kind := .wakeHold, bundle := false, held := [heldForm s.toBlock i], gals := [g], ctr := 0, value := 0 } })

/-! ## The vector engine -/

/-- R155, R154, R159: a V slot that reaches its gallery takes the issue port in its cycle. It joins the engine's
instructions with the next number of the issue order, with its mask register as it is now; it holds the port for the
cycles that `vPortCycles` gives by R159; no register is written yet. That the mask is the one at issue is the model's
choice (log 30).
R155: the earlier instructions of the engine go on when the port is free, and are stopped in this cycle, with a program
fault of the new slot, when it is still occupied. -/
def Obligations.AVSlotTakesTheIssuePortOver : Prop :=
  (∀ (i : Instr) (x : SlotCtx) (s : State) (g : Nat), vSlot i = some x → reaches s.toBlock x g →
    answers i s (fun t =>
      (∃ j ∈ t.vec.jobs, j.instr = i ∧ j.gal = g ∧ j.ctx = x ∧ j.order = s.vec.issueOrder ∧ j.issue = cyc s.toBlock ∧
        j.stop = none ∧ j.mask = maskReg s.toBlock g (vMaskOf i).1 ∧
        j.pairing = (s.gals.quadPair && x.tag == 0)) ∧
      t.vec.issueOrder = s.vec.issueOrder + 1 ∧
      mapGet 0 t.vec.portFree g = cyc s.toBlock + vPortCycles i (s.gals.quadPair && x.tag == 0) ∧
      t.vec.tregs = s.vec.tregs ∧ t.vec.masks = s.vec.masks)) ∧
  (∀ (i : Instr) (x : SlotCtx) (s : State) (g : Nat), vSlot i = some x → reaches s.toBlock x g →
    answers i s (fun t =>
      (mapGet 0 s.vec.portFree g ≤ cyc s.toBlock → ∀ j ∈ s.vec.jobs, j ∈ t.vec.jobs) ∧
      (cyc s.toBlock < mapGet 0 s.vec.portFree g →
        (∀ j ∈ s.vec.jobs, j.gal = g → j.stop = none → { j with stop := some (cyc s.toBlock) } ∈ t.vec.jobs) ∧
        (∃ e ∈ t.logs.log, e = { kind := .program, gal := g, place := x.bundle, detail := 0x155, tag := x.tag }))))

/-- The frame of a V slot's issue: the registers, the masks, the lane flags and every result on its way stay as they are,
and nothing outside the vector engine changes but the freeze, a restarting gallery clock, the fault log and the step
status. -/
def Obligations.AVSlotChangesOnlyTheVectorEngine : Prop :=
  ∀ (i : Instr) (x : SlotCtx) (s t : State), vSlot i = some x → exec i s = .next t →
    t = { s with freeze := t.freeze, gals := { s.gals with clocks := t.gals.clocks }, logs := t.logs, bnd := t.bnd
                 vec := { s.vec with jobs := t.vec.jobs, portFree := t.vec.portFree, issueOrder := t.vec.issueOrder } }

/-- R157: eight mask registers of 256 bits, bit l for element l; K0 always reads as all ones and ignores writes. -/
def Obligations.MaskRegistersAndK0 : Prop :=
  ∀ (s : Block) (g v : Nat),
    maskReg s g 0 = 2 ^ 256 - 1 ∧ setMask g 0 v s = s ∧
    (∀ k, 1 ≤ k → k ≤ 7 → maskReg (setMask g k v s) g k = v % 2 ^ 256) ∧
    (∀ k h j, 1 ≤ k → k ≤ 7 → j ≤ 7 → (h, j) ≠ (g, k) → maskReg (setMask g k v s) h j = maskReg s h j) ∧
    (∀ m l, l < 256 → (maskList m)[l]? = some (m.testBit l))

/-- R159, R157: in the processing cycle of its tile `t`, a job of VMOV, VAND, VOR or VXOR, without quad pairing and with
a mask that carries no poison, sends one register write on its way: it is due two cycles later, to the register that the
destination's stride gives for the tile. An element whose mask bit is set and whose operands carry no poison is the
copy, or the bitwise and, or, exclusive or, of the operand elements. An element whose mask bit is clear is left as it
is, or cleared when mzero is set. No register changes yet. -/
def Obligations.BitwiseResultsAreTheBitwiseFunctions : Prop :=
  ∀ (j : VJob) (x : SlotCtx) (f : VecF) (t l : Nat) (s : Block),
    j.pairing = false → j.maskBad = false → l < 256 →
    ∀ ea eb : TElem, (operand s j.gal f.a t)[l]? = some ea → ea.poison = false →
    ∀ r : BitVec 32,
      (j.instr = .vmov x f ∧ r = ea.bits ∨
        ((operand s j.gal f.b t)[l]? = some eb ∧ eb.poison = false ∧
          (j.instr = .vand x f ∧ r = ea.bits &&& eb.bits ∨ j.instr = .vor x f ∧ r = ea.bits ||| eb.bits ∨
            j.instr = .vxor x f ∧ r = ea.bits ^^^ eb.bits))) →
      ∃ w, (vTile j t s).vec.writes = s.vec.writes ++ [w] ∧ w.due = cyc s + 2 ∧ w.gal = j.gal ∧ w.order = j.order ∧
        w.reg = runReg f.dst f.dstride 1 t ∧ (vTile j t s).vec.tregs = s.vec.tregs ∧
        (j.mask.testBit l = true → w.elems[l]? = some (some { bits := r, poison := false })) ∧
        (j.mask.testBit l = false → w.elems[l]? = some (if f.mzero % 2 = 1 then some elemZero else none))

/-- R50, R159: integer addition and subtraction of VADD and VSUB with fmt INT32 wrap modulo 2^32 when the sat bit is 0.
The element of every lane that the mask selects, of operands that carry no poison, is that sum or difference, four
cycles later. Stated without quad pairing. -/
def Obligations.IntegerAddAndSubtractWrap : Prop :=
  ∀ (j : VJob) (x : SlotCtx) (f : VecF) (t l : Nat) (s : Block),
    j.pairing = false → j.maskBad = false → l < 256 → j.mask.testBit l = true → f.fmt = 0x03 → f.sat % 2 = 0 →
    ∀ ea eb : TElem, (operand s j.gal f.a t)[l]? = some ea → (operand s j.gal f.b t)[l]? = some eb →
      ea.poison = false → eb.poison = false →
    ∀ r : BitVec 32,
      (j.instr = .vadd x f ∧ r = ea.bits + eb.bits ∨ j.instr = .vsub x f ∧ r = ea.bits - eb.bits) →
      ∃ w, (vTile j t s).vec.writes = s.vec.writes ++ [w] ∧ w.due = cyc s + 4 ∧ w.gal = j.gal ∧
        w.reg = runReg f.dst f.dstride 1 t ∧ w.elems[l]? = some (some { bits := r, poison := false })

/-- R154, R156: a register write that is due takes effect: the elements it gives replace those of the register, and the
others stay; no other register changes. Stated for one write on its way.
R155: of two instructions' writes that reach one register in the same cycle, a drain before VLD, VLD before any other
instruction, and at the same rank that of the later-issued instruction takes effect; the other is discarded with a
program fault. No injection of an SRAM event is armed for the gallery. -/
def Obligations.ADueWriteReachesItsRegister : Prop :=
  ∀ (s : Block) (w : VWrite), s.vec.mwrites = [] → s.vec.zwrites = [] → w.due ≤ cyc s →
    injects s 0x09 (locOf 3 w.gal 0 0 0 0) = false → injects s 0x0A (locOf 3 w.gal 0 0 0 0) = false →
    (s.vec.writes = [w] →
      treg (vCommit s) w.gal w.reg = mergeTile (treg s w.gal w.reg) w.elems ∧ (vCommit s).vec.writes = [] ∧
      (∀ g r, (g, r % 64) ≠ (w.gal, w.reg % 64) → treg (vCommit s) g r = treg s g r)) ∧
    (∀ v : VWrite, (s.vec.writes = [w, v] ∨ s.vec.writes = [v, w]) → v.due ≤ cyc s → v.gal = w.gal → v.reg = w.reg →
      v.order ≠ w.order →
      (w.rank < v.rank ∨ (w.rank = v.rank ∧ v.order < w.order)) →
      treg (vCommit s) w.gal w.reg = mergeTile (treg s w.gal w.reg) w.elems ∧
      (∃ e ∈ (vCommit s).logs.log, e.kind = .program ∧ e.gal = w.gal ∧ e.detail = 0x155) ∧
      (∀ g r, (g, r % 64) ≠ (w.gal, w.reg % 64) → treg (vCommit s) g r = treg s g r))

/-! ## The matrix arrays and landings -/

/-- R66 to R68: an MLOAD.W that reaches its gallery starts, in this cycle, a load on the weight port of every array it
names: the n-th array reads its elements from src + n * arr_stride and its scales from scale_src + n * arr_stride, each
moved by the gallery's M offset, into the buffer that is not active; what was on the port is gone. Under alcove pairing
both alcoves of a pair load the same. The arrays named are different ones.
R70, R71, R74: an MSTREAM that reaches its gallery starts a stream in this cycle, with pass 0, in the format and level
of its row descriptor, on the arrays it names, whose buffers it exchanges; an earlier stream on the same bus of the
alcove loses all its arrays. Under alcove pairing a second stream, which mirrors the first, starts on the odd alcove of
the pair.
R103, R108: an MOPEN is handed to the landing, and where nothing is on its way to its arrays the landing opens its group
in every array in the same cycle (`releaseOps` is what the landing does in a cycle with the operations it holds): the
group's units, format and anchor mode are those of the fields as R104 corrects them (`openPlan`), they lie in the 64
units of the array, its rows are clear, and it is not saturated. -/
def Obligations.LoadsStreamsAndGroupsStart : Prop :=
  (∀ (x : SlotCtx) (f : MloadF) (s : State) (g : Nat), reaches s.toBlock x g →
    (slotArrays s.toBlock x g (f.alcove % 8) f.first f.count).Nodup →
    answers (.mloadW x f) s (fun t =>
      ∀ alc, (alc = f.alcove % 8 ∨ (alc = f.alcove % 8 + 1 ∧ pairAlcove s.toBlock x (f.alcove % 8) = true)) →
      ∀ n arr, (namedArrays s.toBlock x.gal g alc f.first f.count)[n]? = some arr → ∃ j, portJob t arr = some j ∧
        j.start = cyc s.toBlock ∧ j.buf = 1 - activeBuf s.toBlock arr ∧ j.words = [] ∧ j.scaleBytes = [] ∧
        j.par.fmt = (elemFmt f.fmt).1 ∧ j.par.width = f.width % 16 ∧ j.par.lvl = f.lvl % 256 ∧
        j.par.src = f.src + x.moff + n * f.arrStride ∧ j.par.scaleSrc = f.scaleSrc + x.moff + n * f.arrStride ∧
        (wbuf t arr j.buf).complete = false ∧ activeBuf t arr = activeBuf s.toBlock arr)) ∧
  (∀ (x : SlotCtx) (f : MstreamF) (s : State) (g : Nat), reaches s.toBlock x g →
    (slotArrays s.toBlock x g (f.alcove % 8) f.first f.count).Nodup →
    let d := tensorDesc s.toBlock x.bank f.rowDesc
    answers (.mstream x f) s (fun t =>
      (∃ r ∈ t.arr.streams, r.id = s.arr.streamCount ∧ r.gal = g ∧ r.alc = f.alcove % 8 ∧ r.f = f ∧ r.ctx = x ∧
        r.passStart = cyc s.toBlock ∧ r.pass = 0 ∧ r.fmt = (elemFmt (tdFmt d)).1 ∧ r.lvl = tdLvl d ∧ r.mirror = false ∧
        (pairAlcove s.toBlock x (f.alcove % 8) = false →
          r.arrays.map (·.arr) = namedArrays s.toBlock x.gal g (f.alcove % 8) f.first f.count)) ∧
      (pairAlcove s.toBlock x (f.alcove % 8) = true →
        ∃ r ∈ t.arr.streams, r.id = s.arr.streamCount + 1 ∧ r.gal = g ∧ r.alc = f.alcove % 8 + 1 ∧ r.f = f ∧ r.ctx = x ∧
          r.passStart = cyc s.toBlock ∧ r.pass = 0 ∧ r.fmt = (elemFmt (tdFmt d)).1 ∧ r.lvl = tdLvl d ∧ r.mirror = true ∧
          r.arrays.map (·.arr) = namedArrays s.toBlock x.gal g (f.alcove % 8 + 1) f.first f.count) ∧
      (∀ arr ∈ slotArrays s.toBlock x g (f.alcove % 8) f.first f.count, activeBuf t arr = 1 - activeBuf s.toBlock arr) ∧
      (∀ o ∈ s.arr.streams, o.gal = g → o.alc = f.alcove % 8 → o.f.bus % 4 = f.bus % 4 →
        ∃ r ∈ t.arr.streams, r.id = o.id ∧ r.arrays = []))) ∧
  (∀ (x : SlotCtx) (f : MopenF) (s : State) (g : Nat), reaches s.toBlock x g → s.arr.contribs = [] → s.arr.held = [] →
    answers (.mopen x f) s (fun t =>
      ∀ arr ∈ slotArrays s.toBlock x g (f.alcove % 8) f.first f.count, ∃ v, openGroup (releaseOps t) arr f.group = some v ∧
        v.base = (openPlan f).1 ∧ v.s = (openPlan f).2.1 ∧ v.wide = (openPlan f).2.2.1 ∧ slotEnd v ≤ 64 ∧ 0 < v.s ∧
        v.mode = f.mode % 4 ∧ v.anchor = signed 10 f.anchor ∧ v.gsat = false ∧
        ∀ i, i < v.s → lrow (releaseOps t) arr (slotUnit v i) = lrowClear v.wide))

/-- R108: an MOPEN, MCLOSE, MDRAIN or MSHIFT is handed to the landing, behind the operations held there already; the
instruction itself opens, closes, drains and shifts nothing. While a contribution that was fed before it, or an earlier
operation that waits for one, is on its way in an array it names, the landing holds it (`releaseOps` is what the landing
does in a cycle with the operations it holds).
R106, R107: where nothing is on its way the landing performs it in the same cycle. MCLOSE and MDRAIN hand one drain, of
the rows that the open group of that number has in the named arrays, to a converter that is free, which starts it;
MCLOSE closes the group, MDRAIN leaves it open and with its clear bit clears its rows; no row has a residue error, and
the alcoves are not paired. MSHIFT adds its k, the immediate or the element of the tile register that its ksrc names, to
the anchor of each row of its range that is not empty, where the anchor stays in its range; the elements and the other
rows stay.
R107: an MSHIFT whose ksrc is 64 to 126 changes no row: the program fault is its only effect. -/
def Obligations.LandingOperationsActOrWait : Prop :=
  (∀ (i : Instr) (x : SlotCtx) (s : State) (g : Nat) (arrs : List Nat), reaches s.toBlock x g →
    ((∃ f, i = .mopen x f ∧ arrs = slotArrays s.toBlock x g (f.alcove % 8) f.first f.count) ∨
      (∃ f, (i = .mclose x f ∨ i = .mdrain x f) ∧ arrs = slotArrays s.toBlock x g (f.alcove % 8) f.first f.count) ∨
      (∃ f, i = .mshift x f ∧ (f.ksrc % 128 = 0x7F ∨ f.ksrc % 128 < 64) ∧
        arrs = slotArrays s.toBlock x g (f.alcove % 8) f.first f.count)) →
    answers i s (fun t => ∃ h, t.arr.held = s.arr.held ++ [h] ∧ h.op = i ∧ h.gal = g ∧ h.arrays = arrs ∧
      h.order = s.vec.issueOrder ∧ h.issue = cyc s.toBlock ∧ t.arr.groups = s.arr.groups ∧ t.arr.rows = s.arr.rows ∧
      t.vec.convs = s.vec.convs ∧
      ((∃ c ∈ s.arr.contribs, c.lastBeat ≤ cyc s.toBlock ∧ c.arr ∈ arrs) ∨
          (∃ k ∈ s.arr.held, opWaits s.toBlock k = true ∧ shares k.arrays arrs = true) →
        h ∈ (releaseOps t).arr.held))) ∧
  (∀ (x : SlotCtx) (s : State) (g : Nat), reaches s.toBlock x g → s.arr.contribs = [] → s.arr.held = [] →
    s.gals.alcPair = false →
    (∀ f : DrainF,
      let arrs := namedArrays s.toBlock x.gal g (f.alcove % 8) f.first f.count
      let grp := fun arr => openGroup s.toBlock arr f.group
      (∃ arr ∈ arrs, (grp arr).isSome = true) → conv s.toBlock g f.alcove = convIdle →
      (∀ arr ∈ arrs, ∀ v, grp arr = some v → slotEnd v ≤ 64 ∧ ∀ k, k < v.s → residueBad (lrow s.toBlock arr (slotUnit v k)) = []) →
      let drains := fun (b : Block) => ∃ j, (conv b g f.alcove).cur = some j ∧ j.f = f ∧ j.order = s.vec.issueOrder ∧
        j.start = cyc s.toBlock ∧ j.next = 0 ∧ j.rows = arrs.flatMap (fun arr => (grp arr).elim [] (drainRows s.toBlock arr))
      answers (.mclose x f) s (fun t => (releaseOps t).arr.held = [] ∧ drains (releaseOps t) ∧
        ∀ arr ∈ arrs, openGroup (releaseOps t) arr f.group = none ∧
          ∀ v, grp arr = some v → lgroup (releaseOps t) arr f.group = some { v with closeAt := some (cyc s.toBlock) }) ∧
      answers (.mdrain x f) s (fun t => (releaseOps t).arr.held = [] ∧ drains (releaseOps t) ∧
        ∀ arr ∈ arrs, ∀ v, grp arr = some v →
          (f.clear % 2 = 0 → grp arr = openGroup (releaseOps t) arr f.group ∧
            ∀ k, k < v.s → lrow (releaseOps t) arr (slotUnit v k) = lrow s.toBlock arr (slotUnit v k)) ∧
          (f.clear % 2 = 1 → openGroup (releaseOps t) arr f.group = some { v with gsat := false } ∧
            ∀ k, k < v.s → lrow (releaseOps t) arr (slotUnit v k) = lrowClear v.wide))) ∧
    (∀ (f : MshiftF) (k : Nat → Int),
      let arrs := namedArrays s.toBlock x.gal g (f.alcove % 8) f.first f.count
      ((f.ksrc % 128 = 0x7F ∧ ∀ i, k i = signed 11 f.kimm) ∨
        (f.ksrc % 128 < 64 ∧ ∀ i, i < 64 → ∃ e : TElem, (treg s.toBlock g (f.ksrc % 128))[i]? = some e ∧ e.poison = false ∧
          k i = signed 32 e.bits.toNat)) →
      arrs.Nodup → (∀ arr ∈ arrs, ∀ v, openGroup s.toBlock arr f.group = some v → slotEnd v ≤ 64) →
      answers (.mshift x f) s (fun t => (releaseOps t).arr.held = [] ∧
        ∀ arr ∈ arrs, ∀ v, openGroup s.toBlock arr f.group = some v → ∀ i, i < v.s →
          let r := lrow s.toBlock arr (slotUnit v i)
          (f.row0 % 64 ≤ i → i ≤ f.row0 % 64 + f.nrows % 64 → r.empty = false → -1023 ≤ k i → k i ≤ 1023 →
            -512 ≤ r.anchor + k i → r.anchor + k i ≤ 511 →
            lrow (releaseOps t) arr (slotUnit v i) = { r with anchor := r.anchor + k i }) ∧
          (i < f.row0 % 64 ∨ f.row0 % 64 + f.nrows % 64 < i ∨ r.empty = true →
            lrow (releaseOps t) arr (slotUnit v i) = r)))) ∧
  (∀ (x : SlotCtx) (f : MshiftF) (s : State) (g : Nat), reaches s.toBlock x g → 64 ≤ f.ksrc % 128 → f.ksrc % 128 ≤ 126 →
    exec (.mshift x f) s = .next { s with toBlock := logFault .program g x.bundle 0x107 x.tag s.toBlock })

/-- R171: VFLG copies the flag bytes of the current job's bank into the four registers dst to dst + 3, the byte of lane
l of quad q to element l of register dst + q, as INT32; with aux bit 0 it then clears those lane flags, from the same
cycle's values. That lanes which its mask leaves out keep their flags is the model's choice (log 30). Its mask carries
no poison, and no injection of a quad-pair mismatch is armed. -/
def Obligations.VflgCopiesAndClearsTheFlagBytes : Prop :=
  ∀ (j : VJob) (x : SlotCtx) (f : VecF) (t : Nat) (s : Block), j.instr = .vflg x f → j.maskBad = false →
    (j.pairing = false ∨ ∀ q, injects s 0x11 (locOf 2 j.gal 0 0 0 q) = false) →
    ∃ ws : List VWrite, (vTile j t s).vec.writes = s.vec.writes ++ ws ∧ ws.length = 4 ∧
      ∀ q l v, q < 4 → l < 256 → (laneFlags s j.gal (flagBank j.ctx.tag) q)[l]? = some v →
        (j.mask.testBit l = true →
          (∃ w, ws[q]? = some w ∧ w.gal = j.gal ∧ w.reg = (f.dst + q) % 64 ∧ w.order = j.order ∧ w.due = cyc s + 2 ∧
            w.elems[l]? = some (some { bits := BitVec.ofNat 32 v, poison := false })) ∧
          (laneFlags (vTile j t s) j.gal (flagBank j.ctx.tag) q)[l]? = some (if f.aux.testBit 0 then 0 else v)) ∧
        (j.mask.testBit l = false →
          (laneFlags (vTile j t s) j.gal (flagBank j.ctx.tag) q)[l]? = some v)

/-! ## Synchronisation, modes and windows -/

/-- R208: SSIGNAL adds VALUE to counter CTR of the gallery of its slot when TARGET is 0x3F, and of the physical gallery
bound to logical gallery TARGET otherwise; a TARGET above 47 other than 0x3F is a program fault and has no effect. The sum
stays at 2^32 - 1 (R206). The counter is one that the slot's program may name (R206). -/
def Obligations.SsignalAddsItsValue : Prop :=
  ∀ (x : SlotCtx) (ctr value target : Nat) (s : State) (g0 : Nat), reaches s.toBlock x g0 →
    ctrOk x.tag ctr = true → ctr < 256 → value < 2 ^ 32 → target < 64 →
    (∀ g, (target = 0x3F ∧ g = g0) ∨ (target ≤ 47 ∧ physOf s.toBlock target = some g) →
      answers (.ssignal x ctr value target) s (fun t =>
        tokVal t g ctr = min (2 ^ 32 - 1) (tokVal s.toBlock g ctr + value) ∧
        ∀ h c, c < 256 → (h, c) ≠ (g, ctr) → tokVal t h c = tokVal s.toBlock h c)) ∧
    (47 < target → target ≠ 0x3F →
      exec (.ssignal x ctr value target) s =
        .next { s with toBlock := logFault .program g0 x.bundle 0x208 x.tag s.toBlock })

/-- R207: an SWAIT of the main program whose counter shows at least VALUE subtracts it, and nothing freezes; otherwise a
stall freezes the module and nothing is subtracted. The counter shows what was recorded before the last two cycles
(`tokVisible`); `tokSum` is its value with every recorded increment, which the cap of R206 limits. An SWAIT with VALUE 0
never stalls. -/
def Obligations.SwaitSubtractsOrStalls : Prop :=
  ∀ (x : SlotCtx) (ctr value : Nat) (s : State) (g : Nat), reaches s.toBlock x g →
    x.tag = 0 → ctr < 240 → value < 2 ^ 32 →
    (value ≤ tokVisible s.toBlock g ctr →
      answers (.swait x ctr value) s (fun t =>
        tokSum t g ctr = tokSum s.toBlock g ctr - value ∧
        tokVal t g ctr = min (2 ^ 32 - 1) (tokSum s.toBlock g ctr - value) ∧ t.freeze = none ∧
        ∀ h c, c < 256 → (h, c) ≠ (g, ctr) → tokVal t h c = tokVal s.toBlock h c)) ∧
    (tokVisible s.toBlock g ctr < value →
      exec (.swait x ctr value) s = .next { s with
        freeze := some { kind := .stall, bundle := false, held := [], gals := [g], ctr, value } }) ∧
    (value = 0 → answers (.swait x ctr value) s (fun t => t.freeze = none ∧ tokSum t g ctr = tokSum s.toBlock g ctr))

/-- R217: CHECKED of the main program sets the modes that come into force at the next bundle; the modes in force stay
until then. R369: in the rebuild of a takeover it is a program fault and nothing more.
R218, R91: CWAKE on a running gallery starts the ramp up of each alcove in its mask that is gated or ramps down; one
whose floor holds its frozen value is there at once and its gap starts anew; no other keeper changes; a frozen floor of
0 leaves nothing to ramp. On a gallery whose clock is stopped it restarts the clock and notes what to wake. -/
def Obligations.CheckedAndCwakeSetModesAndRamps : Prop :=
  ((∀ (x : SlotCtx) (a q : Nat) (s : State), s.freeze = none → x.tag = 0 →
    (rebuilding s.toBlock = false →
      exec (.checked x a q) s = .next { s with gals := { s.gals with nextPair := some (a % 2 == 1, q % 2 == 1) } }) ∧
    (rebuilding s.toBlock = true → exec (.checked x a q) s = .next { s with
      toBlock := logFault .program 255 x.bundle 0x369 x.tag s.toBlock })) ∧
  (∀ (b : Block) (a q : Bool), b.gals.nextPair = some (a, q) →
    (takePairing b).gals.alcPair = a ∧ (takePairing b).gals.quadPair = q ∧ (takePairing b).gals.nextPair = none) ∧
  (∀ b : Block, b.gals.nextPair = none → takePairing b = b)) ∧
  (∀ (x : SlotCtx) (mask ve : Nat) (s : State) (g : Nat), s.freeze = none → physOf s.toBlock x.gal = some g →
    ((gclk s.toBlock g).running = true →
      answers (.cwake x mask ve) s (fun t =>
        ∀ h a, a < 8 →
          let k := keeper s.toBlock h a
          (h = g → mask.testBit a = true → (k.phase = .gated ∨ k.phase = .rampDown) →
            keeper t h a = if k.frozen = 0 then { k with phase := .steady, gap := 0, ramp := 0 } else { k with phase := .rampUp }) ∧
          (h = g → mask.testBit a = true → k.phase = .steady → keeper t h a = { k with gap := 0 }) ∧
          (h ≠ g ∨ mask.testBit a = false ∨ k.phase = .rampUp → keeper t h a = k))) ∧
    ((gclk s.toBlock g).running = false →
      answers (.cwake x mask ve) s (fun t => (gclk t g).restarting = true ∧
        (gclk t g).wakeAlcoves = (gclk s.toBlock g).wakeAlcoves ||| mask % 256 ∧
        (gclk t g).wakeVe = ((gclk s.toBlock g).wakeVe || ve % 2 == 1) ∧ t.gals.keepers = s.gals.keepers)))

/-- R214: SIDE of the main program opens a window on its gallery, for the side sequencer of that gallery's hall, from the
cycle after the bundle for LENGTH cycles, in which no main bundle issues; a LENGTH of 0 opens none.
R215: when the queue of a hall is due for examination in its window, the first slice of the queue that fits is placed: it
leaves the queue, it starts now, and the values of its entry conditions are subtracted in the galleries that its bundles
name (the model's choice, log 80). Where none fits the window stays free, and nothing is subtracted. -/
def Obligations.SideWindowsTakeTheFirstFittingSlice : Prop :=
  (∀ (x : SlotCtx) (length mask ve : Nat) (s : State) (g : Nat), reaches s.toBlock x g → g < 50 →
    x.tag = 0 → rebuilding s.toBlock = false → length < 65536 →
    (length = 0 → exec (.side x length mask ve) s = .next s) ∧
    (0 < length → answers (.side x length mask ve) s (fun t =>
      (∃ w, t.side = s.side ++ [w] ∧ w.hall = galHall g ∧ w.start = cyc s.toBlock + 1 ∧
        w.stop = cyc s.toBlock + 1 + length ∧ w.gals = [g] ∧
        w.alcoves = mask % 256 ∧ w.ve = (ve % 2 == 1) ∧ w.examine = true ∧ w.slice = none) ∧
      t.clk.nextIssue = max s.clk.nextIssue (cyc s.toBlock + 1 + length)))) ∧
  (∀ (hall : Nat) (s : State) (w : SideWin), hall < 2 → halls s.toBlock = true → s.freeze = none →
    s.side.filter (fun w => w.hall == hall && placeDue (cyc s.toBlock) w) = [w] →
    (∀ q : SideSlice, (sideQueue s.toBlock hall).find? (sliceFits s.toBlock w) = some q → (∀ c ∈ q.conds, c.1 < 256) →
      answers (.sideSlicePlace hall) s (fun t =>
        sideQueue t hall = (sideQueue s.toBlock hall).erase q ∧
        { w with slice := some q, examine := false, due := cyc s.toBlock, sliceEnd := cyc s.toBlock + q.len } ∈ t.side ∧
        ∀ g ctr, ctr < 256 → tokSum t g ctr =
          if g ∈ sliceGals s.toBlock q.bundles.length q.bundles
            then tokSum s.toBlock g ctr - ((q.conds.filter (fun c => c.1 == ctr)).map (·.2)).sum
            else tokSum s.toBlock g ctr)) ∧
    ((sideQueue s.toBlock hall).find? (sliceFits s.toBlock w) = none →
      answers (.sideSlicePlace hall) s (fun t =>
        sideQueue t hall = sideQueue s.toBlock hall ∧ { w with slice := none, examine := false } ∈ t.side ∧ t.tok = s.tok)))

/-- R211 step 1: SBOUND of a program that issues ends the issue of bundles and begins the drain of the step.
R193, R194, R196, R207: a bundle that is due issues, the next one of the run list: it leaves the program, the bundle
after it is due 1 + IDLE cycles later, it counts, and its slots take effect in order on that state, each on the
galleries that the bundle names. A bundle whose header is wrong does nothing but a program fault. A bundle with an SWAIT
issues when every gallery shows the value, which is subtracted first; otherwise the module stalls and nothing of the
bundle issues.
R193: what a slot of a bundle does on a gallery that it reaches is what the command of its opcode and fields does; the
SWAIT has done its work when the bundle issues. Outside the bundles of a takeover's rebuild, with the words of the
bundle good in both copies, no CHECKED pending and no injection armed at the fetch or the hall bridge. -/
def Obligations.BundlesIssueUntilSbound : Prop :=
  (∀ s : State, s.freeze = none → rebuilding s.toBlock = false → s.prog.issuing = true →
    exec .sbound s = .next { s with
      bnd := { s.bnd with phase := .draining, sboundTick := s.clk.tick }, prog := { s.prog with issuing := false } }) ∧
  (∀ s : State, mayIssue s.toBlock = true → s.clk.nextIssue ≤ cyc s.toBlock → s.prog.runList ≠ [] → s.gals.nextPair = none →
    injects s.toBlock 0x09 (domLoc 10) = false → injects s.toBlock 0x0A (domLoc 10) = false →
    injects s.toBlock 0x0F (domLoc 8) = false →
    let h := leNat (bufBytes s.toBlock s.prog.offset 8)
    let b := bufBytes s.toBlock s.prog.offset (8 * max 1 (fld h 0 8))
    let slots := rawSlots (fld h 8 7) b
    let xs := bundleCtxs s.toBlock 0 s.prog.offset s.prog.lastBank h
    let gals := xs.filterMap (fun x => physOf s.toBlock x.gal)
    (∀ w ∈ range' (s.prog.offset / 8) (max 1 (fld h 0 8)), w ∉ s.prog.badA ∧ w ∉ s.prog.badB) →
    (∀ b : Block, (advanceBundle h b).clk.nextIssue = cyc b + 1 + fld h 24 16 ∧
      (advanceBundle h b).clk.issued = b.clk.issued + 1) ∧
    (bundleBad h = true → exec .bundleIssue s = .next { s with
      toBlock := logFault .program 255 s.prog.offset 0x194 0 (advanceBundle h s.toBlock) }) ∧
    (bundleBad h = false → xs ≠ [] →
      (bundleWait slots = none → exec .bundleIssue s = .next { s with
        toBlock := forEach slots (runSlot xs) (advanceBundle h s.toBlock) }) ∧
      (∀ ctr v, bundleWait slots = some (ctr, v) → (∀ g ∈ gals, (gclk s.toBlock g).running = true) →
        ((∀ g ∈ gals, v ≤ tokVisible s.toBlock g ctr) → exec .bundleIssue s = .next { s with
          toBlock := forEach slots (runSlot xs) (advanceBundle h (waitTake gals ctr v s.toBlock)) }) ∧
        ((∃ g ∈ gals, tokVisible s.toBlock g ctr < v) → exec .bundleIssue s = .next { s with
          freeze := some { kind := .stall, bundle := true, held := [], gals, ctr, value := v } })))) ∧
  (∀ (s : State) (x : SlotCtx) (c : Nat × Nat) (i : Instr) (g : Nat), slotOf s.toBlock x c = some i →
    reaches s.toBlock x g → rebuilding s.toBlock = false →
    ((∀ ctr v, i ≠ .swait x ctr v) → exec i s = .next { s with toBlock := runSlot [x] c s.toBlock }) ∧
    (∀ ctr v, i = .swait x ctr v → ctrOk x.tag ctr = true → runSlot [x] c s.toBlock = s.toBlock))

/-! ## Events of the clock -/

/-- The cycle in which an event of the data plane comes (log 2): LANDING_WRITE, a contribution reaches its landing;
LANDING_OP_RELEASE, a held landing operation acts; DRAIN_START, a waiting drain starts; RAMP_DOWN_START, RAMP_DOWN_END and
RAMP_UP_END, a keeper's ramp starts or ends. `goal` says that it has come; it does so first after `n` cycles. -/
def Obligations.AnEventComesWithItsCycle : Prop :=
  ∀ (i : Instr) (s : State) (goal : Block → Bool) (limit n : Nat), halls s.toBlock = true →
    ((i = .landingWrite ∧ limit = 4096 ∧ s.arr.contribs ≠ [] ∧
        goal = fun t => s.arr.contribs.any (fun c => !(t.arr.contribs.contains c))) ∨
      (i = .landingOpRelease ∧ limit = 65536 ∧ s.arr.held ≠ [] ∧
        goal = fun t => s.arr.held.any (fun h => !(t.arr.held.any (fun k => k.order == h.order)))) ∨
      (i = .drainStart ∧ limit = 65536 ∧ waitingDrains s.toBlock ++ s.arr.held.map (·.order) ≠ [] ∧
        goal = fun t => (waitingDrains s.toBlock ++ s.arr.held.map (·.order)).any (fun o =>
          t.vec.convs.any (fun e => match e.2.cur with | some j => j.order == o | none => false))) ∨
      (∃ g a, g < 50 ∧ a < 8 ∧ i = .rampDownStart g a ∧ limit = 3401 ∧ inPhase .steady g a s.toBlock = true ∧
        procRuns s.toBlock 1 = true ∧ goal = inPhase .rampDown g a) ∨
      (∃ g a, g < 50 ∧ a < 8 ∧ i = .rampDownEnd g a ∧ limit = 17001 ∧ inPhase .rampDown g a s.toBlock = true ∧
        goal = inPhase .gated g a) ∨
      (∃ g a, g < 50 ∧ a < 8 ∧ i = .rampUpEnd g a ∧ limit = 17001 ∧ inPhase .rampUp g a s.toBlock = true ∧
        goal = inPhase .steady g a)) →
    n ≤ limit → goal (iter autoCycle n s.toBlock) = true → (∀ k, k < n → goal (iter autoCycle k s.toBlock) = false) →
    exec i s = .next { s with toBlock := iter autoCycle n s.toBlock }

/-- R89, R91, R209: a current-keeper cycle is one cycle of the clock. Where no real beat waits for its alcove's ramp, the
keepers act, the units do their work and the cycle counts; in a frozen module the keepers act and the cycle counts, and no
unit works. In a cycle in which n arrays of an alcove take a real beat the floor is the mean of the last 1,024 counts, and
where n is below it dummy beats make up the difference; without a real beat the frozen floor is held for 3,400 cycles.
R90: what the keepers do in a cycle changes the keepers, the count of dummy beats and the keeper sink, nothing else: no
landing, flag, residue, counter, token counter or weight buffer.
R218: a gallery's clock stops when its alcoves are gated, its vector engine is idle, no descriptor of it is queued and no
wake is pending; a restarting clock runs again and the alcoves of the pending wake begin their ramps. -/
def Obligations.KeeperCyclesAndGalleryClocks : Prop :=
  ((∀ s : State, halls s.toBlock = true →
    (s.freeze = none → rampDue s.toBlock = [] → exec .currentKeeperCycle s = .next { s with
      toBlock := cycleCount (cycleWork (keepersCycle true s.toBlock)) }) ∧
    (s.freeze ≠ none → answers .currentKeeperCycle s (fun t => t.clk.cycle = s.clk.cycle + 1 ∧ t.clk.fcyc = s.clk.fcyc ∧
      t.clk.heldCycles = s.clk.heldCycles + 1 ∧ t.freeze = s.freeze ∧ t.gals.keepers = (keepersCycle false s.toBlock).gals.keepers ∧
      t.vec = s.vec ∧ t.queues = s.queues ∧ t.mem = s.mem ∧ t.mezz = s.mezz))) ∧
  (∀ (beats : Bool) (key : Nat) (s : Block),
    let k := keeper s (key / 8) (key % 8)
    let n := if beats then alcoveBeats s (key / 8) (key % 8) else 0
    let mean := k.hist.foldl (· + ·) 0 / 1024
    let r := keeper (keeperStep beats key s) (key / 8) (key % 8)
    (0 < n → r.floor = mean ∧ r.frozen = mean ∧ r.gap = 0 ∧ r.phase = .steady ∧ n + r.dummies = max n mean) ∧
    (n = 0 → k.phase = .steady → k.gap + 1 < 3400 →
      r.floor = k.frozen ∧ r.frozen = k.frozen ∧ r.gap = k.gap + 1 ∧ r.phase = .steady ∧ r.dummies = k.frozen)) ∧
  (∀ (beats : Bool) (s : Block), keepersCycle beats s = { s with
    gals := { s.gals with keepers := (keepersCycle beats s).gals.keepers, dummyBeats := (keepersCycle beats s).gals.dummyBeats }
    arr := { s.arr with keeperSink := (keepersCycle beats s).arr.keeperSink } })) ∧
  (∀ (s : State) (g : Nat), g < 50 →
    ((gclk s.toBlock g).running = true → alcovesGated s.toBlock g = true → veIdle s.toBlock g = true →
      (∀ d ∈ s.queues.descs, d.gal ≠ g) → (gclk s.toBlock g).wakeAlcoves = 0 → (gclk s.toBlock g).wakeVe = false →
      answers (.galleryClockStop g) s (fun t => (gclk t g).running = false ∧
        ∀ h, h ≠ g → gclk t h = gclk s.toBlock h)) ∧
    ((gclk s.toBlock g).restarting = true → halls s.toBlock = true →
      answers (.galleryClockRestart g) s (fun t => gclk t g = clkRuns ∧
        ∀ a, a < 8 → keeper t g a =
          if (gclk s.toBlock g).wakeAlcoves.testBit a then keeperUp (keeper s.toBlock g a) else keeper s.toBlock g a)))

/-- R209: the freeze ends when its condition holds, and the slots that it kept take effect in order: the stall of an
SWAIT, whose value is subtracted first; a queue hold; a wake hold; a ramp hold whose ramps have ended. A kept slot then
does what its command does. A bundle that an SWAIT stalled issues (R207). That the kept slots act in order and a stopped
bundle issues anew is the model's choice (log 23).
R209, R335: the end of a fetch hold takes the words of the bundle from the other hall's copy, and the bundle that
waited, stated for one with a good header and no SWAIT, issues. No injection is armed at the hall bridge. -/
def Obligations.FreezesEndWithTheirSlots : Prop :=
  (∀ (s : State) (z : Freeze), s.freeze = some z → z.bundle = false → freezeMet s.toBlock z = true →
    (z.kind = .stall → exec .stallRelease s = .next { s with
      toBlock := forEach z.held doHeld { waitTake z.gals z.ctr z.value s.toBlock with freeze := none } }) ∧
    (∀ i, (z.kind = .queueHold ∧ i = .queueHoldEnd) ∨ (z.kind = .wakeHold ∧ i = .wakeHoldEnd) ∨
        (z.kind = .rampHold ∧ i = .rampHoldEnd) →
      exec i s = .next { s with toBlock := forEach z.held doHeld { s.toBlock with freeze := none } })) ∧
  (∀ (i : Instr) (x : SlotCtx) (s : State), anySlot i = some x →
    exec i s = .next { s with toBlock := doHeld (.slot i []) s.toBlock }) ∧
  (∀ (s : State) (z : Freeze), s.freeze = some z → z.bundle = true → z.held = [] → s.prog.issuing = true →
    injects s.toBlock 0x0F (domLoc 8) = false →
    let h := leNat (bufBytes s.toBlock s.prog.offset 8)
    let slots := rawSlots (fld h 8 7) (bufBytes s.toBlock s.prog.offset (8 * max 1 (fld h 0 8)))
    let xs := bundleCtxs s.toBlock 0 s.prog.offset s.prog.lastBank h
    bundleBad h = false → xs ≠ [] →
    (z.kind = .stall → (∀ g ∈ z.gals, z.value ≤ tokVisible s.toBlock g z.ctr) → exec .stallRelease s = .next { s with
      toBlock := forEach slots (runSlot xs) (advanceBundle h { waitTake z.gals z.ctr z.value s.toBlock with freeze := none }) }) ∧
    (z.kind = .fetchHold → bundleWait slots = none → exec .fetchHoldEnd s = .next { s with
      toBlock := forEach slots (runSlot xs) (advanceBundle h { s.toBlock with
        freeze := none
        prog := { s.prog with badA := s.prog.badA.filter (fun w => !((range' (s.prog.offset / 8)
          (max 1 (fld h 0 8))).contains w)) } }) }))

/-! ## Descriptors and collectives -/

/-- R204, R199, R491: a D slot that reaches a gallery whose queue has room puts its descriptor at the end of the queue,
with the next number; a format fault is logged for each code of its transfer descriptor that is no legal one
(`descFaults`). The units that the race of R492 lets move early move now (`moveUnits`).
R204: a D slot of the main program for a gallery with 64 descriptors raises a queue hold that keeps the slot and shows
in the step status; one of a side program is discarded as a side fault (R216). -/
def Obligations.DSlotsQueueTheirDescriptors : Prop :=
  (∀ (x : SlotCtx) (f : DslotF) (s : State) (g op : Nat) (i : Instr), reaches s.toBlock x g → ctrOk x.tag f.token = true →
    queuedD s.toBlock g < 64 →
    ((op = 1 ∧ i = .dget x f) ∨ (op = 2 ∧ i = .dput x f) ∨ (op = 3 ∧ i = .dmov x f)) →
    let d : Desc := { id := s.queues.nextId, op, gal := g, gals := [g], ctx := x, slot := f, adesc := 0, token := f.token,
                      performed := false, failed := false }
    let b := descFaults g x op (xferDesc s.toBlock ((f.xdesc + x.xoff) % 4096)) s.toBlock
    exec i s = .next { s with toBlock := moveUnits d true { b with
      queues := { s.queues with descs := s.queues.descs ++ [d], nextId := s.queues.nextId + 1 } } }) ∧
  (∀ (x : SlotCtx) (f : DslotF) (s : State) (g : Nat) (i : Instr), reaches s.toBlock x g → ctrOk x.tag f.token = true →
    64 ≤ queuedD s.toBlock g → (i = .dget x f ∨ i = .dput x f ∨ i = .dmov x f) →
    (x.tag = 0 → exec i s = .next { s with
      bnd := { s.bnd with bits := putBit s.bnd.bits 2 true }
      freeze := some { kind := .queueHold, bundle := false, held := [.slot i []], gals := [g], ctr := 0, value := 0 } }) ∧
    (x.tag ≠ 0 → exec i s = .next { s with toBlock := logFault .side g x.bundle 0x204 x.tag s.toBlock }))

/-- R204, R290: an A slot that reaches a gallery whose hall's queue has room puts its descriptor at the end of the
queue, with the next number, and issues its collective for the members of its group, in the mode of its row (`aIssued`).
R304: ASEND sends to the rank its group field names, or fails where no slot has it. In token-only mode it sends one
TOKEN packet with TVAL 1 for its counter. In data mode it reads count bytes from src and sends them in MWRITE packets of
at most 8,192 bytes, to dst plus the queue slot of its issue, of which the last carries TVAL 1.
R292, R294, R301, R303: ARED, AGATH in push mode and AGATH in reuse mode with its slot disabled begin the ready round.
ARED first zeroes every shard it owns in dst, and its exponent word comes from expaddr; AGATH's is -2^31. AGATH in reuse
mode with its slot enabled completes without traffic where the slot's tag matches, and otherwise copies its own shards
and pulls every other by RREQ. A group that does not have the form its tiers need fails with a format fault.
R204: an A slot of the main program for a hall with 256 descriptors raises a queue hold that keeps the slot and shows in
the step status; one of a side program is discarded as a side fault (R216). The fault of a mode code 2 and the layout of
the ready message are the model's choices (logs 46 and 42). -/
def Obligations.AnASlotStartsItsCollective : Prop :=
  ∀ (x : SlotCtx) (f : AslotF) (s : State) (g : Nat), reaches s.toBlock x g → ctrOk x.tag f.token = true →
    let cid := f.adesc % 1024
    let d := collDesc s.toBlock cid
    let id := s.queues.nextId
    let me := s.arc.slot
    (queuedA s.toBlock (galHall g) < 256 →
      (let dst := rankSlot s.toBlock (cdGroup d % 64)
       let b := fun mode => modColl id (fun c => { c with phase := 5 }) (aIssued 11 mode g x f s.toBlock)
       (dst = 127 → exec (.asendData x f) s = .next { s with toBlock := failDesc (id + 1) (b 0) } ∧
         exec (.asendTokenOnly x f) s = .next { s with toBlock := failDesc (id + 1) (b 1) }) ∧
       (dst ≠ 127 →
         (∃ p : Packet, exec (.asendTokenOnly x f) s = .next { s with toBlock := sendPacket (id + 1) p (b 1) } ∧
           p.dst = dst ∧ p.vc = cdVc d ∧ p.data = [] ∧ phOp p.header = 3 ∧ phTgal p.header = cdTgal d ∧
           phTctr p.header = cdTctr d ∧ phTval p.header = 1) ∧
         (0 < cdCount d →
           let n := cdCount d
           let k := mapGet 0 s.colls.sendIndex cid
           let at' := cdDst d + (if cdQslots d = 0 then 0 else k % cdQslots d * (ceilDiv n 256 * 256))
           let r := memRead (descHall (b 0) id) (cdSrc d) n { b 0 with
             colls := { (b 0).colls with sendIndex := mapSet 0 s.colls.sendIndex cid (k + 1) } }
           ∃ pkt : Nat → Packet,
             exec (.asendData x f) s = .next { s with
               toBlock := forEach (List.range (ceilDiv n 8192)) (fun i b => sendPacket (id + 1) (pkt i) b) r.2 } ∧
             ∀ i, i < ceilDiv n 8192 → (pkt i).dst = dst ∧ (pkt i).vc = cdVc d ∧ phOp (pkt i).header = 1 ∧
               phMop (pkt i).header = 0 ∧ phAddr (pkt i).header = (at' + 8192 * i) % 2 ^ 39 ∧
               (pkt i).data = plain ((r.1.drop (8192 * i)).take 8192) ∧ phTgal (pkt i).header = cdTgal d ∧
               phTctr (pkt i).header = cdTctr d ∧ phTval (pkt i).header = (if 8192 * (i + 1) < n then 0 else 1)))) ∧
      (∀ (i : Instr) (op mode : Nat),
        ((op = 12 ∧ mode = 0 ∧ i = .aredReduceScatter x f) ∨ (op = 12 ∧ mode = 1 ∧ i = .aredAllReduce x f) ∨
          (op = 13 ∧ mode = 0 ∧ i = .agathPush x f) ∨ (op = 13 ∧ mode = 1 ∧ i = .agathReuse x f)) →
        let c := aColl op mode f s.toBlock
        let b := aIssued op mode g x f s.toBlock
        (groupOk d c = false → exec i s = .next { s with
          toBlock := logFault .format 255 0 cid (descTag b id) (failDesc (id + 1) (modColl id (fun c => { c with phase := 5 }) b)) }) ∧
        (groupOk d c = true → op = 12 →
          let z := forEach (List.range (shardCount d)) (fun j b =>
            if stairOwner c (me / 9) j = me ∧ cdStair d = true ∨ finalOwner d c me j = me then
              (memWrite (descHall b id) false (cdDst d + 8 * (j * cdShard d)) (List.replicate (8 * shardLen d j) (0, false)) b).2
            else b) b
          let w := memRead (descHall z id) (cdExp d) 4 z
          exec i s = .next { s with toBlock := collsGo (readyRound c (signed 32 (leNat (plain w.1))) w.2) }) ∧
        (groupOk d c = true → op = 13 → (mode = 0 ∨ slotEnabled s.toBlock d = false) →
          exec i s = .next { s with toBlock := collsGo (readyRound c (-2147483648) b) }) ∧
        (groupOk d c = true → op = 13 → mode = 1 → slotEnabled s.toBlock d = true →
          (tagMatches s.toBlock cid d = true → exec i s = .next { s with
            toBlock := modColl id (fun c => { c with phase := 5 }) { b with colls := { b.colls with reuses := satN 32 (s.colls.reuses + 1) } } }) ∧
          (tagMatches s.toBlock cid d = false → exec i s = .next { s with
            toBlock := collsGo (pullShards d c (modColl id (fun c => { c with phase := 4 })
              (collBit 2 { b with colls := { b.colls with pulls := satN 32 (s.colls.pulls + 1) } }))) })))) ∧
    (256 ≤ queuedA s.toBlock (galHall g) →
      ∀ i : Instr, (i = .asendData x f ∨ i = .asendTokenOnly x f ∨ i = .aredReduceScatter x f ∨ i = .aredAllReduce x f ∨
          i = .agathPush x f ∨ i = .agathReuse x f) →
        (x.tag = 0 → exec i s = .next { s with
          bnd := { s.bnd with bits := putBit s.bnd.bits 2 true }
          freeze := some { kind := .queueHold, bundle := false, held := [.slot i [g]], gals := [g], ctr := 0, value := 0 } }) ∧
        (x.tag ≠ 0 → exec i s = .next { s with toBlock := logFault .side g x.bundle 0x204 x.tag s.toBlock }))

/-- R205: a D descriptor that completes leaves its queue, and its counter takes one token in its gallery. One that fails
does so too, and DESC_FAIL shows in the step status; one that succeeds first moves what has not moved. -/
def Obligations.ADescriptorCompletesWithItsToken : Prop :=
  ∀ (s : State) (id : Nat) (d : Desc), s.queues.descs.find? (fun d => d.id == id) = some d → d.op ≤ 3 →
    exec (.descriptorCompletion id true) s =
      .next { s with toBlock := finishDesc d (performD d s.toBlock).1 (performD d s.toBlock).2 } ∧
    (∀ g, d.gals = [g] →
      answers (.descriptorCompletion id false) s (fun t =>
        t.queues.descs = s.queues.descs.filter (fun q => q.id != id) ∧
        tokVal t g d.token = min (2 ^ 32 - 1) (tokVal s.toBlock g d.token + 1) ∧ t.bnd.bits.testBit 5 = true ∧
        t.mem = s.mem ∧ t.mezz = s.mezz))

/-- R297: the second phase of a reduction starts when its anchor is set and every member is ready: the module
contributes each shard of src to the shard's owner, the owner in its own stairwell where the stairwell tier is used and
the final owner otherwise.
R294, R308: a ready message of the same step and attempt counts for its collective, once for its sender; where the
collective is not yet issued, or the message is of a later step or attempt, it is kept; one of an earlier step or
attempt, or from another configuration, is dropped.
R270, R307: a rejection fails the descriptor of its collective, and shows in the collective status. One whose collective
has ended already shows in the step status, so that the step does not advance (the model's choice, log 94). -/
def Obligations.CollectivesTakeTheirMessages : Prop :=
  (∀ (s : State) (cid : Nat) (c : Coll),
    s.colls.colls.find? (fun c => c.cid == cid && c.op == 12 && c.phase == 0 && c.anchorSet && allReady c) = some c →
    let d := collDesc s.toBlock cid
    exec (.aredPhase2 cid) s = .next { s with
      toBlock := collsGo (forEach (List.range (shardCount d)) (fun j b =>
        contribute d c (if cdStair d then stairOwner c (b.arc.slot / 9) j else finalOwner d c b.arc.slot j) (cdSfmt d) j
          (cdSrc d + j * cdShard d * entryBytes (cdSfmt d)) b) (modColl c.desc (fun c => { c with phase := 2 }) s.toBlock)) }) ∧
  (∀ (s : State) (slot cid step attempt cepoch : Nat) (eloc : Int),
    let r : HeldReady := { slot, cid, step := step % 65536, attempt := attempt % 256, cepoch := cepoch % 65536, eloc }
    let keep := { s.toBlock with colls := { s.colls with heldReady := s.colls.heldReady ++ [r] } }
    (cepoch % 65536 ≠ epochNo s.toBlock % 65536 ∨ stepOrder s.toBlock (step % 65536) (attempt % 256) = .lt →
      exec (.readyMessage slot cid step attempt cepoch eloc) s = .next s) ∧
    (cepoch % 65536 = epochNo s.toBlock % 65536 → stepOrder s.toBlock (step % 65536) (attempt % 256) = .gt →
      exec (.readyMessage slot cid step attempt cepoch eloc) s = .next { s with toBlock := keep }) ∧
    (cepoch % 65536 = epochNo s.toBlock % 65536 → stepOrder s.toBlock (step % 65536) (attempt % 256) = .eq →
      (s.colls.colls.find? (fun c => c.cid == cid && c.phase == 0) = none →
        exec (.readyMessage slot cid step attempt cepoch eloc) s = .next { s with toBlock := collsGo keep }) ∧
      (∀ c, s.colls.colls.find? (fun c => c.cid == cid && c.phase == 0) = some c →
        exec (.readyMessage slot cid step attempt cepoch eloc) s = .next { s with
          toBlock := collsGo (modColl c.desc (fun c =>
            if c.ready.any (fun x => x.1 == slot) then c else { c with ready := c.ready ++ [(slot, eloc)] }) s.toBlock) }))) ∧
  (∀ (s : State) (slot cid pseq : Nat),
    (∀ c : Coll, s.colls.colls.find? (fun c => c.cid == cid) = some c →
      answers (.mwriteRejection slot cid pseq) s (fun t =>
        t.colls.rejects = s.colls.rejects ++ [(c.desc + 1, slot)] ∧ t.colls.bits.testBit 4 = true ∧
        ∀ d ∈ t.queues.descs, d.id = c.desc → d.failed = true)) ∧
    (s.colls.colls.find? (fun c => c.cid == cid) = none →
      answers (.mwriteRejection slot cid pseq) s (fun t =>
        t.colls.rejects = s.colls.rejects ++ [(0, slot)] ∧ t.colls.bits.testBit 4 = true ∧
        t.bnd.bits.testBit 5 = true ∧ t.queues = s.queues)))

/-! ## Step boundaries -/

/-- R210: the watchdog of a module that waits cancels every descriptor of the step without its token, ends the freeze,
stops issue, sets WATCHDOG, and goes on to step 4 of R211: open groups are discarded and show in the step status, and
the actions of the boundary are due.
R211 steps 2 to 5: the boundary of a step whose units are quiet and whose descriptors have completed discards open
groups and goes through its actions; while something is in flight it waits in the drain.
R212, R211 step 7: the step advances when none of bits 5 to 10 of its status is set; when SBOUND completes, below the
retry limit and with no park pending, no split, no lost program word and enough links, the run list issues from the next
cycle on.
R146, R409, R286: a vote that does not come within its time fails (VOTE_FAIL), a missing agreement message counts as a
refusal (REFUSED), and the boundary goes on with its next action; an under-connected module builds its routes again, and
goes on when it is connected (how it retries is the model's choice, log 61). The scheduler core must run. -/
def Obligations.BoundariesEndTheStep : Prop :=
  (∀ s : State, s.freeze.isSome = true ∨ (s.bnd.phase = .draining ∧ s.queues.descs ≠ []) → s.prog.started = true →
    rebuilding s.toBlock = false →
    answers .watchdogAbort s (fun t =>
      t.freeze = none ∧ t.queues.descs = [] ∧ t.queues.cancelled = s.queues.cancelled + s.queues.descs.length ∧
      t.colls.colls = [] ∧ t.prog.issuing = false ∧ t.tok = s.tok ∧ t.bnd.phase = .actions ∧ t.bnd.next = 0 ∧
      t.bnd.bits.testBit 6 = true ∧ ((∃ e ∈ s.arr.groups, ∃ v, e.2 = some v ∧ v.closeAt = none) → t.bnd.bits.testBit 4 = true))) ∧
  (∀ s : State, s.bnd.phase = .draining →
    let b := drainUnits (drainLoop s.toBlock)
    (unitsQuiet b = true → b.queues.descs = [] →
      exec .boundaryActions s = .next { s with toBlock := boundGo { discardOpen b with
        bnd := { (discardOpen b).bnd with phase := .actions, next := 0, wait := .nothing, resume := false } } }) ∧
    (unitsQuiet b = false ∨ b.queues.descs ≠ [] → exec .boundaryActions s = .next { s with toBlock := b })) ∧
  (∀ b : Block, b.recov.replay = false →
    ((actAdvance b).bnd.advance = true ↔ ∀ k, 5 ≤ k → k ≤ 10 → b.bnd.bits.testBit k = false)) ∧
  (∀ s : State, s.bnd.phase = .actions → s.bnd.next = 12 → procRuns s.toBlock 2 = true → s.recov.replay = false →
    s.recov.parkPending = false → s.bnd.bits.testBit 10 = false → s.bnd.bits.testBit 17 = false →
    s.bnd.bits.testBit 18 = false →
    (s.bnd.advance = true ∨ satN 16 (num s.toBlock 0x600005 + 1) < numS s.toBlock 0x602100) →
    answers .boundaryActions s (fun t =>
      t.prog.issuing = true ∧ t.bnd.phase = .none ∧ t.clk.nextIssue = t.clk.fcyc + 1)) ∧
  (∀ s : State, procRuns s.toBlock 2 = true →
    (s.bnd.phase = .actions → (s.bnd.wait = .vote1 ∨ s.bnd.wait = .vote2) →
      (lostVote (checkSplit s.toBlock)).bnd.bits.testBit 9 = true ∧
      exec .voteTimeout s = .next { s with toBlock := boundGo (nextAct 2 (lostVote (checkSplit s.toBlock))) }) ∧
    (s.bnd.phase = .actions → s.bnd.wait = .agreement →
      (agreeGroup s.toBlock = true → (∃ m ∈ agreePeers s.toBlock, agreeBy s.toBlock m = none) →
        (decideAgree s.toBlock).bnd.agreed = false ∧ (decideAgree s.toBlock).bnd.bits.testBit 7 = true) ∧
      exec .agreementTimeout s = .next { s with toBlock := boundGo (nextAct (s.bnd.next + 1) (decideAgree s.toBlock)) }) ∧
    (s.bnd.underConnWait = true →
      let b := routeBuild s.bnd.planChanged s.toBlock
      let b' := { b with bnd := { b.bnd with bits := s.bnd.bits } }
      exec .connectivityRetry s = .next { s with
        toBlock := if bit (num b' 0x332000) 15 then b' else if b'.recov.parkPending then goParked b' else goIssue (openEta b') } ∧
      (bit (num b' 0x332000) 15 = false → b'.recov.parkPending = false → answers .connectivityRetry s (fun t =>
        t.prog.issuing = true ∧ t.bnd.underConnWait = false ∧ t.clk.nextIssue = t.clk.fcyc + 1))))

/-- R238, R241: ADD, MAX and XOR are one read-modify-write of a sector: each element of the command's type becomes its
function (`memElem`) of the target and the source element: the bitwise exclusive or; for integers the wrapping sum and
the signed maximum; for G64 the sum, where neither is NaN and it fits, and the maximum. The sector is poisoned when it
was or the source is; every other sector keeps its bytes and its poison. R239: the flags of the elements of tag 0 are
collected. Stated for a whole sector of a page that is neither mirrored nor a shadow.
R314, R315: a pass that performs nothing (`passOf` answers none) fails: it marks its queued descriptor, which will
complete as failed, or, where none is queued, DESC_FAIL shows at once. One under a side job tag is such a pass, and sets
SIDE_FAULT.
R316: pass 1 runs over the rows of its descriptor, adds floor(v^2 * 2^200) for each element that is neither frozen nor
poisoned and is finite and below 2^44, and adds the six limbs of the sum, or NaN in the first, to the norm vector as G64
elements; a pass that met poison fails and adds nothing.
R318, R319, R320: pass 2 takes c = 1 for an early block and the clip factor of the norm vector for a late one, and runs
over its rows; a late block whose norm vector is non-finite writes nothing and is logged as non-finite. Each element
that is not frozen becomes the result of R319's arithmetic, each operation rounded once. -/
def Obligations.UpdatePassesAndMemorySideOperations : Prop :=
  (∀ (f : MemOpF) (s : State) (i : Instr) (mop : Nat),
    ((mop = 1 ∧ i = .add f) ∨ (mop = 2 ∧ i = .max f) ∨ (mop = 3 ∧ i = .xor f)) → f.mtype ≤ 4 → f.data.length = 32 →
    plainSector s.toBlock f.addr →
    let sk := sectorOf s.toBlock f.addr
    let w := mtypeBytes f.mtype
    let old := fun k => leAt (secBytes s.toBlock sk) (w * k) w
    let src := fun k => leAt f.data (w * k) w
    answers i s (fun t =>
      (∀ k, k < 32 / w →
        let r := leAt (secBytes t sk) (w * k) w
        r = (memElem mop f.mtype (old k) (src k)).1 % 2 ^ (8 * w) ∧
        (mop = 3 → r = old k ^^^ src k) ∧
        ((f.mtype = 2 ∨ f.mtype = 3) →
          (mop = 1 → r = (old k + src k) % 2 ^ (8 * w)) ∧
          (mop = 2 → signed (8 * w) r = max (signed (8 * w) (old k)) (signed (8 * w) (src k)))) ∧
        (f.mtype = 4 → old k ≠ 2 ^ 63 → src k ≠ 2 ^ 63 →
          (mop = 1 → -(2 ^ 63) < signed 64 (old k) + signed 64 (src k) → signed 64 (old k) + signed 64 (src k) < 2 ^ 63 →
            signed 64 r = signed 64 (old k) + signed 64 (src k)) ∧
          (mop = 2 → signed 64 r = max (signed 64 (old k)) (signed 64 (src k))))) ∧
      (t.mem.poison.contains sk = (s.mem.poison.contains sk || f.poison.getD 0 false)) ∧
      (∀ k, k ≠ sk → secBytes t k = secBytes s.toBlock k ∧ t.mem.poison.contains k = s.mem.poison.contains k) ∧
      (f.tag = 0 → t.mem.flags0 = s.mem.flags0 |||
        ((List.range (32 / w)).map (fun k => (memElem mop f.mtype (old k) (src k)).2)).foldl (· ||| ·) 0))) ∧
  (∀ (d : DescF) (s : State) (i : Instr), (i = .updatePass1 d ∨ i = .updatePass2 d) →
    (∀ b : Block, passOf d.ctx (dXdesc d) d.slot.loff s.toBlock = (none, b) →
      let c := { b with queues := { b.queues with descs := takePass d false b.queues.descs } }
      exec i s = .next { s with toBlock := if hasPass d s.queues.descs then c else descFail c }) ∧
    (d.ctx.tag ≠ 0 → answers i s (fun t => t.bnd.bits.testBit 3 = true ∧ t.mem = s.mem ∧
      (hasPass d s.queues.descs = false → t.bnd.bits.testBit 5 = true)))) ∧
  (∀ (d : DescF) (s : State) (p : PassRun), passOf d.ctx (dXdesc d) d.slot.loff s.toBlock = (some p, s.toBlock) →
    let ends := fun (ok : Bool) (b : Block) =>
      let c := { b with queues := { b.queues with descs := takePass d ok b.queues.descs } }
      if ok || hasPass d s.queues.descs then c else descFail c
    (let r := (List.range p.rows).foldl (pass1Row p) ({ acc := 0, nf := false, bad := false, flags := 0 }, logName p s.toBlock)
     let limb := fun i => if (r.1.nf ∨ 2 ^ 288 ≤ r.1.acc) ∧ i = 0 then 2 ^ 63 else r.1.acc / 2 ^ (48 * i) % 2 ^ 48
     (r.1.bad = true → exec (.updatePass1 d) s = .next { s with toBlock := ends false (memFlags 0 r.1.flags r.2) }) ∧
     (r.1.bad = false → exec (.updatePass1 d) s = .next { s with
       toBlock := ends true (memRmw (p.stack / 4) 0 1 4 (ubNorm p.blk)
         (((List.range 6).flatMap (fun i => leBytes 8 (limb i))).map (fun b => (b, false))) (memFlags 0 r.1.flags r.2)) })) ∧
    (let b := logMod p.stack p.upd (fun e => { e with
       descs := e.descs ++ [{ xdesc := dXdesc d, loff := d.slot.loff, pages := [] }] }) (logName p s.toBlock)
     let h := hyperOf b (ubHset p.blk)
     let rows := fun (c : Nat) (x : Block) => pass2Rows p
       { wdesc := wcDesc b p.blk, seed := turnSeed b (tdTseed (wcDesc b p.blk)), h, c, eta := x.upd.eta, counts := true } x
     (ubEarly p.blk = true → exec (.updatePass2 d) s = .next { s with
       toBlock := ends (rows 0x3F800000 b).1 (rows 0x3F800000 b).2 }) ∧
     (ubEarly p.blk = false →
       let n := engineRead p (ubNorm p.blk) 48 b
       let v := if anyPoison n.1 then none else some ((List.range 6).map (fun i => leAt (plain n.1) (8 * i) 8))
       (clipFactor v (nth h 3 0) = none → exec (.updatePass2 d) s = .next { s with
         toBlock := ends true (logMod p.stack p.upd (fun e => { e with nf := true }) n.2) }) ∧
       (∀ c fl, clipFactor v (nth h 3 0) = some (c, fl) → exec (.updatePass2 d) s = .next { s with
         toBlock := ends (rows c (memFlags 0 fl n.2)).1 (rows c (memFlags 0 fl n.2)).2 })))) ∧
  (∀ (p : PassRun) (g : List (Byte × Bool)) (fz : List (Bool × Bool)) (a : Acc1) (s : Block) (j : Nat),
    armed s = false →
    let raw := (g.drop (j * p.size)).take p.size
    let v := gradF32 (xdMtype p.xd) p.anchor (leNat (plain raw))
    (nth fz j (false, false) = (true, false) → pass1Elem p g fz (a, s) j = (a, s)) ∧
    (nth fz j (false, false) = (false, false) → anyPoison raw = false → f32Bad v.1 = false →
      (f32Dy v.1).1 * 2 ^ ((f32Dy v.1).2 + 149).toNat < 2 ^ 193 →
      pass1Elem p g fz (a, s) j =
        ({ a with acc := a.acc + (f32Dy v.1).1 ^ 2 * 2 ^ (2 * ((f32Dy v.1).2 + 149)).toNat / 2 ^ 98, flags := a.flags ||| v.2 }, s))) ∧
  (∀ (p : PassRun) (h : List Nat) (c eta : Nat) (g w m : List (Byte × Bool)) (fz : List (Bool × Bool)) (a : Acc2) (s : Block) (j : Nat),
    armed s = false →
    let gr := (g.drop (j * p.size)).take p.size
    let wr := (w.drop (4 * j)).take 4
    let mr := (m.drop (2 * j)).take 2
    let wv := leNat (plain wr)
    let mv := leNat (plain mr)
    anyPoison gr = false → anyPoison wr = false → anyPoison mr = false →
    (nth fz j (false, false) = (true, false) →
      pass2Elem p h c eta g w m fz (a, s) j = ({ a with els := a.els ++ [(wv, mv, false)] }, s)) ∧
    (nth fz j (false, false) = (false, false) →
      let x := gradF32 (xdMtype p.xd) p.anchor (leNat (plain gr))
      let mf := (wfWrite .fp32 false (wfVal .bf16 mv)).1
      let cg := (f32Mul c x.1).1
      let t := (f32Fma (nth h 0 0) mf (f32Mul (nth h 4 0) cg).1).1
      let bad := f32Bad x.1 || f32Bad wv || f32Bad mf || f32Bad t
      let u := if bad || f32Mag t == 0 then 0 else if bit t 31 then 0xBF800000 else 0x3F800000
      let d := (f32Fma (nth h 2 0) wv u).1
      let w' := (f32Fma (putBit eta 31 (!(bit eta 31))) d wv).1
      let m' := (f32Fma (nth h 1 0) mf (f32Mul (nth h 5 0) cg).1).1
      let r := (pass2Elem p h c eta g w m fz (a, s) j).1
      r.els = a.els ++ [(w', (wfWrite .bf16 false (wfVal .fp32 m')).1, false)] ∧ r.nf = (a.nf || bad) ∧ r.hit = a.hit))

/-! ## Reliability -/

/-- R29, R354: an error queue gives its oldest entry to its core. The entry leaves the queue; unless its fence made the
record already, a record with the entry's detector, location, tag, address, step and tick stands last in the record
store. R342: an entry of detector 0x01, 0x0A, 0x10, 0x11 or 0x13 to 0x15 that was not injected queues a targeted
sentinel with its gallery and location; an injected entry queues none.
R354, R356: a record takes the next record number and stands last in the store, which keeps the last 4,096; a fatal one
stands last in flash too, which keeps the last 64; while the security core does not run it waits.
R29, R352: a detector's event goes to the end of the error queue its location gives, with the detector's severity, the
step number and the tick; a queue that holds 256 entries drops it. -/
def Obligations.ErrorQueuesAndRecords : Prop :=
  (∀ (s : State) (q : Nat) (e : ErrEntry) (r : List ErrEntry), q < 52 → mapGet [] s.logs.queues q = e :: r →
    canPop s.toBlock q = true →
    let c : Block := { s.toBlock with logs := { s.logs with queues := mapSet [] s.logs.queues q r } }
    let b := if e.recorded then c
      else makeCper e.detector e.sev (b2n e.injected) e.tag 0 e.loc e.addr e.step e.tick e.extra c
    exec (.errorQueuePop q) s = .next { s with toBlock := if e.injected then b else classify e b } ∧
    answers (.errorQueuePop q) s (fun t =>
      mapGet [] t.logs.queues q = r ∧
      (e.recorded = false → (∃ p, t.logs.cper.getLast? = some p ∧ p.id = s.logs.recId + 1 ∧ p.code = e.detector ∧
        p.loc = e.loc ∧ p.tag = e.tag ∧ p.addr = e.addr ∧ p.step = e.step ∧ p.tick = e.tick)) ∧
      (e.injected = true → t.rel.targets = s.rel.targets) ∧
      (e.injected = false → [0x01, 0x0A, 0x10, 0x11, 0x13, 0x14, 0x15].contains e.detector = true →
        fld e.loc 60 4 ≤ 2 → ∃ x, t.rel.targets = s.rel.targets ++ [x] ∧ x.gal = fld e.loc 54 6 ∧ x.loc = e.loc ∧
          x.detector = e.detector))) ∧
  (∀ (code sev flags tag kind loc addr step tick : Nat) (extra : Bytes) (s : Block),
    let t := makeCper code sev flags tag kind loc addr step tick extra s
    t.logs.recId = s.logs.recId + 1 ∧ t.logs.cperDue = true ∧
    (∃ r, t.logs.cper.getLast? = some r ∧ r.id = s.logs.recId + 1 ∧ r.code = code ∧ r.severity = sev ∧ r.flags = flags ∧
      r.tag = tag ∧ r.loc = loc ∧ r.addr = addr ∧ r.step = step ∧ r.tick = tick ∧
      (sev = 1 → procRuns s 0 = true → t.logs.fatal.getLast? = some r ∧ t.logs.fatal.length ≤ 64) ∧
      (sev = 1 → procRuns s 0 = false →
        t.logs.fatal = s.logs.fatal ∧ t.logs.fatalWait = s.logs.fatalWait ++ [r])) ∧
    (s.logs.cper.length ≤ 4096 → t.logs.cper.length ≤ 4096) ∧
    (sev ≠ 1 → t.logs.fatal = s.logs.fatal ∧ t.logs.fatalWait = s.logs.fatalWait) ∧ t.logs.queues = s.logs.queues) ∧
  (∀ (code loc : Nat) (inj : Bool) (tag addr : Nat) (extra : Bytes) (s : Block),
    let t := detect code loc inj tag addr extra s
    ((mapGet [] s.logs.queues (queueOf loc)).length < 256 → ∃ e : ErrEntry,
      mapGet [] t.logs.queues (queueOf loc) = mapGet [] s.logs.queues (queueOf loc) ++ [e] ∧
      e.detector = code ∧ e.loc = loc ∧ e.injected = inj ∧ e.tag = tag ∧ e.addr = addr ∧ e.sev = sevOf code ∧
      e.recorded = false ∧ e.step = stepNo s ∧ e.tick = s.clk.tick) ∧
    (256 ≤ (mapGet [] s.logs.queues (queueOf loc)).length → t.logs = s.logs) ∧
    (∀ q, q ≠ queueOf loc → mapGet [] t.logs.queues q = mapGet [] s.logs.queues q))

/-- R247: outside a boundary's actions, with the scheduler core running, a page that waits moves: its frame is retired,
and with a reserve frame free the location that used it names that frame.
R245: a row that failed is served by the next spare row of its bank while the bank has one; the spare counts as used.
R249: the copy of a fenced channel to the spare that stands in for it starts (CHANNEL_COPY); when it ends the channel
map sends the logical channel to the spare.
R250: a pass of patrol scrub that does not finish in its period sets SCRUB_BEHIND and leaves its stack behind; one that
finishes leaves it up to date. -/
def Obligations.MemoryRepairs : Prop :=
  (∀ (s : State) (page fk : Nat), page < 524288 → s.bnd.phase ≠ .actions → procRuns s.toBlock 2 = true →
    waitingFrame s.toBlock page = some fk →
    exec (.pageMigration page) s = .next { s with toBlock := moveFrame fk s.toBlock } ∧
    answers (.pageMigration page) s (fun t => fk ∈ t.mem.fix.retired ∧
      ∀ nk, reservePick s.toBlock (fk / 8320) = some nk → peHere (pmapEntry s.toBlock page) = fk →
        peHere (pmapEntry t page) = nk)) ∧
  (∀ (s : State) (stack chan bank row r : Nat), stack < 8 → chan < 136 → bank < 32 → row < 8384 →
    servedRow s.toBlock (bankKey stack chan bank) row = some r →
    mapGet 0 s.mem.fix.spareUsed (bankKey stack chan bank) < 64 → (num s.toBlock 0x502000).testBit 7 = false →
    answers (.rowRemap stack chan bank row) s (fun t =>
      mapGet 0 t.mem.fix.remap (bankKey stack chan bank * 8384 + r) =
        8320 + mapGet 0 s.mem.fix.spareUsed (bankKey stack chan bank) + 1 ∧
      mapGet 0 t.mem.fix.spareUsed (bankKey stack chan bank) = mapGet 0 s.mem.fix.spareUsed (bankKey stack chan bank) + 1)) ∧
  (∀ (s : State) (stack chan k sp : Nat), stack < 8 → chan < 136 →
    s.mem.fix.standIn.find? (fun c => c.1 == stack * 136 + chan) = some (k, sp) →
    answers (.channelCopy stack chan) s (fun t =>
      (k, sp) ∈ t.mem.fix.copies ∧ (∀ e ∈ t.mem.fix.standIn, e.1 ≠ stack * 136 + chan) ∧
      (num t 0x511000).testBit 2 = true)) ∧
  (∀ (s : State) (stack chan k sp c : Nat), stack < 8 → chan < 136 →
    s.mem.fix.copies.find? (fun c => c.1 == stack * 136 + chan) = some (k, sp) →
    logicalChan s.toBlock stack chan = some c →
    answers (.channelCopyEnd stack chan) s (fun t =>
      mapGet 0 t.mem.fix.chanMap (stack * 128 + c) = sp + 1 ∧ ∀ e ∈ t.mem.fix.copies, e.1 ≠ stack * 136 + chan)) ∧
  (∀ (s : State) (stack : Nat) (done : Bool), stack < 8 →
    answers (.patrolScrub stack done) s (fun t => (stack ∈ t.mem.fix.scrubBehind ↔ done = false) ∧
      (done = false → (num t 0x511000).testBit 1 = true)))

/-- R342, R343: a targeted sentinel whose units are free, or whose time at a boundary has come, leaves the list; its
array suite is at work in its alcoves for the length of the suite from now on (log 49). No injection is armed. When a
unit fails again it makes an event of detector 0x13, 0x14 or 0x15 at that unit and the unit has a hard fault; when all
pass, the gallery has a marginal event (R344), unless a fence of the unit waits for a load (R345).
R346, R347: a margin sweep takes the next unbound gallery in rising order, where a load has left none unbound for it,
from P0, at its rail and at 850 MHz, with SWEEP_ACTIVE. In each hall with a fit unbound gallery the first bound one is
left out of the next load; SWEEP_BLOCKED shows that a hall has no such gallery. Each point that passes leads to the
next, and a failure at P0 ends the sweep, with its record. -/
def Obligations.SentinelsAndSweepsClassify : Prop :=
  (∀ (s : State) (gal : Nat) (fails : Option Suite) (unit : Nat) (badCols : List Nat)
      (t : Target), gal < 50 →
    let r := SuiteResult.of fails unit badCols
    s.rel.targets.find? (fun t => t.gal == gal && sentinelMay s.toBlock t && runsOn t r) = some t →
    armed s.toBlock = false →
    let b := suitesAtWork gal t.alcs
      (spoilLandings gal t.alcs { s.toBlock with rel := { s.rel with targets := s.rel.targets.erase t } })
    (∀ a ∈ t.alcs, ∃ w ∈ b.rel.sentinels, w.gal = gal ∧ w.suite = 0 ∧ w.unit = a ∧ w.stop = cyc s.toBlock + suiteLen 0) ∧
    (r = .pass → exec (.targetedSentinel gal fails unit badCols) s = .next { s with
      toBlock := if fencePends b t.loc then b else marginalEvent gal b }) ∧
    (∀ code loc, suiteEvent gal r = some (code, loc) → exec (.targetedSentinel gal fails unit badCols) s = .next { s with
      toBlock := hardFault gal r (detect code loc false 0 0 [] b) })) ∧
  (∀ s : State, numF s.toBlock 0x522001 ≠ 0 → s.rel.sweep = none → procRuns s.toBlock 2 = true →
    procRuns s.toBlock 1 = true → pstate s.toBlock ≠ 4 → halls s.toBlock = true →
    let due := fun (h : Nat) => (sweepOrder s.toBlock).find? (fun g => galHall g == h && (boundPhys s.toBlock).contains g)
    answers .marginSweep s (fun t =>
      (num t 0x502000).testBit 5 = (!(hallFree s.toBlock 0) || !(hallFree s.toBlock 1)) ∧
      (∀ h g, h < 2 → hallFree s.toBlock h = true → (∀ u ∈ s.rel.sweepUnfit, galHall u ≠ h) → due h = some g →
        g ∈ t.rel.sweepUnfit) ∧
      (sweepPick s.toBlock = none → t.rel.sweep = none) ∧
      (∀ g, sweepPick s.toBlock = some g → g ∉ boundPhys s.toBlock ∧ (num t 0x502000).testBit 6 = true ∧
        t.rel.sweep = some {
          gal := g, point := 0, failed := 0, reduced := false
          railMv := galleryBase g + 25 * guardOf s.toBlock g, clockKhz := 850000, junction := 0 }) ∧
      ((∀ u ∈ s.rel.sweepUnfit, u ∈ boundPhys s.toBlock) →
        sweepPick s.toBlock = (sweepOrder s.toBlock).find? (fun g => !((boundPhys s.toBlock).contains g))))) ∧
  (∀ (s : State) (w : Sweep), s.rel.sweep = some w → procRuns s.toBlock 1 = true →
    injects s.toBlock 0x16 (locOf 3 w.gal 0 0 0 0) = false →
    (w.point < 3 → answers (.sweepPoint .pass) s (fun t => ∃ v, t.rel.sweep = some v ∧ v.gal = w.gal ∧
      v.point = w.point + 1 ∧ v.failed = w.failed)) ∧
    (∀ r, w.point = 0 → r ≠ .pass → answers (.sweepPoint r) s (fun t => t.rel.sweep = none ∧
      t.rel.sweptUpTo = (w.gal + 1) % 50 ∧ ∃ p, t.logs.cper.getLast? = some p ∧ p.code = 0xF2 ∧
        p.loc = locOf 3 w.gal 0 0 0 0)))

/-- R349, R404, R372: the security core writes the oldest waiting floor-map record and the first unwritten persistent
object to flash, of the configuration epoch with the digest in force, and signs the oldest manifest that waits, where
the identity key is live; the core runs, and for the last two the power of the module is not Dormant.
R356: when records have come since the last one, a notify of 0x5401.01 goes out. -/
def Obligations.TheSecurityCoreWritesFlash : Prop :=
  (∀ (s : State) (r : Nat × Nat) (rest : List (Nat × Nat)), s.rel.floorWait = r :: rest → procRuns s.toBlock 0 = true →
    exec .floorMapRecordWrite s = .next { s with
      rel := { s.rel with floorMap := s.rel.floorMap ++ [r], floorWait := rest } }) ∧
  (∀ (s : State) (k : Nat) (rest : List Nat), s.store.unwritten = k :: rest → pstate s.toBlock ≠ 0 →
    procRuns s.toBlock 0 = true →
    answers .persistFlashWrite s (fun t => k ∉ t.store.unwritten ∧ t.store.nums = s.store.nums ∧ t.store.doms = s.store.doms ∧
      (k = 0x1F0002 → t.store.flashEpoch = num s.toBlock k ∧ t.store.flashDigest = digestForce s.toBlock) ∧
      (∀ o, k ≠ 0x1F0002 → objFind k = some o → typSize o.typ ≠ 0 →
        mapGet (numDflt s.arc.slot k) t.store.flashN k = num s.toBlock k) ∧
      (∀ o, k ≠ 0x1F0002 → objFind k = some o → typSize o.typ = 0 → mapGet (domDflt k) t.store.flashD k = dom s.toBlock k))) ∧
  (∀ (s : State) (i : Nat) (rest : List Nat), s.recov.signWait = i :: rest → pstate s.toBlock ≠ 0 →
    procRuns s.toBlock 0 = true →
    exec .manifestSignature s = .next { s with recov := { s.recov with
      manifests := if signMode s.toBlock = 0
        then setNth s.recov.manifests i (signManifest s.toBlock (nth s.recov.manifests i [])) else s.recov.manifests
      signWait := rest } }) ∧
  (∀ s : State, s.logs.cperDue = true → answers .cperNotify s (fun t => t.logs.cperDue = false ∧
    ∃ f, t.portico.out = s.portico.out ++ [f] ∧ f.svc = 7 ∧ f.index = 0x5401 ∧ f.sub = 1 ∧
      f.data.take 8 = leBytes 8 (num s.toBlock 0x540101)))

/-- R352: a CRC error of the hall bridge, voted or not, is a corrected event of detector 0x0F; a retry of the adapter of a
vestibule that has a link is a corrected event of detector 0x19 in that hall's error queue, and counts in VST_RETRY_CNT.
R336: a hall bridge whose vote fails makes a fatal record of detector 0x0F, with its entry in the error queue, and
then the module resets warmly: no program is loaded, nothing is queued and nothing is frozen. -/
def Obligations.BridgeAndAdapterErrors : Prop :=
  (∀ (s : State) (vote : Bool), (mapGet [] s.logs.queues (queueOf (domLoc 8))).length < 256 →
    answers (.hallBridgeCrcError vote) s (fun t => ∃ e : ErrEntry,
      mapGet [] t.logs.queues (queueOf (domLoc 8)) = mapGet [] s.logs.queues (queueOf (domLoc 8)) ++ [e] ∧
      e.detector = 0x0F ∧ e.sev = 2 ∧ e.loc = domLoc 8 ∧ e.injected = false)) ∧
  (∀ (s : State) (p : Nat), p < 2 → 2 ≤ fld (port s.toBlock p).link 0 2 →
    (mapGet [] s.logs.queues (50 + p)).length < 256 →
    answers (.adapterRetry p) s (fun t =>
      (port t p).retryCnt = min (2 ^ 32 - 1) ((port s.toBlock p).retryCnt + 1) ∧
      ∃ e : ErrEntry, mapGet [] t.logs.queues (50 + p) = mapGet [] s.logs.queues (50 + p) ++ [e] ∧
        e.detector = 0x19 ∧ e.sev = 2 ∧ e.loc = domLoc 9 ∧ e.injected = false)) ∧
  (∀ s : State, halls s.toBlock = true →
    let b := detectFatal 0x0F (domLoc 8) false s.toBlock
    (∃ r, b.logs.cper.getLast? = some r ∧ r.code = 0x0F ∧ r.severity = 1 ∧ r.loc = domLoc 8) ∧
    ((mapGet [] s.logs.queues (queueOf (domLoc 8))).length < 256 → ∃ e : ErrEntry,
      mapGet [] b.logs.queues (queueOf (domLoc 8)) = mapGet [] s.logs.queues (queueOf (domLoc 8)) ++ [e] ∧
      e.detector = 0x0F ∧ e.sev = 1 ∧ e.recorded = true) ∧
    exec .hallBridgeVoteFail s = .next { s with toBlock := warmReset b } ∧
    answers .hallBridgeVoteFail s (fun t =>
      t.prog.loaded = false ∧ t.queues.descs = [] ∧ t.freeze = none))

/-! ## Firmware processors -/

/-- R432: a processor whose watchdog expires begins a restart: it no longer runs, its restart counts, and no other
processor is reset.
R334, R432: a lockstep mismatch of the security core or the scheduler core is latched with its detector, 0x05 or 0x04,
and that core begins a restart; no other processor is reset. -/
def Obligations.ProcessorsRestartOnAWatchdogOrAMismatch : Prop :=
  (∀ (s : State) (n : Nat), n < 53 → (proc s.toBlock n).running = true → (proc s.toBlock n).held = false →
    pstate s.toBlock ≠ 0 →
    answers (.processorWatchdog n) s (fun t => (proc t n).running = false ∧ (proc t n).halted = false ∧
      (n < 3 → num t (0x803001 + n) = min (2 ^ 32 - 1) (num s.toBlock (0x803001 + n) + 1)) ∧
      (3 ≤ n → num t 0x803004 = min (2 ^ 32 - 1) (num s.toBlock 0x803004 + 1)) ∧
      ∀ m, m ≠ n → proc t m = proc s.toBlock m)) ∧
  (∀ (s : State) (n : Nat), (n = 0 ∨ n = 2) → (proc s.toBlock n).running = true → (proc s.toBlock n).held = false →
    pstate s.toBlock ≠ 0 →
    answers (.lockstepMismatch n) s (fun t => (proc t n).running = false ∧
      t.pwr.lockLatch = s.pwr.lockLatch ++ [(if n = 2 then 0x04 else 0x05, false)] ∧
      ∀ m, m ≠ n → proc t m = proc s.toBlock m))

/-- R432, R434, R450: a restarted processor that reaches running runs, with no failure counted against it, and what
waited for it is done, the reports taken while the security core restarted first. R436: the security, power or scheduler
core that fails its restart counts the failure, and its third in a row resets the module warmly. R434, R343: a gallery
core that fails its restart test is an event of detector 0x17 at its gallery and is held for 100 ms; its third failure
in a row fences the gallery and leaves the core held. The end of the 100 ms is another restart.
R439: while an activation restarts its processors, the next one either reaches running on the new image and leaves the
order, or the activation is taken back: the processors on the new image restart on the previous one, in the reverse
order and one at a time, and when the last one runs the activation has ended with result 0x08. -/
def Obligations.RestartsAndActivationsEnd : Prop :=
  (∀ (b : Block) (n : Nat), goesOnFor n b = redoAll (if n = 0 then answerReports b else b)) ∧
  (∀ (b : Block) (n : Nat), n < 53 → n ≠ 2 → b.fw.activating = false → b.fw.reverting = [] →
    (proc (restartOk n b) n).running = true ∧ (proc (restartOk n b) n).fails = 0) ∧
  (∀ (s : State) (n : Nat), n < 3 → procRestarts s.toBlock n = true →
    exec (.processorRestartDone n true) s = .next { s with
      toBlock := goesOnFor n (restartOk n (if n = 2 then interruptReq s.toBlock else s.toBlock)) } ∧
    ((proc s.toBlock n).fails + 1 < 3 → answers (.processorRestartDone n false) s (fun t =>
      (proc t n).running = false ∧ (proc t n).fails = (proc s.toBlock n).fails + 1 ∧
      ∀ m, m ≠ n → proc t m = proc s.toBlock m)) ∧
    (3 ≤ (proc s.toBlock n).fails + 1 → s.fw.activating = false → exec (.processorRestartDone n false) s = .next { s with
      toBlock := warmReset s.toBlock })) ∧
  (∀ (s : State) (g : Nat), g < 50 → procRestarts s.toBlock (3 + g) = true →
    injects s.toBlock 0x17 (locOf 3 g 0 0 0 0) = false → s.fw.activating = false →
    exec (.processorRestartDone (3 + g) true) s = .next { s with toBlock := redoAll (restartOk (3 + g) s.toBlock) } ∧
    answers (.processorRestartDone (3 + g) false) s (fun t =>
      (proc t (3 + g)).running = false ∧ (proc t (3 + g)).fails = (proc s.toBlock (3 + g)).fails + 1 ∧
      ((mapGet [] s.logs.queues g).length < 256 → ∃ e : ErrEntry,
        mapGet [] t.logs.queues g = mapGet [] s.logs.queues g ++ [e] ∧
        e.detector = 0x17 ∧ e.loc = locOf 3 g 0 0 0 0 ∧ e.injected = false) ∧
      ((proc s.toBlock (3 + g)).fails + 1 < 3 → (proc t (3 + g)).hold100 = true) ∧
      (3 ≤ (proc s.toBlock (3 + g)).fails + 1 → (proc t (3 + g)).held = true ∧
        floorHas t 0x06 (locOf 3 g 0 0 0 0) = true))) ∧
  (∀ (s : State) (g : Nat), g < 50 → (proc s.toBlock (3 + g)).hold100 = true → (proc s.toBlock (3 + g)).held = false →
    answers (.gccHoldExpiry g) s (fun t => (proc t (3 + g)).hold100 = false ∧ (proc t (3 + g)).running = false ∧
      num t 0x803004 = min (2 ^ 32 - 1) (num s.toBlock 0x803004 + 1))) ∧
  (∀ (s : State) (n : Nat) (rest : List Nat), s.fw.order = n :: rest → s.fw.activating = true →
    procRestarts s.toBlock n = true → (proc s.toBlock n).staged = true →
    exec (.activationNextRestart true) s = .next { s with
      toBlock := goesOnFor n (restartOk n (if n = 2 then interruptReq s.toBlock else s.toBlock)) } ∧
    answers (.activationNextRestart false) s (fun t => t.fw.order = [] ∧
      t.fw.reverting =
        ((range' 3 50 ++ [2, 0, 1]).filter (fun m => (proc s.toBlock m).staged && !(proc s.toBlock m).held)).reverse ∧
      (∀ m, t.fw.reverting.head? = some m → (proc t m).running = false ∧ (proc t m).staged = false) ∧
      (t.fw.reverting = [] → t.fw.activating = false ∧ num t 0x802100 = 8))) ∧
  (∀ (b : Block) (n : Nat) (rest : List Nat), n < 53 → n ≠ 2 → b.fw.activating = true → b.fw.order = [] →
    b.fw.reverting = n :: rest →
    let t := restartOk n b
    t.fw.reverting = rest ∧
    (rest = [] → t.fw.activating = false ∧ num t 0x802100 = 8) ∧
    (∀ m, rest.head? = some m → t.fw.activating = true ∧ (proc t m).running = false ∧ (proc t m).staged = false))

/-! ## Arcade links -/

/-- R276, R263: a link in training that locks a lane goes to ALIGN; of its lanes, those that locked stay in use. One in
ALIGN whose locked lanes suffice goes to PROBE and sends a beacon. On a module with no slot (72 or above) it goes to
QUARANTINE with reason 13 (R264).
R276: after its hold a failed link goes to DOWN; a link that is DOWN, with its hold over, trains when it has signal, and
any other link only notes the signal. -/
def Obligations.LinksTrainAndComeBack : Prop :=
  (∀ (s : State) (l locked : Nat), l < 18 → halls s.toBlock = true → (link s.toBlock l).active &&& locked ≠ 0 →
    ((link s.toBlock l).state = 1 → answers (.linkTrainingDone l locked) s (fun t => (link t l).state = 2 ∧
      ∀ n, n < 25 → (link t l).active.testBit n = ((link s.toBlock l).active.testBit n && locked.testBit n))) ∧
    ((link s.toBlock l).state = 2 →
      numF s.toBlock 0x320003 ≤ popBelow 25 (link (keepLocked l locked s.toBlock) l).active →
      answers (.alignDone l locked) s (fun t =>
        (s.arc.slot < 72 → (link t l).state = 3) ∧
        (72 ≤ s.arc.slot → (link t l).state = 6 ∧ (link t l).reason = 13) ∧
        ∃ o, (link t l).out.getLast? = some o ∧ o.2.kind = 3))) ∧
  (∀ (s : State) (l : Nat) (signal : Bool), l < 18 → halls s.toBlock = true →
    ((link s.toBlock l).state = 7 → exec (.linkHoldExpiry l signal) s = .next { s with
      toBlock := setLink l { link s.toBlock l with state := 0, signal } s.toBlock }) ∧
    ((link s.toBlock l).state = 0 → answers (.linkHoldExpiry l signal) s (fun t =>
      (link t l).state = (if signal then 1 else 0) ∧ (link t l).signal = signal)) ∧
    ((link s.toBlock l).state = 0 → (link s.toBlock l).holdOver = true →
      answers (.linkSignalDetect l) s (fun t => (link t l).state = 1 ∧ (link t l).signal = true)) ∧
    (¬ ((link s.toBlock l).state = 0 ∧ (link s.toBlock l).holdOver = true) → exec (.linkSignalDetect l) s = .next { s with
      toBlock := setLink l { link s.toBlock l with signal := true } s.toBlock }))

/-- R276, R280, R281: a link fails with the reason of its event: training that times out or locks nothing, 2; alignment,
3; loss of signal while it carries flits, 1; no valid flit in UP, 6: it goes to FAULT. A DOWN from the peer takes it to
DOWN with reason 12. Its lanes are off and it holds nothing to send; every other link keeps its state. The strap gives
the module a slot (below 72). That loss of signal is reason 1 is the model's choice (log 46). -/
def Obligations.ALinkFailsWithItsReason : Prop :=
  ∀ (s : State) (l reason : Nat), l < 18 → halls s.toBlock = true → s.arc.slot < 72 →
    let k := link s.toBlock l
    let gone := fun (st r : Nat) (t : Block) => (link t l).state = st ∧ (link t l).reason = r ∧ (link t l).active = 0 ∧
      (link t l).sent = [] ∧ (link t l).wait = [] ∧ ∀ m, m ≠ l → (link t m).state = (link s.toBlock m).state
    (k.state = 1 → answers (.linkTrainingTimeout l) s (gone 7 2) ∧ answers (.linkTrainingDone l 0) s (gone 7 2)) ∧
    (k.state = 2 → answers (.alignTimeout l) s (gone 7 3) ∧ answers (.alignDone l 0) s (gone 7 3)) ∧
    (carries k.state = true →
      answers (.lossOfSignal l) s (fun t => gone 7 1 t ∧ (link t l).signal = false) ∧ answers (.down l reason) s (gone 0 12)) ∧
    (k.state = 5 → answers (.linkNoFlit l) s (gone 7 6))

/-- R262, R263: a lane that is retired, by the peer, by loss of lock or because no valid flit comes on it in UP, is no
longer used and stays retired, while another lane remains and the lanes that remain are enough; an unused spare starts
to train in its place. A lane in no use is left as it is. The last lane in use is not retired: the loss of its lock
takes the link to FAULT with reason 1. When the lanes that remain are too few, the link goes to FAULT with reason 4
(R280).
R262, R263: a lane that joins, and the spare lane once it has trained, are in use from then on.
R263: at the end of a second each lane's uncorrectable codewords and corrected symbols are counted, and a lane with more
than 0x3200.08 or 0x3200.09 allows is retired in the same way; the lanes of the list are taken in turn. -/
def Obligations.LanesRetireAndJoin : Prop :=
  (∀ (s : State) (l lane reason unc cor : Nat) (i : Instr), l < 18 → lane < 25 → halls s.toBlock = true →
    (i = .laneRetire l lane reason ∨ i = .laneLossOfLock l lane ∨
      (i = .laneNoFlit l lane ∧ (link s.toBlock l).state = 5) ∨
      (i = .laneErrorSecond l [(lane, unc, cor)] ∧ (numF s.toBlock 0x320008 < unc ∨ numF s.toBlock 0x320009 < cor))) →
    ((link s.toBlock l).active.testBit lane = false → answers i s (fun t =>
      (link t l).active = (link s.toBlock l).active ∧ (link t l).failed = (link s.toBlock l).failed ∧
      (link t l).state = (link s.toBlock l).state)) ∧
    ((link s.toBlock l).active.testBit lane = true → popBelow 25 (link s.toBlock l).active ≠ 1 →
      numF s.toBlock 0x320003 ≤ popBelow 25 (putBit (link s.toBlock l).active lane false) →
      answers i s (fun t => (link t l).active.testBit lane = false ∧ (link t l).failed.testBit lane = true ∧
        (∀ m, m ≠ lane → (link t l).active.testBit m = (link s.toBlock l).active.testBit m) ∧
        (link t l).spareTraining = ((link s.toBlock l).spareTraining ||
          (!(link s.toBlock l).spareUsed && !(link s.toBlock l).failed.testBit 24 && lane != 24)) ∧
        (link t l).state = (link s.toBlock l).state)) ∧
    ((link s.toBlock l).active.testBit lane = true → popBelow 25 (link s.toBlock l).active ≠ 1 →
      popBelow 25 (putBit (link s.toBlock l).active lane false) < numF s.toBlock 0x320003 →
      carries (link s.toBlock l).state = true → s.arc.slot < 72 →
      answers i s (fun t => (link t l).state = 7 ∧ (link t l).reason = 4 ∧ (link t l).failed.testBit lane = true)) ∧
    ((link s.toBlock l).active.testBit lane = true → popBelow 25 (link s.toBlock l).active = 1 →
      carries (link s.toBlock l).state = true → s.arc.slot < 72 →
      (i = .laneLossOfLock l lane → answers i s (fun t => (link t l).state = 7 ∧ (link t l).reason = 1 ∧
        (link t l).failed = (link s.toBlock l).failed)) ∧
      (i = .laneNoFlit l lane → exec i s = .next s))) ∧
  (∀ (s : State) (l lane : Nat), l < 18 → lane < 25 → halls s.toBlock = true → carries (link s.toBlock l).state = true →
    ((link s.toBlock l).failed.testBit lane = false → answers (.laneJoin l lane) s (fun t =>
      (link t l).active.testBit lane = true ∧ (link t l).state = (link s.toBlock l).state)) ∧
    ((link s.toBlock l).spareTraining = true → answers (.spareLaneTrained l) s (fun t =>
      (link t l).active.testBit 24 = true ∧ (link t l).spareUsed = true ∧ (link t l).spareTraining = false))) ∧
  (∀ (s : State) (l : Nat), l < 18 → halls s.toBlock = true →
    exec (.laneErrorSecond l []) s = .next s ∧
    (∀ lane unc cor, unc ≤ numF s.toBlock 0x320008 → cor ≤ numF s.toBlock 0x320009 →
      answers (.laneErrorSecond l [(lane, unc, cor)]) s (fun t =>
        mapGet 0 (link t l).counters 3 = min (2 ^ 64 - 1) (mapGet 0 (link s.toBlock l).counters 3 + unc) ∧
        mapGet 0 (link t l).counters 2 = min (2 ^ 64 - 1) (mapGet 0 (link s.toBlock l).counters 2 + cor) ∧
        (link t l).active = (link s.toBlock l).active)) ∧
    (∀ c cs t, exec (.laneErrorSecond l [c]) s = .next t → halls t.toBlock = true →
      exec (.laneErrorSecond l (c :: cs)) s = exec (.laneErrorSecond l cs) t))

/-- R258, R259: the flit that a NAK names, or whose replay time runs out, is sent again at once with its sequence and
payload, on a lane in use, until it has been resent as often as 0x3200.07 allows; then the link goes to FAULT with
reason 5. -/
def Obligations.AFlitIsResent : Prop :=
  ∀ (s : State) (l : Nat) (t : TxFlit) (i : Instr), l < 18 → halls s.toBlock = true →
    ((∃ lane count, lane < 25 ∧ i = .nak l lane count ∧
        (link s.toBlock l).sent.find? (fun t => t.lane == lane && t.laneCount == count) = some t) ∨
      (∃ lseq, i = .replayTimeout l lseq ∧ (link s.toBlock l).sent.find? (fun t => t.flit.lseq == lseq) = some t)) →
    (t.resends < numF s.toBlock 0x320007 → answers i s (fun b =>
      (∃ n f, (link b l).out = (link s.toBlock l).out ++ [(n, f)] ∧ f.lseq = t.flit.lseq ∧ f.payload = t.flit.payload ∧
        (activeLanes (link s.toBlock l) ≠ [] → n ∈ activeLanes (link s.toBlock l))) ∧
      (∃ u ∈ (link b l).sent, u.flit.lseq = t.flit.lseq ∧ u.resends = t.resends + 1) ∧
      (link b l).state = (link s.toBlock l).state)) ∧
    (numF s.toBlock 0x320007 ≤ t.resends → carries (link s.toBlock l).state = true → s.arc.slot < 72 →
      answers i s (fun b => (link b l).state = 7 ∧ (link b l).reason = 5))

/-- R277, R278: at each beacon period a link that carries flits sends a beacon on a lane in use. A beacon that arrives
is kept; on a link in PROBE it decides the plan check: READY where the check finds nothing, otherwise QUARANTINE with
the check's reason. One that shows a new serial takes a link in READY or UP to DOWN with reason 10, and one on a link in
READY or UP with the serial it had leaves the link as it is. -/
def Obligations.BeaconsGoBothWays : Prop :=
  ∀ (s : State) (l : Nat) (payload : Bytes), l < 18 → halls s.toBlock = true →
    carries (link s.toBlock l).state = true →
    let b := slice payload 0 240
    let s' := setLink l { link s.toBlock l with beacon := b, heard := true, peerSlot := bcSlot b % 128, peerLink := bcLink b % 32 } s.toBlock
    ((link s.toBlock l).active ≠ 0 → answers (.beaconPeriod l) s (fun t =>
      ∃ n f, (link t l).out = (link s.toBlock l).out ++ [(n, f)] ∧ f.kind = 3 ∧ f.payload = beaconPayload s.toBlock l)) ∧
    ((link s.toBlock l).state = 3 → answers (.beacon l payload) s (fun t => (link t l).beacon = b ∧
      (planCheck s' l b = 0 → (link t l).state = 4) ∧
      (planCheck s' l b ≠ 0 → (link t l).state = 6 ∧ (link t l).reason = planCheck s' l b))) ∧
    ((link s.toBlock l).state = 4 ∨ (link s.toBlock l).state = 5 → (link s.toBlock l).heard = true → s.arc.slot < 72 →
      bcSerial (link s.toBlock l).beacon ≠ bcSerial b → answers (.beacon l payload) s (fun t =>
        (link t l).beacon = b ∧ (link t l).state = 0 ∧ (link t l).reason = 10)) ∧
    ((link s.toBlock l).state = 4 ∨ (link s.toBlock l).state = 5 → bcSerial (link s.toBlock l).beacon = bcSerial b →
      answers (.beacon l payload) s (fun t => link t l = link s' l))

/-- R259, R260: every flit on a lane in use raises the lane's count. One whose codeword was uncorrectable or whose CRC
fails is discarded, counted, reported as detector 0x0C and named in a NAK by its lane and the lane's flit count. A good
one gives the transmitter its acknowledgement and credits; then a data flit takes its place in the reorder buffer,
unless it has arrived before, which leaves it out; the entries of a control flit act; a beacon is taken; an idle flit
has no more to give. What is to be returned to the peer and found no flit goes out in idle flits. No injection fires. -/
def Obligations.FlitsAreCheckedAndTaken : Prop :=
  ∀ (s : State) (l lane : Nat) (flit : Bytes) (uncorr : Bool) (i : Instr), l < 18 → lane < 25 → halls s.toBlock = true →
    (i = .dataFlit l lane flit uncorr ∨ i = .idleFlit l lane flit uncorr) →
    carries (link s.toBlock l).state = true → (link s.toBlock l).active.testBit lane = true →
    injects s.toBlock 0x0C (laneLoc l lane) = false → injects s.toBlock 0x0D (laneLoc l lane) = false →
    injects s.toBlock 0x0E (laneLoc l 0) = false →
    let n := mapGet 0 (link s.toBlock l).rxCount lane
    let b := setLink l { link s.toBlock l with rxCount := mapSet 0 (link s.toBlock l).rxCount lane (n + 1) } s.toBlock
    (uncorr = true ∨ flitCrcOk flit = false → answers i s (fun t =>
      mapGet 0 (link t l).rxCount lane = n + 1 ∧
      mapGet 0 (link t l).counters 0 = min (2 ^ 64 - 1) (mapGet 0 (link s.toBlock l).counters 0 + 1) ∧
      (∃ m f, (link t l).out = (link s.toBlock l).out ++ [(m, f)] ∧ f.kind = 2 ∧ f.payload = (controlFlit 1 lane n).payload) ∧
      ((mapGet [] s.logs.queues (queueOf (laneLoc l lane))).length < 256 → ∃ e : ErrEntry,
        mapGet [] t.logs.queues (queueOf (laneLoc l lane)) = mapGet [] s.logs.queues (queueOf (laneLoc l lane)) ++ [e] ∧
        e.detector = 0x0C ∧ e.loc = laneLoc l lane ∧ e.injected = false))) ∧
    (uncorr = false → flitCrcOk flit = true →
      let f := parseFlit flit
      let t := releaseRetain (modLink l (takeAck f) b)
      let done := fun (c : Block) => { s with toBlock := modLink l idleFlits c }
      (f.kind = 0 → exec i s = .next (done t)) ∧
      (f.kind = 1 → exec i s = .next (done (dataFlitIn l f t)) ∧
        (1600 ≤ (f.lseq + 65536 - (link t l).expLseq) % 65536 ∨ (∃ g ∈ (link t l).reorder, g.lseq = f.lseq) →
          exec i s = .next (done t))) ∧
      (f.kind = 2 → exec i s = .next (done (doControl l f.payload t))) ∧
      (f.kind = 3 → exec i s = .next (done (doBeacon l f.payload t))))

/-! ## Packets and messages -/

/-- R270, R271: an MWRITE, RREQ or TOKEN for this module, not from another step, takes effect when it is the next of its
stream: the stream's expected sequence rises by one, and its effect is performed. An MWRITE of MOP 0 stores its data in
the mezzanine or, in the present layout, in memory, and then adds its token; an RREQ sends the data back and then adds
its token; a TOKEN adds its value to the counter of its target gallery. One that was performed before is dropped, and
one that comes early is not performed: neither changes memory, a mezzanine, a token counter or the stream's expected
sequence. -/
def Obligations.PacketsTakeEffectOnceAndInOrder : Prop :=
  ∀ (s : State) (p : Packet) (op : Nat) (i : Instr), (op = 1 ∧ i = .mwrite p) ∨ (op = 2 ∧ i = .rreq p) ∨ (op = 3 ∧ i = .token p) →
    phOp p.header = op → p.dst = s.arc.slot → stalePacket s.toBlock p = false →
    let h := p.header
    let k := rxKey p.src p.shall p.vc
    let e := mapGet 0 s.arc.rxSeq k
    let b : Block := { s.toBlock with
      arc := { s.arc with rxSeq := mapSet 0 s.arc.rxSeq k ((e + 1) % 65536), rxNew := setAdd s.arc.rxNew k } }
    let n := min (phLen h + 1) p.data.length
    let data := withPoison (p.data.take n) p.poison 16
    (phPseq h = e → exec i s = .next { s with toBlock := drainLoop (pullArrive p (performEffect p b)) }) ∧
    (op = 1 → phMop h = 0 →
      (∀ g, phTgt h = 1 → physOf s.toBlock (fld (phAddr h) 23 6) = some g →
        performEffect p b = collsGo (collArrive p (packetToken h (mezzWrite g (fld (phAddr h) 0 23) data b)))) ∧
      (phTgt h = 0 → epochOk b (phAddr h) (packetSpan h n) (phLepoch h) = true →
        performEffect p b = collsGo (collArrive p (packetToken h (memWrite p.shall false (phAddr h) data b).2)))) ∧
    (op = 2 → performEffect p b = packetToken h (effectRead p b)) ∧
    (phPseq h = e → op = 3 → s.recov.job = none → s.arc.loop = [] →
      ∀ g, physOf s.toBlock (phTgal h) = some g → phTval h ≠ 0 →
        exec i s = .next { s with toBlock := tokAdd g (phTctr h) (phTval h) b }) ∧
    (phPseq h ≠ e →
      answers i s (fun t => t.mem = s.mem ∧ t.mezz = s.mezz ∧ t.tok = s.tok ∧ t.arc.rxSeq = s.arc.rxSeq))

/-- R272, R282, R283, R364: an acknowledgement releases the retained packets of its stream up to its sequence, and of
the module's context the holder that acknowledges its last part is awaited no more; a gap request for a packet that is
no longer held fails the step, and a pull with it, and for one that is held sends it and the later ones again. A
no-route report marks the relay's onward port, the stream takes its path anew, and the packet that it names is sent
again by it; a packet that is not retained fails the step.
R272, R283: at an acknowledgement period a stream that has performed a packet since its last one is acknowledged by the
SRC, SHALL and VC of the stream (their layout is the model's choice, log 42), stated for one such stream; with none
nothing happens. A peer's port-up bits are kept for the choice of relays, in place of what no-route reports said of it.
-/
def Obligations.StreamsAreRetainedAndAcknowledged : Prop :=
  (∀ (s : State) (t : StreamF) (relay : Nat),
    let key := streamKey s.toBlock t.src t.shall t.dst t.vc
    let mine := fun (r : Kept) => packetKey s.toBlock r.p == key
    exec (.streamAcknowledgement t) s = .next { s with toBlock := releaseRetain { s.toBlock with
      arc := { s.arc with retain := s.arc.retain.filter (fun r => !(mine r && covered t.pseq (phPseq r.p.header))) }
      recov := { s.recov with ctxAwait := s.recov.ctxAwait.filter (fun e =>
        !(t.src == s.arc.slot && t.shall == 0 && t.vc == 2 && e.1 == t.dst && covered t.pseq e.2)) } } } ∧
    ((s.arc.retain.filter mine).any (fun r => phPseq r.p.header == t.pseq) = false →
      answers (.gapRequest t) s (fun b => b.bnd.bits.testBit 5 = true ∧ b.arc = s.arc ∧
        ∀ j, b.recov.job = some j → j.failed = true)) ∧
    ((s.arc.retain.filter mine).any (fun r => phPseq r.p.header == t.pseq) = true →
      exec (.gapRequest t) s = .next { s with
        toBlock := forEach ((s.arc.retain.filter mine).filter (fun r => covered (phPseq r.p.header) t.pseq))
          (fun r b => launch true r.desc r.p b) s.toBlock }) ∧
    (let again := s.arc.retain.filter (fun r => mine r && phPseq r.p.header == t.pseq)
     let b := { s.toBlock with arc := { s.arc with
       badRelays := s.arc.badRelays ++ [(relay, onwardPort s.toBlock relay t.dst)]
       paths := mapSet 0 s.arc.paths key 0 } }
     (again ≠ [] → exec (.noRoute relay t) s = .next { s with
       toBlock := forEach again (fun r b => launch true r.desc { r.p with detour := false } b) b }) ∧
     (again = [] → answers (.noRoute relay t) s (fun c => c.bnd.bits.testBit 5 = true ∧ c.arc = b.arc)))) ∧
  ((∀ s : State, s.arc.rxNew = [] → exec .streamAckPeriod s = .next s) ∧
  (∀ (s : State) (k : Nat), s.arc.rxNew = [k] →
    exec .streamAckPeriod s = .next { s with
      toBlock := sendCtrl (k / 8) 0 0 (leBytes 1 0x40 ++ leBytes 1 (k / 8) ++ leBytes 1 (k / 4 % 2) ++ leBytes 1 (k % 4) ++
        leBytes 2 ((mapGet 0 s.arc.rxSeq k + 65535) % 65536)) { s.toBlock with arc := { s.arc with rxNew := [] } } }) ∧
  (∀ (s : State) (slot bits : Nat), answers (.portUpMessage slot bits) s (fun t =>
    mapGet 0 t.arc.peerPorts slot = bits % 1024 + 1 ∧
    (∀ q, q ≠ slot → mapGet 0 t.arc.peerPorts q = mapGet 0 s.arc.peerPorts q) ∧
    ∀ r ∈ t.arc.badRelays, r.1 ≠ slot)))

/-- R145, R146: a vote of the present step or of the next one, with the epoch in force, is kept and the boundary goes
on; outside a boundary's actions nothing else changes. A vote of an older step or two or more steps ahead, or with
another epoch, is discarded and counted in 0x2342.07.
R409: an agreement message of the present step and attempt or of a later one is kept, once for its sender, and the
boundary goes on; an earlier one is discarded.
R364: the parts of a peer's context are put together (their form is the model's choice, log 48); while some are missing
nothing else happens, and a whole context that is valid is kept for its slot, where it is the module's own or the store
has room for it beside at most eight of other slots; otherwise what was kept stays. -/
def Obligations.BoundaryMessagesAndContextsAreKept : Prop :=
  ((∀ (s : State) (v : VoteF), stepNo s.toBlock ≤ v.step → v.step < stepNo s.toBlock + 2 → v.epoch = epochNo s.toBlock →
    let b : Block := { s.toBlock with bnd := { s.bnd with votes := s.bnd.votes ++ [v] } }
    exec (.voteMessage v) s = .next { s with toBlock := boundGo b } ∧
    (s.bnd.phase ≠ .actions → exec (.voteMessage v) s = .next { s with toBlock := b })) ∧
  (∀ (s : State) (v : VoteF),
    v.step < stepNo s.toBlock ∨ stepNo s.toBlock + 2 ≤ v.step ∨ v.epoch ≠ epochNo s.toBlock →
    answers (.voteMessage v) s (fun t => t.bnd.votes = s.bnd.votes ∧ t.bnd.phase = s.bnd.phase ∧
      num t 0x234207 = min (2 ^ 32 - 1) (num s.toBlock 0x234207 + 1))) ∧
  (∀ (s : State) (a : AgreeF),
    (earlier s.toBlock a.step a.attempt = true → answers (.agreementMessage a) s (fun t =>
      t.bnd.agrees = s.bnd.agrees ∧ t.bnd.phase = s.bnd.phase)) ∧
    (earlier s.toBlock a.step a.attempt = false →
      let b : Block := { s.toBlock with bnd := { s.bnd with agrees := s.bnd.agrees ++ [a] } }
      ((∀ c ∈ s.bnd.agrees, ¬ (c.slot = a.slot ∧ c.step = a.step ∧ c.attempt = a.attempt)) →
        exec (.agreementMessage a) s = .next { s with toBlock := boundGo b } ∧
        (s.bnd.phase ≠ .actions → exec (.agreementMessage a) s = .next { s with toBlock := b })) ∧
      ((∃ c ∈ s.bnd.agrees, c.slot = a.slot ∧ c.step = a.step ∧ c.attempt = a.attempt) →
        exec (.agreementMessage a) s = .next s)))) ∧
  (∀ (s : State) (slot offset total : Nat) (data : Bytes),
    let old := if offset = 0 then [] else mapGet [] s.recov.ctxParts slot
    let parts := old ++ [(offset, data)]
    let got := (parts.map (fun p => p.2.length)).foldl (· + ·) 0
    let c := (parts.foldl (fun b p => splice b p.1 p.2) []).take total
    (got < total → exec (.contextMessage slot offset total data) s = .next { s with
      recov := { s.recov with ctxParts := mapSet [] s.recov.ctxParts slot parts } }) ∧
    (total ≤ got → answers (.contextMessage slot offset total data) s (fun t =>
      mapGet [] t.recov.ctxParts slot = [] ∧
      (ctxValid c = true →
        slot = s.arc.slot ∨ ((mapSet [] s.recov.contexts slot c).filter (fun e => e.1 != s.arc.slot)).length ≤ 8 →
        mapGet [] t.recov.contexts slot = c) ∧
      (ctxValid c = false → t.recov.contexts = s.recov.contexts))))

/-! ## The vestibules -/

/-- R380: the header of a message holds its fields as they are. R383, R384: a read of one word of the window answers a
completion with that word; a message of an unknown OP is discarded with BAD_MSG, and one of an OP that is the module's
to send, or that comes as a write, does nothing as a read; reading VST_RETRY_CNT or VST_POISON_CNT clears it. A write of
one word clears the error or alert bits it sets, gives the alert enables, or gives one entry of the doorbell map.
R378, R381, R382, R389: a vestibule link goes down, to train again while the halls run, and comes up on one module or
more, with any number of lanes repaired (that both are open, and STATE 1 after a loss, are the model's choices, logs 53
and 98). An access through the aperture that stays in its page is a read or a write of memory while the stacks are
awake, answered with the bytes read: of one whole sector, the write leaves its bytes there and every other sector as it
was, and the read answers the sector's bytes. In Standby a read answers with an error status and a write is lost, each
with its error bit; so they do while a wipe is in progress (R445). No injection fires. -/
def Obligations.TheVestibuleWindowAndAperture : Prop :=
  (∀ h : VHead, h.op < 256 → h.space < 2 → h.cls < 4 → h.tag < 4096 → h.len < 4096 → h.addr < 2 ^ 39 → h.cst < 8 →
    headOf (headBits h) = h ∧ headBits h < 2 ^ 128) ∧
  (∀ (s : State) (p tag off v : Nat), p < 2 → alive s.toBlock = true → (port s.toBlock p).link = 2 → off % 4 = 0 →
    off + 4 ≤ 65536 → v < 2 ^ 32 → injects s.toBlock 0x19 (domLoc 9) = false →
    let q := port s.toBlock p
    answers (.vestibuleRead p { op := 1, tag } off 4) s (fun t =>
      (port t p).out = q.out ++ [.completion tag 0 0 off (leBytes 4 (winWord s.toBlock p off)) (cleanMask 4)] ∧
      (port t p).retryCnt = (if off = 0x18 then 0 else q.retryCnt) ∧
      (port t p).poisonCnt = (if off = 0x1C then 0 else q.poisonCnt)) ∧
    (∀ op len, 1 ≤ len → len ≤ 4096 →
      (2 ≤ op → op ≤ 4 → exec (.vestibuleRead p { op, tag } off len) s = .next s) ∧
      (op = 0 ∨ 4 < op → exec (.vestibuleRead p { op, tag } off len) s = .next { s with toBlock := vstErr p 6 s.toBlock })) ∧
    answers (.vstRetryCntRead p tag) s (fun t =>
      (port t p).out = q.out ++ [.completion tag 0 0 0x18 (leBytes 4 q.retryCnt) (cleanMask 4)] ∧ (port t p).retryCnt = 0) ∧
    answers (.vstPoisonCntRead p tag) s (fun t =>
      (port t p).out = q.out ++ [.completion tag 0 0 0x1C (leBytes 4 q.poisonCnt) (cleanMask 4)] ∧ (port t p).poisonCnt = 0) ∧
    exec (.windowRegisterWrite p 0x0C (leBytes 4 v)) s =
      .next { s with toBlock := modPort p (fun q => { q with err := q.err - (q.err &&& v) }) s.toBlock } ∧
    exec (.windowRegisterWrite p 0x10 (leBytes 4 v)) s =
      .next { s with toBlock := modPort p (fun q => { q with pend := q.pend - (q.pend &&& v) }) s.toBlock } ∧
    exec (.windowRegisterWrite p 0x14 (leBytes 4 v)) s =
      .next { s with toBlock := modPort p (fun q => { q with alertEn := v }) s.toBlock } ∧
    (∀ n, n < 62 → exec (.windowRegisterWrite p (0x200 + 4 * n) (leBytes 4 v)) s = .next { s with
      toBlock := modPort p (fun q => { q with dbmap := mapSet 0 q.dbmap n (v &&& 0x80003FFF) }) s.toBlock })) ∧
  (∀ (s : State) (p : Nat), p < 2 →
    exec (.vestibuleLinkDown p) s = .next { s with
      toBlock := modPort p (fun q => { q with link := if halls s.toBlock then 1 else 0, mods := 0 }) s.toBlock } ∧
    (halls s.toBlock = true → (port s.toBlock p).link < 2 → answers (.vestibuleLinkUp p) s (fun t =>
      (port t p).link = 2 ∧ 1 ≤ (port t p).mods ∧ (port t p).mods ≤ 15 ∧ (port t p).repairs < 256 ∧
      (port t p).everUp = true ∧ t.freeCtr = s.freeCtr + 1 ∧
      (port t p).retrains = if (port s.toBlock p).everUp then min 65535 ((port s.toBlock p).retrains + 1)
        else (port s.toBlock p).retrains)) ∧
    (∀ (tag addr len cls : Nat) (data : Bytes) (mask : List Bool), alive s.toBlock = true → (port s.toBlock p).link = 2 →
      injects s.toBlock 0x19 (domLoc 9) = false → addr < 2 ^ 39 → 1 ≤ len → len ≤ 4096 → data.length = len → addr / 4096 = (addr + len - 1) / 4096 →
      (halls s.toBlock = true → (num s.toBlock 0x720100).testBit 7 = false →
        exec (.apertureWrite p addr cls data mask) s =
          .next { s with toBlock := (memWrite p false addr (withPoison data mask 32) s.toBlock).2 } ∧
        (((unitMask (memRead p addr len s.toBlock).1).filter id).length = 0 →
          exec (.apertureRead p tag addr len cls) s = .next { s with
            toBlock := complete p tag 0 1 addr (plain (memRead p addr len s.toBlock).1)
              (unitMask (memRead p addr len s.toBlock).1) (memRead p addr len s.toBlock).2 }) ∧
        (len = 32 → plainSector s.toBlock addr →
          answers (.apertureWrite p addr cls data [false]) s (fun t => secBytes t (sectorOf s.toBlock addr) = data ∧
            (∀ k, k ≠ sectorOf s.toBlock addr → secBytes t k = secBytes s.toBlock k)) ∧
          (s.mem.poison.contains (sectorOf s.toBlock addr) = false → answers (.apertureRead p tag addr len cls) s (fun t =>
            (port t p).out = (port s.toBlock p).out ++
              [.completion tag 0 1 addr (secBytes s.toBlock (sectorOf s.toBlock addr)) [false]] ∧
            t.mem.bytes = s.mem.bytes)))) ∧
      (halls s.toBlock = false ∨ (num s.toBlock 0x720100).testBit 7 = true →
        exec (.apertureWrite p addr cls data mask) s = .next { s with toBlock := vstErr p 1 s.toBlock } ∧
        exec (.apertureRead p tag addr len cls) s =
          .next { s with toBlock := complete p tag 2 1 addr (zeros len) (cleanMask len) (vstErr p 1 s.toBlock) })))

/-- R385, R386, R387: a program doorbell adds the low 16 bits of its value to the token counter its map entry names, and
one that is unmapped or adds 0 sets its error bit; a write to its register rings it. A collective doorbell of the
attempt in progress that is new is held, for a collective that has not passed its phase; for one that has, it sets its
error bit, as does one of another attempt. Every doorbell counts. No injection fires. -/
def Obligations.DoorbellsCountAndAct : Prop :=
  ∀ (s : State) (p n v : Nat), p < 2 → alive s.toBlock = true → (port s.toBlock p).link = 2 → n < 62 → v < 2 ^ 32 →
    injects s.toBlock 0x19 (domLoc 9) = false →
    let m := mapGet 0 (port s.toBlock p).dbmap n
    (∀ g, bit m 31 = true → v % 65536 ≠ 0 → physOf s.toBlock (min (fld m 8 6) 47) = some g →
      answers (.programDoorbell p n v) s (fun t =>
        tokVal t g (fld m 0 8) = min (2 ^ 32 - 1) (tokVal s.toBlock g (fld m 0 8) + v % 65536) ∧
        (port t p).dbSeen = ((port s.toBlock p).dbSeen + 1) % 2 ^ 32)) ∧
    (bit m 31 = false ∨ v % 65536 = 0 → answers (.programDoorbell p n v) s (fun t =>
      (port t p).err.testBit 4 = true ∧ t.tok = s.tok ∧ (port t p).dbSeen = ((port s.toBlock p).dbSeen + 1) % 2 ^ 32)) ∧
    exec (.windowRegisterWrite p (0x100 + 4 * n) (leBytes 4 v)) s = exec (.programDoorbell p n v) s ∧
    (∀ (i : Instr) (phase : Nat),
      ((phase = 1 ∧ i = .collectiveDoorbellAnchor p v) ∨ (phase = 2 ∧ i = .collectiveDoorbellSums p v)) →
      let b := (fld v 0 10, phase, fld v 12 8)
      (fld v 12 8 = s.bnd.attempt % 256 → (∀ e ∈ s.colls.heldBells, e.1 ≠ b) → s.colls.doneBells.contains b = false →
        bellPassed s.toBlock (fld v 0 10) phase = false →
        exec i s = .next { s with toBlock := countRing p (collsGo { s.toBlock with
          colls := { s.colls with heldBells := s.colls.heldBells ++ [(b, p)] } }) }) ∧
      (fld v 12 8 ≠ s.bnd.attempt % 256 ∨ ((∀ e ∈ s.colls.heldBells, e.1 ≠ b) ∧ s.colls.doneBells.contains b = false ∧
          bellPassed s.toBlock (fld v 0 10) phase = true) → answers i s (fun t =>
        (port t p).err.testBit 3 = true ∧ t.colls = s.colls ∧ t.mem = s.mem ∧
        (port t p).dbSeen = ((port s.toBlock p).dbSeen + 1) % 2 ^ 32)))

/-! ## Mailbox requests -/

/-- R392, R461: ringing the mailbox with the number of the request in service changes nothing more, and with another
number sets an error bit; with the number of the response held it gives the alert of that response again. A new request
is answered with a refusal when its state or access does not allow it, waits when a processor it needs is not running or
an earlier request waits, and is otherwise performed. R450: of an attestation request that waits for the security core
the values of its report are taken at once. Every ring counts. No injection fires. -/
def Obligations.ARequestIsTakenOnce : Prop :=
  ∀ (s : State) (i : Instr) (typ : Nat) (r : ReqF), reqHead i = some (typ, r) → r.port < 2 → alive s.toBlock = true →
    (port s.toBlock r.port).link = 2 → injects s.toBlock 0x19 (domLoc 9) = false →
    let q := r.seq % 2 ^ 32
    let c := countRing r.port s.toBlock
    let b := modPort r.port (fun v => { v with service := some (q, typ), mbState := 1 }) c
    (∀ n ty, (port s.toBlock r.port).service = some (n, ty) →
      exec i s = .next { s with toBlock := if n = q then c else vstErr r.port 2 c }) ∧
    ((port s.toBlock r.port).service = none → (port s.toBlock r.port).heldSeq = q + 1 →
      exec i s = .next { s with toBlock := alert 9 (q + leAt (port s.toBlock r.port).response 12 2 * 2 ^ 32) c }) ∧
    ((port s.toBlock r.port).service = none → (port s.toBlock r.port).heldSeq ≠ q + 1 →
      (∀ st, gate typ b = some st → exec i s = .next { s with toBlock := refuseReq typ r st b }) ∧
      (gate typ b = none → reqWaits typ b = true →
        ((∀ n : Bytes, i = .attestationReport r n → n.length ≠ 64 ∨ procRuns b 0 = true) →
          exec i s = .next { s with toBlock := { b with fw := { b.fw with waiting := b.fw.waiting ++ [i] } } }) ∧
        (∀ n : Bytes, i = .attestationReport r n → n.length = 64 → procRuns b 0 = false →
          exec i s = .next { s with toBlock := { b with fw := { b.fw with reports := b.fw.reports ++ [(r, reportHead b n)] } } })) ∧
      (gate typ b = none → reqWaits typ b = false → exec i s = .next { s with toBlock := performReq i b }))

/-- R391, R392: a response is held with its request's number, its status and its payload, behind the header of 32 bytes,
and nothing but the ports changes.
R393, R365 to R370, R373: what the requests about objects, the program and its recovery do when they are performed: the
digest and the bytes of an object are answered, an object is written, a program is loaded (not while a step runs, load
status 0x07, nor with a size outside its bounds, 0x03), a loaded program starts, replays the manifest it is given, parks
at its next boundary or at once when nothing issues, resumes also when it was loaded, restored or reset warmly while
parked, has its context saved to memory, and is restored, takes over a rank or mirrors again, each with the code of its
checks when one fails. -/
def Obligations.RequestsAboutTheProgram : Prop :=
  (∀ (r : ReqF) (typ st : Nat) (d : Bytes) (b : Block), r.port < 2 →
    let t := respond r typ st d b
    (port t r.port).mbState = 2 ∧ (port t r.port).service = none ∧ (port t r.port).heldSeq = r.seq % 2 ^ 32 + 1 ∧
    (port t r.port).response = respHeader typ (r.seq % 2 ^ 32) d.length st (stepNo b) ++ d ∧
    t = { b with portA := t.portA, portB := t.portB }) ∧
  ∀ (s : State) (r : ReqF) (b : Block),
    (∀ index sub offset count, taken (.objectRead r index sub offset count) r s b →
      exec (.objectRead r index sub offset count) s = .next { s with
        toBlock := respond r 0x01 (objRead b (index * 256 + sub) offset count).1
          (objRead b (index * 256 + sub) offset count).2 b }) ∧
    (∀ index sub offset data, taken (.objectWrite r index sub offset data) r s b →
      exec (.objectWrite r index sub offset data) s = .next { s with
        toBlock := respond r 0x02 (objWrite .host (index * 256 + sub) offset data b).1 []
          (objWrite .host (index * 256 + sub) offset data b).2 }) ∧
    (taken (.digestQuery r) r s b → exec (.digestQuery r) s = .next { s with
      toBlock := respond r 0x03 0 (digestForce b ++ leBytes 4 (epochNo b) ++ digestStaged b ++
        leBytes 2 (readNum b 0x1F0004)) b }) ∧
    (∀ addr size, taken (.programLoad r addr size) r s b →
      let l := tryLoad addr size b
      let t := if l.1 = 256 then respond r 0x10 7 [] l.2
        else longDone 0x10 l.1 r.seq (setNum 0x603001 l.1 (respond r 0x10 1 [] l.2))
      exec (.programLoad r addr size) s = .next { s with toBlock := t } ∧
      (stepRunning b = true → b.prog.started = true → num t 0x603001 = 7 ∧ t.prog = b.prog) ∧
      (stepRunning b = false → size < 512 ∨ 2 ^ 23 + 256 < size → num t 0x603001 = 3 ∧ t.prog = b.prog)) ∧
    (taken (.start r) r s b → pstate b ≠ 1 → b.pwr.trans = none → b.prog.loaded = true → b.prog.started = false →
      b.bnd.phase ≠ .actions → b.recov.job = none → exec (.start r) s = .next { s with
        toBlock := beginResume 0x11 r { b with recov := { b.recov with replay := false } } }) ∧
    (taken (.replayStart r) r s b → pstate b ≠ 1 → b.pwr.trans = none → b.prog.loaded = true → stepRunning b = false →
      b.bnd.phase ≠ .actions → b.recov.job = none →
      let m := slice (dom b 0x608400) 0 4096
      let c := setNum 0x607300 0 (setNum 0x600001 (mfStep m) b)
      let t := if slice m 0x18 64 ≠ dom b 0x603002 then respond r 0x11 8 [] (setNum 0x607300 4 b)
        else if slice m 0x58 64 ≠ digestForce b then respond r 0x11 8 [] (setNum 0x607300 7 b)
        else beginResume 0x11 r { c with
          recov := { c.recov with replay := true, replayManifest := m }, upd := { c.upd with eta := mfEta m } }
      exec (.replayStart r) s = .next { s with toBlock := t }) ∧
    (taken (.park r) r s b → b.prog.loaded = true → b.prog.started = true ∨ isParked b = true →
      let c := respond r 0x12 1 [] b
      let d := { c with
        recov := { c.recov with parkPending := true, parkReqs := c.recov.parkReqs ++ [(r.port, r.seq)] } }
      exec (.park r) s = .next { s with toBlock := if isParked b then goParked d else setRecov 0 true d }) ∧
    (taken (.resume r) r s b → pstate b ≠ 1 → b.pwr.trans = none → b.prog.loaded = true → stepRunning b = false →
      b.bnd.phase ≠ .actions → b.recov.job = none → exec (.resume r) s = .next { s with
        toBlock := beginResume 0x13 r { b with recov := { b.recov with replay := false } } }) ∧
    (∀ addr, taken (.save r addr) r s b → addr % 2 ^ 20 = 0 → addr < 2 ^ 39 →
      b.prog.loaded = true → stepRunning b = false → b.recov.job = none → mapGet [] b.recov.contexts b.arc.slot ≠ [] →
      exec (.save r addr) s = .next { s with toBlock := recovEnd 0x14 0 r (memWrite 0 false addr
        ((mapGet [] b.recov.contexts b.arc.slot).map (fun b => (b, false))) (respond r 0x14 1 [] b)).2 }) ∧
    (∀ addr flags, taken (.restore r addr flags) r s b → addr % 2 ^ 20 = 0 → addr < 2 ^ 39 →
      b.prog.loaded = true → stepRunning b = false → b.bnd.phase ≠ .actions → b.recov.job = none →
      let h := memRead 0 addr 256 (respond r 0x15 1 [] b)
      let n := leAt (plain h.1) 4 4
      let d := if n < 256 ∨ 119040 + 16 * 49152 < n then h else memRead 0 addr n h.2
      let code := if anyPoison d.1 then 2 else ctxStatus (plain d.1) (bit flags 0) d.2
      let t := if code = 0 then recovEnd 0x15 0 r (applyContext (plain d.1) (bit flags 0) d.2) else recovEnd 0x15 code r d.2
      exec (.restore r addr flags) s = .next { s with toBlock := t } ∧ num t 0x607300 = code) ∧
    (∀ rank, taken (.takeoverSlices r rank) r s b →
      let c := respond r 0x16 1 [] b
      let code := if takeStatus rank c = 0 then sliceStatus rank c else takeStatus rank c
      let x := ctxFound rank c
      let t := if code = 0 then jobGo (pullHeld (pullRank rank (leftSlot rank c) (startJob 0x16 r rank x c))) else recovEnd 0x16 code r c
      exec (.takeoverSlices r rank) s = .next { s with toBlock := t }) ∧
    (∀ rank, taken (.takeoverTwin r rank) r s b →
      let c := respond r 0x16 1 [] b
      let code := takeStatus rank c
      let x := ctxFound rank c
      let t := if code = 0 then jobGo (pullHeld (startJob 0x16 r rank x c)) else recovEnd 0x16 code r c
      exec (.takeoverTwin r rank) s = .next { s with toBlock := t }) ∧
    (taken (.reMirror r) r s b → b.prog.loaded = true → stepRunning b = false → b.bnd.phase ≠ .actions →
      b.recov.job = none →
      exec (.reMirror r) s = .next { s with
        toBlock := jobGo (pullHeld (startJob 0x17 r 0x7F [] (respond r 0x17 1 [] b))) })

/-- R375, R457, R459, R449, R452, R438 to R440: what the requests about power, security and firmware do when they are
performed: a warm reset after its answer; a power transition when the module may make it, STATE otherwise, with 1 in
0x6073 (log 94); a report over a nonce of 64 bytes; a debug token that is used or fails; an image checked and, when it
is valid, staged into the set not in use; a staged set activated processor by processor, deferred while an emergency
stands or the module is Curbed (0x07), or abandoned. -/
def Obligations.RequestsAboutTheModule : Prop :=
  ∀ (s : State) (r : ReqF) (b : Block),
    (taken (.warmReset r) r s b → exec (.warmReset r) s = .next { s with toBlock := warmReset (respond r 0x20 0 [] b) }) ∧
    (∀ (i : Instr) (target : Nat), ((target = 0 ∧ i = .powerRequestDormant r) ∨ (target = 1 ∧ i = .powerRequestStandby r) ∨
        (target = 2 ∧ i = .powerRequestReady r)) → taken i r s b →
      (powerMay target b = true →
        exec i s = .next { s with toBlock := powerGo target (r.port, r.seq + 1) (respond r 0x21 1 [] b) }) ∧
      (powerMay target b = false → exec i s = .next { s with toBlock := respond r 0x21 7 [] (setNum 0x607300 1 (setResult 1 b)) })) ∧
    (∀ nonce : Bytes, nonce.length = 64 → taken (.attestationReport r nonce) r s b →
      exec (.attestationReport r nonce) s = .next { s with toBlock := respond r 0x30 0 (attest b nonce) b }) ∧
    (∀ tok, taken (.debugToken r tok) r s b → exec (.debugToken r tok) s = .next { s with
      toBlock := respond r 0x31 (if (useToken tok b).1 then 0 else 8) [] (useToken tok b).2 }) ∧
    (∀ kind addr size, taken (.firmwareStage r kind addr size) r s b → b.fw.activating = false → kind < 4 →
      512 ≤ size → size ≤ 512 + imgLimit kind →
      let d := memRead 0 addr size (respond r 0x40 1 [] b)
      let l := stagedSet d.2 kind (plain d.1)
      let code := if anyPoison d.1 then 1 else imgCheck d.2 kind (plain d.1)
      let c := putSet (1 - d.2.fw.activeSet) l d.2
      let t := if code ≠ 0 then fwDone code r d.2
        else if setCoherent l then fwDone 0 r (setFwBit 2 true { c with fw := { c.fw with staged := true } })
        else fwDone 4 r d.2
      exec (.firmwareStage r kind addr size) s = .next { s with toBlock := t }) ∧
    (taken (.firmwareActivate r) r s b → b.fw.activating = false → b.fw.staged = true → pstate b ≠ 4 → emergencies b = 0 →
      let c := respond r 0x40 1 [] b
      exec (.firmwareActivate r) s = .next { s with toBlock := activateNext (setFwBit 3 true { c with
        fw := { c.fw with activating := true, order := activationOrder c, req := (r.port, r.seq) } }) }) ∧
    (taken (.firmwareActivate r) r s b → b.fw.activating = false → b.fw.staged = true → pstate b = 4 ∨ emergencies b ≠ 0 →
      answers (.firmwareActivate r) s (fun t => num t 0x802100 = 7 ∧ t.fw.deferred = true ∧ t.fw.activating = true ∧
        t.fw.procs = b.fw.procs)) ∧
    (taken (.firmwareAbandon r) r s b → b.fw.activating = false → b.fw.staged = true →
      let c := respond r 0x40 1 [] b
      exec (.firmwareAbandon r) s = .next { s with
        toBlock := fwDone 0 r (setFwBit 2 false { c with fw := { c.fw with staged := false } }) })

/-! ## Objects, the portico, the lifecycle -/

/-- R395, R397, R398, R400: a write of an object that does not exist answers NO_OBJECT and has no effect; one that its
plane or the object's access forbids answers ACCESS and is counted in 0x1E00.03; one of the wrong length answers LENGTH.
An accepted write of an integer outside the digest set answers OK and stores the value, or the nearer bound of its
range. A read answers the stored bytes from its offset, at most as many as it asks for. R396: an object of eight bytes
or fewer is read and written whole; another access to it answers LENGTH (the model's choice, log 95). -/
def Obligations.ObjectWritesAreClampedAndReadBack : Prop :=
  ∀ (s : Block) (pl : Plane) (key v : Nat) (o : ObjDef),
    (objFind key = none → objHighest (key / 256) = 0 → ∀ offset data,
      objWrite pl key offset data s = (6, s) ∧ objRead s key offset 4096 = (6, [])) ∧
    (objFind key = some o → (o.acc = .const ∨ o.acc = .ro ∨ planeMay s pl (key / 256) = false) → ∀ offset data,
      objWrite pl key offset data s = (5, bumpNum 0x1E0003 32 1 s)) ∧
    (objFind key = some o → o.acc = .rw → planeMay s pl (key / 256) = true → 0 < typSize o.typ →
      (∀ data : Bytes, data.length ≠ typSize o.typ → objWrite pl key 0 data s = (4, s)) ∧
      (o.typ ≠ 1 → o.typ ≠ 10 → o.digest = false → key ≠ 0x321000 → v < 256 ^ typSize o.typ →
        let w := objWrite pl key 0 (leBytes (typSize o.typ) v) s
        w.1 = 0 ∧ num w.2 key = (if v < o.lo then o.lo else if o.hi < v then o.hi else v) ∧
        (o.persist = true → key ∈ w.2.store.unwritten) ∧ w.2.mem = s.mem ∧ w.2.arr = s.arr ∧ w.2.vec = s.vec)) ∧
    (objFind key = some o → o.acc = .rw → planeMay s pl (key / 256) = true → typSize o.typ = 0 → o.hi ≤ 8 →
      ∀ offset data, 0 < offset → offset ≤ o.hi → objWrite pl key offset data s = (4, s)) ∧
    (∀ x offset count, objValue s key = some x → offset ≤ x.length →
      (smallObj key = false ∨ (offset = 0 ∧ x.length ≤ count) →
        objRead s key offset count = (0, (x.drop offset).take (min count 4096))) ∧
      (smallObj key = true → 0 < offset ∨ count < x.length → objRead s key offset count = (4, [])))

/-- R397, R400 and the rules of the command objects: a value in its range, written by a plane that may write the object,
has the command's effect. A link is reset (R376), the lane mode is set (R254), the defaults are staged (R403), a page is
to be cleared of poison (R251), a guard band is to be removed (R357), the floor map is cleared (R349), a gallery is
reset (R375), the latched bits are cleared (R485), an identity key is generated (R446), a fault injection is armed
(R353). What changes flash waits while the security core does not run (R432). A plane that may not write the object only
counts. -/
def Obligations.CommandObjectsActOnAWrite : Prop :=
  ∀ (s : State) (pl : Plane) (v : Nat), planeUp s.toBlock pl = true →
    let may := fun k => planeMay s.toBlock pl k = true
    (may 0x3212 → v < 18 → halls s.toBlock = true →
      exec (.linkReset pl v) s = .next { s with toBlock := resetLink v s.toBlock } ∧
      ((link s.toBlock v).state < 8 → s.arc.slot < 72 → answers (.linkReset pl v) s (fun t =>
        (link t v).state = 0 ∧ (link t v).reason = 0 ∧ (link t v).active = 0))) ∧
    (may 0x3210 → v < 5 →
      exec (.laneMode pl v) s = .next { s with toBlock := laneWrite 0x321000 (setNum 0x321000 v s.toBlock) } ∧
      answers (.laneMode pl v) s (fun t => num t 0x321000 = v)) ∧
    (may 0x1F20 → exec (.restoreDefaults pl 1) s = .next { s with toBlock := stageDefaults s.toBlock }) ∧
    (may 0x5122 → v < 524288 → answers (.clearPoisoned pl v) s (fun t =>
      v ∈ t.mem.fix.clearPoisonReq ∧ t.mem.bytes = s.mem.bytes ∧ t.mem.poison = s.mem.poison)) ∧
    (may 0x5232 → v < 50 → answers (.removeGuardBand pl v) s (fun t => v ∈ t.rel.guardZero)) ∧
    (may 0x5301 → procRuns s.toBlock 0 = true → answers (.clearFloorMap pl 1) s (fun t => t.rel.floorMap = [] ∧ t.rel.floorWait = [] ∧
      t.rel.floorOld = s.rel.floorOld ++ s.rel.floorMap ++ s.rel.floorWait)) ∧
    (may 0x6075 → v < 50 → halls s.toBlock = true →
      exec (.galleryReset pl v) s = .next { s with toBlock := resetGallery v s.toBlock } ∧
      (v ∈ boundPhys s.toBlock → isParked s.toBlock = false → exec (.galleryReset pl v) s = .next s) ∧
      (v ∈ boundPhys s.toBlock → isParked s.toBlock = true → s.recov.job = none →
        answers (.galleryReset pl v) s (fun t => t.prog.loaded = false))) ∧
    (may 0x4021 → answers (.clearLatchedBits pl 1) s (fun t =>
      num t 0x402000 = (num s.toBlock 0x402000 &&& 0xFFFF0FFF))) ∧
    (may 0x7120 → lifeMay s.toBlock = true → procRuns s.toBlock 0 = true → answers (.generateIdentityKey pl 1) s (fun t =>
      t.sec.identity = s.sec.identity + 1 ∧ (num t 0x720100).testBit 4 = true)) ∧
    (procRuns s.toBlock 0 = false →
      (may 0x5301 → exec (.clearFloorMap pl 1) s =
        .next { s with fw := { s.fw with waiting := s.fw.waiting ++ [.clearFloorMap .host 1] } }) ∧
      (may 0x7120 → exec (.generateIdentityKey pl 1) s =
        .next { s with fw := { s.fw with waiting := s.fw.waiting ++ [.generateIdentityKey .host 1] } })) ∧
    (may 0xA100 → v ≤ 1024 → canArm s.toBlock (num s.toBlock 0xA10001) = true → answers (.injectionArm pl v) s (fun t =>
      t.rel.inject = { detector := num s.toBlock 0xA10001, loc := num s.toBlock 0xA10002,
                       trigger := num s.toBlock 0xA10003, left := v })) ∧
    (planeMay s.toBlock pl 0x7120 = false → v < 256 →
      exec (.generateIdentityKey pl v) s = .next { s with toBlock := bumpNum 0x1E0003 32 1 s.toBlock })

/-- R443, R444, R447: with the security core running and the module not in Dormant, an owner enrolment or a lifecycle
record that passes its checks takes effect, and one that does not gives only its code in 0x7201; a certificate chain is
installed where the lifecycle allows it. A record that comes while the core is not there waits. R445: a move into
Returned sets WIPING, and a wipe in progress ends at the next idle step, with memory wiped (the model's choice, log 99).
-/
def Obligations.LifecycleRecordsTakeEffect : Prop :=
  ∀ (s : State) (rec : Bytes), pstate s.toBlock ≠ 0 →
    (secWaits s.toBlock = false →
      (let b := setAuth (enrolCheck rec s.toBlock) (renew s.toBlock)
       exec (.ownerEnrolment rec) s = .next { s with toBlock := if enrolCheck rec s.toBlock = 0 then takeOwner rec b else b }) ∧
      (∀ i : Instr, i = .lifecycleToReturned rec ∨ i = .lifecycleToProvisioned rec →
        let b := setAuth (lifeCheck rec s.toBlock) (renew s.toBlock)
        let c := raiseLife (lifeStep b (leAt rec 4 1)) b
        exec i s = .next { s with
          toBlock := if lifeCheck rec s.toBlock ≠ 0 then b
            else if lifecycle c = 3 then setNum 0x720100 (putBit (num c 0x720100) 7 true) c else c })) ∧
    (∀ i : Instr, i = .ownerEnrolment rec ∨ i = .lifecycleToReturned rec ∨ i = .lifecycleToProvisioned rec →
      secWaits s.toBlock = true →
      exec i s = .next { s with fw := { s.fw with waiting := s.fw.waiting ++ [i] } }) ∧
    (∀ pl : Plane, alive s.toBlock = true → procRuns s.toBlock 0 = true → planeMay s.toBlock pl 0x7121 = true → rec.length ≤ 8192 →
      lifeMay s.toBlock = true → s.sec.identity ≠ 0 →
      answers (.installCertificateChain pl rec) s (fun t => dom t 0x700200 = rec)) ∧
    ((num s.toBlock 0x720100).testBit 7 = true →
      (wipeEnd s.toBlock).mem.bytes = [] ∧ (num (wipeEnd s.toBlock) 0x720100).testBit 7 = false ∧
      (wipeEnd s.toBlock).recov.contexts = [] ∧ (wipeEnd s.toBlock).sec.wiped = lifeCount s.toBlock + 1)

/-- R415 to R418: a portico frame that is no plain frame of its EtherType, or whose FCS fails, is discarded and counted,
and one for another address is ignored. An accepted frame is counted. One that comes while an earlier one is served
waits in the queue, and is dropped and counted where 16 wait; otherwise what waits is served, and then the frame: a
source that repeats its last number gets the response it got; with an unreadable authenticated counter only three
objects are answered; a frame of another version, or one longer than the limit, gets its status; one of an unknown
service gets TYPE; any other is served, and its response is sent and kept; a notify has no response. Traffic may show
the coordinator's beacon again. A read answers the object's bytes from its offset, a write stores its bytes there, each
with the object service's status; a digest query answers the digests.
R402, R417: a segmented transfer. A start opens one, the next segment of a download stages its bytes, an upload's
segment gives the next bytes, the last one with its marks, the end of a complete download is one whole write, and an
abort, or 2 s without a segment, drops it. When a frame has to wait, what a broadcast, COUNTER_FAIL and CHANGED mean,
the answers of the corners and when the beacon is seen again are the model's choices (logs 56, 96 and 55). -/
def Obligations.APorticoFrameIsServedOnceAndTransfersStage : Prop :=
  (∀ (s : State) (f : FrameF) (i : Instr) (svc : Nat) (own p : Block → Served × Block),
    ((i = .porticoRead f ∧ svc = 1 ∧ own = porticoGet f) ∨ (i = .porticoWrite f ∧ svc = 2 ∧ own = porticoPut f) ∨
      (i = .segmentStart f ∧ svc = 3 ∧ own = porticoStart f) ∨ (i = .segment f ∧ svc = 4 ∧ own = porticoSegment f) ∨
      (i = .segmentEnd f ∧ svc = 5 ∧ own = porticoEnd f) ∨ (i = .segmentAbort f ∧ svc = 6 ∧ own = porticoAbort f) ∨
      (i = .porticoDigestQuery f ∧ svc = 8 ∧ own = porticoDigest f)) →
    ((f.svc = svc ∧ p = own) ∨ ((f.svc = 0 ∨ f.svc = 7 ∨ 9 ≤ f.svc) ∧ p = fun b => (servedStatus 3 f, b))) →
    (alive s.toBlock = false → exec i s = .next s) ∧
    (alive s.toBlock = true →
      (f.etherType ≠ 0x88B5 ∨ f.tagged = true ∨ f.fcsOk = false →
        exec i s = .next { s with toBlock := bumpNum 0x340104 32 1 s.toBlock }) ∧
      (f.etherType = 0x88B5 → f.tagged = false → f.fcsOk = true →
        (f.dst ≠ Config.macAddress → f.dst ≠ 2 ^ 48 - 1 → exec i s = .next s) ∧
        (f.dst = Config.macAddress ∨ f.dst = 2 ^ 48 - 1 →
          let b := bumpNum 0x340101 32 1 (plcaHear s.toBlock)
          let c := serveQueue b
          (f.waits = true →
            (16 ≤ b.portico.queue.length → exec i s = .next { s with toBlock := bumpNum 0x340103 32 1 b }) ∧
            (b.portico.queue.length < 16 → exec i s = .next { s with
              toBlock := { b with portico := { b.portico with queue := b.portico.queue ++ [f] } } })) ∧
          (f.waits = false →
            (f.svc = 7 → exec i s = .next { s with toBlock := c }) ∧
            (f.svc ≠ 7 →
              (∀ o, kept c f.src f.seq = some o → exec i s = .next { s with toBlock := sendFrame o c }) ∧
              (kept c f.src f.seq = none →
                (porticoAnswers c (if f.svc = 8 then 0x1F00 else f.index) = false →
                  exec i s = .next { s with toBlock := c }) ∧
                (porticoAnswers c (if f.svc = 8 then 0x1F00 else f.index) = true →
                  let r := if f.ver ≠ 1 then (servedStatus 2 f, c) else if 1024 < f.len then (servedStatus 4 f, c) else p c
                  let o := respFrame f.svc f r.1
                  exec i s = .next { s with toBlock := sendFrame o (keepFrame f.src f.seq o r.2) })))))))) ∧
  (∀ b : Block, (b.portico.queue = [] → serveQueue b = b) ∧
    (b.pwr.plcaOk = true → plcaHear b = b) ∧
    ∃ ok, b.pwr.plcaOk = false →
      plcaHear b = { b with freeCtr := b.freeCtr + 1, pwr := { b.pwr with plcaOk := ok } }) ∧
  (∀ (f : FrameF) (b : Block),
    let key := f.index * 256 + f.sub
    porticoGet f b = ({ status := (objRead b key f.offset f.len).1, flags := 0, xfer := f.xfer
                        data := (objRead b key f.offset f.len).2 }, b) ∧
    (f.len ≤ f.data.length → porticoPut f b = (servedStatus (objWrite .portico key f.offset (f.data.take f.len) b).1 f,
      (objWrite .portico key f.offset (f.data.take f.len) b).2)) ∧
    (porticoDigest f b).1.data = digestForce b ++ leBytes 4 (epochNo b) ++ digestStaged b ++ leBytes 1 b.arc.slot ++ zeros 3 ++
      slice Config.serial 0 16 ∧
    (b.portico.xfers = [] → f.len = 4 → 4 ≤ f.data.length → (objValue b (f.index * 256 + f.sub)).isSome = true →
      ∃ x, (porticoStart f b).2.portico.xfers = [x] ∧ x.id = b.portico.nextXfer ∧ x.download = true ∧
        x.total = leAt f.data 0 4 ∧ x.next = 0 ∧ x.data = [] ∧ (porticoStart f b).1.status = 0) ∧
    (∀ x, b.portico.xfers = [x] → x.id = f.xfer → x.src = f.src →
      (x.download = true → f.offset = x.next → f.len ≤ f.data.length → x.next + f.len ≤ x.total →
        (porticoSegment f b).2.portico.xfers = [{ x with next := x.next + f.len, data := x.data ++ f.data.take f.len }]) ∧
      (x.download = false → f.offset = x.next → x.live = false →
        (porticoSegment f b).1.data = ((x.data.take x.total).drop x.next).take f.len) ∧
      (x.download = false → f.offset = x.next →
        let v := if x.live then (objValue b (x.index * 256 + x.sub)).getD [] else x.data
        let n := x.next + (((v.take x.total).drop x.next).take f.len).length
        let changed := x.dirty || v != x.data
        (porticoSegment f b).1.flags = (if min x.total v.length ≤ n then 2 + (if changed then 4 else 0) else 0) ∧
        (porticoSegment f b).2.portico.xfers = [{ x with next := n, dirty := changed }]) ∧
      (x.download = true → x.next = x.total →
        let c := { b with portico := { b.portico with xfers := [] } }
        porticoEnd f b = (servedStatus (objWriteWhole .portico (x.index * 256 + x.sub) x.data c).1 f,
          (objWriteWhole .portico (x.index * 256 + x.sub) x.data c).2)) ∧
      (porticoAbort f b).2.portico.xfers = []) ∧
    (∀ (s : State) (xfer : Nat), alive s.toBlock = true →
      exec (.segmentTimeout xfer) s = .next { s with portico := { s.portico with
        xfers := s.portico.xfers.filter (fun y => y.id != xfer) } }))

/-- R403: a write to 0x1F20 with the value 1 writes the Default of every object of the digest set as one staged change. No
other object changes but those that report it: the digests, the declaration, the recovery status and the portico's
counters. A write of 0 does nothing. -/
def Obligations.RestoringWritesEveryDefaultOfTheDigestSet : Prop :=
  ∀ (s : State) (pl : Plane), planeUp s.toBlock pl = true → planeMay s.toBlock pl 0x1F20 = true →
    answers (.restoreDefaults pl 1) s (fun t =>
      (∀ k, inDigest k = true → num t k = numDflt s.arc.slot k ∧ dom t k = domDflt k) ∧
      (∀ k, inDigest k = false → k / 256 ≠ 0x1F00 → k / 256 ≠ 0x1F10 → k / 256 ≠ 0x6070 → k / 256 ≠ 0x3401 →
        num t k = num s.toBlock k ∧ dom t k = dom s.toBlock k)) ∧
    exec (.restoreDefaults pl 0) s = .next s

/-! ## The debug port, resets and power -/

/-- R454, R460: each instruction of the debug access port. IDCODE and BYPASS work whenever the port does; the others act
as BYPASS in Dormant and below their debug level. What the port shifts out: the boundary scan, the answer to an object
request, eight bytes of a debug region, the code of a token; CORECTL halts and resumes a core. That BYPASS captures 0,
what works in Dormant, and the bits of the boundary scan are the model's choices (logs 60 and 11). -/
def Obligations.TheDebugPortServesItsLevel : Prop :=
  ∀ (s : State), alive s.toBlock = true →
    exec .idcode s = .next { s with sec := { s.sec with tapIr := 0x01, tapDr := leBytes 4 idCode, tapOut := leBytes 4 idCode } } ∧
    (∀ bit, exec (.bypass bit) s = .next { s with
      sec := { s.sec with tapIr := 0xFF, tapDr := leBytes 1 (b2n bit), tapOut := zeros 1 } }) ∧
    (∀ (d : Bytes) (i : Instr) (level : Nat),
      ((level = 2 ∧ (i = .extest d ∨ i = .samplePreload d)) ∨ (level = 0 ∧ (i = .dbgobj d ∨ i = .tapToken d))) →
      pstate s.toBlock = 0 ∨ debugLevel s.toBlock < level →
      exec i s = exec (.bypass (lastBit d == 1)) s) ∧
    (∀ d : Bytes, pstate s.toBlock ≠ 0 →
      (debugLevel s.toBlock = 2 → ∀ i ir, (i = .extest d ∧ ir = 0x00) ∨ (i = .samplePreload d ∧ ir = 0x02) →
        answers i s (fun t => t.sec.tapIr = ir ∧ t.sec.tapDr = d ∧
          t.sec.tapOut = slice (Config.boundaryScan s.freeCtr) 0 d.length ∧ t.freeCtr = s.freeCtr + 1)) ∧
      exec (.dbgobj d) s = .next { s with toBlock := dbgObj d s.toBlock } ∧
      (secWaits s.toBlock = false → answers (.tapToken d) s (fun t =>
        t.sec.tapIr = 0x12 ∧ t.sec.tapDr = d ∧ t.sec.tapOut = leBytes 1 (fld (num t 0x720100) 8 4)))) ∧
    (∀ addr data, 2 ≤ pstate s.toBlock → debugLevel s.toBlock = 2 →
      exec (.dbgmemRead addr) s = .next { s with toBlock := dbgRead addr s.toBlock } ∧
      (∀ a, dbgAddr addr = some a → exec (.dbgmemWrite addr data) s = .next { s with
        toBlock := dbgPut a data { s.toBlock with sec := { s.sec with
          tapIr := 0x11, tapDr := leBytes 8 (addr % 2 ^ 48) ++ leBytes 8 data, tapOut := zeros 8 } } }) ∧
      (dbgAddr addr = none → answers (.dbgmemRead addr) s (fun t => t.sec.tapOut = zeros 8))) ∧
    (∀ n, n < 53 → pstate s.toBlock ≠ 0 → debugLevel s.toBlock = 2 → coreThere s.toBlock n = true →
      answers (.corectlHalt n) s (fun t => (proc t n).halted = true ∧ ∀ m, m ≠ n → proc t m = proc s.toBlock m) ∧
      exec (.corectlStep n) s = .next { s with sec := { s.sec with tapIr := 0x20, tapDr := [], tapOut := [] } } ∧
      ((proc s.toBlock n).halted = true → n ≠ 2 → s.fw.waiting = [] →
        answers (.corectlResume n) s (fun t => (proc t n).halted = false)))

/-- R375, R431, R457, R466, R467, R469, R470, R473, R480, R483, R485: a PRST_N pulse of more than 1 microsecond takes
the module to Dormant and holds it in reset, and its end boots it; WAKE_N of at least 1 microsecond starts the way to
Ready; a brownout, a rail fault, a clock fault and a thermal trip end in Dormant, each with its latched bit, with the
rails off and memory lost; a host fault cuts the host rails only; the input and the crystal come back as they say. A
wake waits while the power core restarts. That a clock fault and a trip latch BROWNOUT too, and what of them a module in
reset shows, are the model's choices (log 54). -/
def Obligations.ResetsAndFaultsOfPower : Prop :=
  ∀ s : State,
    let dark := fun (t : Block) => pstate t = 0 ∧ t.pwr.rails = 0 ∧ t.mem.bytes = [] ∧ t.prog.loaded = false
    (∀ ns, ns ≤ 1000 → exec (.prstN ns) s = .next s) ∧
    (∀ ns, 1000 < ns → s.pwr.aon = true → answers (.prstN ns) s (fun t => dark t ∧ t.pwr.inReset = true)) ∧
    (∀ pins, s.pwr.aon = true → s.pwr.inReset = true → s.pwr.inputOk = true →
      exec (.coldBoot pins) s = .next { s with toBlock := coldBoot pins s.toBlock } ∧
      answers (.coldBoot pins) s (fun t => t.arc.slot = pins % 128 ∧ t.pwr.inReset = false ∧ t.prog.loaded = false)) ∧
    (∀ ns, ns < 1000 → exec (.wakeN ns) s = .next s) ∧
    (∀ ns, 1000 ≤ ns → alive s.toBlock = true → powerWaits s.toBlock = true →
      exec (.wakeN ns) s = .next { s with fw := { s.fw with waiting := s.fw.waiting ++ [.wakeN ns] } }) ∧
    (∀ ns, 1000 ≤ ns → alive s.toBlock = true → powerWaits s.toBlock = false → s.pwr.trans = none →
      ((pstate s.toBlock = 0 ∧ wakeOk s.toBlock = true) ∨ pstate s.toBlock = 1) →
      answers (.wakeN ns) s (fun t => t.pwr.trans = some (pstate s.toBlock, 2) ∧ (num t 0x401000).testBit 5 = true)) ∧
    (∀ mv, mv < 64000 → answers (.inputApplied mv) s (fun t => t.pwr.inputMv = mv ∧
      t.pwr.inputOk = (decide (52000 < mv) || (s.pwr.inputOk && decide (41000 ≤ mv))) ∧
      (s.pwr.aon = false → (t.pwr.aon = decide (30000 < mv)) ∧ (30000 < mv → t.pwr.inReset = true ∧ t.clk.tick = 0)))) ∧
    (∀ lost, s.pwr.aon = true → answers (.brownout lost) s (fun t =>
      dark t ∧ t.pwr.inputOk = false ∧ (num t 0x402000).testBit 12 = true ∧ t.pwr.aon = !lost)) ∧
    (∀ rail, pstate s.toBlock ≠ 0 ∨ s.pwr.trans.isSome = true → answers (.railFault rail) s (fun t =>
      dark t ∧ t.pwr.fatalDue = true ∧ (num t 0x402000).testBit 14 = true)) ∧
    (s.pwr.hostRails = true → answers .hostFault s (fun t =>
      t.pwr.hostRails = false ∧ (num t 0x402000).testBit 15 = true ∧ pstate t = pstate s.toBlock ∧ t.mem = s.mem)) ∧
    (alive s.toBlock = true → pstate s.toBlock ≠ 0 → answers .clockFault s (fun t =>
      dark t ∧ t.pwr.crystal = false ∧ (num t 0x402000).testBit 11 = true ∧ (num t 0x402000).testBit 12 = true)) ∧
    (s.pwr.aon = true → s.pwr.inReset = true → exec .clockFault s = .next { s with pwr := { s.pwr with crystal := false } }) ∧
    (answers .crystalRunsAgain s (fun t => t.pwr.crystal = true ∧ (num t 0x402000).testBit 11 = false)) ∧
    (∀ j o : Int, alive s.toBlock = true → (1150 < j ∨ 750 < o) → answers (.thermalTrip j o) s (fun t =>
      dark t ∧ (num t 0x402000).testBit 12 = true ∧ (num t 0x402000).testBit 13 = true)) ∧
    (∀ j o : Int, s.pwr.aon = true → s.pwr.inReset = true → (1150 < j ∨ 750 < o) → answers (.thermalTrip j o) s (fun t =>
      t.pwr.inReset = true ∧ (num t 0x402000).testBit 12 = true ∧ (num t 0x402000).testBit 13 = true)) ∧
    (∀ j o : Int, j ≤ 1150 → o ≤ 750 → exec (.thermalTrip j o) s = .next s)

/-- R457, R477, R478, R471, R414: a current or a temperature above its limit is an emergency, and a poll of the sensors
gives the emergencies of its readings; one that rises lowers the clock by one step, into Curbed, except from Standby to
Ready; while one stands, the step timer of Curbed lowers the clock by one step (while the power core restarts, for
current and junction only); the clock rises by one step when the margins are clear; a power transition ends in its
target state; the host site sets its rail, unless the power core restarts, and the loss of the coordinator's beacon is
noted. That an HCORE request out of range is ignored and when the beacon is seen again are the model's choices (log 55).
No injection fires. -/
def Obligations.EmergenciesClockStepsAndTransitions : Prop :=
  ∀ s : State,
    let steps := fun (rises : Prop) (t : Block) => rises → s.pwr.trans ≠ some (1, 2) → halls s.toBlock = true →
      clockStep s.toBlock < 2 → clockStep t = clockStep s.toBlock + 1 ∧ pstate t = 4
    (∀ amps, pstate s.toBlock ≠ 0 →
      (num s.toBlock 0x410002 < amps →
        answers (.eCurrent amps) s (fun t => emergencies t = emergencies s.toBlock ||| 4 ∧
          steps ((num s.toBlock 0x402000).testBit 2 = false) t)) ∧
      (amps ≤ num s.toBlock 0x410002 → exec (.eCurrent amps) s = .next s)) ∧
    (∀ (sensor : Nat) (temp : Int), pstate s.toBlock ≠ 0 →
      (10 * (num s.toBlock 0x410003 : Int) < temp → answers (.eJunction sensor temp) s (fun t =>
        emergencies t = emergencies s.toBlock ||| 16 ∧ steps ((num s.toBlock 0x402000).testBit 4 = false) t)) ∧
      (temp ≤ 10 * (num s.toBlock 0x410003 : Int) → exec (.eJunction sensor temp) s = .next s)) ∧
    (∀ r : SensorF, pstate s.toBlock ≠ 0 → procRuns s.toBlock 1 = true → injects s.toBlock 0x18 (domLoc 10) = false →
      s.pwr.offsetPolls = 0 →
      answers (.sensorPoll r) s (fun t => emergencies t = readingBits s.toBlock r ∧ t.pwr.readings = r ∧
        t.pwr.inputMv = r.inputMv ∧
        steps (∃ k, (readingBits s.toBlock r).testBit k = true ∧ (emergencies s.toBlock).testBit k = false) t)) ∧
    (pstate s.toBlock = 4 → clockStep s.toBlock < 2 →
      (if procRuns s.toBlock 1 then emergencies s.toBlock else emergencies s.toBlock &&& 0x14) ≠ 0 →
      answers .curbedStepTimer s (fun t =>
      clockStep t = clockStep s.toBlock + 1 ∧ pstate t = 4)) ∧
    (pstate s.toBlock = 4 → clockStep s.toBlock ≠ 0 → procRuns s.toBlock 1 = true → marginsClear s.toBlock = true →
      s.fw.deferred = false → answers .clockStepUp s (fun t => clockStep t = clockStep s.toBlock - 1 ∧
        (pstate t = 4 ↔ 1 < clockStep s.toBlock))) ∧
    (∀ src target, s.pwr.trans = some (src, target) → (pstate s.toBlock = 0 ∨ procRuns s.toBlock 1 = true) →
      let b := if target = 0 then sleepDone s.toBlock
        else if target = 1 then redoAll (restDone s.toBlock)
        else if src = 0 then redoAll (wakeDone s.toBlock) else redoAll (leaveStandby s.toBlock)
      exec .powerTransitionDone s = .next { s with toBlock := b } ∧
      (target = 0 → s.fw.waiting = [] → s.pwr.wakeAfter = false → pstate b = 0 ∧ b.pwr.trans = none) ∧
      (target = 1 → s.fw.waiting = [] →
        (s.pwr.startAfter = none → pstate b = 1 ∧ b.pwr.trans = none ∧ (s.pwr.transReq.2 ≠ 0 → num b 0x607300 = 0)) ∧
        (s.pwr.startAfter ≠ none → pstate b = 1 ∧ b.pwr.trans = some (1, 2)))) ∧
    (∀ mv, exec (.hostSitePowerRequest mv) s = .next { s with pwr := { s.pwr with
      hcoreMv := if procRuns s.toBlock 1 = true ∧ s.pwr.hostRails = true ∧ 600 ≤ mv ∧ mv ≤ 1100 ∧ mv % 5 = 0 then mv else s.pwr.hcoreMv } }) ∧
    exec .coordinatorBeaconLoss s = .next { s with pwr := { s.pwr with plcaOk := false } }
end

