-- ==== Sys2Proof/Laws/MemBase.lean ====
section
/-! SUPPORT. The canonical form of the key tables (what `mapSet`, filters and folds keep), and how the
memory of a block passes through the control forms of a definition: one lemma for each form. -/

namespace Sys2Proof.Machine

theorem wf_eq {a b : List Host.Cell} (h : a = b) (hb : mapWf 0 b = true) : mapWf 0 a = true := h ▸ hb

theorem foldl_mem_2 {β α : Type _} (f : (β × Block) → α → (β × Block)) (s : (β × Block)) (l : List α) (hf : ∀ s a, (f s a).2.mem.bytes = s.2.mem.bytes) :
    (l.foldl f s).2.mem.bytes = s.2.mem.bytes := by
  induction l generalizing s with
  | nil => rfl
  | cons a l ih => exact (ih _).trans (hf _ _)

theorem ite_mem {b : List Host.Cell} {c : Prop} [Decidable c] {x y : Block} (hx : x.mem.bytes = b) (hy : y.mem.bytes = b) : (if c then x else y).mem.bytes = b := by
  split <;> assumption

theorem ite_mem_2 {β : Type _} {b : List Host.Cell} {c : Prop} [Decidable c] {x y : (β × Block)} (hx : x.2.mem.bytes = b) (hy : y.2.mem.bytes = b) : (if c then x else y).2.mem.bytes = b := by
  split <;> assumption

theorem ite_mem_2_2 {β γ : Type _} {b : List Host.Cell} {c : Prop} [Decidable c] {x y : (γ × (β × Block))} (hx : x.2.2.mem.bytes = b) (hy : y.2.2.mem.bytes = b) : (if c then x else y).2.2.mem.bytes = b := by
  split <;> assumption

theorem foldl_wf {α : Type _} (f : Block → α → Block) (s : Block) (l : List α) (hs : mapWf 0 s.mem.bytes = true) (hf : ∀ s a, mapWf 0 s.mem.bytes = true → mapWf 0 (f s a).mem.bytes = true) :
    mapWf 0 (l.foldl f s).mem.bytes = true := by
  induction l generalizing s with
  | nil => exact hs
  | cons a l ih => exact ih _ (hf _ _ hs)

theorem foldl_wf_2 {β α : Type _} (f : (β × Block) → α → (β × Block)) (s : (β × Block)) (l : List α) (hs : mapWf 0 s.2.mem.bytes = true) (hf : ∀ s a, mapWf 0 s.2.mem.bytes = true → mapWf 0 (f s a).2.mem.bytes = true) :
    mapWf 0 (l.foldl f s).2.mem.bytes = true := by
  induction l generalizing s with
  | nil => exact hs
  | cons a l ih => exact ih _ (hf _ _ hs)

theorem ite_wf {c : Prop} [Decidable c] {x y : Block} (hx : mapWf 0 x.mem.bytes = true) (hy : mapWf 0 y.mem.bytes = true) : mapWf 0 (if c then x else y).mem.bytes = true := by
  split <;> assumption

theorem ite_wf_2 {β : Type _} {c : Prop} [Decidable c] {x y : (β × Block)} (hx : mapWf 0 x.2.mem.bytes = true) (hy : mapWf 0 y.2.mem.bytes = true) : mapWf 0 (if c then x else y).2.mem.bytes = true := by
  split <;> assumption

theorem ite_wf_2_2 {β γ : Type _} {c : Prop} [Decidable c] {x y : (γ × (β × Block))} (hx : mapWf 0 x.2.2.mem.bytes = true) (hy : mapWf 0 y.2.2.mem.bytes = true) : mapWf 0 (if c then x else y).2.2.mem.bytes = true := by
  split <;> assumption

theorem ite_memM {b : List Host.Cell} {c : Prop} [Decidable c] {x y : Mem} (hx : x.bytes = b) (hy : y.bytes = b) : (if c then x else y).bytes = b := by
  split <;> assumption

theorem ite_wfM {c : Prop} [Decidable c] {x y : Mem} (hx : mapWf 0 x.bytes = true) (hy : mapWf 0 y.bytes = true) : mapWf 0 (if c then x else y).bytes = true := by
  split <;> assumption

theorem forEach_mem {α : Type _} (l : List α) (f : α → Block → Block) (s : Block) (hf : ∀ a s, (f a s).mem.bytes = s.mem.bytes) :
    (forEach l f s).mem.bytes = s.mem.bytes := by
  unfold forEach
  induction l generalizing s with
  | nil => rfl
  | cons a l ih => exact (ih _).trans (hf _ _)

theorem forEach_wf {α : Type _} (l : List α) (f : α → Block → Block) (s : Block) (hs : mapWf 0 s.mem.bytes = true) (hf : ∀ a s, mapWf 0 s.mem.bytes = true → mapWf 0 (f a s).mem.bytes = true) :
    mapWf 0 (forEach l f s).mem.bytes = true := by
  unfold forEach
  induction l generalizing s with
  | nil => exact hs
  | cons a l ih => exact ih _ (hf _ _ hs)

theorem iter_mem (f : Block → Block) (n : Nat) (s : Block) (hf : ∀ s, (f s).mem.bytes = s.mem.bytes) : (iter f n s).mem.bytes = s.mem.bytes := by
  induction n generalizing s with
  | zero => rfl
  | succ n ih => exact (ih _).trans (hf _)

theorem iter_wf (f : Block → Block) (n : Nat) (s : Block) (hs : mapWf 0 s.mem.bytes = true) (hf : ∀ s, mapWf 0 s.mem.bytes = true → mapWf 0 (f s).mem.bytes = true) : mapWf 0 (iter f n s).mem.bytes = true := by
  induction n generalizing s with
  | zero => exact hs
  | succ n ih => exact ih _ (hf _ hs)


theorem mapSet_keys {α : Type _} [DecidableEq α] (d : α) (m : SMap α) (k : Nat) (v : α) (b : Nat) (hb : b < k) (hm : ∀ e ∈ m, b < e.1) : ∀ e ∈ mapSet d m k v, b < e.1 := by
  induction m generalizing v with
  | nil => intro e he; unfold mapSet at he; split at he <;> simp_all
  | cons a r ih =>
    obtain ⟨k', v'⟩ := a
    have hr : ∀ e ∈ r, b < e.1 := fun e he => hm e (List.mem_cons_of_mem _ he)
    have h0 : b < k' := hm (k', v') (by simp)
    intro e he
    unfold mapSet at he
    split at he
    · split at he
      · exact ih _ hr e he
      · rcases List.mem_cons.mp he with rfl | h
        · exact hb
        · exact hr e h
    · split at he
      · rcases List.mem_cons.mp he with rfl | h
        · exact hb
        · exact hm e h
      · rcases List.mem_cons.mp he with rfl | h
        · exact h0
        · exact ih _ hr e h

theorem mapWf_cons {α : Type _} [DecidableEq α] (d : α) (k : Nat) (v : α) (r : SMap α) :
    mapWf d ((k, v) :: r) = true ↔ v ≠ d ∧ (∀ e ∈ r, k < e.1) ∧ mapWf d r = true := by
  induction r generalizing k v with
  | nil => simp [mapWf]
  | cons a r ih =>
    obtain ⟨k', v'⟩ := a
    have h := ih k' v'
    constructor
    · intro hw
      have hw' : v ≠ d ∧ k < k' ∧ mapWf d ((k', v') :: r) = true := by
        simpa [mapWf, and_assoc] using hw
      refine ⟨hw'.1, ?_, hw'.2.2⟩
      intro e he
      rcases List.mem_cons.mp he with rfl | he
      · exact hw'.2.1
      · exact Nat.lt_trans hw'.2.1 ((h.mp hw'.2.2).2.1 e he)
    · rintro ⟨hv, hk, hr⟩
      have : k < k' := hk (k', v') (by simp)
      have hr' := hr
      simp only [mapWf, Bool.and_eq_true, decide_eq_true_eq] at hr ⊢
      exact ⟨⟨hv, this⟩, hr⟩

theorem mapSet_wf {α : Type _} [DecidableEq α] (d : α) (m : SMap α) (k : Nat) (v : α) (h : mapWf d m = true) : mapWf d (mapSet d m k v) = true := by
  induction m generalizing v with
  | nil => unfold mapSet; split <;> simp_all [mapWf]
  | cons a r ih =>
    obtain ⟨k', v'⟩ := a
    obtain ⟨hv, hk, hr⟩ := (mapWf_cons d k' v' r).mp h
    unfold mapSet
    split
    · split
      · exact ih _ hr
      · rename_i e hvd; subst e; exact (mapWf_cons ..).mpr ⟨hvd, hk, hr⟩
    · split
      · rename_i hlt
        refine (mapWf_cons ..).mpr ⟨hlt.2, ?_, h⟩
        intro e he
        rcases List.mem_cons.mp he with rfl | he
        · exact hlt.1
        · exact Nat.lt_trans hlt.1 (hk e he)
      · rename_i hne hn
        by_cases hvd : v = d
        · subst hvd
          by_cases hlt : k' < k
          · exact (mapWf_cons ..).mpr ⟨hv, mapSet_keys _ _ _ _ _ hlt hk, ih _ hr⟩
          · have hge : k < k' := by omega
            refine (mapWf_cons ..).mpr ⟨hv, ?_, ih _ hr⟩
            have aux : ∀ (r : SMap α), (∀ e ∈ r, k' < e.1) → ∀ e ∈ mapSet v r k v, k' < e.1 := by
              intro r
              induction r with
              | nil => intro _ e he; simp [mapSet] at he
              | cons b r ihr =>
                obtain ⟨kb, vb⟩ := b
                intro hb e he
                have hrb : ∀ e ∈ r, k' < e.1 := fun e he => hb e (List.mem_cons_of_mem _ he)
                unfold mapSet at he
                split at he
                · simp only [if_true] at he; exact ihr hrb e he
                · simp only [ne_eq, not_true_eq_false, and_false, if_false] at he
                  rcases List.mem_cons.mp he with rfl | he
                  · exact hb (kb, vb) (by simp)
                  · exact ihr hrb e he
            exact aux r hk
        · have hlt : k' < k := by
            have : ¬ k < k' := fun h => hn ⟨h, hvd⟩
            omega
          exact (mapWf_cons ..).mpr ⟨hv, mapSet_keys _ _ _ _ _ hlt hk, ih _ hr⟩

theorem mapWf_filter {α : Type _} [DecidableEq α] (d : α) (m : SMap α) (p : Nat × α → Bool) (h : mapWf d m = true) : mapWf d (m.filter p) = true := by
  induction m with
  | nil => exact h
  | cons a r ih =>
    obtain ⟨k, v⟩ := a
    obtain ⟨hv, hk, hr⟩ := (mapWf_cons d k v r).mp h
    by_cases hp : p (k, v) = true
    · rw [List.filter_cons_of_pos hp]
      exact (mapWf_cons ..).mpr ⟨hv, fun e he => hk e (List.mem_filter.mp he).1, ih hr⟩
    · rw [List.filter_cons_of_neg hp]; exact ih hr

theorem foldl_mapSet_wf {α : Type _} {β : Type _} [DecidableEq α] (d : α) (l : List β) (m : SMap α) (f : β → Nat) (g : β → α) (h : mapWf d m = true) :
    mapWf d (l.foldl (fun m c => mapSet d m (f c) (g c)) m) = true := by
  induction l generalizing m with
  | nil => exact h
  | cons a l ih => exact ih _ (mapSet_wf _ _ _ _ h)

theorem cellsPut_wf (m : List Host.Cell) (a : Nat) (l : List (Option Byte)) (h : mapWf (0 : Byte) m = true) : mapWf (0 : Byte) (cellsPut m a l) = true := by
  induction l generalizing m a with
  | nil => exact h
  | cons x r ih =>
    cases x with
    | none => exact ih _ _ h
    | some b => exact ih _ _ (mapSet_wf _ _ _ _ h)

end Sys2Proof.Machine
end

