-- ==== Sys2Proof/Laws/MemUnits.lean ====
section
/-! SUPPORT. What each operation does to the bytes of memory: the stores, the notifies, the vector units, the arrays and the clock.
`f_mem`: `f` leaves every byte as it is; `f_wf`: `f` keeps the canonical form. -/

set_option maxRecDepth 4000

namespace Sys2Proof.Machine

@[simp] theorem noteMirror_mem (x1) (x2) (x3 : Block) : (noteMirror x1 x2 x3).mem.bytes = x3.mem.bytes := by
  unfold noteMirror; split <;> simp [*]

@[simp] theorem setNum_mem (x1) (x2) (x3 : Block) : (setNum x1 x2 x3).mem.bytes = x3.mem.bytes := by
  unfold setNum; split <;> simp [*]

@[simp] theorem bumpNum_mem (x1) (x2) (x3) (x4 : Block) : (bumpNum x1 x2 x3 x4).mem.bytes = x4.mem.bytes := by
  unfold bumpNum; simp

@[simp] theorem notify_mem (x1) (x2) (x3 : Block) : (notify x1 x2 x3).mem.bytes = x3.mem.bytes := by
  unfold notify; simp

@[simp] theorem notifyNum_mem (x1) (x2 : Block) : (notifyNum x1 x2).mem.bytes = x2.mem.bytes := by
  unfold notifyNum; simp

@[simp] theorem alert_mem (x1) (x2) (x3 : Block) : (alert x1 x2 x3).mem.bytes = x3.mem.bytes := by
  unfold alert; simp

@[simp] theorem setStatus_mem (x1) (x2) (x3) (x4) (x5) (x6 : Block) : (setStatus x1 x2 x3 x4 x5 x6).mem.bytes = x6.mem.bytes := by
  unfold setStatus
  extract_lets y0 y1 y2 y3
  have h4 : y2.mem.bytes = x6.mem.bytes := by
    unfold y2
    refine (setNum_mem ..).trans ?_
    rfl
  clear_value y2
  have h5 : y3.mem.bytes = x6.mem.bytes := by
    unfold y3
    refine ite_mem ?_ ?_
    · refine (notifyNum_mem ..).trans ?_
      exact h4
    · exact h4
  clear_value y3
  refine ite_mem ?_ ?_
  · refine (alert_mem ..).trans ?_
    exact h5
  · exact h5

@[simp] theorem setMemBit_mem (x1) (x2) (x3 : Block) : (setMemBit x1 x2 x3).mem.bytes = x3.mem.bytes := by
  unfold setMemBit; simp

@[simp] theorem setSec_mem (x1) (x2 : Block) : (setSec x1 x2).mem.bytes = x2.mem.bytes := by
  unfold setSec
  extract_lets y0 y1
  have h2 : y1.mem.bytes = x2.mem.bytes := by
    unfold y1
    refine (setNum_mem ..).trans ?_
    rfl
  clear_value y1
  refine ite_mem ?_ ?_
  · refine (notifyNum_mem ..).trans ?_
    exact h2
  · exact h2

@[simp] theorem stepBit_mem (x1) (x2 : Block) : (stepBit x1 x2).mem.bytes = x2.mem.bytes := by
  unfold stepBit
  dsimp -zeta only

@[simp] theorem descFail_mem (x1 : Block) : (descFail x1).mem.bytes = x1.mem.bytes := by
  unfold descFail; simp

@[simp] theorem setRelBit_mem (x1) (x2) (x3 : Block) : (setRelBit x1 x2 x3).mem.bytes = x3.mem.bytes := by
  unfold setRelBit; simp

@[simp] theorem setDecl_mem (x1) (x2 : Block) : (setDecl x1 x2).mem.bytes = x2.mem.bytes := by
  unfold setDecl; simp

@[simp] theorem touch_mem (x1) (x2) (x3 : Block) : (touch x1 x2 x3).mem.bytes = x3.mem.bytes := by
  unfold touch
  dsimp -zeta only

@[simp] theorem setProc_mem (x1) (x2) (x3 : Block) : (setProc x1 x2 x3).mem.bytes = x3.mem.bytes := by
  unfold setProc
  dsimp -zeta only

@[simp] theorem setPwrBits_mem (x1) (x2 : Block) : (setPwrBits x1 x2).mem.bytes = x2.mem.bytes := by
  unfold setPwrBits; simp

@[simp] theorem setPwrBit_mem (x1) (x2) (x3 : Block) : (setPwrBit x1 x2 x3).mem.bytes = x3.mem.bytes := by
  unfold setPwrBit; simp

@[simp] theorem setFwBit_mem (x1) (x2) (x3 : Block) : (setFwBit x1 x2 x3).mem.bytes = x3.mem.bytes := by
  unfold setFwBit
  extract_lets y0 y1 y2
  have h3 : y2.mem.bytes = x3.mem.bytes := by
    unfold y2
    refine (setStatus_mem ..).trans ?_
    rfl
  clear_value y2
  refine ite_mem ?_ ?_
  · refine (alert_mem ..).trans ?_
    exact h3
  · exact h3

@[simp] theorem fresh_mem (x1 : Block) : (fresh x1).2.mem.bytes = x1.mem.bytes := by
  unfold fresh
  dsimp -zeta only

@[simp] theorem setDom_mem (x1) (x2) (x3 : Block) : (setDom x1 x2 x3).mem.bytes = x3.mem.bytes := by
  unfold setDom; simp

@[simp] theorem putEvent_mem (x1) (x2) (x3) (x4) (x5) (x6) (x7) (x8) (x9) (x10 : Block) : (putEvent x1 x2 x3 x4 x5 x6 x7 x8 x9 x10).mem.bytes = x10.mem.bytes := by
  unfold putEvent
  extract_lets y0 y1 y2
  refine ite_mem ?_ ?_
  · refine (bumpNum_mem ..).trans ?_
    rfl
  · dsimp -zeta only

@[simp] theorem flashFatal_mem (x1) (x2 : Block) : (flashFatal x1 x2).mem.bytes = x2.mem.bytes := by
  unfold flashFatal; simp

@[simp] theorem dropSignature_mem (x1 : Block) : (dropSignature x1).mem.bytes = x1.mem.bytes := by
  unfold dropSignature
  refine ite_mem ?_ ?_
  · rfl
  · split
    · rename_i y0 y1
      rfl
    · rename_i y2 y3 y4 y5
      refine ite_mem ?_ ?_
      · dsimp -zeta only
      · refine (setFwBit_mem ..).trans ?_
        refine (bumpNum_mem ..).trans ?_
        dsimp -zeta only

@[simp] theorem trimBuffer_mem (x1 : Block) : (trimBuffer x1).mem.bytes = x1.mem.bytes := by
  unfold trimBuffer
  refine ite_mem ?_ ?_
  · rfl
  · refine (iter_mem _ _ _ ?_).trans ?_
    · intros y0
      refine (dropSignature_mem ..).trans ?_
      rfl
    · rfl

@[simp] theorem makeCper_mem (x1) (x2) (x3) (x4) (x5) (x6) (x7) (x8) (x9) (x10) (x11 : Block) : (makeCper x1 x2 x3 x4 x5 x6 x7 x8 x9 x10 x11).mem.bytes = x11.mem.bytes := by
  unfold makeCper
  extract_lets y0 y1 y2 y3 y4 y5 y6 y7 y8
  have h9 : y5.mem.bytes = x11.mem.bytes := by
    unfold y5
    dsimp -zeta only
  clear_value y5
  have h10 : y7.mem.bytes = x11.mem.bytes := by
    unfold y7
    refine ite_mem ?_ ?_
    · exact h9
    · refine ite_mem ?_ ?_
      · refine (flashFatal_mem ..).trans ?_
        exact h9
      · refine (trimBuffer_mem ..).trans ?_
        dsimp -zeta only
        exact h9
  clear_value y7
  have h11 : y8.mem.bytes = x11.mem.bytes := by
    unfold y8
    refine (bumpNum_mem ..).trans ?_
    exact h10
  clear_value y8
  refine ite_mem ?_ ?_
  · refine (bumpNum_mem ..).trans ?_
    exact h11
  · exact h11

@[simp] theorem cperNow_mem (x1) (x2) (x3) (x4) (x5) (x6) (x7) (x8) (x9 : Block) : (cperNow x1 x2 x3 x4 x5 x6 x7 x8 x9).mem.bytes = x9.mem.bytes := by
  unfold cperNow; simp

@[simp] theorem detectFatal_mem (x1) (x2) (x3) (x4 : Block) : (detectFatal x1 x2 x3 x4).mem.bytes = x4.mem.bytes := by
  unfold detectFatal; simp

@[simp] theorem detectAt_mem (x1) (x2) (x3) (x4) (x5) (x6) (x7) (x8 : Block) : (detectAt x1 x2 x3 x4 x5 x6 x7 x8).mem.bytes = x8.mem.bytes := by
  unfold detectAt; simp

@[simp] theorem orFlags_mem (x1) (x2) (x3) (x4) (x5 : Block) : (orFlags x1 x2 x3 x4 x5).mem.bytes = x5.mem.bytes := by
  unfold orFlags; split <;> simp [*]

@[simp] theorem tokSub_mem (x1) (x2) (x3) (x4 : Block) : (tokSub x1 x2 x3 x4).mem.bytes = x4.mem.bytes := by
  unfold tokSub
  dsimp -zeta only

@[simp] theorem countCset_mem (x1) (x2) (x3) (x4) (x5 : Block) : (countCset x1 x2 x3 x4 x5).mem.bytes = x5.mem.bytes := by
  unfold countCset; split <;> simp [*]

@[simp] theorem logFault_mem (x1) (x2) (x3) (x4) (x5) (x6 : Block) : (logFault x1 x2 x3 x4 x5 x6).mem.bytes = x6.mem.bytes := by
  unfold logFault
  extract_lets y0 y1 y2
  have h3 : y1.mem.bytes = x6.mem.bytes := by
    unfold y1
    dsimp -zeta only
  clear_value y1
  have h4 : y2.mem.bytes = x6.mem.bytes := by
    unfold y2
    refine ite_mem ?_ ?_
    · refine (stepBit_mem ..).trans ?_
      exact h3
    · exact h3
  clear_value y2
  refine ite_mem ?_ ?_
  · refine (stepBit_mem ..).trans ?_
    exact h4
  · exact h4

@[simp] theorem tokCapOne_mem (x1) (x2 : Block) : (tokCapOne x1 x2).mem.bytes = x2.mem.bytes := by
  unfold tokCapOne
  extract_lets y0 y1 y2 y3
  refine ite_mem ?_ ?_
  · rfl
  · refine (logFault_mem ..).trans ?_
    dsimp -zeta only

@[simp] theorem injectFire_mem (x1 : Block) : (injectFire x1).mem.bytes = x1.mem.bytes := by
  unfold injectFire; simp

@[simp] theorem inject_mem (x1) (x2) (x3 : Block) : (inject x1 x2 x3).2.mem.bytes = x3.mem.bytes := by
  unfold inject; split <;> simp [*]

@[simp] theorem tokWrite_mem (x1) (x2) (x3 : Block) : (tokWrite x1 x2 x3).mem.bytes = x3.mem.bytes := by
  unfold tokWrite
  refine ite_mem ?_ ?_
  · dsimp -zeta only
  · refine (forEach_mem _ _ _ ?_).trans ?_
    · intros y0 y1
      refine (logFault_mem ..).trans ?_
      rfl
    · rfl

@[simp] theorem tokAdd_mem (x1) (x2) (x3) (x4 : Block) : (tokAdd x1 x2 x3 x4).mem.bytes = x4.mem.bytes := by
  unfold tokAdd; split <;> simp [*]

@[simp] theorem detect_mem (x1) (x2) (x3) (x4) (x5) (x6) (x7 : Block) : (detect x1 x2 x3 x4 x5 x6 x7).mem.bytes = x7.mem.bytes := by
  unfold detect; simp

@[simp] theorem sramEventAt_mem (x1) (x2) (x3 : Block) : (sramEventAt x1 x2 x3).2.mem.bytes = x3.mem.bytes := by
  unfold sramEventAt
  extract_lets y0
  split
  rename_i y1 y2 y3 y4
  have h5 : y3.mem.bytes = x3.mem.bytes := by
    refine (congrArg (fun p => p.2.mem.bytes) y4).symm.trans ?_
    refine (inject_mem ..).trans ?_
    rfl
  extract_lets y6
  have h7 : y6.mem.bytes = x3.mem.bytes := by
    unfold y6
    refine ite_mem ?_ ?_
    · refine (detect_mem ..).trans ?_
      exact h5
    · exact h5
  clear_value y6
  split
  rename_i y8 y9 y10 y11
  have h12 : y10.mem.bytes = x3.mem.bytes := by
    refine (congrArg (fun p => p.2.mem.bytes) y11).symm.trans ?_
    refine (inject_mem ..).trans ?_
    exact h7
  dsimp -zeta only
  refine ite_mem ?_ ?_
  · refine (detect_mem ..).trans ?_
    exact h12
  · exact h12

@[simp] theorem slotFault_mem (x1) (x2) (x3) (x4) (x5 : Block) : (slotFault x1 x2 x3 x4 x5).mem.bytes = x5.mem.bytes := by
  unfold slotFault; simp

@[simp] theorem slotFaultIf_mem (x1) (x2) (x3) (x4) (x5) (x6 : Block) : (slotFaultIf x1 x2 x3 x4 x5 x6).mem.bytes = x6.mem.bytes := by
  unfold slotFaultIf; split <;> simp [*]

@[simp] theorem tokCap_mem (x1 : Block) : (tokCap x1).mem.bytes = x1.mem.bytes := by
  unfold tokCap
  refine (forEach_mem _ _ _ ?_).trans ?_
  · intros y0 y1
    refine (tokCapOne_mem ..).trans ?_
    rfl
  · rfl

@[simp] theorem consume_mem (x1) (x2) (x3 : Block) : (consume x1 x2 x3).mem.bytes = x3.mem.bytes := by
  unfold consume; split <;> simp [*]

@[simp] theorem flushFatal_mem (x1 : Block) : (flushFatal x1).mem.bytes = x1.mem.bytes := by
  unfold flushFatal; simp

@[simp] theorem mezzWrite_mem (x1) (x2) (x3) (x4 : Block) : (mezzWrite x1 x2 x3 x4).mem.bytes = x4.mem.bytes := by
  unfold mezzWrite; simp

@[simp] theorem setTreg_mem (x1) (x2) (x3) (x4 : Block) : (setTreg x1 x2 x3 x4).mem.bytes = x4.mem.bytes := by
  unfold setTreg
  dsimp -zeta only

@[simp] theorem setMask_mem (x1) (x2) (x3) (x4 : Block) : (setMask x1 x2 x3 x4).mem.bytes = x4.mem.bytes := by
  unfold setMask; split <;> simp [*]

@[simp] theorem tokAge_mem (x1 : Block) : (tokAge x1).mem.bytes = x1.mem.bytes := by
  unfold tokAge
  dsimp -zeta only

@[simp] theorem laneDraw_mem (x1) (x2) (x3) (x4 : Block) : (laneDraw x1 x2 x3 x4).2.mem.bytes = x4.mem.bytes := by
  unfold laneDraw; split <;> simp [*]

@[simp] theorem laneAction_mem (x1) (x2 : Block) : (laneAction x1 x2).mem.bytes = x2.mem.bytes := by
  unfold laneAction; split <;> simp [*]

@[simp] theorem laneSeed0_mem (x1 : Block) : (laneSeed0 x1).mem.bytes = x1.mem.bytes := by
  unfold laneSeed0
  dsimp -zeta only

@[simp] theorem laneClear_mem (x1 : Block) : (laneClear x1).mem.bytes = x1.mem.bytes := by
  unfold laneClear
  dsimp -zeta only

@[simp] theorem laneSeed1_mem (x1 : Block) : (laneSeed1 x1).mem.bytes = x1.mem.bytes := by
  unfold laneSeed1
  dsimp -zeta only

@[simp] theorem roundBlock_mem (x1) (x2) (x3) (x4) (x5) (x6) (x7 : Block) (hf : ∀ a0 a1, (x4 a0 a1).2.mem.bytes = a1.mem.bytes) : (roundBlock x1 x2 x3 x4 x5 x6 x7).2.mem.bytes = x7.mem.bytes := by
  unfold roundBlock
  split
  · rename_i y0 y1 y2
    dsimp -zeta only
  · rename_i y3 y4 y5 y6 y7
    split
    rename_i y8 y9 y10 y11
    extract_lets y12 y13
    split
    rename_i y14 y15 y16 y17
    split
    rename_i y18 y19 y20 y21
    have h22 : y20.mem.bytes = x7.mem.bytes := by
      refine (congrArg (fun p => p.2.mem.bytes) y21).symm.trans ?_
      refine ite_mem_2 ?_ ?_
      · split
        rename_i y23 y24 y25 y26
        have h27 : y25.mem.bytes = x7.mem.bytes := by
          refine (congrArg (fun p => p.2.mem.bytes) y26).symm.trans ?_
          refine (hf ..).trans ?_
          rfl
        dsimp -zeta only
        exact h27
      · dsimp -zeta only
    split
    rename_i y28 y29 y30 y31
    have h32 : y30.mem.bytes = x7.mem.bytes := by
      refine (congrArg (fun p => p.2.mem.bytes) y31).symm.trans ?_
      refine (roundBlock_mem (hf := ?_) ..).trans ?_
      · intros y33 y34
        refine (hf ..).trans ?_
        rfl
      · exact h22
    dsimp -zeta only
    exact h32

@[simp] theorem quantBlock_mem (x1) (x2) (x3) (x4) (x5) (x6 : Block) (hf : ∀ a0 a1, (x5 a0 a1).2.mem.bytes = a1.mem.bytes) : (quantBlock x1 x2 x3 x4 x5 x6).2.mem.bytes = x6.mem.bytes := by
  unfold quantBlock
  extract_lets y0 y1 y2 y3
  split
  rename_i y4 y5 y6 y7
  split
  · rename_i y8 y9 y10
    dsimp -zeta only
  · rename_i y11 y12 y13 y14
    split
    rename_i y15 y16 y17 y18
    split
    rename_i y19 y20 y21 y22
    extract_lets y23
    split
    rename_i y24 y25 y26 y27
    have h28 : y26.mem.bytes = x6.mem.bytes := by
      refine (congrArg (fun p => p.2.mem.bytes) y27).symm.trans ?_
      refine (roundBlock_mem (hf := ?_) ..).trans ?_
      · intros y29 y30
        refine (hf ..).trans ?_
        rfl
      · rfl
    extract_lets y31 y32 y33 y34 y35 y36
    dsimp -zeta only
    exact h28

@[simp] theorem quantBlocks_mem (x1) (x2) (x3) (x4) (x5 : Block) (hf : ∀ a0 a1, (x2 a0 a1).2.mem.bytes = a1.mem.bytes) : (quantBlocks x1 x2 x3 x4 x5).2.mem.bytes = x5.mem.bytes := by
  unfold quantBlocks
  split
  · rename_i y0 y1 y2
    dsimp -zeta only
  · rename_i y3 y4 y5 y6 y7
    extract_lets y8 y9 y10
    split
    rename_i y11 y12 y13 y14 y15 y16 y17
    have h18 : y16.mem.bytes = x5.mem.bytes := by
      refine (congrArg (fun p => p.2.mem.bytes) y17).symm.trans ?_
      refine ite_mem_2 ?_ ?_
      · dsimp -zeta only
      · refine ite_mem_2 ?_ ?_
        · dsimp -zeta only
        · refine (quantBlock_mem (hf := ?_) ..).trans ?_
          · intros y19 y20
            refine (hf ..).trans ?_
            rfl
          · rfl
    split
    rename_i y21 y22 y23 y24 y25 y26
    have h27 : y25.mem.bytes = x5.mem.bytes := by
      refine (congrArg (fun p => p.2.mem.bytes) y26).symm.trans ?_
      refine (quantBlocks_mem (hf := ?_) ..).trans ?_
      · intros y28 y29
        refine (hf ..).trans ?_
        rfl
      · exact h18
    dsimp -zeta only
    exact h27

@[simp] theorem quantRow_mem (x1) (x2) (x3) (x4 : Block) (hf : ∀ a0 a1, (x3 a0 a1).2.mem.bytes = a1.mem.bytes) : (quantRow x1 x2 x3 x4).2.mem.bytes = x4.mem.bytes := by
  unfold quantRow
  extract_lets y0 y1 y2 y3 y4 y5 y6 y7 y8 y9 y10 y11
  refine ite_mem_2 ?_ ?_
  · dsimp -zeta only
  · split
    rename_i y12 y13 y14 y15 y16 y17
    have h18 : y16.mem.bytes = x4.mem.bytes := by
      refine (congrArg (fun p => p.2.mem.bytes) y17).symm.trans ?_
      refine (quantBlocks_mem (hf := ?_) ..).trans ?_
      · intros y19 y20
        refine (hf ..).trans ?_
        rfl
      · rfl
    extract_lets y21
    dsimp -zeta only
    exact h18

@[simp] theorem setGclk_mem (x1) (x2) (x3 : Block) : (setGclk x1 x2 x3).mem.bytes = x3.mem.bytes := by
  unfold setGclk
  dsimp -zeta only

@[simp] theorem holdSlot_mem (x1) (x2) (x3 : Block) : (holdSlot x1 x2 x3).mem.bytes = x3.mem.bytes := by
  unfold holdSlot
  dsimp -zeta only

@[simp] theorem freezeFor_mem (x1) (x2) (x3) (x4) (x5) (x6) (x7 : Block) : (freezeFor x1 x2 x3 x4 x5 x6 x7).mem.bytes = x7.mem.bytes := by
  unfold freezeFor; split <;> simp [*]

@[simp] theorem wakeFreeze_mem (x1) (x2) (x3) (x4 : Block) : (wakeFreeze x1 x2 x3 x4).mem.bytes = x4.mem.bytes := by
  unfold wakeFreeze
  refine (freezeFor_mem ..).trans ?_
  refine (forEach_mem _ _ _ ?_).trans ?_
  · intros y0 y1
    refine (setGclk_mem ..).trans ?_
    rfl
  · rfl

@[simp] theorem reach_mem (x1) (x2) (x3) (x4) (x5 : Block) (hf : ∀ a0, (x4 a0).mem.bytes = a0.mem.bytes) : (reach x1 x2 x3 x4 x5).mem.bytes = x5.mem.bytes := by
  unfold reach
  split
  · rename_i y0 y1 y2
    refine (holdSlot_mem ..).trans ?_
    rfl
  · rename_i y3 y4
    refine ite_mem ?_ ?_
    · refine (logFault_mem ..).trans ?_
      rfl
    · refine ite_mem ?_ ?_
      · refine (hf ..).trans ?_
        rfl
      · refine (wakeFreeze_mem ..).trans ?_
        rfl

@[simp] theorem withHeld_mem (x1) (x2) (x3) (x4 : Block) (hf : ∀ a0 a1, (x3 a0 a1).mem.bytes = a1.mem.bytes) : (withHeld x1 x2 x3 x4).mem.bytes = x4.mem.bytes := by
  unfold withHeld
  split
  · rename_i y0 y1 y2
    refine (holdSlot_mem ..).trans ?_
    rfl
  · rename_i y3 y4
    split
    · rename_i y5 y6
      refine (logFault_mem ..).trans ?_
      rfl
    · rename_i y7 y8 y9
      refine ite_mem ?_ ?_
      · refine (hf ..).trans ?_
        rfl
      · refine (wakeFreeze_mem ..).trans ?_
        rfl
theorem withHeld_wf {x1} {x2} {x3} {x4 : Block} (hf : ∀ a0 a1, mapWf 0 a1.mem.bytes = true → mapWf 0 (x3 a0 a1).mem.bytes = true) (h : mapWf 0 x4.mem.bytes = true) : mapWf 0 (withHeld x1 x2 x3 x4).mem.bytes = true := by
  unfold withHeld
  split
  · rename_i y0 y1 y2
    refine wf_eq (holdSlot_mem ..) ?_
    exact h
  · rename_i y3 y4
    split
    · rename_i y5 y6
      refine wf_eq (logFault_mem ..) ?_
      exact h
    · rename_i y7 y8 y9
      refine ite_wf ?_ ?_
      · apply hf
        exact h
      · refine wf_eq (wakeFreeze_mem ..) ?_
        exact h

@[simp] theorem withSlot_mem (x1) (x2) (x3) (x4 : Block) (hf : ∀ a0 a1, (x3 a0 a1).mem.bytes = a1.mem.bytes) : (withSlot x1 x2 x3 x4).mem.bytes = x4.mem.bytes := by
  unfold withSlot; simp [*]
theorem withSlot_wf {x1} {x2} {x3} {x4 : Block} (hf : ∀ a0 a1, mapWf 0 a1.mem.bytes = true → mapWf 0 (x3 a0 a1).mem.bytes = true) (h : mapWf 0 x4.mem.bytes = true) : mapWf 0 (withSlot x1 x2 x3 x4).mem.bytes = true := by
  unfold withSlot
  refine withHeld_wf (hf := ?_) ?_
  · intros y0 y1 y2
    apply hf
    exact y2
  · exact h

@[simp] theorem bumpOrder_mem (x1 : Block) : (bumpOrder x1).mem.bytes = x1.mem.bytes := by
  unfold bumpOrder
  dsimp -zeta only

@[simp] theorem vIssueOn_mem (x1) (x2) (x3) (x4 : Block) : (vIssueOn x1 x2 x3 x4).mem.bytes = x4.mem.bytes := by
  unfold vIssueOn
  extract_lets y0 y1 y2 y3 y4 y5 y6
  have h7 : y5.mem.bytes = x4.mem.bytes := by
    unfold y5
    refine ite_mem ?_ ?_
    · refine (slotFault_mem ..).trans ?_
      dsimp -zeta only
    · rfl
  clear_value y5
  split
  rename_i y8 y9 y10 y11
  split
  rename_i y12 y13 y14 y15
  extract_lets y16
  refine (bumpOrder_mem ..).trans ?_
  dsimp -zeta only
  exact h7

@[simp] theorem vqntCheck_mem (x1) (x2) (x3) (x4 : Block) : (vqntCheck x1 x2 x3 x4).mem.bytes = x4.mem.bytes := by
  unfold vqntCheck; simp

@[simp] theorem doVqnt_mem (x1) (x2) (x3 : Block) : (doVqnt x1 x2 x3).mem.bytes = x3.mem.bytes := by
  unfold doVqnt; simp

@[simp] theorem doVld_mem (x1) (x2) (x3 : Block) : (doVld x1 x2 x3).mem.bytes = x3.mem.bytes := by
  unfold doVld; simp

@[simp] theorem pairHit_mem (x1) (x2) (x3 : Block) : (pairHit x1 x2 x3).2.mem.bytes = x3.mem.bytes := by
  unfold pairHit; split <;> simp [*]

@[simp] theorem pairLog_mem (x1) (x2) (x3) (x4) (x5 : Block) : (pairLog x1 x2 x3 x4 x5).mem.bytes = x5.mem.bytes := by
  unfold pairLog; simp

@[simp] theorem pairCheck_mem (x1) (x2) (x3) (x4) (x5 : Block) : (pairCheck x1 x2 x3 x4 x5).2.mem.bytes = x5.mem.bytes := by
  unfold pairCheck
  split
  rename_i y0 y1 y2 y3
  have h4 : y2.mem.bytes = x5.mem.bytes := by
    refine (congrArg (fun p => p.2.mem.bytes) y3).symm.trans ?_
    refine (pairHit_mem ..).trans ?_
    rfl
  dsimp -zeta only
  refine ite_mem ?_ ?_
  · refine (pairLog_mem ..).trans ?_
    exact h4
  · exact h4

@[simp] theorem vWriteAt_mem (x1) (x2) (x3) (x4) (x5) (x6) (x7 : Block) : (vWriteAt x1 x2 x3 x4 x5 x6 x7).mem.bytes = x7.mem.bytes := by
  unfold vWriteAt
  dsimp -zeta only

@[simp] theorem vEmit_mem (x1) (x2) (x3) (x4) (x5) (x6) (x7 : Block) : (vEmit x1 x2 x3 x4 x5 x6 x7).mem.bytes = x7.mem.bytes := by
  unfold vEmit; simp

@[simp] theorem vSmaxEnd_mem (x1) (x2) (x3 : Block) : (vSmaxEnd x1 x2 x3).mem.bytes = x3.mem.bytes := by
  unfold vSmaxEnd
  extract_lets y0 y1 y2 y3 y4
  split
  rename_i y5 y6 y7 y8
  have h9 : y7.mem.bytes = x3.mem.bytes := by
    refine (congrArg (fun p => p.2.mem.bytes) y8).symm.trans ?_
    refine (fresh_mem ..).trans ?_
    rfl
  extract_lets y10 y11 y12 y13 y14 y15
  have h16 : y12.mem.bytes = x3.mem.bytes := by
    unfold y12
    refine ite_mem ?_ ?_
    · exact h9
    · rfl
  clear_value y12
  have h17 : y15.mem.bytes = x3.mem.bytes := by
    unfold y15
    refine (vEmit_mem ..).trans ?_
    exact h16
  clear_value y15
  refine (vWriteAt_mem ..).trans ?_
  exact h17

@[simp] theorem vqntPairs_mem (x1) (x2) (x3 : Block) : (vqntPairs x1 x2 x3).2.mem.bytes = x3.mem.bytes := by
  unfold vqntPairs
  split
  · rename_i y0 y1
    dsimp -zeta only
  · rename_i y2 y3 y4 y5
    split
    rename_i y6 y7 y8 y9
    have h10 : y8.mem.bytes = x3.mem.bytes := by
      refine (congrArg (fun p => p.2.mem.bytes) y9).symm.trans ?_
      refine (pairHit_mem ..).trans ?_
      rfl
    split
    rename_i y11 y12 y13 y14
    have h15 : y13.mem.bytes = x3.mem.bytes := by
      refine (congrArg (fun p => p.2.mem.bytes) y14).symm.trans ?_
      refine (vqntPairs_mem ..).trans ?_
      exact h10
    dsimp -zeta only
    exact h15

@[simp] theorem zWriteAt_mem (x1) (x2) (x3) (x4) (x5 : Block) : (zWriteAt x1 x2 x3 x4 x5).mem.bytes = x5.mem.bytes := by
  unfold zWriteAt
  dsimp -zeta only

@[simp] theorem vqntRow_mem (x1) (x2) (x3) (x4) (x5) (x6) (x7) (x8) (x9 : Block) : (vqntRow x1 x2 x3 x4 x5 x6 x7 x8 x9).mem.bytes = x9.mem.bytes := by
  unfold vqntRow
  extract_lets y0 y1 y2 y3
  split
  rename_i y4 y5 y6 y7
  have h8 : y6.mem.bytes = x9.mem.bytes := by
    refine (congrArg (fun p => p.2.mem.bytes) y7).symm.trans ?_
    refine (quantRow_mem (hf := ?_) ..).trans ?_
    · intros y9 y10
      unfold y0
      refine ite_mem_2 ?_ ?_
      · dsimp -zeta only
      · split
        rename_i y11 y12 y13 y14
        refine (laneDraw_mem ..).trans ?_
        rfl
    · rfl
  split
  rename_i y15 y16 y17 y18
  extract_lets y19 y20 y21 y22 y23 y24 y25
  have h26 : y21.mem.bytes = x9.mem.bytes := by
    unfold y21
    refine ite_mem ?_ ?_
    · refine (forEach_mem _ _ _ ?_).trans ?_
      · intros y27 y28
        refine (pairLog_mem ..).trans ?_
        rfl
      · exact h8
    · exact h8
  clear_value y21
  have h29 : y22.mem.bytes = x9.mem.bytes := by
    unfold y22
    refine (zWriteAt_mem ..).trans ?_
    exact h26
  clear_value y22
  have h30 : y23.mem.bytes = x9.mem.bytes := by
    unfold y23
    refine (zWriteAt_mem ..).trans ?_
    exact h29
  clear_value y23
  have h31 : y24.mem.bytes = x9.mem.bytes := by
    unfold y24
    refine ite_mem ?_ ?_
    · refine (zWriteAt_mem ..).trans ?_
      exact h30
    · exact h30
  clear_value y24
  have h32 : y25.mem.bytes = x9.mem.bytes := by
    unfold y25
    refine (countCset_mem ..).trans ?_
    exact h31
  clear_value y25
  refine (forEach_mem _ _ _ ?_).trans ?_
  · intros y33 y34
    extract_lets y35
    refine (orFlags_mem ..).trans ?_
    rfl
  · exact h32

@[simp] theorem vqntRun_mem (x1) (x2) (x3 : Block) : (vqntRun x1 x2 x3).mem.bytes = x3.mem.bytes := by
  unfold vqntRun
  extract_lets y0 y1 y2 y3 y4 y5
  split
  rename_i y6 y7 y8 y9
  have h10 : y8.mem.bytes = x3.mem.bytes := by
    refine (congrArg (fun p => p.2.mem.bytes) y9).symm.trans ?_
    refine (vqntPairs_mem ..).trans ?_
    rfl
  refine (forEach_mem _ _ _ ?_).trans ?_
  · intros y11 y12
    refine (vqntRow_mem ..).trans ?_
    rfl
  · exact h10

@[simp] theorem vElemwise_mem (x1) (x2) (x3) (x4) (x5) (x6) (x7) (x8 : Block) : (vElemwise x1 x2 x3 x4 x5 x6 x7 x8).mem.bytes = x8.mem.bytes := by
  unfold vElemwise; simp

@[simp] theorem vSelect_mem (x1) (x2) (x3) (x4 : Block) : (vSelect x1 x2 x3 x4).mem.bytes = x4.mem.bytes := by
  unfold vSelect; simp

@[simp] theorem vTranspose_mem (x1) (x2) (x3) (x4 : Block) : (vTranspose x1 x2 x3 x4).mem.bytes = x4.mem.bytes := by
  unfold vTranspose; simp

@[simp] theorem vScaleTile_mem (x1) (x2) (x3) (x4 : Block) : (vScaleTile x1 x2 x3 x4).mem.bytes = x4.mem.bytes := by
  unfold vScaleTile
  extract_lets y0 y1 y2 y3 y4 y5 y6
  have h7 : y4.mem.bytes = x4.mem.bytes := by
    unfold y4
    refine ite_mem ?_ ?_
    · refine (consume_mem ..).trans ?_
      rfl
    · rfl
  clear_value y4
  refine (vEmit_mem ..).trans ?_
  exact h7

@[simp] theorem vReduce_mem (x1) (x2) (x3) (x4 : Block) : (vReduce x1 x2 x3 x4).mem.bytes = x4.mem.bytes := by
  unfold vReduce; simp

@[simp] theorem mWriteAt_mem (x1) (x2) (x3) (x4) (x5) (x6) (x7) (x8 : Block) : (mWriteAt x1 x2 x3 x4 x5 x6 x7 x8).mem.bytes = x8.mem.bytes := by
  unfold mWriteAt
  dsimp -zeta only

@[simp] theorem vMaskWrite_mem (x1) (x2) (x3) (x4 : Block) : (vMaskWrite x1 x2 x3 x4).mem.bytes = x4.mem.bytes := by
  unfold vMaskWrite; simp

@[simp] theorem vCompare_mem (x1) (x2) (x3 : Block) : (vCompare x1 x2 x3).mem.bytes = x3.mem.bytes := by
  unfold vCompare
  extract_lets y0 y1 y2 y3 y4 y5 y6 y7 y8
  have h9 : y5.mem.bytes = x3.mem.bytes := by
    unfold y5
    refine ite_mem ?_ ?_
    · refine (consume_mem ..).trans ?_
      rfl
    · rfl
  clear_value y5
  have h10 : y6.mem.bytes = x3.mem.bytes := by
    unfold y6
    refine ite_mem ?_ ?_
    · refine (consume_mem ..).trans ?_
      exact h9
    · exact h9
  clear_value y6
  refine (vMaskWrite_mem ..).trans ?_
  exact h10

@[simp] theorem vMaskSet_mem (x1) (x2) (x3 : Block) : (vMaskSet x1 x2 x3).mem.bytes = x3.mem.bytes := by
  unfold vMaskSet; simp

@[simp] theorem vMaskLogic_mem (x1) (x2) (x3 : Block) : (vMaskLogic x1 x2 x3).mem.bytes = x3.mem.bytes := by
  unfold vMaskLogic; simp

@[simp] theorem vConvert_mem (x1) (x2) (x3) (x4 : Block) : (vConvert x1 x2 x3 x4).mem.bytes = x4.mem.bytes := by
  unfold vConvert
  extract_lets y0 y1 y2 y3 y4 y5 y6 y7 y8 y9
  have h10 : y9.mem.bytes = x4.mem.bytes := by
    unfold y9
    refine (vEmit_mem ..).trans ?_
    rfl
  clear_value y9
  refine ite_mem ?_ ?_
  · refine (vWriteAt_mem ..).trans ?_
    exact h10
  · refine (vEmit_mem ..).trans ?_
    rfl

@[simp] theorem vDraw_mem (x1) (x2) (x3) (x4) (x5 : Block) : (vDraw x1 x2 x3 x4 x5).2.mem.bytes = x5.mem.bytes := by
  unfold vDraw; split <;> simp [*]

@[simp] theorem vRandGo_mem (x1) (x2) (x3) (x4) (x5) (x6 : Block) : (vRandGo x1 x2 x3 x4 x5 x6).2.mem.bytes = x6.mem.bytes := by
  unfold vRandGo
  split
  · rename_i y0 y1 y2
    dsimp -zeta only
  · rename_i y3 y4 y5 y6 y7
    split
    rename_i y8 y9 y10 y11
    have h12 : y10.mem.bytes = x6.mem.bytes := by
      refine (congrArg (fun p => p.2.mem.bytes) y11).symm.trans ?_
      refine ite_mem_2 ?_ ?_
      · dsimp -zeta only
      · refine ite_mem_2 ?_ ?_
        · dsimp -zeta only
        · split
          rename_i y13 y14 y15 y16
          have h17 : y15.mem.bytes = x6.mem.bytes := by
            refine (congrArg (fun p => p.2.mem.bytes) y16).symm.trans ?_
            refine (vDraw_mem ..).trans ?_
            rfl
          dsimp -zeta only
          exact h17
    split
    rename_i y18 y19 y20 y21
    have h22 : y20.mem.bytes = x6.mem.bytes := by
      refine (congrArg (fun p => p.2.mem.bytes) y21).symm.trans ?_
      refine (vRandGo_mem ..).trans ?_
      exact h12
    dsimp -zeta only
    exact h22

@[simp] theorem vRandom_mem (x1) (x2) (x3) (x4 : Block) : (vRandom x1 x2 x3 x4).mem.bytes = x4.mem.bytes := by
  unfold vRandom; simp

@[simp] theorem vLoad_mem (x1) (x2) (x3) (x4 : Block) : (vLoad x1 x2 x3 x4).mem.bytes = x4.mem.bytes := by
  unfold vLoad; simp

@[simp] theorem vStore_mem (x1) (x2) (x3) (x4 : Block) : (vStore x1 x2 x3 x4).mem.bytes = x4.mem.bytes := by
  unfold vStore
  extract_lets y0 y1 y2
  split
  rename_i y3 y4 y5 y6
  have h7 : y5.mem.bytes = x4.mem.bytes := by
    refine (congrArg (fun p => p.2.mem.bytes) y6).symm.trans ?_
    refine (pairCheck_mem ..).trans ?_
    rfl
  extract_lets y8
  refine (forEach_mem _ _ _ ?_).trans ?_
  · intros y9 y10
    refine ite_mem ?_ ?_
    · extract_lets y11
      refine (zWriteAt_mem ..).trans ?_
      rfl
    · rfl
  · exact h7

@[simp] theorem vFlagCopy_mem (x1) (x2) (x3 : Block) : (vFlagCopy x1 x2 x3).mem.bytes = x3.mem.bytes := by
  unfold vFlagCopy
  extract_lets y0 y1
  split
  rename_i y2 y3 y4 y5
  have h6 : y4.mem.bytes = x3.mem.bytes := by
    refine (congrArg (fun p => p.2.mem.bytes) y5).symm.trans ?_
    refine (pairCheck_mem ..).trans ?_
    rfl
  refine (forEach_mem _ _ _ ?_).trans ?_
  · intros y7 y8
    extract_lets y9 y10 y11 y12 y13 y14
    have h15 : y12.mem.bytes = y8.mem.bytes := by
      unfold y12
      refine (vWriteAt_mem ..).trans ?_
      rfl
    clear_value y12
    refine ite_mem ?_ ?_
    · dsimp -zeta only
      exact h15
    · exact h15
  · exact h6

@[simp] theorem freeMasked_mem (x1) (x2) (x3 : Block) : (freeMasked x1 x2 x3).2.mem.bytes = x3.mem.bytes := by
  unfold freeMasked
  split
  · rename_i y0 y1 y2 y3 y4 y5 y6
    split
    rename_i y7 y8 y9 y10
    have h11 : y9.mem.bytes = x3.mem.bytes := by
      refine (congrArg (fun p => p.2.mem.bytes) y10).symm.trans ?_
      refine ite_mem_2 ?_ ?_
      · dsimp -zeta only
      · extract_lets y12
        have h13 : y12.2.mem.bytes = x3.mem.bytes := by
          unfold y12
          refine (fresh_mem ..).trans ?_
          rfl
        clear_value y12
        dsimp -zeta only
        exact h13
    split
    rename_i y14 y15 y16 y17
    have h18 : y16.mem.bytes = x3.mem.bytes := by
      refine (congrArg (fun p => p.2.mem.bytes) y17).symm.trans ?_
      refine (freeMasked_mem ..).trans ?_
      exact h11
    dsimp -zeta only
    exact h18
  · rename_i y19 y20 y21 y22
    dsimp -zeta only

@[simp] theorem vPartAt_mem (x1) (x2) (x3) (x4) (x5) (x6 : Block) : (vPartAt x1 x2 x3 x4 x5 x6).mem.bytes = x6.mem.bytes := by
  unfold vPartAt
  dsimp -zeta only

@[simp] theorem vSolveTile_mem (x1) (x2) (x3) (x4 : Block) : (vSolveTile x1 x2 x3 x4).mem.bytes = x4.mem.bytes := by
  unfold vSolveTile
  extract_lets y0 y1 y2
  split
  rename_i y3 y4 y5 y6
  have h7 : y5.mem.bytes = x4.mem.bytes := by
    refine (congrArg (fun p => p.2.mem.bytes) y6).symm.trans ?_
    refine (freeMasked_mem ..).trans ?_
    rfl
  split
  rename_i y8 y9 y10 y11
  have h12 : y10.mem.bytes = x4.mem.bytes := by
    refine (congrArg (fun p => p.2.mem.bytes) y11).symm.trans ?_
    refine (freeMasked_mem ..).trans ?_
    exact h7
  extract_lets y13 y14 y15 y16 y17 y18 y19
  split
  rename_i y20 y21 y22 y23 y24 y25
  extract_lets y26 y27 y28 y29
  have h30 : y28.mem.bytes = x4.mem.bytes := by
    unfold y28
    refine (vEmit_mem ..).trans ?_
    exact h12
  clear_value y28
  refine ite_mem ?_ ?_
  · refine (vPartAt_mem ..).trans ?_
    exact h30
  · exact h30

@[simp] theorem vdqnTile_mem (x1) (x2) (x3) (x4 : Block) : (vdqnTile x1 x2 x3 x4).mem.bytes = x4.mem.bytes := by
  unfold vdqnTile; simp

@[simp] theorem vTile_mem (x1) (x2) (x3 : Block) : (vTile x1 x2 x3).mem.bytes = x3.mem.bytes := by
  unfold vTile; split <;> simp [*]

@[simp] theorem vTileGather_mem (x1) (x2) (x3 : Block) : (vTileGather x1 x2 x3).2.mem.bytes = x3.mem.bytes := by
  unfold vTileGather
  extract_lets y0
  split
  · rename_i y1 y2 y3 y4
    extract_lets y5 y6 y7 y8
    have h9 : y7.mem.bytes = x3.mem.bytes := by
      unfold y7
      refine (orFlags_mem ..).trans ?_
      rfl
    clear_value y7
    dsimp -zeta only
    refine ite_mem ?_ ?_
    · refine (vSmaxEnd_mem ..).trans ?_
      exact h9
    · exact h9
  · rename_i y10 y11 y12 y13
    extract_lets y14
    dsimp -zeta only
    refine ite_mem ?_ ?_
    · refine (vqntRun_mem ..).trans ?_
      rfl
    · rfl
  · rename_i y15 y16 y17
    dsimp -zeta only
    refine (vTile_mem ..).trans ?_
    rfl

@[simp] theorem vJobTiles_mem (x1) (x2) (x3 : Block) : (vJobTiles x1 x2 x3).2.mem.bytes = x3.mem.bytes := by
  unfold vJobTiles
  split
  · rename_i y0 y1
    dsimp -zeta only
  · rename_i y2 y3 y4 y5
    extract_lets y6
    split
    rename_i y7 y8 y9 y10
    have h11 : y9.mem.bytes = x3.mem.bytes := by
      refine (congrArg (fun p => p.2.mem.bytes) y10).symm.trans ?_
      refine ite_mem_2 ?_ ?_
      · refine (vTileGather_mem ..).trans ?_
        rfl
      · dsimp -zeta only
    refine (vJobTiles_mem ..).trans ?_
    exact h11

@[simp] theorem vCycleGo_mem (x1) (x2 : Block) : (vCycleGo x1 x2).2.mem.bytes = x2.mem.bytes := by
  unfold vCycleGo
  split
  · rename_i y0 y1
    dsimp -zeta only
  · rename_i y2 y3 y4 y5
    split
    rename_i y6 y7 y8 y9
    have h10 : y8.mem.bytes = x2.mem.bytes := by
      refine (congrArg (fun p => p.2.mem.bytes) y9).symm.trans ?_
      refine (vJobTiles_mem ..).trans ?_
      rfl
    extract_lets y11
    split
    rename_i y12 y13 y14 y15
    have h16 : y14.mem.bytes = x2.mem.bytes := by
      refine (congrArg (fun p => p.2.mem.bytes) y15).symm.trans ?_
      refine (vCycleGo_mem ..).trans ?_
      exact h10
    dsimp -zeta only
    exact h16

@[simp] theorem doVsmax_mem (x1) (x2) (x3 : Block) : (doVsmax x1 x2 x3).mem.bytes = x3.mem.bytes := by
  unfold doVsmax; simp

@[simp] theorem vFmtCheck_mem (x1) (x2) (x3) (x4 : Block) : (vFmtCheck x1 x2 x3 x4).mem.bytes = x4.mem.bytes := by
  unfold vFmtCheck; simp

@[simp] theorem vIssueFmt_mem (x1) (x2) (x3) (x4) (x5 : Block) : (vIssueFmt x1 x2 x3 x4 x5).mem.bytes = x5.mem.bytes := by
  unfold vIssueFmt; simp

@[simp] theorem doVsub_mem (x1) (x2) (x3 : Block) : (doVsub x1 x2 x3).mem.bytes = x3.mem.bytes := by
  unfold doVsub; simp

@[simp] theorem doVand_mem (x1) (x2) (x3 : Block) : (doVand x1 x2 x3).mem.bytes = x3.mem.bytes := by
  unfold doVand; simp

@[simp] theorem doVmlog_mem (x1) (x2) (x3 : Block) : (doVmlog x1 x2 x3).mem.bytes = x3.mem.bytes := by
  unfold doVmlog; simp

@[simp] theorem pickWrite_mem (x1) (x2 : Block) : (pickWrite x1 x2).2.mem.bytes = x2.mem.bytes := by
  unfold pickWrite
  split
  · rename_i y0
    dsimp -zeta only
  · rename_i y1 y2 y3
    refine ite_mem_2 ?_ ?_
    · dsimp -zeta only
    · extract_lets y4
      have h5 : y4.2.mem.bytes = x2.mem.bytes := by
        unfold y4
        refine (fresh_mem ..).trans ?_
        rfl
      clear_value y4
      dsimp -zeta only
      exact h5

@[simp] theorem tregWrite_mem (x1) (x2 : Block) : (tregWrite x1 x2).mem.bytes = x2.mem.bytes := by
  unfold tregWrite; simp

@[simp] theorem vWriteReg_mem (x1) (x2) (x3 : Block) : (vWriteReg x1 x2 x3).mem.bytes = x3.mem.bytes := by
  unfold vWriteReg
  extract_lets y0
  split
  rename_i y1 y2 y3 y4
  have h5 : y3.mem.bytes = x3.mem.bytes := by
    refine (congrArg (fun p => p.2.mem.bytes) y4).symm.trans ?_
    refine (pickWrite_mem ..).trans ?_
    rfl
  split
  · rename_i y6
    exact h5
  · rename_i y7 y8
    extract_lets y9 y10
    have h11 : y10.mem.bytes = x3.mem.bytes := by
      unfold y10
      refine (forEach_mem _ _ _ ?_).trans ?_
      · intros y12 y13
        refine (tregWrite_mem ..).trans ?_
        rfl
      · exact h5
    clear_value y10
    refine (forEach_mem _ _ _ ?_).trans ?_
    · intros y14 y15
      refine (logFault_mem ..).trans ?_
      rfl
    · exact h11

@[simp] theorem doVfma_mem (x1) (x2) (x3 : Block) : (doVfma x1 x2 x3).mem.bytes = x3.mem.bytes := by
  unfold doVfma; simp

@[simp] theorem vConvertCheck_mem (x1) (x2) (x3) (x4 : Block) : (vConvertCheck x1 x2 x3 x4).mem.bytes = x4.mem.bytes := by
  unfold vConvertCheck; simp

@[simp] theorem doVcvt_mem (x1) (x2) (x3 : Block) : (doVcvt x1 x2 x3).mem.bytes = x3.mem.bytes := by
  unfold doVcvt; simp

@[simp] theorem doVrnd_mem (x1) (x2) (x3 : Block) : (doVrnd x1 x2 x3).mem.bytes = x3.mem.bytes := by
  unfold doVrnd; simp

@[simp] theorem doVsolve_mem (x1) (x2) (x3 : Block) : (doVsolve x1 x2 x3).mem.bytes = x3.mem.bytes := by
  unfold doVsolve; simp

@[simp] theorem doVxor_mem (x1) (x2) (x3 : Block) : (doVxor x1 x2 x3).mem.bytes = x3.mem.bytes := by
  unfold doVxor; simp

@[simp] theorem doVmul_mem (x1) (x2) (x3 : Block) : (doVmul x1 x2 x3).mem.bytes = x3.mem.bytes := by
  unfold doVmul; simp

@[simp] theorem doVrsq_mem (x1) (x2) (x3 : Block) : (doVrsq x1 x2 x3).mem.bytes = x3.mem.bytes := by
  unfold doVrsq; simp

@[simp] theorem doVshr_mem (x1) (x2) (x3 : Block) : (doVshr x1 x2 x3).mem.bytes = x3.mem.bytes := by
  unfold doVshr; simp

@[simp] theorem doVshl_mem (x1) (x2) (x3 : Block) : (doVshl x1 x2 x3).mem.bytes = x3.mem.bytes := by
  unfold doVshl; simp

@[simp] theorem doVexp2_mem (x1) (x2) (x3 : Block) : (doVexp2 x1 x2 x3).mem.bytes = x3.mem.bytes := by
  unfold doVexp2; simp

@[simp] theorem doVlog2_mem (x1) (x2) (x3 : Block) : (doVlog2 x1 x2 x3).mem.bytes = x3.mem.bytes := by
  unfold doVlog2; simp

@[simp] theorem vdqnCheck_mem (x1) (x2) (x3) (x4 : Block) : (vdqnCheck x1 x2 x3 x4).mem.bytes = x4.mem.bytes := by
  unfold vdqnCheck; simp

@[simp] theorem doVdqn_mem (x1) (x2) (x3 : Block) : (doVdqn x1 x2 x3).mem.bytes = x3.mem.bytes := by
  unfold doVdqn; simp

@[simp] theorem vCycle_mem (x1 : Block) : (vCycle x1).mem.bytes = x1.mem.bytes := by
  unfold vCycle; simp

@[simp] theorem doVabs_mem (x1) (x2) (x3 : Block) : (doVabs x1 x2 x3).mem.bytes = x3.mem.bytes := by
  unfold doVabs; simp

@[simp] theorem doVmset_mem (x1) (x2) (x3 : Block) : (doVmset x1 x2 x3).mem.bytes = x3.mem.bytes := by
  unfold doVmset; simp

@[simp] theorem doVmov_mem (x1) (x2) (x3 : Block) : (doVmov x1 x2 x3).mem.bytes = x3.mem.bytes := by
  unfold doVmov; simp

@[simp] theorem doVadd_mem (x1) (x2) (x3 : Block) : (doVadd x1 x2 x3).mem.bytes = x3.mem.bytes := by
  unfold doVadd; simp

@[simp] theorem vCommit_mem (x1 : Block) : (vCommit x1).mem.bytes = x1.mem.bytes := by
  unfold vCommit
  extract_lets y0 y1 y2 y3 y4 y5 y6 y7
  have h8 : y5.mem.bytes = x1.mem.bytes := by
    unfold y5
    dsimp -zeta only
  clear_value y5
  have h9 : y6.mem.bytes = x1.mem.bytes := by
    unfold y6
    refine (forEach_mem _ _ _ ?_).trans ?_
    · intros y10 y11
      refine (vWriteReg_mem ..).trans ?_
      rfl
    · exact h8
  clear_value y6
  have h12 : y7.mem.bytes = x1.mem.bytes := by
    unfold y7
    refine (forEach_mem _ _ _ ?_).trans ?_
    · intros y13 y14
      extract_lets y15 y16 y17
      have h18 : y16.mem.bytes = y14.mem.bytes := by
        unfold y16
        refine (setMask_mem ..).trans ?_
        rfl
      clear_value y16
      dsimp -zeta only
      exact h18
    · exact h9
  clear_value y7
  refine (forEach_mem _ _ _ ?_).trans ?_
  · intros y19 y20
    refine (mezzWrite_mem ..).trans ?_
    rfl
  · exact h12

@[simp] theorem doVtrn_mem (x1) (x2) (x3 : Block) : (doVtrn x1 x2 x3).mem.bytes = x3.mem.bytes := by
  unfold doVtrn; simp

@[simp] theorem doVmax_mem (x1) (x2) (x3 : Block) : (doVmax x1 x2 x3).mem.bytes = x3.mem.bytes := by
  unfold doVmax; simp

@[simp] theorem doVred_mem (x1) (x2) (x3 : Block) : (doVred x1 x2 x3).mem.bytes = x3.mem.bytes := by
  unfold doVred; simp

@[simp] theorem doVcmp_mem (x1) (x2) (x3 : Block) : (doVcmp x1 x2 x3).mem.bytes = x3.mem.bytes := by
  unfold doVcmp; simp

@[simp] theorem doVsel_mem (x1) (x2) (x3 : Block) : (doVsel x1 x2 x3).mem.bytes = x3.mem.bytes := by
  unfold doVsel; simp

@[simp] theorem doVor_mem (x1) (x2) (x3 : Block) : (doVor x1 x2 x3).mem.bytes = x3.mem.bytes := by
  unfold doVor; simp

@[simp] theorem doVst_mem (x1) (x2) (x3 : Block) : (doVst x1 x2 x3).mem.bytes = x3.mem.bytes := by
  unfold doVst; simp

@[simp] theorem doVneg_mem (x1) (x2) (x3 : Block) : (doVneg x1 x2 x3).mem.bytes = x3.mem.bytes := by
  unfold doVneg; simp

@[simp] theorem doVrcp_mem (x1) (x2) (x3 : Block) : (doVrcp x1 x2 x3).mem.bytes = x3.mem.bytes := by
  unfold doVrcp; simp

@[simp] theorem doVflg_mem (x1) (x2) (x3 : Block) : (doVflg x1 x2 x3).mem.bytes = x3.mem.bytes := by
  unfold doVflg; simp

@[simp] theorem doVmin_mem (x1) (x2) (x3 : Block) : (doVmin x1 x2 x3).mem.bytes = x3.mem.bytes := by
  unfold doVmin; simp

@[simp] theorem vIssueNone_mem (x1) (x2) (x3 : Block) : (vIssueNone x1 x2 x3).mem.bytes = x3.mem.bytes := by
  unfold vIssueNone
  extract_lets y0 y1 y2 y3 y4
  have h5 : y3.mem.bytes = x3.mem.bytes := by
    unfold y3
    refine ite_mem ?_ ?_
    · refine (slotFault_mem ..).trans ?_
      dsimp -zeta only
    · rfl
  clear_value y3
  refine (slotFault_mem ..).trans ?_
  dsimp -zeta only
  exact h5

@[simp] theorem doVscale_mem (x1) (x2) (x3 : Block) : (doVscale x1 x2 x3).mem.bytes = x3.mem.bytes := by
  unfold doVscale; simp

@[simp] theorem setLrow_mem (x1) (x2) (x3) (x4 : Block) : (setLrow x1 x2 x3 x4).mem.bytes = x4.mem.bytes := by
  unfold setLrow
  dsimp -zeta only

@[simp] theorem setLgroup_mem (x1) (x2) (x3) (x4 : Block) : (setLgroup x1 x2 x3 x4).mem.bytes = x4.mem.bytes := by
  unfold setLgroup
  dsimp -zeta only

@[simp] theorem residueInject_mem (x1) (x2) (x3 : Block) : (residueInject x1 x2 x3).mem.bytes = x3.mem.bytes := by
  unfold residueInject
  extract_lets y0 y1 y2 y3
  have h4 : y2.mem.bytes = x3.mem.bytes := by
    unfold y2
    refine (injectFire_mem ..).trans ?_
    rfl
  clear_value y2
  clear_value y1
  split
  · rename_i y5
    rfl
  · rename_i y6 y7
    extract_lets y8
    refine (setLrow_mem ..).trans ?_
    exact h4

@[simp] theorem landOne_mem (x1) (x2 : Block) : (landOne x1 x2).mem.bytes = x2.mem.bytes := by
  unfold landOne
  extract_lets y0
  have h1 : y0.mem.bytes = x2.mem.bytes := by
    unfold y0
    refine (slotFault_mem ..).trans ?_
    rfl
  clear_value y0
  refine ite_mem ?_ ?_
  · rfl
  · split
    · rename_i y2 y3
      exact h1
    · rename_i y4 y5 y6
      extract_lets y7 y8 y9 y10 y11
      have h12 : y10.mem.bytes = x2.mem.bytes := by
        unfold y10
        refine (setLrow_mem ..).trans ?_
        rfl
      clear_value y10
      have h13 : y11.mem.bytes = x2.mem.bytes := by
        unfold y11
        refine ite_mem ?_ ?_
        · refine (setLgroup_mem ..).trans ?_
          exact h12
        · exact h12
      clear_value y11
      refine ite_mem ?_ ?_
      · exact h1
      · refine (residueInject_mem ..).trans ?_
        exact h13

@[simp] theorem landGo_mem (x1) (x2 : Block) : (landGo x1 x2).2.mem.bytes = x2.mem.bytes := by
  unfold landGo
  split
  · rename_i y0 y1
    dsimp -zeta only
  · rename_i y2 y3 y4 y5
    refine ite_mem_2 ?_ ?_
    · refine (landGo_mem ..).trans ?_
      refine (landOne_mem ..).trans ?_
      rfl
    · split
      rename_i y6 y7 y8 y9
      have h10 : y8.mem.bytes = x2.mem.bytes := by
        refine (congrArg (fun p => p.2.mem.bytes) y9).symm.trans ?_
        refine (landGo_mem ..).trans ?_
        rfl
      dsimp -zeta only
      exact h10

@[simp] theorem landDue_mem (x1 : Block) : (landDue x1).mem.bytes = x1.mem.bytes := by
  unfold landDue; simp

@[simp] theorem splitWide_mem (x1) (x2) (x3 : Block) : (splitWide x1 x2 x3).mem.bytes = x3.mem.bytes := by
  unfold splitWide
  extract_lets y0 y1 y2 y3
  refine ite_mem ?_ ?_
  · refine (setLrow_mem ..).trans ?_
    refine (setLrow_mem ..).trans ?_
    rfl
  · rfl

@[simp] theorem openOn_mem (x1) (x2) (x3) (x4) (x5 : Block) : (openOn x1 x2 x3 x4 x5).mem.bytes = x5.mem.bytes := by
  unfold openOn
  split
  rename_i y0 y1 y2 y3 y4 y5 y6
  extract_lets y7 y8 y9 y10
  have h11 : y9.mem.bytes = x5.mem.bytes := by
    unfold y9
    refine (forEach_mem _ _ _ ?_).trans ?_
    · intros y12 y13
      refine (slotFault_mem ..).trans ?_
      refine (setLgroup_mem ..).trans ?_
      rfl
    · rfl
  clear_value y9
  have h14 : y10.mem.bytes = x5.mem.bytes := by
    unfold y10
    refine (forEach_mem _ _ _ ?_).trans ?_
    · intros y15 y16
      extract_lets y17
      refine ite_mem ?_ ?_
      · refine (setLrow_mem ..).trans ?_
        refine (setLrow_mem ..).trans ?_
        rfl
      · refine (setLrow_mem ..).trans ?_
        refine (splitWide_mem ..).trans ?_
        rfl
    · exact h11
  clear_value y10
  refine (setLgroup_mem ..).trans ?_
  exact h14

@[simp] theorem residueCheck_mem (x1) (x2) (x3) (x4 : Block) : (residueCheck x1 x2 x3 x4).mem.bytes = x4.mem.bytes := by
  unfold residueCheck
  extract_lets y0 y1
  have h2 : y1.mem.bytes = x4.mem.bytes := by
    unfold y1
    refine (setLrow_mem ..).trans ?_
    rfl
  clear_value y1
  split
  · rename_i y3 y4
    rfl
  · rename_i y5 y6 y7 y8
    extract_lets y9
    refine (detect_mem ..).trans ?_
    exact h2

@[simp] theorem collectRows_mem (x1) (x2) (x3) (x4 : Block) : (collectRows x1 x2 x3 x4).2.mem.bytes = x4.mem.bytes := by
  unfold collectRows
  refine (foldl_mem_2 _ _ _ ?_).trans ?_
  · intros y0 y1
    split
    · rename_i y2 y3
      rfl
    · rename_i y4 y5 y6
      extract_lets y7
      have h8 : y7.mem.bytes = y0.2.mem.bytes := by
        unfold y7
        refine (forEach_mem _ _ _ ?_).trans ?_
        · intros y9 y10
          refine (residueCheck_mem ..).trans ?_
          rfl
        · rfl
      clear_value y7
      dsimp -zeta only
      exact h8
  · dsimp -zeta only

@[simp] theorem pairRows_mem (x1) (x2) (x3) (x4) (x5) (x6) (x7 : Block) : (pairRows x1 x2 x3 x4 x5 x6 x7).2.mem.bytes = x7.mem.bytes := by
  unfold pairRows
  extract_lets y0 y1 y2
  split
  rename_i y3 y4 y5 y6
  have h7 : y5.mem.bytes = x7.mem.bytes := by
    refine (congrArg (fun p => p.2.mem.bytes) y6).symm.trans ?_
    refine (inject_mem ..).trans ?_
    rfl
  extract_lets y8 y9
  have h10 : y9.mem.bytes = x7.mem.bytes := by
    unfold y9
    refine (forEach_mem _ _ _ ?_).trans ?_
    · intros y11 y12
      refine ite_mem ?_ ?_
      · refine (detect_mem ..).trans ?_
        rfl
      · rfl
    · exact h7
  clear_value y9
  dsimp -zeta only
  exact h10

@[simp] theorem setConv_mem (x1) (x2) (x3) (x4 : Block) : (setConv x1 x2 x3 x4).mem.bytes = x4.mem.bytes := by
  unfold setConv
  dsimp -zeta only

@[simp] theorem convStart_mem (x1) (x2) (x3 : Block) : (convStart x1 x2 x3).mem.bytes = x3.mem.bytes := by
  unfold convStart
  extract_lets y0 y1
  refine ite_mem ?_ ?_
  · split
    · rename_i y2 y3
      refine (setConv_mem ..).trans ?_
      rfl
    · rename_i y4 y5 y6 y7
      refine (setConv_mem ..).trans ?_
      rfl
  · rfl

@[simp] theorem convPut_mem (x1) (x2 : Block) : (convPut x1 x2).mem.bytes = x2.mem.bytes := by
  unfold convPut; simp

@[simp] theorem markClose_mem (x1) (x2) (x3) (x4 : Block) : (markClose x1 x2 x3 x4).mem.bytes = x4.mem.bytes := by
  unfold markClose
  refine (forEach_mem _ _ _ ?_).trans ?_
  · intros y0 y1
    split
    · rename_i y2 y3 y4
      refine (setLgroup_mem ..).trans ?_
      rfl
    · rename_i y5 y6
      rfl
  · rfl

@[simp] theorem clearRows_mem (x1) (x2) (x3 : Block) : (clearRows x1 x2 x3).mem.bytes = x3.mem.bytes := by
  unfold clearRows
  split
  · rename_i y0 y1
    rfl
  · rename_i y2 y3 y4
    extract_lets y5
    have h6 : y5.mem.bytes = x3.mem.bytes := by
      unfold y5
      refine (forEach_mem _ _ _ ?_).trans ?_
      · intros y7 y8
        refine (setLrow_mem ..).trans ?_
        rfl
      · rfl
    clear_value y5
    refine (setLgroup_mem ..).trans ?_
    exact h6

@[simp] theorem drainOn_mem (x1) (x2) (x3) (x4) (x5) (x6) (x7) (x8) (x9 : Block) : (drainOn x1 x2 x3 x4 x5 x6 x7 x8 x9).mem.bytes = x9.mem.bytes := by
  unfold drainOn
  extract_lets y0
  have h1 : y0.mem.bytes = x9.mem.bytes := by
    unfold y0
    refine (slotFaultIf_mem ..).trans ?_
    rfl
  clear_value y0
  refine ite_mem ?_ ?_
  · exact h1
  · refine ite_mem ?_ ?_
    · refine (slotFault_mem ..).trans ?_
      exact h1
    · split
      rename_i y2 y3 y4 y5
      have h6 : y4.mem.bytes = x9.mem.bytes := by
        refine (congrArg (fun p => p.2.mem.bytes) y5).symm.trans ?_
        refine (collectRows_mem ..).trans ?_
        exact h1
      split
      rename_i y7 y8 y9 y10
      have h11 : y9.mem.bytes = x9.mem.bytes := by
        refine (congrArg (fun p => p.2.mem.bytes) y10).symm.trans ?_
        refine (collectRows_mem ..).trans ?_
        exact h6
      split
      rename_i y12 y13 y14 y15
      have h16 : y14.mem.bytes = x9.mem.bytes := by
        refine (congrArg (fun p => p.2.mem.bytes) y15).symm.trans ?_
        refine ite_mem_2 ?_ ?_
        · dsimp -zeta only
          exact h11
        · refine (pairRows_mem ..).trans ?_
          exact h11
      extract_lets y17 y18 y19
      have h20 : y18.mem.bytes = x9.mem.bytes := by
        unfold y18
        refine (convPut_mem ..).trans ?_
        exact h16
      clear_value y18
      have h21 : y19.mem.bytes = x9.mem.bytes := by
        unfold y19
        refine ite_mem ?_ ?_
        · exact h20
        · refine (convPut_mem ..).trans ?_
          exact h20
      clear_value y19
      refine ite_mem ?_ ?_
      · refine (markClose_mem ..).trans ?_
        exact h21
      · refine ite_mem ?_ ?_
        · refine (forEach_mem _ _ _ ?_).trans ?_
          · intros y22 y23
            refine (clearRows_mem ..).trans ?_
            rfl
          · exact h21
        · exact h21

@[simp] theorem shiftOn_mem (x1) (x2) (x3) (x4 : Block) : (shiftOn x1 x2 x3 x4).mem.bytes = x4.mem.bytes := by
  unfold shiftOn
  split
  · rename_i y0 y1
    rfl
  · rename_i y2 y3 y4
    refine (forEach_mem _ _ _ ?_).trans ?_
    · intros y5 y6
      refine ite_mem ?_ ?_
      · extract_lets y7 y8
        have h9 : y8.mem.bytes = y6.mem.bytes := by
          unfold y8
          refine (setLrow_mem ..).trans ?_
          rfl
        clear_value y8
        refine ite_mem ?_ ?_
        · split
          · rename_i y10 y11 y12
            refine (setLgroup_mem ..).trans ?_
            exact h9
          · rename_i y13 y14
            exact h9
        · exact h9
      · rfl
    · rfl

@[simp] theorem performOp_mem (x1) (x2 : Block) : (performOp x1 x2).mem.bytes = x2.mem.bytes := by
  unfold performOp
  split
  rename_i y0 y1 y2 y3
  split
  · rename_i y4 y5 y6 y7
    refine (forEach_mem _ _ _ ?_).trans ?_
    · intros y8 y9
      refine (openOn_mem ..).trans ?_
      rfl
    · rfl
  · rename_i y10 y11 y12 y13
    refine (drainOn_mem ..).trans ?_
    rfl
  · rename_i y14 y15 y16 y17
    refine (drainOn_mem ..).trans ?_
    rfl
  · rename_i y18 y19 y20 y21
    extract_lets y22
    have h23 : y22.mem.bytes = x2.mem.bytes := by
      unfold y22
      refine ite_mem ?_ ?_
      · refine (consume_mem ..).trans ?_
        rfl
      · rfl
    clear_value y22
    refine (forEach_mem _ _ _ ?_).trans ?_
    · intros y24 y25
      refine (shiftOn_mem ..).trans ?_
      rfl
    · exact h23
  · rename_i y26 y27 y28 y29 y30
    rfl

@[simp] theorem releaseGo_mem (x1) (x2) (x3 : Block) : (releaseGo x1 x2 x3).2.mem.bytes = x3.mem.bytes := by
  unfold releaseGo
  split
  · rename_i y0 y1 y2
    dsimp -zeta only
  · rename_i y3 y4 y5 y6 y7
    refine ite_mem_2 ?_ ?_
    · refine (releaseGo_mem ..).trans ?_
      rfl
    · refine (releaseGo_mem ..).trans ?_
      refine (performOp_mem ..).trans ?_
      rfl

@[simp] theorem releaseOps_mem (x1 : Block) : (releaseOps x1).mem.bytes = x1.mem.bytes := by
  unfold releaseOps; simp

@[simp] theorem openFault_mem (x1) (x2 : Block) : (openFault x1 x2).mem.bytes = x2.mem.bytes := by
  unfold openFault; simp

@[simp] theorem discardOpen_mem (x1 : Block) : (discardOpen x1).mem.bytes = x1.mem.bytes := by
  unfold discardOpen
  split
  rename_i y0 y1 y2 y3
  extract_lets y4 y5
  have h6 : y5.mem.bytes = x1.mem.bytes := by
    unfold y5
    refine (forEach_mem _ _ _ ?_).trans ?_
    · intros y7 y8
      refine (openFault_mem ..).trans ?_
      rfl
    · dsimp -zeta only
  clear_value y5
  refine (forEach_mem _ _ _ ?_).trans ?_
  · intros y9 y10
    split
    · rename_i y11 y12 y13
      refine ite_mem ?_ ?_
      · refine (openFault_mem ..).trans ?_
        refine (setLgroup_mem ..).trans ?_
        rfl
      · rfl
    · rename_i y14 y15
      rfl
  · exact h6

@[simp] theorem rangeFault_mem (x1) (x2) (x3) (x4) (x5 : Block) : (rangeFault x1 x2 x3 x4 x5).mem.bytes = x5.mem.bytes := by
  unfold rangeFault; simp

@[simp] theorem landAll_mem (x1 : Block) : (landAll x1).mem.bytes = x1.mem.bytes := by
  unfold landAll
  refine (iter_mem _ _ _ ?_).trans ?_
  · intros y0
    refine (releaseOps_mem ..).trans ?_
    refine (landDue_mem ..).trans ?_
    rfl
  · refine (landDue_mem ..).trans ?_
    rfl

@[simp] theorem submitOp_mem (x1) (x2 : Block) : (submitOp x1 x2).mem.bytes = x2.mem.bytes := by
  unfold submitOp
  dsimp -zeta only

@[simp] theorem landOp_mem (x1) (x2) (x3) (x4) (x5) (x6) (x7) (x8 : Block) : (landOp x1 x2 x3 x4 x5 x6 x7 x8).mem.bytes = x8.mem.bytes := by
  unfold landOp; simp

@[simp] theorem doMshift_mem (x1) (x2) (x3 : Block) : (doMshift x1 x2 x3).mem.bytes = x3.mem.bytes := by
  unfold doMshift
  refine (withSlot_mem (hf := ?_) ..).trans ?_
  · intros y0 y1
    split
    · rename_i y2 y3
      refine (slotFault_mem ..).trans ?_
      rfl
    · rename_i y4 y5 y6
      refine (landOp_mem ..).trans ?_
      rfl
  · rfl

@[simp] theorem doMopen_mem (x1) (x2) (x3 : Block) : (doMopen x1 x2 x3).mem.bytes = x3.mem.bytes := by
  unfold doMopen
  refine (withSlot_mem (hf := ?_) ..).trans ?_
  · intros y0 y1
    split
    rename_i y2 y3 y4 y5 y6 y7 y8
    extract_lets y9 y10
    have h11 : y9.mem.bytes = y1.mem.bytes := by
      unfold y9
      refine (iter_mem _ _ _ ?_).trans ?_
      · intros y12
        refine (slotFault_mem ..).trans ?_
        rfl
      · rfl
    clear_value y9
    have h13 : y10.mem.bytes = y1.mem.bytes := by
      unfold y10
      refine (iter_mem _ _ _ ?_).trans ?_
      · intros y14
        refine (slotFault_mem ..).trans ?_
        rfl
      · exact h11
    clear_value y10
    refine (landOp_mem ..).trans ?_
    exact h13
  · rfl

@[simp] theorem drainTile_mem (x1) (x2 : Block) : (drainTile x1 x2).mem.bytes = x2.mem.bytes := by
  unfold drainTile
  extract_lets y0 y1 y2 y3 y4 y5 y6 y7 y8 y9 y10 y11
  have h12 : y5.mem.bytes = x2.mem.bytes := by
    unfold y5
    refine (orFlags_mem ..).trans ?_
    rfl
  clear_value y5
  have h13 : y7.mem.bytes = x2.mem.bytes := by
    unfold y7
    refine ite_mem ?_ ?_
    · rfl
    · dsimp -zeta only
      exact h12
  clear_value y7
  have h14 : y11.mem.bytes = x2.mem.bytes := by
    unfold y11
    refine ite_mem ?_ ?_
    · exact h13
    · dsimp -zeta only
      exact h13
  clear_value y11
  refine ite_mem ?_ ?_
  · exact h13
  · refine ite_mem ?_ ?_
    · refine (forEach_mem _ _ _ ?_).trans ?_
      · intros y15 y16
        split
        · rename_i y17 y18 y19
          refine ite_mem ?_ ?_
          · refine (setLgroup_mem ..).trans ?_
            rfl
          · rfl
        · rename_i y20 y21
          rfl
      · exact h14
    · exact h14

@[simp] theorem doMdrain_mem (x1) (x2) (x3 : Block) : (doMdrain x1 x2 x3).mem.bytes = x3.mem.bytes := by
  unfold doMdrain; simp

@[simp] theorem doMclose_mem (x1) (x2) (x3 : Block) : (doMclose x1 x2 x3).mem.bytes = x3.mem.bytes := by
  unfold doMclose; simp

@[simp] theorem convStarts_mem (x1 : Block) : (convStarts x1).mem.bytes = x1.mem.bytes := by
  unfold convStarts
  refine (forEach_mem _ _ _ ?_).trans ?_
  · intros y0 y1
    refine (convStart_mem ..).trans ?_
    rfl
  · rfl

@[simp] theorem convCycle_mem (x1 : Block) : (convCycle x1).mem.bytes = x1.mem.bytes := by
  unfold convCycle
  refine (forEach_mem _ _ _ ?_).trans ?_
  · intros y0 y1
    extract_lets y2
    split
    · rename_i y3 y4 y5
      refine ite_mem ?_ ?_
      · extract_lets y6
        have h7 : y6.mem.bytes = y1.mem.bytes := by
          unfold y6
          refine (setConv_mem ..).trans ?_
          rfl
        clear_value y6
        refine (drainTile_mem ..).trans ?_
        exact h7
      · rfl
    · rename_i y8 y9
      rfl
  · rfl

@[simp] theorem countIgnored_mem (x1) (x2) (x3 : Block) : (countIgnored x1 x2 x3).mem.bytes = x3.mem.bytes := by
  unfold countIgnored
  refine ite_mem ?_ ?_
  · rfl
  · extract_lets y0 y1 y2
    have h3 : y1.mem.bytes = x3.mem.bytes := by
      unfold y1
      dsimp -zeta only
    clear_value y1
    refine ite_mem ?_ ?_
    · exact h3
    · refine (countCset_mem ..).trans ?_
      exact h3

@[simp] theorem setWbuf_mem (x1) (x2) (x3) (x4 : Block) : (setWbuf x1 x2 x3 x4).mem.bytes = x4.mem.bytes := by
  unfold setWbuf
  dsimp -zeta only

@[simp] theorem countTile_mem (x1) (x2) (x3 : Block) : (countTile x1 x2 x3).mem.bytes = x3.mem.bytes := by
  unfold countTile
  extract_lets y0
  refine ite_mem ?_ ?_
  · refine (countIgnored_mem ..).trans ?_
    refine (setWbuf_mem ..).trans ?_
    rfl
  · rfl

@[simp] theorem setPort_mem (x1) (x2) (x3 : Block) : (setPort x1 x2 x3).mem.bytes = x3.mem.bytes := by
  unfold setPort
  dsimp -zeta only

@[simp] theorem swapBufs_mem (x1) (x2 : Block) : (swapBufs x1 x2).mem.bytes = x2.mem.bytes := by
  unfold swapBufs
  dsimp -zeta only

@[simp] theorem startLoad_mem (x1) (x2) (x3 : Block) : (startLoad x1 x2 x3).mem.bytes = x3.mem.bytes := by
  unfold startLoad; split <;> simp [*]

@[simp] theorem setupArr_mem (x1) (x2) (x3 : Block) : (setupArr x1 x2 x3).2.mem.bytes = x3.mem.bytes := by
  unfold setupArr
  extract_lets y0 y1 y2 y3 y4 y5 y6 y7 y8
  have h9 : y1.mem.bytes = x3.mem.bytes := by
    unfold y1
    refine (swapBufs_mem ..).trans ?_
    rfl
  clear_value y1
  have h10 : y4.mem.bytes = x3.mem.bytes := by
    unfold y4
    refine (slotFaultIf_mem ..).trans ?_
    exact h9
  clear_value y4
  have h11 : y5.mem.bytes = x3.mem.bytes := by
    unfold y5
    refine (slotFaultIf_mem ..).trans ?_
    exact h10
  clear_value y5
  split
  rename_i y12 y13 y14 y15
  have h16 : y14.mem.bytes = x3.mem.bytes := by
    refine (congrArg (fun p => p.2.mem.bytes) y15).symm.trans ?_
    refine ite_mem_2 ?_ ?_
    · dsimp -zeta only
      refine (countTile_mem ..).trans ?_
      exact h11
    · dsimp -zeta only
  split
  · rename_i y17 y18 y19 y20 y21
    dsimp -zeta only
    refine (startLoad_mem ..).trans ?_
    exact h16
  · rename_i y22 y23 y24
    dsimp -zeta only
    exact h16

@[simp] theorem setupGo_mem (x1) (x2) (x3 : Block) : (setupGo x1 x2 x3).2.mem.bytes = x3.mem.bytes := by
  unfold setupGo
  split
  · rename_i y0 y1
    dsimp -zeta only
  · rename_i y2 y3 y4 y5
    split
    rename_i y6 y7 y8 y9
    have h10 : y8.mem.bytes = x3.mem.bytes := by
      refine (congrArg (fun p => p.2.mem.bytes) y9).symm.trans ?_
      refine (setupArr_mem ..).trans ?_
      rfl
    split
    rename_i y11 y12 y13 y14
    have h15 : y13.mem.bytes = x3.mem.bytes := by
      refine (congrArg (fun p => p.2.mem.bytes) y14).symm.trans ?_
      refine (setupGo_mem ..).trans ?_
      exact h10
    dsimp -zeta only
    exact h15

@[simp] theorem setupPass_mem (x1) (x2 : Block) : (setupPass x1 x2).2.mem.bytes = x2.mem.bytes := by
  unfold setupPass; simp

@[simp] theorem streamTurn_mem (x1) (x2 : Block) : (streamTurn x1 x2).2.mem.bytes = x2.mem.bytes := by
  unfold streamTurn
  split
  · rename_i y0 y1
    dsimp -zeta only
  · rename_i y2 y3 y4 y5
    extract_lets y6
    refine ite_mem_2 ?_ ?_
    · refine (streamTurn_mem ..).trans ?_
      rfl
    · refine ite_mem_2 ?_ ?_
      · refine (streamTurn_mem ..).trans ?_
        rfl
      · split
        rename_i y7 y8 y9 y10
        have h11 : y9.mem.bytes = x2.mem.bytes := by
          refine (congrArg (fun p => p.2.mem.bytes) y10).symm.trans ?_
          refine ite_mem_2 ?_ ?_
          · refine (setupPass_mem ..).trans ?_
            rfl
          · dsimp -zeta only
        split
        rename_i y12 y13 y14 y15
        have h16 : y14.mem.bytes = x2.mem.bytes := by
          refine (congrArg (fun p => p.2.mem.bytes) y15).symm.trans ?_
          refine (streamTurn_mem ..).trans ?_
          exact h11
        dsimp -zeta only
        exact h16

@[simp] theorem streamStarts_mem (x1 : Block) : (streamStarts x1).mem.bytes = x1.mem.bytes := by
  unfold streamStarts; simp

@[simp] theorem rowContribs_mem (x1) (x2) (x3 : Block) : (rowContribs x1 x2 x3).2.mem.bytes = x3.mem.bytes := by
  unfold rowContribs; simp

@[simp] theorem streamHalf_mem (x1) (x2) (x3 : Block) : (streamHalf x1 x2 x3).2.mem.bytes = x3.mem.bytes := by
  unfold streamHalf
  split
  · rename_i y0 y1
    dsimp -zeta only
  · rename_i y2 y3 y4 y5
    extract_lets y6 y7
    refine ite_mem_2 ?_ ?_
    · split
      rename_i y8 y9 y10 y11
      have h12 : y10.mem.bytes = x3.mem.bytes := by
        refine (congrArg (fun p => p.2.mem.bytes) y11).symm.trans ?_
        refine (rowContribs_mem ..).trans ?_
        rfl
      dsimp -zeta only
      exact h12
    · dsimp -zeta only

@[simp] theorem streamStep_mem (x1) (x2 : Block) : (streamStep x1 x2).2.mem.bytes = x2.mem.bytes := by
  unfold streamStep; split <;> simp [*]

@[simp] theorem streamGo_mem (x1) (x2 : Block) : (streamGo x1 x2).2.mem.bytes = x2.mem.bytes := by
  unfold streamGo
  split
  · rename_i y0 y1
    dsimp -zeta only
  · rename_i y2 y3 y4 y5
    split
    rename_i y6 y7 y8 y9
    have h10 : y8.mem.bytes = x2.mem.bytes := by
      refine (congrArg (fun p => p.2.mem.bytes) y9).symm.trans ?_
      refine (streamStep_mem ..).trans ?_
      rfl
    split
    rename_i y11 y12 y13 y14
    have h15 : y13.mem.bytes = x2.mem.bytes := by
      refine (congrArg (fun p => p.2.mem.bytes) y14).symm.trans ?_
      refine (streamGo_mem ..).trans ?_
      exact h10
    dsimp -zeta only
    exact h15

@[simp] theorem takeArrays_mem (x1) (x2 : Block) : (takeArrays x1 x2).mem.bytes = x2.mem.bytes := by
  unfold takeArrays
  dsimp -zeta only

@[simp] theorem streamOn_mem (x1) (x2) (x3) (x4) (x5) (x6 : Block) : (streamOn x1 x2 x3 x4 x5 x6).mem.bytes = x6.mem.bytes := by
  unfold streamOn; simp

@[simp] theorem doMstream_mem (x1) (x2) (x3 : Block) : (doMstream x1 x2 x3).mem.bytes = x3.mem.bytes := by
  unfold doMstream
  refine (withSlot_mem (hf := ?_) ..).trans ?_
  · intros y0 y1
    extract_lets y2 y3 y4
    have h5 : y2.mem.bytes = y1.mem.bytes := by
      unfold y2
      refine (rangeFault_mem ..).trans ?_
      rfl
    clear_value y2
    have h6 : y4.mem.bytes = y1.mem.bytes := by
      unfold y4
      refine (streamOn_mem ..).trans ?_
      exact h5
    clear_value y4
    refine ite_mem ?_ ?_
    · refine (streamOn_mem ..).trans ?_
      exact h6
    · exact h6
  · rfl

@[simp] theorem loadOn_mem (x1) (x2) (x3) (x4) (x5 : Block) : (loadOn x1 x2 x3 x4 x5).mem.bytes = x5.mem.bytes := by
  unfold loadOn
  split
  rename_i y0 y1 y2 y3
  extract_lets y4
  refine (forEach_mem _ _ _ ?_).trans ?_
  · intros y5 y6
    refine (startLoad_mem ..).trans ?_
    rfl
  · rfl

@[simp] theorem loadStep_mem (x1) (x2) (x3 : Block) : (loadStep x1 x2 x3).mem.bytes = x3.mem.bytes := by
  unfold loadStep
  extract_lets y0 y1 y2 y3
  refine ite_mem ?_ ?_
  · refine (setPort_mem ..).trans ?_
    rfl
  · split
    rename_i y4 y5 y6 y7
    have h8 : y6.mem.bytes = x3.mem.bytes := by
      refine (congrArg (fun p => p.2.mem.bytes) y7).symm.trans ?_
      refine (inject_mem ..).trans ?_
      rfl
    extract_lets y9 y10
    have h11 : y10.mem.bytes = x3.mem.bytes := by
      unfold y10
      refine ite_mem ?_ ?_
      · refine (detect_mem ..).trans ?_
        exact h8
      · exact h8
    clear_value y10
    refine (setPort_mem ..).trans ?_
    refine (setWbuf_mem ..).trans ?_
    exact h11

@[simp] theorem loadCycle_mem (x1 : Block) : (loadCycle x1).mem.bytes = x1.mem.bytes := by
  unfold loadCycle
  refine (forEach_mem _ _ _ ?_).trans ?_
  · intros y0 y1
    split
    · rename_i y2 y3 y4
      refine (loadStep_mem ..).trans ?_
      rfl
    · rename_i y5 y6
      rfl
  · rfl

@[simp] theorem streamCycle_mem (x1 : Block) : (streamCycle x1).mem.bytes = x1.mem.bytes := by
  unfold streamCycle; simp

@[simp] theorem doMloadW_mem (x1) (x2) (x3 : Block) : (doMloadW x1 x2 x3).mem.bytes = x3.mem.bytes := by
  unfold doMloadW
  refine (withSlot_mem (hf := ?_) ..).trans ?_
  · intros y0 y1
    extract_lets y2 y3 y4 y5
    have h6 : y2.mem.bytes = y1.mem.bytes := by
      unfold y2
      refine (rangeFault_mem ..).trans ?_
      rfl
    clear_value y2
    have h7 : y3.mem.bytes = y1.mem.bytes := by
      unfold y3
      refine (slotFaultIf_mem ..).trans ?_
      exact h6
    clear_value y3
    have h8 : y5.mem.bytes = y1.mem.bytes := by
      unfold y5
      refine (loadOn_mem ..).trans ?_
      exact h7
    clear_value y5
    refine ite_mem ?_ ?_
    · refine (loadOn_mem ..).trans ?_
      exact h8
    · exact h8
  · rfl

@[simp] theorem setKeeper_mem (x1) (x2) (x3) (x4 : Block) : (setKeeper x1 x2 x3 x4).mem.bytes = x4.mem.bytes := by
  unfold setKeeper
  dsimp -zeta only

@[simp] theorem keeperStep_mem (x1) (x2) (x3 : Block) : (keeperStep x1 x2 x3).mem.bytes = x3.mem.bytes := by
  unfold keeperStep
  extract_lets y0 y1 y2 y3 y4 y5 y6
  have h7 : y3.mem.bytes = x3.mem.bytes := by
    unfold y3
    refine (setKeeper_mem ..).trans ?_
    rfl
  clear_value y3
  refine ite_mem ?_ ?_
  · exact h7
  · dsimp -zeta only
    exact h7

@[simp] theorem cycleWork_mem (x1 : Block) : (cycleWork x1).mem.bytes = x1.mem.bytes := by
  unfold cycleWork; simp

@[simp] theorem passTime_mem (x1) (x2 : Block) : (passTime x1 x2).mem.bytes = x2.mem.bytes := by
  unfold passTime; simp

@[simp] theorem cycleCount_mem (x1 : Block) : (cycleCount x1).mem.bytes = x1.mem.bytes := by
  unfold cycleCount; simp

@[simp] theorem keepersCycle_mem (x1) (x2 : Block) : (keepersCycle x1 x2).mem.bytes = x2.mem.bytes := by
  unfold keepersCycle
  refine (forEach_mem _ _ _ ?_).trans ?_
  · intros y0 y1
    refine (keeperStep_mem ..).trans ?_
    rfl
  · rfl

@[simp] theorem cycleFrozen_mem (x1 : Block) : (cycleFrozen x1).mem.bytes = x1.mem.bytes := by
  unfold cycleFrozen; simp

@[simp] theorem rampHold_mem (x1) (x2 : Block) : (rampHold x1 x2).mem.bytes = x2.mem.bytes := by
  unfold rampHold
  extract_lets y0
  have h1 : y0.mem.bytes = x2.mem.bytes := by
    unfold y0
    refine (forEach_mem _ _ _ ?_).trans ?_
    · intros y2 y3
      refine (setKeeper_mem ..).trans ?_
      rfl
    · rfl
  clear_value y0
  refine (freezeFor_mem ..).trans ?_
  exact h1

@[simp] theorem clockCycle_mem (x1 : Block) : (clockCycle x1).mem.bytes = x1.mem.bytes := by
  unfold clockCycle
  refine ite_mem ?_ ?_
  · refine (cycleFrozen_mem ..).trans ?_
    rfl
  · split
    · rename_i y0 y1
      extract_lets y2
      have h3 : y2.mem.bytes = x1.mem.bytes := by
        unfold y2
        refine (keepersCycle_mem ..).trans ?_
        rfl
      clear_value y2
      refine (cycleCount_mem ..).trans ?_
      refine (cycleWork_mem ..).trans ?_
      exact h3
    · rename_i y4 y5
      refine (cycleFrozen_mem ..).trans ?_
      refine (rampHold_mem ..).trans ?_
      rfl

end Sys2Proof.Machine
end

