-- ==== Sys2Proof/Laws/MemHalls.lean ====
section
/-! SUPPORT. What each operation does to the bytes of memory: memory accesses, the update passes and the descriptors.
`f_mem`: `f` leaves every byte as it is; `f_wf`: `f` keeps the canonical form. -/

set_option maxRecDepth 4000

namespace Sys2Proof.Machine

@[simp] theorem rowFails_mem (x1) (x2 : Block) : (rowFails x1 x2).mem.bytes = x2.mem.bytes := by
  unfold rowFails
  dsimp -zeta only

@[simp] theorem rowEvent_mem (x1) (x2) (x3 : Block) : (rowEvent x1 x2 x3).mem.bytes = x3.mem.bytes := by
  unfold rowEvent
  refine ite_mem ?_ ?_
  · refine (rowFails_mem ..).trans ?_
    refine (bumpNum_mem ..).trans ?_
    rfl
  · extract_lets y0 y1 y2 y3 y4
    have h5 : y0.mem.bytes = x3.mem.bytes := by
      unfold y0
      refine (bumpNum_mem ..).trans ?_
      rfl
    clear_value y0
    have h6 : y2.bytes = x3.mem.bytes := by
      unfold y2
      exact h5
    clear_value y2
    have h7 : y4.mem.bytes = x3.mem.bytes := by
      unfold y4
      dsimp -zeta only
      exact h6
    clear_value y4
    refine ite_mem ?_ ?_
    · refine (rowFails_mem ..).trans ?_
      exact h7
    · exact h7

@[simp] theorem setPoison_mem (x1) (x2) (x3 : Block) : (setPoison x1 x2 x3).mem.bytes = x3.mem.bytes := by
  unfold setPoison
  dsimp -zeta only

@[simp] theorem decodeSec_mem (x1) (x2) (x3) (x4 : Block) : (decodeSec x1 x2 x3 x4).2.mem.bytes = x4.mem.bytes := by
  unfold decodeSec
  extract_lets y0 y1 y2 y3 y4 y5 y6 y7 y8 y9
  have h10 : y6.bytes = x4.mem.bytes := by
    unfold y6
    rfl
  clear_value y6
  have h11 : y7.mem.bytes = x4.mem.bytes := by
    unfold y7
    dsimp -zeta only
    exact h10
  clear_value y7
  have h12 : y8.mem.bytes = x4.mem.bytes := by
    unfold y8
    refine ite_mem ?_ ?_
    · exact h11
    · refine (rowEvent_mem ..).trans ?_
      exact h11
  clear_value y8
  have h13 : y9.mem.bytes = x4.mem.bytes := by
    unfold y9
    refine (detect_mem ..).trans ?_
    exact h12
  clear_value y9
  refine ite_mem_2 ?_ ?_
  · dsimp -zeta only
  · refine ite_mem_2 ?_ ?_
    · dsimp -zeta only
      exact h11
    · dsimp -zeta only
      refine ite_mem ?_ ?_
      · refine (setPoison_mem ..).trans ?_
        exact h13
      · exact h13

@[simp] theorem decodeAll_mem (x1) (x2 : Block) : (decodeAll x1 x2).mem.bytes = x2.mem.bytes := by
  unfold decodeAll
  refine (forEach_mem _ _ _ ?_).trans ?_
  · intros y0 y1
    refine (decodeSec_mem ..).trans ?_
    rfl
  · rfl

theorem copyFrame_wf {x1} {x2} {x3 : Block} (h : mapWf 0 x3.mem.bytes = true) : mapWf 0 (copyFrame x1 x2 x3).mem.bytes = true := by
  have h0 : mapWf 0 (decodeAll (fun sk => sk / 32768 == x1) x3).mem.bytes = true := wf_eq (decodeAll_mem ..) h
  exact foldl_mapSet_wf _ _ _ _ _ (mapWf_filter _ _ _ h0)

@[simp] theorem setMigrate_mem (x1) (x2 : Block) : (setMigrate x1 x2).mem.bytes = x2.mem.bytes := by
  unfold setMigrate; simp

@[simp] theorem reportReserve_mem (x1 : Block) : (reportReserve x1).mem.bytes = x1.mem.bytes := by
  unfold reportReserve; simp

@[simp] theorem floorRec_mem (x1) (x2) (x3) (x4 : Block) : (floorRec x1 x2 x3 x4).mem.bytes = x4.mem.bytes := by
  unfold floorRec
  extract_lets y0 y1 y2
  have h3 : y2.mem.bytes = x4.mem.bytes := by
    unfold y2
    refine (trimBuffer_mem ..).trans ?_
    dsimp -zeta only
  clear_value y2
  refine ite_mem ?_ ?_
  · refine (setRelBit_mem ..).trans ?_
    exact h3
  · exact h3

@[simp] theorem frameRetired_mem (x1) (x2 : Block) : (frameRetired x1 x2).mem.bytes = x2.mem.bytes := by
  unfold frameRetired
  extract_lets y0 y1 y2
  have h3 : y1.bytes = x2.mem.bytes := by
    unfold y1
    rfl
  clear_value y1
  have h4 : y2.mem.bytes = x2.mem.bytes := by
    unfold y2
    refine (setMigrate_mem ..).trans ?_
    dsimp -zeta only
    exact h3
  clear_value y2
  refine ite_mem ?_ ?_
  · rfl
  · refine (reportReserve_mem ..).trans ?_
    refine (bumpNum_mem ..).trans ?_
    refine (floorRec_mem ..).trans ?_
    exact h4

@[simp] theorem dropTags_mem (x1) (x2 : Block) : (dropTags x1 x2).mem.bytes = x2.mem.bytes := by
  unfold dropTags; split <;> simp [*]

@[simp] theorem adderInject_mem (x1) (x2) (x3) : (adderInject x1 x2 x3).2.mem.bytes = x2.2.mem.bytes := by
  unfold adderInject
  split
  rename_i y0 y1 y2 y3 y4
  refine ite_mem_2 ?_ ?_
  · rfl
  · refine (foldl_mem_2 _ _ _ ?_).trans ?_
    · intros y5 y6
      extract_lets y7
      split
      rename_i y8 y9 y10 y11
      have h12 : y10.mem.bytes = y5.2.mem.bytes := by
        refine (congrArg (fun p => p.2.mem.bytes) y11).symm.trans ?_
        refine (inject_mem ..).trans ?_
        rfl
      refine ite_mem_2 ?_ ?_
      · dsimp -zeta only
        refine (detect_mem ..).trans ?_
        exact h12
      · dsimp -zeta only
        exact h12
    · rfl

@[simp] theorem translate_mem (x1) (x2) (x3 : Block) : (translate x1 x2 x3).2.mem.bytes = x3.mem.bytes := by
  unfold translate
  extract_lets y0 y1
  refine ite_mem_2 ?_ ?_
  · dsimp -zeta only
  · split
    rename_i y2 y3 y4 y5
    have h6 : y4.mem.bytes = x3.mem.bytes := by
      refine (congrArg (fun p => p.2.mem.bytes) y5).symm.trans ?_
      refine (inject_mem ..).trans ?_
      rfl
    extract_lets y7 y8 y9 y10 y11 y12
    have h13 : y7.mem.bytes = x3.mem.bytes := by
      unfold y7
      refine ite_mem ?_ ?_
      · refine (setMemBit_mem ..).trans ?_
        refine (detect_mem ..).trans ?_
        exact h6
      · exact h6
    clear_value y7
    have h14 : y10.bytes = x3.mem.bytes := by
      unfold y10
      exact h13
    clear_value y10
    have h15 : y11.bytes = x3.mem.bytes := by
      unfold y11
      dsimp -zeta only
      exact h14
    clear_value y11
    have h16 : y12.bytes = x3.mem.bytes := by
      unfold y12
      refine ite_memM ?_ ?_
      · dsimp -zeta only
        exact h15
      · dsimp -zeta only
        exact h15
    clear_value y12
    dsimp -zeta only
    exact h16

@[simp] theorem pageFaults_mem (x1) (x2) (x3 : Block) : (pageFaults x1 x2 x3).mem.bytes = x3.mem.bytes := by
  unfold pageFaults; split <;> first | rfl | simp [*] | (split <;> simp [*])

@[simp] theorem readSecAt_mem (x1) (x2) (x3) (x4 : Block) : (readSecAt x1 x2 x3 x4).2.2.2.mem.bytes = x4.mem.bytes := by
  unfold readSecAt; simp

@[simp] theorem writeSecAt_wf {x1} {x2} {x3} {x4} {x5} {x6 : Block} (h : mapWf 0 x6.mem.bytes = true) : mapWf 0 (writeSecAt x1 x2 x3 x4 x5 x6).mem.bytes = true := by
  unfold writeSecAt
  extract_lets y0 y1 y2 y3
  have h4 : mapWf 0 y2.mem.bytes = true := by
    unfold y2
    refine ite_wf ?_ ?_
    · exact h
    · refine wf_eq (decodeSec_mem ..) ?_
      exact h
  clear_value y2
  split
  rename_i y5 y6 y7 y8
  have h9 : mapWf 0 y7.mem.bytes = true := by
    refine wf_eq (congrArg (fun p => p.2.mem.bytes) y8).symm ?_
    refine wf_eq (inject_mem ..) ?_
    exact h4
  split
  rename_i y10 y11 y12 y13
  have h14 : mapWf 0 y12.mem.bytes = true := by
    refine wf_eq (congrArg (fun p => p.2.mem.bytes) y13).symm ?_
    refine wf_eq (inject_mem ..) ?_
    exact h9
  extract_lets y15 y16
  have h17 : mapWf 0 y15.bytes = true := by
    unfold y15
    exact h14
  clear_value y15
  have h18 : mapWf 0 y16.mem.bytes = true := by
    unfold y16
    dsimp -zeta only
    refine cellsPut_wf _ _ _ ?_
    exact h14
  clear_value y16
  refine wf_eq (setPoison_mem ..) ?_
  exact h18

@[simp] theorem readSec_wf {x1} {x2} {x3} {x4 : Block} (h : mapWf 0 x4.mem.bytes = true) : mapWf 0 (readSec x1 x2 x3 x4).2.2.mem.bytes = true := by
  unfold readSec
  extract_lets y0
  split
  rename_i y1 y2 y3 y4 y5 y6
  have h7 : mapWf 0 y5.mem.bytes = true := by
    refine wf_eq (congrArg (fun p => p.2.2.2.mem.bytes) y6).symm ?_
    refine wf_eq (readSecAt_mem ..) ?_
    exact h
  refine ite_wf_2_2 ?_ ?_
  · dsimp -zeta only
    exact h7
  · refine ite_wf_2_2 ?_ ?_
    · split
      rename_i y8 y9 y10 y11 y12 y13
      have h14 : mapWf 0 y12.mem.bytes = true := by
        refine wf_eq (congrArg (fun p => p.2.2.2.mem.bytes) y13).symm ?_
        refine wf_eq (readSecAt_mem ..) ?_
        exact h7
      refine ite_wf_2_2 ?_ ?_
      · dsimp -zeta only
        refine writeSecAt_wf ?_
        exact h14
      · extract_lets y15
        split
        rename_i y16 y17 y18 y19
        have h20 : mapWf 0 y18.mem.bytes = true := by
          refine wf_eq (congrArg (fun p => p.2.mem.bytes) y19).symm ?_
          refine wf_eq (inject_mem ..) ?_
          exact h14
        refine ite_wf_2_2 ?_ ?_
        · dsimp -zeta only
          exact h20
        · extract_lets y21 y22 y23
          have h24 : mapWf 0 y22.mem.bytes = true := by
            unfold y22
            refine ite_wf ?_ ?_
            · exact h20
            · refine wf_eq (rowEvent_mem ..) ?_
              refine wf_eq (rowEvent_mem ..) ?_
              exact h20
          clear_value y22
          have h25 : mapWf 0 y23.mem.bytes = true := by
            unfold y23
            refine wf_eq (setPoison_mem ..) ?_
            refine wf_eq (setPoison_mem ..) ?_
            exact h24
          clear_value y23
          dsimp -zeta only
          refine wf_eq (detect_mem ..) ?_
          exact h25
    · refine ite_wf_2_2 ?_ ?_
      · split
        rename_i y26 y27 y28 y29 y30 y31
        have h32 : mapWf 0 y30.mem.bytes = true := by
          refine wf_eq (congrArg (fun p => p.2.2.2.mem.bytes) y31).symm ?_
          refine wf_eq (readSecAt_mem ..) ?_
          exact h7
        refine ite_wf_2_2 ?_ ?_
        · dsimp -zeta only
          exact h32
        · dsimp -zeta only
          refine writeSecAt_wf ?_
          exact h32
      · dsimp -zeta only
        exact h7

@[simp] theorem readFold_wf {x1} {x2} {x3} {x4} (h : mapWf 0 x3.2.mem.bytes = true) : mapWf 0 (readFold x1 x2 x3 x4).2.mem.bytes = true := by
  unfold readFold
  split
  rename_i y0 y1 y2 y3 y4
  have h5 : mapWf 0 y3.mem.bytes = true := by
    refine wf_eq (congrArg (fun p => p.2.2.mem.bytes) y4).symm ?_
    refine readSec_wf ?_
    exact h
  dsimp -zeta only
  exact h5

@[simp] theorem lostFold_mem (x1) (x2) : (lostFold x1 x2).2.mem.bytes = x1.2.mem.bytes := by
  unfold lostFold; simp

@[simp] theorem readPiece_wf {x1} {x2} {x3} (h : mapWf 0 x2.2.mem.bytes = true) : mapWf 0 (readPiece x1 x2 x3).2.mem.bytes = true := by
  unfold readPiece
  split
  rename_i y0 y1 y2 y3 y4
  split
  rename_i y5 y6 y7 y8
  have h9 : mapWf 0 y7.mem.bytes = true := by
    refine wf_eq (congrArg (fun p => p.2.mem.bytes) y8).symm ?_
    refine wf_eq (translate_mem ..) ?_
    exact h
  extract_lets y10 y11
  have h12 : mapWf 0 y10.mem.bytes = true := by
    unfold y10
    refine wf_eq (pageFaults_mem ..) ?_
    exact h9
  clear_value y10
  have h13 : mapWf 0 y11.2.mem.bytes = true := by
    unfold y11
    refine ite_wf_2 ?_ ?_
    · refine foldl_wf_2 _ _ _ ?_ ?_
      · dsimp -zeta only
        exact h12
      · intros y14 y15 y16
        refine readFold_wf ?_
        exact y16
    · refine foldl_wf_2 _ _ _ ?_ ?_
      · dsimp -zeta only
        exact h12
      · intros y17 y18 y19
        refine wf_eq (lostFold_mem ..) ?_
        exact y19
  clear_value y11
  dsimp -zeta only
  exact h13

@[simp] theorem pmapSet_mem (x1) (x2) (x3 : Block) : (pmapSet x1 x2 x3).mem.bytes = x3.mem.bytes := by
  unfold pmapSet; simp

@[simp] theorem movedPage_mem (x1) (x2) (x3) (x4) (x5 : Block) : (movedPage x1 x2 x3 x4 x5).mem.bytes = x5.mem.bytes := by
  unfold movedPage
  extract_lets y0 y1 y2 y3 y4 y5
  have h6 : y1.bytes = x5.mem.bytes := by
    unfold y1
    rfl
  clear_value y1
  have h7 : y2.mem.bytes = x5.mem.bytes := by
    unfold y2
    refine ite_mem ?_ ?_
    · dsimp -zeta only
      exact h6
    · rfl
  clear_value y2
  have h8 : y5.mem.bytes = x5.mem.bytes := by
    unfold y5
    refine ite_mem ?_ ?_
    · refine (dropTags_mem ..).trans ?_
      exact h7
    · exact h7
  clear_value y5
  refine (pmapSet_mem ..).trans ?_
  exact h8

@[simp] theorem doChannelCopy_mem (x1) (x2) (x3 : Block) : (doChannelCopy x1 x2 x3).mem.bytes = x3.mem.bytes := by
  unfold doChannelCopy
  extract_lets y0 y1 y2 y3
  have h4 : y1.mem.bytes = x3.mem.bytes := by
    unfold y1
    refine (decodeAll_mem ..).trans ?_
    rfl
  clear_value y1
  have h5 : y2.bytes = x3.mem.bytes := by
    unfold y2
    exact h4
  clear_value y2
  split
  · rename_i y6 y7
    rfl
  · rename_i y8 y9 y10
    refine (setMemBit_mem ..).trans ?_
    dsimp -zeta only
    exact h5

@[simp] theorem writeSecTo_wf {x1} {x2} {x3} {x4} {x5} {x6} {x7 : Block} (h : mapWf 0 x7.mem.bytes = true) : mapWf 0 (writeSecTo x1 x2 x3 x4 x5 x6 x7).mem.bytes = true := by
  unfold writeSecTo
  extract_lets y0
  refine writeSecAt_wf ?_
  exact h

@[simp] theorem writePiece_wf {x1} {x2} {x3} {x4} {x5} (h : mapWf 0 x4.2.mem.bytes = true) : mapWf 0 (writePiece x1 x2 x3 x4 x5).2.mem.bytes = true := by
  unfold writePiece
  split
  rename_i y0 y1 y2 y3 y4
  split
  rename_i y5 y6 y7 y8
  have h9 : mapWf 0 y7.mem.bytes = true := by
    refine wf_eq (congrArg (fun p => p.2.mem.bytes) y8).symm ?_
    refine wf_eq (translate_mem ..) ?_
    exact h
  extract_lets y10 y11 y12 y13
  have h14 : mapWf 0 y10.mem.bytes = true := by
    unfold y10
    refine wf_eq (pageFaults_mem ..) ?_
    exact h9
  clear_value y10
  have h15 : mapWf 0 y12.mem.bytes = true := by
    unfold y12
    refine ite_wf ?_ ?_
    · exact h14
    · refine wf_eq (dropTags_mem ..) ?_
      exact h14
  clear_value y12
  refine ite_wf_2 ?_ ?_
  · dsimp -zeta only
    exact h14
  · dsimp -zeta only
    refine forEach_wf _ _ _ ?_ ?_
    · exact h15
    · intros y16 y17 y18
      refine forEach_wf _ _ _ ?_ ?_
      · exact y18
      · intros y19 y20 y21
        refine writeSecTo_wf ?_
        exact y21

@[simp] theorem memWrite_wf {x1} {x2} {x3} {x4} {x5 : Block} (h : mapWf 0 x5.mem.bytes = true) : mapWf 0 (memWrite x1 x2 x3 x4 x5).2.mem.bytes = true := by
  unfold memWrite
  refine foldl_wf_2 _ _ _ ?_ ?_
  · dsimp -zeta only
    exact h
  · intros y0 y1 y2
    refine writePiece_wf ?_
    exact y2

@[simp] theorem memFlags_mem (x1) (x2) (x3 : Block) : (memFlags x1 x2 x3).mem.bytes = x3.mem.bytes := by
  unfold memFlags; split <;> simp [*]

@[simp] theorem fenceGroup_mem (x1) (x2 : Block) : (fenceGroup x1 x2).mem.bytes = x2.mem.bytes := by
  unfold fenceGroup; split <;> simp [*]

@[simp] theorem chanCheck_mem (x1) (x2) (x3 : Block) : (chanCheck x1 x2 x3).mem.bytes = x3.mem.bytes := by
  unfold chanCheck
  extract_lets y0 y1 y2 y3 y4 y5 y6
  have h7 : y1.bytes = x3.mem.bytes := by
    unfold y1
    rfl
  clear_value y1
  have h8 : y3.mem.bytes = x3.mem.bytes := by
    unfold y3
    dsimp -zeta only
    exact h7
  clear_value y3
  have h9 : y4.mem.bytes = x3.mem.bytes := by
    unfold y4
    refine (cperNow_mem ..).trans ?_
    refine (bumpNum_mem ..).trans ?_
    exact h8
  clear_value y4
  have h10 : y5.bytes = x3.mem.bytes := by
    unfold y5
    exact h9
  clear_value y5
  refine ite_mem ?_ ?_
  · rfl
  · split
    · rename_i y11 y12 y13
      exact h9
    · rename_i y14 y15 y16 y17 y18
      refine (fenceGroup_mem ..).trans ?_
      exact h9
    · rename_i y19 y20 y21 y22 y23 y24
      extract_lets y25
      have h26 : y25.mem.bytes = x3.mem.bytes := by
        unfold y25
        dsimp -zeta only
        exact h10
      clear_value y25
      refine ite_mem ?_ ?_
      · refine (setMemBit_mem ..).trans ?_
        exact h26
      · exact h26

@[simp] theorem frameGoes_mem (x1) (x2 : Block) : (frameGoes x1 x2).mem.bytes = x2.mem.bytes := by
  unfold frameGoes; split <;> first | rfl | simp [*] | (split <;> simp [*])

@[simp] theorem rowFrame_mem (x1) (x2) (x3) (x4 : Block) : (rowFrame x1 x2 x3 x4).mem.bytes = x4.mem.bytes := by
  unfold rowFrame
  split
  · rename_i y0 y1
    rfl
  · rename_i y2 y3 y4
    extract_lets y5 y6 y7 y8
    have h9 : y6.bytes = x4.mem.bytes := by
      unfold y6
      rfl
    clear_value y6
    have h10 : y8.mem.bytes = x4.mem.bytes := by
      unfold y8
      dsimp -zeta only
      exact h9
    clear_value y8
    refine ite_mem ?_ ?_
    · rfl
    · refine (chanCheck_mem ..).trans ?_
      refine (frameGoes_mem ..).trans ?_
      exact h10

@[simp] theorem doRowRemap_mem (x1) (x2) (x3) (x4) (x5 : Block) : (doRowRemap x1 x2 x3 x4 x5).mem.bytes = x5.mem.bytes := by
  unfold doRowRemap
  extract_lets y0 y1 y2 y3 y4 y5 y6 y7 y8 y9 y10 y11 y12
  have h13 : y3.bytes = x5.mem.bytes := by
    unfold y3
    rfl
  clear_value y3
  have h14 : y4.mem.bytes = x5.mem.bytes := by
    unfold y4
    dsimp -zeta only
    exact h13
  clear_value y4
  have h15 : y6.mem.bytes = x5.mem.bytes := by
    unfold y6
    refine (decodeAll_mem ..).trans ?_
    exact h14
  clear_value y6
  have h16 : y7.bytes = x5.mem.bytes := by
    unfold y7
    exact h15
  clear_value y7
  have h17 : y9.mem.bytes = x5.mem.bytes := by
    unfold y9
    dsimp -zeta only
    exact h16
  clear_value y9
  have h18 : y10.mem.bytes = x5.mem.bytes := by
    unfold y10
    refine ite_mem ?_ ?_
    · exact h15
    · refine (bumpNum_mem ..).trans ?_
      refine (floorRec_mem ..).trans ?_
      exact h17
  clear_value y10
  have h19 : y11.bytes = x5.mem.bytes := by
    unfold y11
    exact h18
  clear_value y11
  split
  · rename_i y20 y21
    rfl
  · rename_i y22 y23 y24
    refine ite_mem ?_ ?_
    · refine (rowFrame_mem ..).trans ?_
      exact h14
    · extract_lets y25
      have h26 : y25.mem.bytes = x5.mem.bytes := by
        unfold y25
        dsimp -zeta only
        exact h19
      clear_value y25
      refine (bumpNum_mem ..).trans ?_
      refine (floorRec_mem ..).trans ?_
      exact h26

@[simp] theorem pageRetire_mem (x1) (x2 : Block) : (pageRetire x1 x2).mem.bytes = x2.mem.bytes := by
  unfold pageRetire
  extract_lets y0 y1 y2
  have h3 : y1.mem.bytes = x2.mem.bytes := by
    unfold y1
    refine (bumpNum_mem ..).trans ?_
    refine (pmapSet_mem ..).trans ?_
    rfl
  clear_value y1
  have h4 : y2.mem.bytes = x2.mem.bytes := by
    unfold y2
    refine (setMemBit_mem ..).trans ?_
    exact h3
  clear_value y2
  refine ite_mem ?_ ?_
  · rfl
  · refine (alert_mem ..).trans ?_
    exact h4

@[simp] theorem reportPoison_mem (x1 : Block) : (reportPoison x1).mem.bytes = x1.mem.bytes := by
  unfold reportPoison; simp

@[simp] theorem moveFrame_wf {x1} {x2 : Block} (h : mapWf 0 x2.mem.bytes = true) : mapWf 0 (moveFrame x1 x2).mem.bytes = true := by
  unfold moveFrame
  extract_lets y0
  split
  · rename_i y1 y2
    refine wf_eq (frameRetired_mem ..) ?_
    refine forEach_wf _ _ _ ?_ ?_
    · exact h
    · intros y3 y4 y5
      refine wf_eq (pageRetire_mem ..) ?_
      exact y5
  · rename_i y6 y7 y8
    extract_lets y9 y10 y11 y12 y13
    have h14 : mapWf 0 y9.mem.bytes = true := by
      unfold y9
      refine copyFrame_wf ?_
      exact h
    clear_value y9
    have h15 : mapWf 0 y10.mem.bytes = true := by
      unfold y10
      refine forEach_wf _ _ _ ?_ ?_
      · exact h14
      · intros y16 y17 y18
        refine wf_eq (movedPage_mem ..) ?_
        exact y18
    clear_value y10
    have h19 : mapWf 0 y11.bytes = true := by
      unfold y11
      exact h15
    clear_value y11
    have h20 : mapWf 0 y13.mem.bytes = true := by
      unfold y13
      dsimp -zeta only
      exact h19
    clear_value y13
    refine wf_eq (reportPoison_mem ..) ?_
    refine wf_eq (frameRetired_mem ..) ?_
    exact h20

@[simp] theorem doPageMigration_wf {x1} {x2 : Block} (h : mapWf 0 x2.mem.bytes = true) : mapWf 0 (doPageMigration x1 x2).mem.bytes = true := by
  unfold doPageMigration
  refine ite_wf ?_ ?_
  · exact h
  · split
    · rename_i y0 y1
      exact h
    · rename_i y2 y3 y4
      refine moveFrame_wf ?_
      exact h

@[simp] theorem doPatrolScrub_mem (x1) (x2) (x3 : Block) : (doPatrolScrub x1 x2 x3).mem.bytes = x3.mem.bytes := by
  unfold doPatrolScrub
  extract_lets y0
  split
  rename_i y1 y2 y3 y4
  have h5 : y3.mem.bytes = x3.mem.bytes := by
    refine (congrArg (fun p => p.2.mem.bytes) y4).symm.trans ?_
    refine ite_mem_2 ?_ ?_
    · dsimp -zeta only
    · split
      rename_i y6 y7 y8 y9
      have h10 : y8.mem.bytes = x3.mem.bytes := by
        refine (congrArg (fun p => p.2.mem.bytes) y9).symm.trans ?_
        refine (fresh_mem ..).trans ?_
        rfl
      dsimp -zeta only
      exact h10
  extract_lets y11 y12 y13 y14 y15 y16 y17
  have h18 : y11.mem.bytes = x3.mem.bytes := by
    unfold y11
    refine (decodeAll_mem ..).trans ?_
    exact h5
  clear_value y11
  have h19 : y15.bytes = x3.mem.bytes := by
    unfold y15
    exact h18
  clear_value y15
  have h20 : y17.mem.bytes = x3.mem.bytes := by
    unfold y17
    dsimp -zeta only
    exact h19
  clear_value y17
  refine (setMemBit_mem ..).trans ?_
  exact h20

@[simp] theorem memRead_wf {x1} {x2} {x3} {x4 : Block} (h : mapWf 0 x4.mem.bytes = true) : mapWf 0 (memRead x1 x2 x3 x4).2.mem.bytes = true := by
  unfold memRead
  refine foldl_wf_2 _ _ _ ?_ ?_
  · dsimp -zeta only
    exact h
  · intros y0 y1 y2
    refine readPiece_wf ?_
    exact y2

@[simp] theorem memRmw_wf {x1} {x2} {x3} {x4} {x5} {x6} {x7 : Block} (h : mapWf 0 x7.mem.bytes = true) : mapWf 0 (memRmw x1 x2 x3 x4 x5 x6 x7).mem.bytes = true := by
  unfold memRmw
  extract_lets y0 y1 y2 y3
  have h4 : mapWf 0 y3.mem.bytes = true := by
    unfold y3
    exact h
  clear_value y3
  split
  rename_i y5 y6 y7 y8
  have h9 : mapWf 0 y7.mem.bytes = true := by
    refine wf_eq (congrArg (fun p => p.2.mem.bytes) y8).symm ?_
    refine memRead_wf ?_
    exact h
  extract_lets y10 y11 y12
  have h13 : mapWf 0 y11.mem.bytes = true := by
    unfold y11
    dsimp -zeta only
    exact h9
  clear_value y11
  split
  rename_i y14 y15 y16 y17
  extract_lets y18
  split
  rename_i y19 y20 y21 y22
  have h23 : mapWf 0 y21.mem.bytes = true := by
    refine wf_eq (congrArg (fun p => p.2.mem.bytes) y22).symm ?_
    refine foldl_wf_2 _ _ _ ?_ ?_
    · dsimp -zeta only
      exact h13
    · intros y24 y25 y26
      refine wf_eq (adderInject_mem ..) ?_
      exact y26
  refine wf_eq (memFlags_mem ..) ?_
  refine memWrite_wf ?_
  exact h23

@[simp] theorem consumeRead_mem (x1) (x2) (x3) (x4 : Block) : (consumeRead x1 x2 x3 x4).mem.bytes = x4.mem.bytes := by
  unfold consumeRead
  refine (forEach_mem _ _ _ ?_).trans ?_
  · intros y0 y1
    extract_lets y2 y3
    refine ite_mem ?_ ?_
    · refine (consume_mem ..).trans ?_
      rfl
    · rfl
  · rfl

@[simp] theorem doChannelCopyEnd_mem (x1) (x2) (x3 : Block) : (doChannelCopyEnd x1 x2 x3).mem.bytes = x3.mem.bytes := by
  unfold doChannelCopyEnd
  extract_lets y0 y1 y2 y3
  have h4 : y2.bytes = x3.mem.bytes := by
    unfold y2
    rfl
  clear_value y2
  split
  · rename_i y5 y6 y7 y8 y9 y10 y11
    extract_lets y12 y13
    have h14 : y12.mem.bytes = x3.mem.bytes := by
      unfold y12
      dsimp -zeta only
      exact h4
    clear_value y12
    have h15 : y13.mem.bytes = x3.mem.bytes := by
      unfold y13
      refine (floorRec_mem ..).trans ?_
      exact h14
    clear_value y13
    refine ite_mem ?_ ?_
    · refine (setMemBit_mem ..).trans ?_
      exact h15
    · exact h15
  · rename_i y16 y17 y18
    rfl

@[simp] theorem doMemOp_wf {x1} {x2} {x3 : Block} (h : mapWf 0 x3.mem.bytes = true) : mapWf 0 (doMemOp x1 x2 x3).mem.bytes = true := by
  unfold doMemOp
  refine memRmw_wf ?_
  exact h

@[simp] theorem engineRead_wf {x1} {x2} {x3} {x4 : Block} (h : mapWf 0 x4.mem.bytes = true) : mapWf 0 (engineRead x1 x2 x3 x4).2.mem.bytes = true := by
  unfold engineRead
  split
  rename_i y0 y1 y2 y3
  have h4 : mapWf 0 y2.mem.bytes = true := by
    refine wf_eq (congrArg (fun p => p.2.mem.bytes) y3).symm ?_
    refine memRead_wf ?_
    exact h
  dsimp -zeta only
  refine wf_eq (consumeRead_mem ..) ?_
  exact h4

@[simp] theorem maskRow_wf {x1} {x2} {x3 : Block} (h : mapWf 0 x3.mem.bytes = true) : mapWf 0 (maskRow x1 x2 x3).2.mem.bytes = true := by
  unfold maskRow
  refine ite_wf_2 ?_ ?_
  · dsimp -zeta only
    exact h
  · split
    rename_i y0 y1 y2 y3
    have h4 : mapWf 0 y2.mem.bytes = true := by
      refine wf_eq (congrArg (fun p => p.2.mem.bytes) y3).symm ?_
      refine engineRead_wf ?_
      exact h
    dsimp -zeta only
    exact h4

@[simp] theorem engineHit_mem (x1) (x2 : Block) : (engineHit x1 x2).2.mem.bytes = x2.mem.bytes := by
  unfold engineHit
  extract_lets y0
  split
  rename_i y1 y2 y3 y4
  have h5 : y3.mem.bytes = x2.mem.bytes := by
    refine (congrArg (fun p => p.2.mem.bytes) y4).symm.trans ?_
    refine (inject_mem ..).trans ?_
    rfl
  dsimp -zeta only
  refine ite_mem ?_ ?_
  · refine (detect_mem ..).trans ?_
    exact h5
  · exact h5

@[simp] theorem pass1Elem_mem (x1) (x2) (x3) (x4) (x5) : (pass1Elem x1 x2 x3 x4 x5).2.mem.bytes = x4.2.mem.bytes := by
  unfold pass1Elem
  extract_lets y0 y1 y2
  refine ite_mem_2 ?_ ?_
  · dsimp -zeta only
  · refine ite_mem_2 ?_ ?_
    · rfl
    · split
      rename_i y3 y4 y5 y6
      have h7 : y5.mem.bytes = x4.2.mem.bytes := by
        refine (congrArg (fun p => p.2.mem.bytes) y6).symm.trans ?_
        refine (engineHit_mem ..).trans ?_
        rfl
      refine ite_mem_2 ?_ ?_
      · dsimp -zeta only
        exact h7
      · split
        rename_i y8 y9 y10 y11
        extract_lets y12
        split
        rename_i y13 y14 y15 y16
        refine ite_mem_2 ?_ ?_
        · dsimp -zeta only
          exact h7
        · dsimp -zeta only
          exact h7

@[simp] theorem pass1Row_wf {x1} {x2} {x3} (h : mapWf 0 x2.2.mem.bytes = true) : mapWf 0 (pass1Row x1 x2 x3).2.mem.bytes = true := by
  unfold pass1Row
  split
  rename_i y0 y1 y2 y3
  have h4 : mapWf 0 y2.mem.bytes = true := by
    refine wf_eq (congrArg (fun p => p.2.mem.bytes) y3).symm ?_
    refine engineRead_wf ?_
    exact h
  split
  rename_i y5 y6 y7 y8
  have h9 : mapWf 0 y7.mem.bytes = true := by
    refine wf_eq (congrArg (fun p => p.2.mem.bytes) y8).symm ?_
    refine maskRow_wf ?_
    exact h4
  refine foldl_wf_2 _ _ _ ?_ ?_
  · dsimp -zeta only
    exact h9
  · intros y10 y11 y12
    refine wf_eq (pass1Elem_mem ..) ?_
    exact y12

@[simp] theorem normVec_wf {x1} {x2} {x3 : Block} (h : mapWf 0 x3.mem.bytes = true) : mapWf 0 (normVec x1 x2 x3).2.mem.bytes = true := by
  unfold normVec
  extract_lets y0
  have h1 : mapWf 0 y0.2.mem.bytes = true := by
    unfold y0
    refine memRead_wf ?_
    exact h
  clear_value y0
  dsimp -zeta only
  exact h1

@[simp] theorem blockClip_wf {x1} {x2 : Block} (h : mapWf 0 x2.mem.bytes = true) : mapWf 0 (blockClip x1 x2).2.mem.bytes = true := by
  unfold blockClip
  extract_lets y0 y1
  have h2 : mapWf 0 y1.2.mem.bytes = true := by
    unfold y1
    refine normVec_wf ?_
    exact h
  clear_value y1
  dsimp -zeta only
  exact h2

@[simp] theorem pass2Elem_mem (x1) (x2) (x3) (x4) (x5) (x6) (x7) (x8) (x9) (x10) : (pass2Elem x1 x2 x3 x4 x5 x6 x7 x8 x9 x10).2.mem.bytes = x9.2.mem.bytes := by
  unfold pass2Elem
  extract_lets y0 y1 y2 y3 y4 y5 y6 y7
  refine ite_mem_2 ?_ ?_
  · dsimp -zeta only
  · split
    rename_i y8 y9 y10 y11
    have h12 : y10.mem.bytes = x9.2.mem.bytes := by
      refine (congrArg (fun p => p.2.mem.bytes) y11).symm.trans ?_
      refine (engineHit_mem ..).trans ?_
      rfl
    refine ite_mem_2 ?_ ?_
    · dsimp -zeta only
      exact h12
    · split
      rename_i y13 y14 y15 y16
      split
      rename_i y17 y18 y19 y20 y21 y22
      dsimp -zeta only
      exact h12

@[simp] theorem logMod_mem (x1) (x2) (x3) (x4 : Block) : (logMod x1 x2 x3 x4).mem.bytes = x4.mem.bytes := by
  unfold logMod; simp

@[simp] theorem shadowPut_wf {x1} {x2} {x3} {x4 : Block} (h : mapWf 0 x4.mem.bytes = true) : mapWf 0 (shadowPut x1 x2 x3 x4).2.mem.bytes = true := by
  unfold shadowPut
  refine foldl_wf_2 _ _ _ ?_ ?_
  · dsimp -zeta only
    exact h
  · intros y0 y1 y2
    extract_lets y3 y4 y5 y6 y7
    refine ite_wf_2 ?_ ?_
    · exact y2
    · split
      rename_i y8 y9 y10 y11
      have h12 : mapWf 0 y10.mem.bytes = true := by
        refine wf_eq (congrArg (fun p => p.2.mem.bytes) y11).symm ?_
        refine memWrite_wf ?_
        exact y2
      extract_lets y13
      have h14 : mapWf 0 y13.mem.bytes = true := by
        unfold y13
        refine wf_eq (logMod_mem ..) ?_
        exact h12
      clear_value y13
      dsimp -zeta only
      exact h14

@[simp] theorem pass2Row_wf {x1} {x2} {x3} {x4} (h : mapWf 0 x3.2.mem.bytes = true) : mapWf 0 (pass2Row x1 x2 x3 x4).2.mem.bytes = true := by
  unfold pass2Row
  split
  rename_i y0 y1 y2 y3
  have h4 : mapWf 0 y2.mem.bytes = true := by
    refine wf_eq (congrArg (fun p => p.2.mem.bytes) y3).symm ?_
    refine engineRead_wf ?_
    exact h
  extract_lets y5 y6 y7 y8
  split
  rename_i y9 y10 y11 y12
  have h13 : mapWf 0 y11.mem.bytes = true := by
    refine wf_eq (congrArg (fun p => p.2.mem.bytes) y12).symm ?_
    refine engineRead_wf ?_
    exact h4
  split
  rename_i y14 y15 y16 y17
  have h18 : mapWf 0 y16.mem.bytes = true := by
    refine wf_eq (congrArg (fun p => p.2.mem.bytes) y17).symm ?_
    refine engineRead_wf ?_
    exact h13
  split
  rename_i y19 y20 y21 y22
  have h23 : mapWf 0 y21.mem.bytes = true := by
    refine wf_eq (congrArg (fun p => p.2.mem.bytes) y22).symm ?_
    refine maskRow_wf ?_
    exact h18
  split
  rename_i y24 y25 y26 y27
  have h28 : mapWf 0 y26.mem.bytes = true := by
    refine wf_eq (congrArg (fun p => p.2.mem.bytes) y27).symm ?_
    refine foldl_wf_2 _ _ _ ?_ ?_
    · dsimp -zeta only
      exact h23
    · intros y29 y30 y31
      refine wf_eq (pass2Elem_mem ..) ?_
      exact y31
  split
  rename_i y32 y33 y34 y35 y36 y37
  extract_lets y38 y39 y40
  have h41 : mapWf 0 y38.mem.bytes = true := by
    unfold y38
    refine wf_eq (memFlags_mem ..) ?_
    exact h28
  clear_value y38
  have h42 : mapWf 0 y39.mem.bytes = true := by
    unfold y39
    refine ite_wf ?_ ?_
    · refine wf_eq (logMod_mem ..) ?_
      exact h41
    · exact h41
  clear_value y39
  have h43 : mapWf 0 y40.mem.bytes = true := by
    unfold y40
    refine ite_wf ?_ ?_
    · refine wf_eq (countCset_mem ..) ?_
      exact h42
    · exact h42
  clear_value y40
  split
  rename_i y44 y45 y46 y47
  have h48 : mapWf 0 y46.mem.bytes = true := by
    refine wf_eq (congrArg (fun p => p.2.mem.bytes) y47).symm ?_
    refine shadowPut_wf ?_
    exact h43
  split
  rename_i y49 y50 y51 y52
  have h53 : mapWf 0 y51.mem.bytes = true := by
    refine wf_eq (congrArg (fun p => p.2.mem.bytes) y52).symm ?_
    refine shadowPut_wf ?_
    exact h48
  split
  rename_i y54 y55 y56 y57
  have h58 : mapWf 0 y56.mem.bytes = true := by
    refine wf_eq (congrArg (fun p => p.2.mem.bytes) y57).symm ?_
    refine shadowPut_wf ?_
    exact h53
  split
  rename_i y59 y60 y61 y62
  have h63 : mapWf 0 y61.mem.bytes = true := by
    refine wf_eq (congrArg (fun p => p.2.mem.bytes) y62).symm ?_
    refine shadowPut_wf ?_
    exact h58
  dsimp -zeta only
  exact h63

@[simp] theorem passOf_mem (x1) (x2) (x3) (x4 : Block) : (passOf x1 x2 x3 x4).2.mem.bytes = x4.mem.bytes := by
  unfold passOf
  extract_lets y0 y1 y2 y3 y4 y5
  refine ite_mem_2 ?_ ?_
  · dsimp -zeta only
    refine (stepBit_mem ..).trans ?_
    rfl
  · refine ite_mem_2 ?_ ?_
    · unfold y3
      dsimp -zeta only
      refine (logFault_mem ..).trans ?_
      rfl
    · split
      · rename_i y6 y7
        unfold y3
        dsimp -zeta only
        refine (logFault_mem ..).trans ?_
        rfl
      · rename_i y8 y9 y10
        split
        · rename_i y11 y12
          unfold y3
          dsimp -zeta only
          refine (logFault_mem ..).trans ?_
          rfl
        · rename_i y13 y14 y15
          extract_lets y16
          refine ite_mem_2 ?_ ?_
          · dsimp -zeta only
          · dsimp -zeta only

@[simp] theorem logName_mem (x1) (x2 : Block) : (logName x1 x2).mem.bytes = x2.mem.bytes := by
  unfold logName
  extract_lets y0
  split
  · rename_i y1 y2
    refine (logMod_mem ..).trans ?_
    rfl
  · rename_i y3 y4 y5
    refine ite_mem ?_ ?_
    · rfl
    · refine (logMod_mem ..).trans ?_
      rfl

@[simp] theorem pass2Rows_wf {x1} {x2} {x3 : Block} (h : mapWf 0 x3.mem.bytes = true) : mapWf 0 (pass2Rows x1 x2 x3).2.mem.bytes = true := by
  unfold pass2Rows
  extract_lets y0 y1 y2 y3
  have h4 : mapWf 0 y0.mem.bytes = true := by
    unfold y0
    refine wf_eq (logMod_mem ..) ?_
    exact h
  clear_value y0
  have h5 : mapWf 0 y2.mem.bytes = true := by
    unfold y2
    refine ite_wf ?_ ?_
    · refine wf_eq (logFault_mem ..) ?_
      exact h4
    · exact h4
  clear_value y2
  have h6 : mapWf 0 y3.mem.bytes = true := by
    unfold y3
    refine ite_wf ?_ ?_
    · refine wf_eq (logFault_mem ..) ?_
      exact h5
    · exact h5
  clear_value y3
  split
  rename_i y7 y8 y9 y10
  have h11 : mapWf 0 y9.mem.bytes = true := by
    refine wf_eq (congrArg (fun p => p.2.mem.bytes) y10).symm ?_
    refine foldl_wf_2 _ _ _ ?_ ?_
    · dsimp -zeta only
      exact h6
    · intros y12 y13 y14
      refine pass2Row_wf ?_
      exact y14
  dsimp -zeta only
  exact h11

@[simp] theorem runPass2_wf {x1} {x2} {x3} {x4 : Block} (h : mapWf 0 x4.mem.bytes = true) : mapWf 0 (runPass2 x1 x2 x3 x4).2.mem.bytes = true := by
  unfold runPass2
  split
  · rename_i y0 y1 y2
    have h3 : mapWf 0 y1.mem.bytes = true := by
      refine wf_eq (congrArg (fun p => p.2.mem.bytes) y2).symm ?_
      refine wf_eq (passOf_mem ..) ?_
      exact h
    dsimp -zeta only
    exact h3
  · rename_i y4 y5 y6 y7
    have h8 : mapWf 0 y6.mem.bytes = true := by
      refine wf_eq (congrArg (fun p => p.2.mem.bytes) y7).symm ?_
      refine wf_eq (passOf_mem ..) ?_
      exact h
    extract_lets y9 y10 y11 y12 y13
    have h14 : mapWf 0 y9.mem.bytes = true := by
      unfold y9
      refine wf_eq (logName_mem ..) ?_
      exact h8
    clear_value y9
    have h15 : mapWf 0 y10.mem.bytes = true := by
      unfold y10
      refine wf_eq (logMod_mem ..) ?_
      exact h14
    clear_value y10
    refine ite_wf_2 ?_ ?_
    · refine pass2Rows_wf ?_
      exact h15
    · split
      rename_i y16 y17 y18 y19
      have h20 : mapWf 0 y18.mem.bytes = true := by
        refine wf_eq (congrArg (fun p => p.2.mem.bytes) y19).symm ?_
        refine engineRead_wf ?_
        exact h15
      extract_lets y21
      split
      · rename_i y22 y23
        dsimp -zeta only
        refine wf_eq (logMod_mem ..) ?_
        exact h20
      · rename_i y24 y25 y26
        refine pass2Rows_wf ?_
        refine wf_eq (memFlags_mem ..) ?_
        exact h20

@[simp] theorem runPass1_wf {x1} {x2} {x3} {x4 : Block} (h : mapWf 0 x4.mem.bytes = true) : mapWf 0 (runPass1 x1 x2 x3 x4).2.mem.bytes = true := by
  unfold runPass1
  split
  · rename_i y0 y1 y2
    have h3 : mapWf 0 y1.mem.bytes = true := by
      refine wf_eq (congrArg (fun p => p.2.mem.bytes) y2).symm ?_
      refine wf_eq (passOf_mem ..) ?_
      exact h
    dsimp -zeta only
    exact h3
  · rename_i y4 y5 y6 y7
    have h8 : mapWf 0 y6.mem.bytes = true := by
      refine wf_eq (congrArg (fun p => p.2.mem.bytes) y7).symm ?_
      refine wf_eq (passOf_mem ..) ?_
      exact h
    extract_lets y9
    have h10 : mapWf 0 y9.mem.bytes = true := by
      unfold y9
      refine wf_eq (logName_mem ..) ?_
      exact h8
    clear_value y9
    split
    rename_i y11 y12 y13 y14
    have h15 : mapWf 0 y13.mem.bytes = true := by
      refine wf_eq (congrArg (fun p => p.2.mem.bytes) y14).symm ?_
      refine foldl_wf_2 _ _ _ ?_ ?_
      · dsimp -zeta only
        exact h10
      · intros y16 y17 y18
        refine pass1Row_wf ?_
        exact y18
    extract_lets y19 y20 y21 y22
    have h23 : mapWf 0 y19.mem.bytes = true := by
      unfold y19
      refine wf_eq (memFlags_mem ..) ?_
      exact h15
    clear_value y19
    refine ite_wf_2 ?_ ?_
    · dsimp -zeta only
      exact h23
    · dsimp -zeta only
      refine memRmw_wf ?_
      exact h23

@[simp] theorem doPass_wf {x1} {x2} {x3 : Block} (h : mapWf 0 x3.mem.bytes = true) : mapWf 0 (doPass x1 x2 x3).mem.bytes = true := by
  unfold doPass
  extract_lets y0
  split
  rename_i y1 y2 y3 y4
  have h5 : mapWf 0 y3.mem.bytes = true := by
    refine wf_eq (congrArg (fun p => p.2.mem.bytes) y4).symm ?_
    refine ite_wf_2 ?_ ?_
    · refine runPass2_wf ?_
      exact h
    · refine runPass1_wf ?_
      exact h
  extract_lets y6 y7
  have h8 : mapWf 0 y7.mem.bytes = true := by
    unfold y7
    dsimp -zeta only
    exact h5
  clear_value y7
  refine ite_wf ?_ ?_
  · exact h8
  · refine wf_eq (descFail_mem ..) ?_
    exact h8

@[simp] theorem blockClips_wf {x1 : Block} (h : mapWf 0 x1.mem.bytes = true) : mapWf 0 (blockClips x1).2.mem.bytes = true := by
  unfold blockClips
  refine foldl_wf_2 _ _ _ ?_ ?_
  · dsimp -zeta only
    exact h
  · intros y0 y1 y2
    extract_lets y3
    have h4 : mapWf 0 y3.2.mem.bytes = true := by
      unfold y3
      refine blockClip_wf ?_
      exact y2
    clear_value y3
    dsimp -zeta only
    exact h4

@[simp] theorem lossBad_wf {x1 : Block} (h : mapWf 0 x1.mem.bytes = true) : mapWf 0 (lossBad x1).2.mem.bytes = true := by
  unfold lossBad
  refine ite_wf_2 ?_ ?_
  · dsimp -zeta only
    exact h
  · split
    rename_i y0 y1 y2 y3
    have h4 : mapWf 0 y2.mem.bytes = true := by
      refine wf_eq (congrArg (fun p => p.2.mem.bytes) y3).symm ?_
      refine memRead_wf ?_
      exact h
    dsimp -zeta only
    exact h4

@[simp] theorem updateNonfinite_wf {x1 : Block} (h : mapWf 0 x1.mem.bytes = true) : mapWf 0 (updateNonfinite x1).2.mem.bytes = true := by
  unfold updateNonfinite
  split
  rename_i y0 y1 y2 y3
  have h4 : mapWf 0 y2.mem.bytes = true := by
    refine wf_eq (congrArg (fun p => p.2.mem.bytes) y3).symm ?_
    refine blockClips_wf ?_
    exact h
  split
  rename_i y5 y6 y7 y8
  have h9 : mapWf 0 y7.mem.bytes = true := by
    refine wf_eq (congrArg (fun p => p.2.mem.bytes) y8).symm ?_
    refine lossBad_wf ?_
    exact h4
  dsimp -zeta only
  exact h9

@[simp] theorem updBit_mem (x1) (x2) (x3 : Block) : (updBit x1 x2 x3).mem.bytes = x3.mem.bytes := by
  unfold updBit; simp

@[simp] theorem redoBlock_wf {x1} {x2} {x3 : Block} (h : mapWf 0 x3.mem.bytes = true) : mapWf 0 (redoBlock x1 x2 x3).mem.bytes = true := by
  unfold redoBlock
  extract_lets y0
  have h1 : mapWf 0 y0.mem.bytes = true := by
    unfold y0
    refine wf_eq (logMod_mem ..) ?_
    exact h
  clear_value y0
  refine forEach_wf _ _ _ ?_ ?_
  · exact h1
  · intros y2 y3 y4
    split
    · rename_i y5 y6 y7
      have h8 : mapWf 0 y6.mem.bytes = true := by
        refine wf_eq (congrArg (fun p => p.2.mem.bytes) y7).symm ?_
        refine wf_eq (passOf_mem ..) ?_
        exact y4
      refine wf_eq (descFail_mem ..) ?_
      exact h8
    · rename_i y9 y10 y11 y12
      have h13 : mapWf 0 y11.mem.bytes = true := by
        refine wf_eq (congrArg (fun p => p.2.mem.bytes) y12).symm ?_
        refine wf_eq (passOf_mem ..) ?_
        exact y4
      split
      rename_i y14 y15 y16 y17
      split
      rename_i y18 y19 y20 y21
      have h22 : mapWf 0 y20.mem.bytes = true := by
        refine wf_eq (congrArg (fun p => p.2.mem.bytes) y21).symm ?_
        refine pass2Rows_wf ?_
        exact h13
      refine ite_wf ?_ ?_
      · exact h22
      · refine wf_eq (descFail_mem ..) ?_
        exact h22

@[simp] theorem evalUpdate_wf {x1 : Block} (h : mapWf 0 x1.mem.bytes = true) : mapWf 0 (evalUpdate x1).mem.bytes = true := by
  unfold evalUpdate
  split
  rename_i y0 y1 y2 y3
  have h4 : mapWf 0 y2.mem.bytes = true := by
    refine wf_eq (congrArg (fun p => p.2.mem.bytes) y3).symm ?_
    refine updateNonfinite_wf ?_
    exact h
  split
  rename_i y5 y6 y7 y8
  have h9 : mapWf 0 y7.mem.bytes = true := by
    refine wf_eq (congrArg (fun p => p.2.mem.bytes) y8).symm ?_
    refine blockClips_wf ?_
    exact h4
  extract_lets y10 y11 y12 y13 y14 y15 y16 y17 y18 y19 y20 y21 y22 y23 y24 y25 y26 y27 y28
  have h29 : mapWf 0 y11.mem.bytes = true := by
    unfold y11
    refine wf_eq (updBit_mem ..) ?_
    exact h9
  clear_value y11
  have h30 : mapWf 0 y12.mem.bytes = true := by
    unfold y12
    refine wf_eq (updBit_mem ..) ?_
    exact h29
  clear_value y12
  have h31 : mapWf 0 y13.mem.bytes = true := by
    unfold y13
    refine wf_eq (updBit_mem ..) ?_
    exact h30
  clear_value y13
  have h32 : mapWf 0 y18.mem.bytes = true := by
    unfold y18
    refine ite_wf ?_ ?_
    · exact h31
    · refine forEach_wf _ _ _ ?_ ?_
      · exact h31
      · intros y33 y34 y35
        refine redoBlock_wf ?_
        exact y35
  clear_value y18
  have h36 : mapWf 0 y25.mem.bytes = true := by
    unfold y25
    dsimp -zeta only
    exact h32
  clear_value y25
  have h37 : mapWf 0 y26.mem.bytes = true := by
    unfold y26
    refine wf_eq (updBit_mem ..) ?_
    refine wf_eq (updBit_mem ..) ?_
    exact h36
  clear_value y26
  have h38 : mapWf 0 y27.mem.bytes = true := by
    unfold y27
    refine wf_eq (setNum_mem ..) ?_
    refine wf_eq (setNum_mem ..) ?_
    exact h37
  clear_value y27
  refine ite_wf ?_ ?_
  · refine wf_eq (setNum_mem ..) ?_
    refine wf_eq (setNum_mem ..) ?_
    refine wf_eq (setNum_mem ..) ?_
    refine wf_eq (stepBit_mem ..) ?_
    refine wf_eq (updBit_mem ..) ?_
    refine wf_eq (updBit_mem ..) ?_
    unfold y14
    dsimp -zeta only
    exact h31
  · dsimp -zeta only
    exact h38

@[simp] theorem discardSlot_mem (x1) (x2) (x3) (x4 : Block) : (discardSlot x1 x2 x3 x4).mem.bytes = x4.mem.bytes := by
  unfold discardSlot; simp

@[simp] theorem descFaults_mem (x1) (x2) (x3) (x4) (x5 : Block) : (descFaults x1 x2 x3 x4 x5).mem.bytes = x5.mem.bytes := by
  unfold descFaults; simp

@[simp] theorem pushDesc_mem (x1) (x2) (x3) (x4) (x5) (x6) (x7) (x8 : Block) : (pushDesc x1 x2 x3 x4 x5 x6 x7 x8).2.mem.bytes = x8.mem.bytes := by
  unfold pushDesc; simp

@[simp] theorem unitWrite_wf {x1} {x2} {x3} {x4} {x5} {x6} {x7 : Block} (h : mapWf 0 x7.mem.bytes = true) : mapWf 0 (unitWrite x1 x2 x3 x4 x5 x6 x7).mem.bytes = true := by
  unfold unitWrite
  refine ite_wf ?_ ?_
  · refine memWrite_wf ?_
    exact h
  · refine memRmw_wf ?_
    exact h

@[simp] theorem moveUnit_wf {x1} {x2} {x3} {x4 : Block} (h : mapWf 0 x4.mem.bytes = true) : mapWf 0 (moveUnit x1 x2 x3 x4).mem.bytes = true := by
  unfold moveUnit
  extract_lets y0 y1 y2 y3 y4 y5 y6 y7
  refine ite_wf ?_ ?_
  · split
    rename_i y8 y9 y10 y11
    have h12 : mapWf 0 y10.mem.bytes = true := by
      refine wf_eq (congrArg (fun p => p.2.mem.bytes) y11).symm ?_
      refine memRead_wf ?_
      exact h
    refine wf_eq (mezzWrite_mem ..) ?_
    refine wf_eq (consumeRead_mem ..) ?_
    exact h12
  · refine ite_wf ?_ ?_
    · refine unitWrite_wf ?_
      exact h
    · split
      rename_i y13 y14 y15 y16
      have h17 : mapWf 0 y15.mem.bytes = true := by
        refine wf_eq (congrArg (fun p => p.2.mem.bytes) y16).symm ?_
        refine memRead_wf ?_
        exact h
      refine unitWrite_wf ?_
      refine wf_eq (consumeRead_mem ..) ?_
      exact h17

@[simp] theorem moveUnits_wf {x1} {x2} {x3 : Block} (h : mapWf 0 x3.mem.bytes = true) : mapWf 0 (moveUnits x1 x2 x3).mem.bytes = true := by
  unfold moveUnits
  extract_lets y0
  refine ite_wf ?_ ?_
  · exact h
  · refine forEach_wf _ _ _ ?_ ?_
    · exact h
    · intros y1 y2 y3
      refine moveUnit_wf ?_
      exact y3

@[simp] theorem issueD_wf {x1} {x2} {x3} {x4} {x5} {x6 : Block} (h : mapWf 0 x6.mem.bytes = true) : mapWf 0 (issueD x1 x2 x3 x4 x5 x6).mem.bytes = true := by
  unfold issueD
  refine ite_wf ?_ ?_
  · refine wf_eq (discardSlot_mem ..) ?_
    exact h
  · refine ite_wf ?_ ?_
    · refine ite_wf ?_ ?_
      · refine wf_eq (freezeFor_mem ..) ?_
        exact h
      · refine wf_eq (discardSlot_mem ..) ?_
        exact h
    · extract_lets y0
      have h1 : mapWf 0 y0.mem.bytes = true := by
        unfold y0
        refine wf_eq (descFaults_mem ..) ?_
        exact h
      clear_value y0
      split
      rename_i y2 y3 y4 y5
      have h6 : mapWf 0 y4.mem.bytes = true := by
        refine wf_eq (congrArg (fun p => p.2.mem.bytes) y5).symm ?_
        refine wf_eq (pushDesc_mem ..) ?_
        exact h1
      refine moveUnits_wf ?_
      exact h6

@[simp] theorem doDget_wf {x1} {x2} {x3 : Block} (h : mapWf 0 x3.mem.bytes = true) : mapWf 0 (doDget x1 x2 x3).mem.bytes = true := by
  unfold doDget
  refine withSlot_wf (hf := ?_) ?_
  · intros y0 y1 y2
    refine issueD_wf ?_
    exact y2
  · exact h

@[simp] theorem performD_wf {x1} {x2 : Block} (h : mapWf 0 x2.mem.bytes = true) : mapWf 0 (performD x1 x2).2.mem.bytes = true := by
  unfold performD
  extract_lets y0 y1
  refine ite_wf_2 ?_ ?_
  · dsimp -zeta only
    exact h
  · refine ite_wf_2 ?_ ?_
    · dsimp -zeta only
      exact h
    · refine ite_wf_2 ?_ ?_
      · split
        rename_i y2 y3 y4 y5
        have h6 : mapWf 0 y4.mem.bytes = true := by
          refine wf_eq (congrArg (fun p => p.2.mem.bytes) y5).symm ?_
          refine runPass1_wf ?_
          exact h
        dsimp -zeta only
        exact h6
      · refine ite_wf_2 ?_ ?_
        · split
          rename_i y7 y8 y9 y10
          have h11 : mapWf 0 y9.mem.bytes = true := by
            refine wf_eq (congrArg (fun p => p.2.mem.bytes) y10).symm ?_
            refine runPass2_wf ?_
            exact h
          dsimp -zeta only
          exact h11
        · dsimp -zeta only
          refine moveUnits_wf ?_
          exact h

@[simp] theorem dropDesc_mem (x1) (x2 : Block) : (dropDesc x1 x2).mem.bytes = x2.mem.bytes := by
  unfold dropDesc
  dsimp -zeta only

@[simp] theorem finishDesc_mem (x1) (x2) (x3 : Block) : (finishDesc x1 x2 x3).mem.bytes = x3.mem.bytes := by
  unfold finishDesc
  extract_lets y0
  have h1 : y0.mem.bytes = x3.mem.bytes := by
    unfold y0
    refine (forEach_mem _ _ _ ?_).trans ?_
    · intros y2 y3
      refine (tokAdd_mem ..).trans ?_
      rfl
    · refine (dropDesc_mem ..).trans ?_
      rfl
  clear_value y0
  refine ite_mem ?_ ?_
  · exact h1
  · refine ite_mem ?_ ?_
    · refine (stepBit_mem ..).trans ?_
      exact h1
    · refine (descFail_mem ..).trans ?_
      exact h1

@[simp] theorem completeD_wf {x1} {x2} {x3 : Block} (h : mapWf 0 x3.mem.bytes = true) : mapWf 0 (completeD x1 x2 x3).mem.bytes = true := by
  unfold completeD
  refine ite_wf ?_ ?_
  · split
    rename_i y0 y1 y2 y3
    have h4 : mapWf 0 y2.mem.bytes = true := by
      refine wf_eq (congrArg (fun p => p.2.mem.bytes) y3).symm ?_
      refine performD_wf ?_
      exact h
    refine wf_eq (finishDesc_mem ..) ?_
    exact h4
  · refine wf_eq (finishDesc_mem ..) ?_
    exact h

@[simp] theorem doDput_wf {x1} {x2} {x3 : Block} (h : mapWf 0 x3.mem.bytes = true) : mapWf 0 (doDput x1 x2 x3).mem.bytes = true := by
  unfold doDput
  refine withSlot_wf (hf := ?_) ?_
  · intros y0 y1 y2
    refine issueD_wf ?_
    exact y2
  · exact h

@[simp] theorem doDmov_wf {x1} {x2} {x3 : Block} (h : mapWf 0 x3.mem.bytes = true) : mapWf 0 (doDmov x1 x2 x3).mem.bytes = true := by
  unfold doDmov
  refine withSlot_wf (hf := ?_) ?_
  · intros y0 y1 y2
    refine issueD_wf ?_
    exact y2
  · exact h

end Sys2Proof.Machine
end

