-- ==== Sys2Proof/Laws/MemArcade.lean ====
section
/-! SUPPORT. What each operation does to the bytes of memory: the links of the arcade.
`f_mem`: `f` leaves every byte as it is; `f_wf`: `f` keeps the canonical form. -/

set_option maxRecDepth 4000

namespace Sys2Proof.Machine

@[simp] theorem reportArcade_mem (x1 : Block) : (reportArcade x1).mem.bytes = x1.mem.bytes := by
  unfold reportArcade; simp

@[simp] theorem setLink_mem (x1) (x2) (x3 : Block) : (setLink x1 x2 x3).mem.bytes = x3.mem.bytes := by
  unfold setLink
  dsimp -zeta only

@[simp] theorem modLink_mem (x1) (x2) (x3 : Block) : (modLink x1 x2 x3).mem.bytes = x3.mem.bytes := by
  unfold modLink; simp

@[simp] theorem sendBeacon_mem (x1) (x2 : Block) : (sendBeacon x1 x2).mem.bytes = x2.mem.bytes := by
  unfold sendBeacon; split <;> simp [*]

@[simp] theorem tellBeacons_mem (x1 : Block) : (tellBeacons x1).mem.bytes = x1.mem.bytes := by
  unfold tellBeacons
  refine (forEach_mem _ _ _ ?_).trans ?_
  · intros y0 y1
    refine (sendBeacon_mem ..).trans ?_
    rfl
  · rfl

@[simp] theorem linkCount_mem (x1) (x2) (x3) (x4 : Block) : (linkCount x1 x2 x3 x4).mem.bytes = x4.mem.bytes := by
  unfold linkCount; simp

@[simp] theorem startTrain_mem (x1) (x2 : Block) : (startTrain x1 x2).mem.bytes = x2.mem.bytes := by
  unfold startTrain
  extract_lets y0 y1
  have h2 : y1.mem.bytes = x2.mem.bytes := by
    unfold y1
    refine (setLink_mem ..).trans ?_
    rfl
  clear_value y1
  refine ite_mem ?_ ?_
  · refine (linkCount_mem ..).trans ?_
    exact h2
  · exact h2

@[simp] theorem doSignal_mem (x1) (x2 : Block) : (doSignal x1 x2).mem.bytes = x2.mem.bytes := by
  unfold doSignal
  extract_lets y0 y1
  have h2 : y1.mem.bytes = x2.mem.bytes := by
    unfold y1
    refine (setLink_mem ..).trans ?_
    rfl
  clear_value y1
  refine ite_mem ?_ ?_
  · refine (startTrain_mem ..).trans ?_
    exact h2
  · exact h2

@[simp] theorem failDesc_mem (x1) (x2 : Block) : (failDesc x1 x2).mem.bytes = x2.mem.bytes := by
  unfold failDesc
  dsimp -zeta only

@[simp] theorem loseDesc_mem (x1) (x2 : Block) : (loseDesc x1 x2).mem.bytes = x2.mem.bytes := by
  unfold loseDesc
  refine ite_mem ?_ ?_
  · rfl
  · refine ite_mem ?_ ?_
    · refine (failDesc_mem ..).trans ?_
      rfl
    · refine (descFail_mem ..).trans ?_
      rfl

@[simp] theorem failPull_mem (x1 : Block) : (failPull x1).mem.bytes = x1.mem.bytes := by
  unfold failPull
  dsimp -zeta only

@[simp] theorem enqueue_mem (x1) (x2) (x3) (x4) (x5 : Block) : (enqueue x1 x2 x3 x4 x5).mem.bytes = x5.mem.bytes := by
  unfold enqueue; simp

@[simp] theorem keepLocked_mem (x1) (x2) (x3 : Block) : (keepLocked x1 x2 x3).mem.bytes = x3.mem.bytes := by
  unfold keepLocked
  refine (forEach_mem _ _ _ ?_).trans ?_
  · intros y0 y1
    extract_lets y2 y3
    have h4 : y3.mem.bytes = y1.mem.bytes := by
      unfold y3
      refine (setLink_mem ..).trans ?_
      rfl
    clear_value y3
    refine (detect_mem ..).trans ?_
    refine (floorRec_mem ..).trans ?_
    exact h4
  · rfl

@[simp] theorem evalConn_mem (x1 : Block) : (evalConn x1).mem.bytes = x1.mem.bytes := by
  unfold evalConn
  extract_lets y0 y1 y2
  have h3 : y2.mem.bytes = x1.mem.bytes := by
    unfold y2
    refine (setStatus_mem ..).trans ?_
    rfl
  clear_value y2
  refine ite_mem ?_ ?_
  · refine (stepBit_mem ..).trans ?_
    exact h3
  · exact h3

@[simp] theorem doSpareTrained_mem (x1) (x2 : Block) : (doSpareTrained x1 x2).mem.bytes = x2.mem.bytes := by
  unfold doSpareTrained
  extract_lets y0 y1
  refine ite_mem ?_ ?_
  · rfl
  · refine (setLink_mem ..).trans ?_
    rfl

@[simp] theorem addG64_wf {x1} {x2} {x3} {x4} {x5} {x6} {x7} {x8 : Block} (h : mapWf 0 x8.mem.bytes = true) : mapWf 0 (addG64 x1 x2 x3 x4 x5 x6 x7 x8).mem.bytes = true := by
  unfold addG64
  extract_lets y0
  split
  rename_i y1 y2 y3 y4
  extract_lets y5 y6 y7
  have h8 : mapWf 0 y5.mem.bytes = true := by
    unfold y5
    refine wf_eq (memFlags_mem ..) ?_
    exact h
  clear_value y5
  have h9 : mapWf 0 y7.mem.bytes = true := by
    unfold y7
    refine ite_wf ?_ ?_
    · dsimp -zeta only
      exact h8
    · exact h8
  clear_value y7
  refine memRmw_wf ?_
  exact h9

@[simp] theorem effectWrite_wf {x1} {x2 : Block} (h : mapWf 0 x2.mem.bytes = true) : mapWf 0 (effectWrite x1 x2).2.mem.bytes = true := by
  unfold effectWrite
  extract_lets y0 y1 y2 y3 y4 y5 y6 y7 y8
  have h9 : mapWf 0 y3.mem.bytes = true := by
    unfold y3
    refine ite_wf ?_ ?_
    · refine wf_eq (logFault_mem ..) ?_
      exact h
    · exact h
  clear_value y3
  have h10 : mapWf 0 y5.mem.bytes = true := by
    unfold y5
    refine ite_wf ?_ ?_
    · exact h9
    · refine wf_eq (logFault_mem ..) ?_
      exact h9
  clear_value y5
  have h11 : mapWf 0 y7.mem.bytes = true := by
    unfold y7
    refine ite_wf ?_ ?_
    · exact h9
    · refine wf_eq (logFault_mem ..) ?_
      exact h9
  clear_value y7
  have h12 : mapWf 0 y8.mem.bytes = true := by
    unfold y8
    refine ite_wf ?_ ?_
    · refine wf_eq (logFault_mem ..) ?_
      exact h9
    · exact h9
  clear_value y8
  refine ite_wf_2 ?_ ?_
  · split
    · rename_i y13 y14
      dsimp -zeta only
      refine wf_eq (logFault_mem ..) ?_
      exact h10
    · rename_i y15 y16 y17
      dsimp -zeta only
      refine wf_eq (mezzWrite_mem ..) ?_
      exact h10
  · refine ite_wf_2 ?_ ?_
    · dsimp -zeta only
      exact h9
    · refine ite_wf_2 ?_ ?_
      · dsimp -zeta only
        refine memWrite_wf ?_
        exact h9
      · refine ite_wf_2 ?_ ?_
        · dsimp -zeta only
          refine addG64_wf ?_
          exact h11
        · dsimp -zeta only
          refine memRmw_wf ?_
          exact h12

@[simp] theorem packetToken_mem (x1) (x2 : Block) : (packetToken x1 x2).mem.bytes = x2.mem.bytes := by
  unfold packetToken; split <;> first | rfl | simp [*] | (split <;> simp [*])

@[simp] theorem ctxAcked_mem (x1) (x2 : Block) : (ctxAcked x1 x2).mem.bytes = x2.mem.bytes := by
  unfold ctxAcked; split <;> simp [*]

@[simp] theorem doHoldExpiry_mem (x1) (x2) (x3 : Block) : (doHoldExpiry x1 x2 x3).mem.bytes = x3.mem.bytes := by
  unfold doHoldExpiry
  extract_lets y0 y1
  have h2 : y1.mem.bytes = x3.mem.bytes := by
    unfold y1
    refine (setLink_mem ..).trans ?_
    rfl
  clear_value y1
  refine ite_mem ?_ ?_
  · refine (setLink_mem ..).trans ?_
    rfl
  · refine ite_mem ?_ ?_
    · refine ite_mem ?_ ?_
      · refine (startTrain_mem ..).trans ?_
        exact h2
      · exact h2
    · rfl

@[simp] theorem doLaneJoin_mem (x1) (x2) (x3 : Block) : (doLaneJoin x1 x2 x3).mem.bytes = x3.mem.bytes := by
  unfold doLaneJoin
  extract_lets y0
  refine ite_mem ?_ ?_
  · rfl
  · refine (setLink_mem ..).trans ?_
    rfl

@[simp] theorem doPortUp_mem (x1) (x2) (x3 : Block) : (doPortUp x1 x2 x3).mem.bytes = x3.mem.bytes := by
  unfold doPortUp
  dsimp -zeta only

@[simp] theorem modColl_mem (x1) (x2) (x3 : Block) : (modColl x1 x2 x3).mem.bytes = x3.mem.bytes := by
  unfold modColl
  dsimp -zeta only

@[simp] theorem collArrive_mem (x1) (x2 : Block) : (collArrive x1 x2).mem.bytes = x2.mem.bytes := by
  unfold collArrive
  extract_lets y0 y1 y2
  split
  · rename_i y3 y4
    rfl
  · rename_i y5 y6 y7
    extract_lets y8 y9 y10
    refine ite_mem ?_ ?_
    · refine ite_mem ?_ ?_
      · refine ite_mem ?_ ?_
        · refine (modColl_mem ..).trans ?_
          rfl
        · refine (modColl_mem ..).trans ?_
          rfl
      · refine (modColl_mem ..).trans ?_
        rfl
    · refine ite_mem ?_ ?_
      · refine (modColl_mem ..).trans ?_
        rfl
      · rfl

@[simp] theorem collBit_mem (x1) (x2 : Block) : (collBit x1 x2).mem.bytes = x2.mem.bytes := by
  unfold collBit
  dsimp -zeta only

@[simp] theorem collAlert_mem (x1) (x2) (x3) (x4 : Block) : (collAlert x1 x2 x3 x4).mem.bytes = x4.mem.bytes := by
  unfold collAlert; simp

@[simp] theorem zeroOwned_wf {x1} {x2} {x3 : Block} (h : mapWf 0 x3.mem.bytes = true) : mapWf 0 (zeroOwned x1 x2 x3).mem.bytes = true := by
  unfold zeroOwned
  extract_lets y0
  refine forEach_wf _ _ _ ?_ ?_
  · exact h
  · intros y1 y2 y3
    refine ite_wf ?_ ?_
    · refine memWrite_wf ?_
      exact y3
    · exact y3

@[simp] theorem takeReady_mem (x1) (x2 : Block) : (takeReady x1 x2).mem.bytes = x2.mem.bytes := by
  unfold takeReady; split <;> simp [*]

@[simp] theorem doRejection_mem (x1) (x2) (x3 : Block) : (doRejection x1 x2 x3).mem.bytes = x3.mem.bytes := by
  unfold doRejection; split <;> simp [*]

@[simp] theorem dropColl_mem (x1) (x2 : Block) : (dropColl x1 x2).mem.bytes = x2.mem.bytes := by
  unfold dropColl; simp

@[simp] theorem gatherDone_mem (x1) (x2 : Block) : (gatherDone x1 x2).mem.bytes = x2.mem.bytes := by
  unfold gatherDone
  extract_lets y0 y1
  refine ite_mem ?_ ?_
  · split
    rename_i y2 y3 y4 y5
    extract_lets y6
    dsimp -zeta only
  · rfl

@[simp] theorem doCompletion_wf {x1} {x2} {x3 : Block} (h : mapWf 0 x3.mem.bytes = true) : mapWf 0 (doCompletion x1 x2 x3).mem.bytes = true := by
  unfold doCompletion
  split
  · rename_i y0 y1
    exact h
  · rename_i y2 y3 y4
    refine ite_wf ?_ ?_
    · refine completeD_wf ?_
      exact h
    · refine ite_wf ?_ ?_
      · refine wf_eq (dropColl_mem ..) ?_
        refine wf_eq (finishDesc_mem ..) ?_
        exact h
      · refine ite_wf ?_ ?_
        · extract_lets y5
          have h6 : mapWf 0 y5.mem.bytes = true := by
            unfold y5
            split
            · rename_i y7 y8 y9
              refine wf_eq (gatherDone_mem ..) ?_
              exact h
            · rename_i y10 y11
              exact h
          clear_value y5
          refine wf_eq (dropColl_mem ..) ?_
          refine wf_eq (finishDesc_mem ..) ?_
          exact h6
        · exact h

end Sys2Proof.Machine
end

