-- ==== Sys2Proof/Laws/MemBoundary.lean ====
section
/-! SUPPORT. What each operation does to the bytes of memory: the arcade, the collectives, reliability, precision, the boundary and the bundles.
`f_mem`: `f` leaves every byte as it is; `f_wf`: `f` keeps the canonical form. -/

set_option maxRecDepth 4000

namespace Sys2Proof.Machine

@[simp] theorem setRecov_mem (x1) (x2) (x3 : Block) : (setRecov x1 x2 x3).mem.bytes = x3.mem.bytes := by
  unfold setRecov; simp

@[simp] theorem losePacket_mem (x1) (x2) (x3 : Block) : (losePacket x1 x2 x3).mem.bytes = x3.mem.bytes := by
  unfold losePacket
  extract_lets y0 y1
  have h2 : y1.mem.bytes = x3.mem.bytes := by
    unfold y1
    refine ite_mem ?_ ?_
    · refine (setRecov_mem ..).trans ?_
      rfl
    · rfl
  clear_value y1
  refine (loseDesc_mem ..).trans ?_
  refine ite_mem ?_ ?_
  · refine (failPull_mem ..).trans ?_
    exact h2
  · exact h2

@[simp] theorem launch_mem (x1) (x2) (x3) (x4 : Block) : (launch x1 x2 x3 x4).mem.bytes = x4.mem.bytes := by
  unfold launch
  split
  · rename_i y0 y1
    refine (losePacket_mem ..).trans ?_
    rfl
  · rename_i y2 y3 y4 y5
    extract_lets y6 y7 y8 y9 y10 y11 y12 y13 y14 y15 y16 y17
    have h18 : y8.mem.bytes = x4.mem.bytes := by
      unfold y8
      dsimp -zeta only
    clear_value y8
    have h19 : y14.mem.bytes = x4.mem.bytes := by
      unfold y14
      refine ite_mem ?_ ?_
      · dsimp -zeta only
        exact h18
      · exact h18
    clear_value y14
    have h20 : y16.mem.bytes = x4.mem.bytes := by
      unfold y16
      refine ite_mem ?_ ?_
      · refine (reportArcade_mem ..).trans ?_
        dsimp -zeta only
        exact h19
      · exact h19
    clear_value y16
    refine ite_mem ?_ ?_
    · refine ite_mem ?_ ?_
      · dsimp -zeta only
        exact h20
      · refine (enqueue_mem ..).trans ?_
        dsimp -zeta only
        exact h20
    · refine (enqueue_mem ..).trans ?_
      exact h20

@[simp] theorem sendPacket_mem (x1) (x2) (x3 : Block) : (sendPacket x1 x2 x3).mem.bytes = x3.mem.bytes := by
  unfold sendPacket
  extract_lets y0 y1 y2 y3 y4 y5
  have h6 : y4.mem.bytes = x3.mem.bytes := by
    unfold y4
    dsimp -zeta only
  refine ite_mem ?_ ?_
  · dsimp -zeta only
  · refine ite_mem ?_ ?_
    · dsimp -zeta only
    · refine (launch_mem ..).trans ?_
      exact h6

@[simp] theorem sendCtrlFor_mem (x1) (x2) (x3) (x4) (x5) (x6 : Block) : (sendCtrlFor x1 x2 x3 x4 x5 x6).mem.bytes = x6.mem.bytes := by
  unfold sendCtrlFor; split <;> simp [*]

@[simp] theorem sendCtrl_mem (x1) (x2) (x3) (x4) (x5 : Block) : (sendCtrl x1 x2 x3 x4 x5).mem.bytes = x5.mem.bytes := by
  unfold sendCtrl; simp

@[simp] theorem portsChanged_mem (x1 : Block) : (portsChanged x1).mem.bytes = x1.mem.bytes := by
  unfold portsChanged
  extract_lets y0 y1 y2 y3
  have h4 : y0.mem.bytes = x1.mem.bytes := by
    unfold y0
    refine (reportArcade_mem ..).trans ?_
    rfl
  clear_value y0
  have h5 : y3.mem.bytes = x1.mem.bytes := by
    unfold y3
    dsimp -zeta only
    exact h4
  clear_value y3
  refine ite_mem ?_ ?_
  · exact h4
  · refine (forEach_mem _ _ _ ?_).trans ?_
    · intros y6 y7
      refine (sendCtrl_mem ..).trans ?_
      rfl
    · exact h5

@[simp] theorem resendAll_mem (x1) (x2 : Block) : (resendAll x1 x2).mem.bytes = x2.mem.bytes := by
  unfold resendAll
  refine (forEach_mem _ _ _ ?_).trans ?_
  · intros y0 y1
    refine (launch_mem ..).trans ?_
    rfl
  · rfl

@[simp] theorem linkGoes_mem (x1) (x2) (x3) (x4) (x5 : Block) : (linkGoes x1 x2 x3 x4 x5).mem.bytes = x5.mem.bytes := by
  unfold linkGoes
  extract_lets y0 y1 y2 y3 y4 y5
  have h6 : y4.mem.bytes = x5.mem.bytes := by
    unfold y4
    refine (setLink_mem ..).trans ?_
    rfl
  clear_value y4
  have h7 : y5.mem.bytes = x5.mem.bytes := by
    unfold y5
    refine ite_mem ?_ ?_
    · refine (detect_mem ..).trans ?_
      exact h6
    · exact h6
  clear_value y5
  refine ite_mem ?_ ?_
  · rfl
  · refine (portsChanged_mem ..).trans ?_
    refine (resendAll_mem ..).trans ?_
    refine (portsChanged_mem ..).trans ?_
    exact h7

@[simp] theorem linkDown_mem (x1) (x2) (x3) (x4 : Block) : (linkDown x1 x2 x3 x4).mem.bytes = x4.mem.bytes := by
  unfold linkDown; simp

@[simp] theorem doTrained_mem (x1) (x2) (x3 : Block) : (doTrained x1 x2 x3).mem.bytes = x3.mem.bytes := by
  unfold doTrained
  extract_lets y0
  refine ite_mem ?_ ?_
  · rfl
  · refine ite_mem ?_ ?_
    · refine (linkDown_mem ..).trans ?_
      rfl
    · refine (modLink_mem ..).trans ?_
      refine (keepLocked_mem ..).trans ?_
      rfl

@[simp] theorem doGapRequest_mem (x1) (x2 : Block) : (doGapRequest x1 x2).mem.bytes = x2.mem.bytes := by
  unfold doGapRequest
  extract_lets y0
  refine ite_mem ?_ ?_
  · refine (descFail_mem ..).trans ?_
    refine (failPull_mem ..).trans ?_
    rfl
  · refine (forEach_mem _ _ _ ?_).trans ?_
    · intros y1 y2
      refine (launch_mem ..).trans ?_
      rfl
    · rfl

@[simp] theorem endContext_mem (x1 : Block) : (endContext x1).mem.bytes = x1.mem.bytes := by
  unfold endContext; split <;> simp [*]

@[simp] theorem quarantine_mem (x1) (x2) (x3 : Block) : (quarantine x1 x2 x3).mem.bytes = x3.mem.bytes := by
  unfold quarantine; simp

@[simp] theorem decideProbe_mem (x1) (x2) (x3 : Block) : (decideProbe x1 x2 x3).mem.bytes = x3.mem.bytes := by
  unfold decideProbe
  extract_lets y0
  refine ite_mem ?_ ?_
  · refine (modLink_mem ..).trans ?_
    rfl
  · refine ite_mem ?_ ?_
    · refine (forEach_mem _ _ _ ?_).trans ?_
      · intros y1 y2
        refine (quarantine_mem ..).trans ?_
        rfl
      · refine (modLink_mem ..).trans ?_
        rfl
    · refine (modLink_mem ..).trans ?_
      rfl

@[simp] theorem applyPlan_mem (x1) (x2) (x3 : Block) : (applyPlan x1 x2 x3).mem.bytes = x3.mem.bytes := by
  unfold applyPlan
  extract_lets y0 y1
  have h2 : y1.mem.bytes = x3.mem.bytes := by
    unfold y1
    refine ite_mem ?_ ?_
    · refine (linkDown_mem ..).trans ?_
      rfl
    · rfl
  clear_value y1
  refine ite_mem ?_ ?_
  · rfl
  · refine ite_mem ?_ ?_
    · refine ite_mem ?_ ?_
      · rfl
      · refine (modLink_mem ..).trans ?_
        exact h2
    · refine ite_mem ?_ ?_
      · refine (modLink_mem ..).trans ?_
        rfl
      · refine ite_mem ?_ ?_
        · rfl
        · refine ite_mem ?_ ?_
          · refine (portsChanged_mem ..).trans ?_
            refine (decideProbe_mem ..).trans ?_
            refine (modLink_mem ..).trans ?_
            rfl
          · refine ite_mem ?_ ?_
            · refine (linkDown_mem ..).trans ?_
              rfl
            · rfl

@[simp] theorem routeBuild_mem (x1) (x2 : Block) : (routeBuild x1 x2).mem.bytes = x2.mem.bytes := by
  unfold routeBuild
  extract_lets y0 y1 y2 y3 y4 y5
  have h6 : y0.mem.bytes = x2.mem.bytes := by
    unfold y0
    refine (endContext_mem ..).trans ?_
    rfl
  clear_value y0
  have h7 : y1.mem.bytes = x2.mem.bytes := by
    unfold y1
    refine (forEach_mem _ _ _ ?_).trans ?_
    · intros y8 y9
      refine (applyPlan_mem ..).trans ?_
      rfl
    · exact h6
  clear_value y1
  have h10 : y2.mem.bytes = x2.mem.bytes := by
    unfold y2
    refine (forEach_mem _ _ _ ?_).trans ?_
    · intros y11 y12
      refine ite_mem ?_ ?_
      · refine (modLink_mem ..).trans ?_
        rfl
      · rfl
    · exact h7
  clear_value y2
  have h13 : y5.mem.bytes = x2.mem.bytes := by
    unfold y5
    dsimp -zeta only
    exact h10
  clear_value y5
  refine (evalConn_mem ..).trans ?_
  refine (portsChanged_mem ..).trans ?_
  exact h13

@[simp] theorem firstBuild_mem (x1 : Block) : (firstBuild x1).mem.bytes = x1.mem.bytes := by
  unfold firstBuild
  extract_lets y0
  refine ite_mem ?_ ?_
  · refine (routeBuild_mem ..).trans ?_
    rfl
  · rfl

@[simp] theorem resetLink_mem (x1) (x2 : Block) : (resetLink x1 x2).mem.bytes = x2.mem.bytes := by
  unfold resetLink
  extract_lets y0
  refine ite_mem ?_ ?_
  · rfl
  · refine (modLink_mem ..).trans ?_
    refine (linkDown_mem ..).trans ?_
    rfl

@[simp] theorem resendFlit_mem (x1) (x2) (x3 : Block) : (resendFlit x1 x2 x3).mem.bytes = x3.mem.bytes := by
  unfold resendFlit; split <;> simp [*]

@[simp] theorem doDown_mem (x1) (x2 : Block) : (doDown x1 x2).mem.bytes = x2.mem.bytes := by
  unfold doDown; split <;> simp [*]

@[simp] theorem doLossOfSignal_mem (x1) (x2 : Block) : (doLossOfSignal x1 x2).mem.bytes = x2.mem.bytes := by
  unfold doLossOfSignal
  extract_lets y0 y1
  have h2 : y1.mem.bytes = x2.mem.bytes := by
    unfold y1
    refine (modLink_mem ..).trans ?_
    rfl
  clear_value y1
  refine ite_mem ?_ ?_
  · refine (linkDown_mem ..).trans ?_
    exact h2
  · refine ite_mem ?_ ?_
    · refine (linkDown_mem ..).trans ?_
      exact h2
    · refine ite_mem ?_ ?_
      · refine (linkDown_mem ..).trans ?_
        exact h2
      · exact h2

@[simp] theorem releaseRetain_mem (x1 : Block) : (releaseRetain x1).mem.bytes = x1.mem.bytes := by
  unfold releaseRetain
  extract_lets y0 y1
  refine (forEach_mem _ _ _ ?_).trans ?_
  · intros y2 y3
    refine (launch_mem ..).trans ?_
    rfl
  · dsimp -zeta only

@[simp] theorem doStreamAck_mem (x1) (x2 : Block) : (doStreamAck x1 x2).mem.bytes = x2.mem.bytes := by
  unfold doStreamAck; simp

@[simp] theorem doAlignTimeout_mem (x1) (x2 : Block) : (doAlignTimeout x1 x2).mem.bytes = x2.mem.bytes := by
  unfold doAlignTimeout; split <;> simp [*]

@[simp] theorem retireLane_mem (x1) (x2) (x3) (x4) (x5) (x6 : Block) : (retireLane x1 x2 x3 x4 x5 x6).mem.bytes = x6.mem.bytes := by
  unfold retireLane
  extract_lets y0 y1 y2 y3 y4 y5 y6 y7
  have h8 : y4.mem.bytes = x6.mem.bytes := by
    unfold y4
    refine (setLink_mem ..).trans ?_
    rfl
  clear_value y4
  have h9 : y5.mem.bytes = x6.mem.bytes := by
    unfold y5
    refine ite_mem ?_ ?_
    · exact h8
    · refine (linkCount_mem ..).trans ?_
      exact h8
  clear_value y5
  have h10 : y6.mem.bytes = x6.mem.bytes := by
    unfold y6
    refine ite_mem ?_ ?_
    · exact h9
    · refine (floorRec_mem ..).trans ?_
      exact h9
  clear_value y6
  have h11 : y7.mem.bytes = x6.mem.bytes := by
    unfold y7
    refine (detect_mem ..).trans ?_
    exact h10
  clear_value y7
  refine ite_mem ?_ ?_
  · rfl
  · refine ite_mem ?_ ?_
    · refine ite_mem ?_ ?_
      · refine (linkGoes_mem ..).trans ?_
        rfl
      · rfl
    · refine ite_mem ?_ ?_
      · refine (linkGoes_mem ..).trans ?_
        exact h11
      · exact h11

@[simp] theorem doLaneErrors_mem (x1) (x2) (x3 : Block) : (doLaneErrors x1 x2 x3).mem.bytes = x3.mem.bytes := by
  unfold doLaneErrors
  refine (forEach_mem _ _ _ ?_).trans ?_
  · intros y0 y1
    split
    rename_i y2 y3 y4 y5
    extract_lets y6
    have h7 : y6.mem.bytes = y1.mem.bytes := by
      unfold y6
      refine (linkCount_mem ..).trans ?_
      refine (linkCount_mem ..).trans ?_
      rfl
    clear_value y6
    refine ite_mem ?_ ?_
    · refine (retireLane_mem ..).trans ?_
      exact h7
    · refine ite_mem ?_ ?_
      · refine (retireLane_mem ..).trans ?_
        exact h7
      · exact h7
  · rfl

@[simp] theorem doLaneNoFlit_mem (x1) (x2) (x3 : Block) : (doLaneNoFlit x1 x2 x3).mem.bytes = x3.mem.bytes := by
  unfold doLaneNoFlit; split <;> simp [*]

@[simp] theorem applyLaneMode_mem (x1 : Block) : (applyLaneMode x1).mem.bytes = x1.mem.bytes := by
  unfold applyLaneMode
  extract_lets y0 y1 y2
  have h3 : y2.mem.bytes = x1.mem.bytes := by
    unfold y2
    refine (forEach_mem _ _ _ ?_).trans ?_
    · intros y4 y5
      extract_lets y6 y7
      have h8 : y7.mem.bytes = y5.mem.bytes := by
        unfold y7
        refine ite_mem ?_ ?_
        · refine (linkDown_mem ..).trans ?_
          rfl
        · rfl
      clear_value y7
      refine ite_mem ?_ ?_
      · refine (modLink_mem ..).trans ?_
        exact h8
      · refine ite_mem ?_ ?_
        · refine (modLink_mem ..).trans ?_
          rfl
        · rfl
    · rfl
  clear_value y2
  refine (portsChanged_mem ..).trans ?_
  exact h3

@[simp] theorem doReplayTimeout_mem (x1) (x2) (x3 : Block) : (doReplayTimeout x1 x2 x3).mem.bytes = x3.mem.bytes := by
  unfold doReplayTimeout; split <;> simp [*]

@[simp] theorem doBeacon_mem (x1) (x2) (x3 : Block) : (doBeacon x1 x2 x3).mem.bytes = x3.mem.bytes := by
  unfold doBeacon
  extract_lets y0 y1 y2 y3 y4
  have h5 : y4.mem.bytes = x3.mem.bytes := by
    unfold y4
    refine (setLink_mem ..).trans ?_
    rfl
  clear_value y4
  refine ite_mem ?_ ?_
  · rfl
  · refine ite_mem ?_ ?_
    · refine (linkDown_mem ..).trans ?_
      exact h5
    · refine ite_mem ?_ ?_
      · refine (portsChanged_mem ..).trans ?_
        refine (decideProbe_mem ..).trans ?_
        exact h5
      · refine (reportArcade_mem ..).trans ?_
        exact h5

@[simp] theorem doAligned_mem (x1) (x2) (x3 : Block) : (doAligned x1 x2 x3).mem.bytes = x3.mem.bytes := by
  unfold doAligned
  extract_lets y0 y1 y2
  have h3 : y1.mem.bytes = x3.mem.bytes := by
    unfold y1
    refine (keepLocked_mem ..).trans ?_
    rfl
  clear_value y1
  have h4 : y2.mem.bytes = x3.mem.bytes := by
    unfold y2
    refine (modLink_mem ..).trans ?_
    exact h3
  clear_value y2
  refine ite_mem ?_ ?_
  · rfl
  · refine ite_mem ?_ ?_
    · refine (linkDown_mem ..).trans ?_
      rfl
    · refine ite_mem ?_ ?_
      · refine (linkDown_mem ..).trans ?_
        exact h3
      · refine (reportArcade_mem ..).trans ?_
        refine (sendBeacon_mem ..).trans ?_
        refine (modLink_mem ..).trans ?_
        exact h4

@[simp] theorem effectRead_wf {x1} {x2 : Block} (h : mapWf 0 x2.mem.bytes = true) : mapWf 0 (effectRead x1 x2).mem.bytes = true := by
  unfold effectRead
  extract_lets y0 y1
  split
  rename_i y2 y3 y4 y5
  have h6 : mapWf 0 y4.mem.bytes = true := by
    refine wf_eq (congrArg (fun p => p.2.mem.bytes) y5).symm ?_
    refine ite_wf_2 ?_ ?_
    · refine memRead_wf ?_
      exact h
    · split
      · rename_i y7 y8 y9
        dsimp -zeta only
        exact h
      · rename_i y10 y11
        dsimp -zeta only
        refine wf_eq (logFault_mem ..) ?_
        exact h
  extract_lets y12 y13
  refine wf_eq (sendPacket_mem ..) ?_
  exact h6

@[simp] theorem doTrainTimeout_mem (x1) (x2 : Block) : (doTrainTimeout x1 x2).mem.bytes = x2.mem.bytes := by
  unfold doTrainTimeout; split <;> simp [*]

@[simp] theorem doLinkNoFlit_mem (x1) (x2 : Block) : (doLinkNoFlit x1 x2).mem.bytes = x2.mem.bytes := by
  unfold doLinkNoFlit; split <;> simp [*]

@[simp] theorem doNak_mem (x1) (x2) (x3) (x4 : Block) : (doNak x1 x2 x3 x4).mem.bytes = x4.mem.bytes := by
  unfold doNak; split <;> simp [*]

@[simp] theorem doNoRoute_mem (x1) (x2) (x3 : Block) : (doNoRoute x1 x2 x3).mem.bytes = x3.mem.bytes := by
  unfold doNoRoute
  extract_lets y0 y1 y2
  have h3 : y2.mem.bytes = x3.mem.bytes := by
    unfold y2
    dsimp -zeta only
  clear_value y2
  refine ite_mem ?_ ?_
  · refine (descFail_mem ..).trans ?_
    exact h3
  · refine (forEach_mem _ _ _ ?_).trans ?_
    · intros y4 y5
      refine (launch_mem ..).trans ?_
      rfl
    · exact h3

@[simp] theorem doAckPeriod_mem (x1 : Block) : (doAckPeriod x1).mem.bytes = x1.mem.bytes := by
  unfold doAckPeriod
  extract_lets y0 y1
  refine (forEach_mem _ _ _ ?_).trans ?_
  · intros y2 y3
    extract_lets y4
    refine (sendCtrl_mem ..).trans ?_
    rfl
  · dsimp -zeta only

@[simp] theorem sendChunks_mem (x1) (x2) (x3) (x4) (x5) (x6) (x7) (x8) (x9 : Block) : (sendChunks x1 x2 x3 x4 x5 x6 x7 x8 x9).mem.bytes = x9.mem.bytes := by
  unfold sendChunks
  refine (forEach_mem _ _ _ ?_).trans ?_
  · intros y0 y1
    extract_lets y2 y3
    refine (sendPacket_mem ..).trans ?_
    rfl
  · rfl

@[simp] theorem startSend_wf {x1} {x2} {x3 : Block} (h : mapWf 0 x3.mem.bytes = true) : mapWf 0 (startSend x1 x2 x3).mem.bytes = true := by
  unfold startSend
  extract_lets y0 y1 y2 y3 y4 y5 y6 y7 y8 y9 y10
  have h11 : mapWf 0 y4.mem.bytes = true := by
    unfold y4
    refine wf_eq (modColl_mem ..) ?_
    exact h
  clear_value y4
  have h12 : mapWf 0 y8.mem.bytes = true := by
    unfold y8
    dsimp -zeta only
    exact h11
  clear_value y8
  refine ite_wf ?_ ?_
  · refine wf_eq (failDesc_mem ..) ?_
    exact h11
  · refine ite_wf ?_ ?_
    · unfold y5
      refine wf_eq (sendPacket_mem ..) ?_
      exact h11
    · refine ite_wf ?_ ?_
      · unfold y5
        refine wf_eq (sendPacket_mem ..) ?_
        exact h12
      · split
        rename_i y13 y14 y15 y16
        have h17 : mapWf 0 y15.mem.bytes = true := by
          refine wf_eq (congrArg (fun p => p.2.mem.bytes) y16).symm ?_
          refine memRead_wf ?_
          exact h12
        refine wf_eq (sendChunks_mem ..) ?_
        exact h17

@[simp] theorem copyTo_wf {x1} {x2} {x3} {x4} {x5} {x6 : Block} (h : mapWf 0 x6.mem.bytes = true) : mapWf 0 (copyTo x1 x2 x3 x4 x5 x6).mem.bytes = true := by
  unfold copyTo
  extract_lets y0
  refine ite_wf ?_ ?_
  · refine memWrite_wf ?_
    exact h
  · refine wf_eq (sendChunks_mem ..) ?_
    exact h

@[simp] theorem pushShards_wf {x1} {x2} {x3 : Block} (h : mapWf 0 x3.mem.bytes = true) : mapWf 0 (pushShards x1 x2 x3).mem.bytes = true := by
  unfold pushShards
  extract_lets y0
  refine forEach_wf _ _ _ ?_ ?_
  · exact h
  · intros y1 y2 y3
    refine ite_wf ?_ ?_
    · exact y3
    · extract_lets y4
      split
      rename_i y5 y6 y7 y8
      have h9 : mapWf 0 y7.mem.bytes = true := by
        refine wf_eq (congrArg (fun p => p.2.mem.bytes) y8).symm ?_
        refine memRead_wf ?_
        exact y3
      extract_lets y10
      have h11 : mapWf 0 y10.mem.bytes = true := by
        unfold y10
        refine copyTo_wf ?_
        exact h9
      clear_value y10
      refine forEach_wf _ _ _ ?_ ?_
      · exact h11
      · intros y12 y13 y14
        refine copyTo_wf ?_
        exact y14

@[simp] theorem contribute_wf {x1} {x2} {x3} {x4} {x5} {x6} {x7 : Block} (h : mapWf 0 x7.mem.bytes = true) : mapWf 0 (contribute x1 x2 x3 x4 x5 x6 x7).mem.bytes = true := by
  unfold contribute
  extract_lets y0 y1 y2 y3 y4 y5
  split
  rename_i y6 y7 y8 y9
  have h10 : mapWf 0 y8.mem.bytes = true := by
    refine wf_eq (congrArg (fun p => p.2.mem.bytes) y9).symm ?_
    refine memRead_wf ?_
    exact h
  refine ite_wf ?_ ?_
  · extract_lets y11
    have h12 : mapWf 0 y11.mem.bytes = true := by
      unfold y11
      refine addG64_wf ?_
      exact h10
    clear_value y11
    refine wf_eq (modColl_mem ..) ?_
    exact h12
  · refine wf_eq (sendChunks_mem ..) ?_
    exact h10

@[simp] theorem forwardShards_wf {x1} {x2} {x3 : Block} (h : mapWf 0 x3.mem.bytes = true) : mapWf 0 (forwardShards x1 x2 x3).mem.bytes = true := by
  unfold forwardShards
  extract_lets y0
  refine ite_wf ?_ ?_
  · exact h
  · refine forEach_wf _ _ _ ?_ ?_
    · exact h
    · intros y1 y2 y3
      extract_lets y4 y5
      have h6 : mapWf 0 y5.mem.bytes = true := by
        unfold y5
        refine wf_eq (modColl_mem ..) ?_
        exact y3
      clear_value y5
      refine ite_wf ?_ ?_
      · refine contribute_wf ?_
        exact h6
      · exact y3

@[simp] theorem sendCopies_wf {x1} {x2} {x3 : Block} (h : mapWf 0 x3.mem.bytes = true) : mapWf 0 (sendCopies x1 x2 x3).mem.bytes = true := by
  unfold sendCopies
  extract_lets y0
  refine forEach_wf _ _ _ ?_ ?_
  · exact h
  · intros y1 y2 y3
    refine ite_wf ?_ ?_
    · exact y3
    · extract_lets y4
      split
      rename_i y5 y6 y7 y8
      have h9 : mapWf 0 y7.mem.bytes = true := by
        refine wf_eq (congrArg (fun p => p.2.mem.bytes) y8).symm ?_
        refine memRead_wf ?_
        exact y3
      refine forEach_wf _ _ _ ?_ ?_
      · exact h9
      · intros y10 y11 y12
        refine copyTo_wf ?_
        exact y12

@[simp] theorem progressOne_wf {x1} {x2 : Block} (h : mapWf 0 x2.mem.bytes = true) : mapWf 0 (progressOne x1 x2).mem.bytes = true := by
  unfold progressOne
  split
  · rename_i y0 y1
    exact h
  · rename_i y2 y3 y4
    extract_lets y5 y6 y7 y8
    have h9 : mapWf 0 y7.mem.bytes = true := by
      unfold y7
      refine memWrite_wf ?_
      exact h
    clear_value y7
    have h10 : mapWf 0 y8.mem.bytes = true := by
      unfold y8
      refine forwardShards_wf ?_
      exact h
    clear_value y8
    refine ite_wf ?_ ?_
    · refine ite_wf ?_ ?_
      · refine pushShards_wf ?_
        refine wf_eq (modColl_mem ..) ?_
        exact h
      · refine ite_wf ?_ ?_
        · refine wf_eq (modColl_mem ..) ?_
          exact h
        · exact h
    · refine ite_wf ?_ ?_
      · refine ite_wf ?_ ?_
        · refine ite_wf ?_ ?_
          · refine wf_eq (collAlert_mem ..) ?_
            refine wf_eq (collBit_mem ..) ?_
            refine wf_eq (modColl_mem ..) ?_
            exact h9
          · refine wf_eq (modColl_mem ..) ?_
            exact h
        · refine ite_wf ?_ ?_
          · split
            · rename_i y11 y12
              exact h10
            · rename_i y13 y14 y15
              refine ite_wf ?_ ?_
              · refine ite_wf ?_ ?_
                · exact h10
                · refine ite_wf ?_ ?_
                  · refine wf_eq (collAlert_mem ..) ?_
                    refine wf_eq (collBit_mem ..) ?_
                    refine wf_eq (modColl_mem ..) ?_
                    exact h10
                  · refine wf_eq (modColl_mem ..) ?_
                    exact h10
              · refine ite_wf ?_ ?_
                · exact h10
                · refine ite_wf ?_ ?_
                  · refine sendCopies_wf ?_
                    refine wf_eq (modColl_mem ..) ?_
                    exact h10
                  · refine ite_wf ?_ ?_
                    · refine wf_eq (modColl_mem ..) ?_
                      exact h10
                    · exact h10
          · exact h
      · exact h

@[simp] theorem progress_wf {x1 : Block} (h : mapWf 0 x1.mem.bytes = true) : mapWf 0 (progress x1).mem.bytes = true := by
  unfold progress
  refine forEach_wf _ _ _ ?_ ?_
  · exact h
  · intros y0 y1 y2
    refine iter_wf _ _ _ ?_ ?_
    · exact y2
    · intros y3 y4
      refine progressOne_wf ?_
      exact y4

@[simp] theorem bellTaken_wf {x1} {x2} {x3} {x4 : Block} (h : mapWf 0 x4.mem.bytes = true) : mapWf 0 (bellTaken x1 x2 x3 x4).2.mem.bytes = true := by
  unfold bellTaken
  split
  · rename_i y0 y1
    dsimp -zeta only
    exact h
  · rename_i y2 y3 y4
    extract_lets y5
    refine ite_wf_2 ?_ ?_
    · split
      rename_i y6 y7 y8 y9
      have h10 : mapWf 0 y8.mem.bytes = true := by
        refine wf_eq (congrArg (fun p => p.2.mem.bytes) y9).symm ?_
        refine memRead_wf ?_
        exact h
      extract_lets y11
      dsimp -zeta only
      refine progress_wf ?_
      refine wf_eq (modColl_mem ..) ?_
      exact h10
    · dsimp -zeta only
      refine progress_wf ?_
      refine wf_eq (modColl_mem ..) ?_
      exact h

@[simp] theorem takeBells_wf {x1 : Block} (h : mapWf 0 x1.mem.bytes = true) : mapWf 0 (takeBells x1).mem.bytes = true := by
  unfold takeBells
  refine forEach_wf _ _ _ ?_ ?_
  · exact h
  · intros y0 y1 y2
    split
    rename_i y3 y4 y5 y6
    have h7 : mapWf 0 y5.mem.bytes = true := by
      refine wf_eq (congrArg (fun p => p.2.mem.bytes) y6).symm ?_
      refine bellTaken_wf ?_
      exact y2
    refine ite_wf ?_ ?_
    · dsimp -zeta only
      exact h7
    · exact h7

@[simp] theorem collsGo_wf {x1 : Block} (h : mapWf 0 x1.mem.bytes = true) : mapWf 0 (collsGo x1).mem.bytes = true := by
  unfold collsGo
  refine takeBells_wf ?_
  refine progress_wf ?_
  exact h

@[simp] theorem pullShards_wf {x1} {x2} {x3 : Block} (h : mapWf 0 x3.mem.bytes = true) : mapWf 0 (pullShards x1 x2 x3).mem.bytes = true := by
  unfold pullShards
  extract_lets y0 y1
  refine forEach_wf _ _ _ ?_ ?_
  · exact h
  · intros y2 y3 y4
    extract_lets y5 y6
    refine ite_wf ?_ ?_
    · split
      rename_i y7 y8 y9 y10
      have h11 : mapWf 0 y9.mem.bytes = true := by
        refine wf_eq (congrArg (fun p => p.2.mem.bytes) y10).symm ?_
        refine memRead_wf ?_
        exact y4
      refine copyTo_wf ?_
      exact h11
    · refine forEach_wf _ _ _ ?_ ?_
      · exact y4
      · intros y12 y13 y14
        extract_lets y15 y16
        refine wf_eq (sendPacket_mem ..) ?_
        exact y14

@[simp] theorem sendReady_mem (x1) (x2 : Block) : (sendReady x1 x2).mem.bytes = x2.mem.bytes := by
  unfold sendReady
  refine (forEach_mem _ _ _ ?_).trans ?_
  · intros y0 y1
    refine (sendCtrlFor_mem ..).trans ?_
    rfl
  · rfl

@[simp] theorem startColl_wf {x1} {x2} {x3 : Block} (h : mapWf 0 x3.mem.bytes = true) : mapWf 0 (startColl x1 x2 x3).mem.bytes = true := by
  unfold startColl
  refine ite_wf ?_ ?_
  · refine startSend_wf ?_
    exact h
  · refine ite_wf ?_ ?_
    · refine wf_eq (logFault_mem ..) ?_
      refine wf_eq (failDesc_mem ..) ?_
      refine wf_eq (modColl_mem ..) ?_
      exact h
    · refine ite_wf ?_ ?_
      · refine wf_eq (modColl_mem ..) ?_
        dsimp -zeta only
        exact h
      · refine ite_wf ?_ ?_
        · extract_lets y0 y1
          have h2 : mapWf 0 y1.mem.bytes = true := by
            unfold y1
            refine wf_eq (collBit_mem ..) ?_
            dsimp -zeta only
            exact h
          clear_value y1
          refine collsGo_wf ?_
          refine pullShards_wf ?_
          refine wf_eq (modColl_mem ..) ?_
          exact h2
        · extract_lets y3
          have h4 : mapWf 0 y3.mem.bytes = true := by
            unfold y3
            refine ite_wf ?_ ?_
            · refine zeroOwned_wf ?_
              exact h
            · exact h
          clear_value y3
          split
          rename_i y5 y6 y7 y8
          have h9 : mapWf 0 y7.mem.bytes = true := by
            refine wf_eq (congrArg (fun p => p.2.mem.bytes) y8).symm ?_
            refine ite_wf_2 ?_ ?_
            · split
              rename_i y10 y11 y12 y13
              have h14 : mapWf 0 y12.mem.bytes = true := by
                refine wf_eq (congrArg (fun p => p.2.mem.bytes) y13).symm ?_
                refine memRead_wf ?_
                exact h4
              dsimp -zeta only
              exact h14
            · dsimp -zeta only
              exact h4
          extract_lets y15 y16 y17 y18 y19
          have h20 : mapWf 0 y15.mem.bytes = true := by
            unfold y15
            refine wf_eq (modColl_mem ..) ?_
            exact h9
          clear_value y15
          have h21 : mapWf 0 y16.mem.bytes = true := by
            unfold y16
            refine wf_eq (sendReady_mem ..) ?_
            exact h20
          clear_value y16
          have h22 : mapWf 0 y19.mem.bytes = true := by
            unfold y19
            dsimp -zeta only
            exact h21
          clear_value y19
          refine collsGo_wf ?_
          refine forEach_wf _ _ _ ?_ ?_
          · exact h22
          · intros y23 y24 y25
            refine wf_eq (takeReady_mem ..) ?_
            exact y25

@[simp] theorem issueA_wf {x1} {x2} {x3} {x4} {x5} {x6} {x7} {x8 : Block} (h : mapWf 0 x8.mem.bytes = true) : mapWf 0 (issueA x1 x2 x3 x4 x5 x6 x7 x8).mem.bytes = true := by
  unfold issueA
  refine ite_wf ?_ ?_
  · refine wf_eq (discardSlot_mem ..) ?_
    exact h
  · refine ite_wf ?_ ?_
    · refine ite_wf ?_ ?_
      · refine wf_eq (freezeFor_mem ..) ?_
        exact h
      · refine wf_eq (discardSlot_mem ..) ?_
        exact h
    · extract_lets y0 y1 y2 y3
      have h4 : mapWf 0 y2.mem.bytes = true := by
        unfold y2
        refine wf_eq (slotFaultIf_mem ..) ?_
        exact h
      clear_value y2
      have h5 : mapWf 0 y3.mem.bytes = true := by
        unfold y3
        refine wf_eq (slotFaultIf_mem ..) ?_
        exact h4
      clear_value y3
      split
      rename_i y6 y7 y8 y9
      have h10 : mapWf 0 y8.mem.bytes = true := by
        refine wf_eq (congrArg (fun p => p.2.mem.bytes) y9).symm ?_
        refine wf_eq (pushDesc_mem ..) ?_
        exact h5
      extract_lets y11 y12
      refine startColl_wf ?_
      dsimp -zeta only
      exact h10

@[simp] theorem doReady_wf {x1} {x2} {x3} {x4} {x5} {x6} {x7 : Block} (h : mapWf 0 x7.mem.bytes = true) : mapWf 0 (doReady x1 x2 x3 x4 x5 x6 x7).mem.bytes = true := by
  unfold doReady
  refine ite_wf ?_ ?_
  · exact h
  · extract_lets y0 y1
    split
    · rename_i y2 y3
      exact h
    · rename_i y4 y5
      dsimp -zeta only
      exact h
    · rename_i y6 y7
      refine collsGo_wf ?_
      refine wf_eq (takeReady_mem ..) ?_
      exact h

@[simp] theorem phase2_wf {x1} {x2} {x3 : Block} (h : mapWf 0 x3.mem.bytes = true) : mapWf 0 (phase2 x1 x2 x3).mem.bytes = true := by
  unfold phase2
  extract_lets y0 y1
  refine forEach_wf _ _ _ ?_ ?_
  · exact h
  · intros y2 y3 y4
    extract_lets y5
    refine contribute_wf ?_
    exact y4

@[simp] theorem performEffect_wf {x1} {x2 : Block} (h : mapWf 0 x2.mem.bytes = true) : mapWf 0 (performEffect x1 x2).mem.bytes = true := by
  unfold performEffect
  extract_lets y0
  refine ite_wf ?_ ?_
  · split
    rename_i y1 y2 y3 y4
    have h5 : mapWf 0 y3.mem.bytes = true := by
      refine wf_eq (congrArg (fun p => p.2.mem.bytes) y4).symm ?_
      refine effectWrite_wf ?_
      exact h
    refine ite_wf ?_ ?_
    · refine ite_wf ?_ ?_
      · refine wf_eq (doRejection_mem ..) ?_
        exact h5
      · refine wf_eq (sendCtrl_mem ..) ?_
        exact h5
    · refine collsGo_wf ?_
      refine wf_eq (collArrive_mem ..) ?_
      refine wf_eq (packetToken_mem ..) ?_
      exact h5
  · refine ite_wf ?_ ?_
    · refine wf_eq (packetToken_mem ..) ?_
      refine effectRead_wf ?_
      exact h
    · refine wf_eq (packetToken_mem ..) ?_
      exact h

@[simp] theorem drainOne_wf {x1 : Block} (h : mapWf 0 x1.mem.bytes = true) : mapWf 0 (drainOne x1).mem.bytes = true := by
  unfold drainOne
  split
  · rename_i y0 y1
    exact h
  · rename_i y2 y3 y4 y5
    refine performEffect_wf ?_
    dsimp -zeta only
    exact h

@[simp] theorem drainLoop_wf {x1 : Block} (h : mapWf 0 x1.mem.bytes = true) : mapWf 0 (drainLoop x1).mem.bytes = true := by
  unfold drainLoop
  refine iter_wf _ _ _ ?_ ?_
  · exact h
  · intros y0 y1
    refine drainOne_wf ?_
    exact y1

@[simp] theorem doPhase2_wf {x1} {x2 : Block} (h : mapWf 0 x2.mem.bytes = true) : mapWf 0 (doPhase2 x1 x2).mem.bytes = true := by
  unfold doPhase2
  split
  · rename_i y0 y1
    exact h
  · rename_i y2 y3 y4
    extract_lets y5
    have h6 : mapWf 0 y5.mem.bytes = true := by
      unfold y5
      refine wf_eq (modColl_mem ..) ?_
      exact h
    clear_value y5
    refine collsGo_wf ?_
    refine phase2_wf ?_
    exact h6

@[simp] theorem doA_wf {x1} {x2} {x3} {x4} {x5} {x6 : Block} (h : mapWf 0 x6.mem.bytes = true) : mapWf 0 (doA x1 x2 x3 x4 x5 x6).mem.bytes = true := by
  unfold doA
  refine withSlot_wf (hf := ?_) ?_
  · intros y0 y1 y2
    refine issueA_wf ?_
    exact y2
  · exact h

@[simp] theorem markUnwritten_mem (x1) (x2 : Block) : (markUnwritten x1 x2).mem.bytes = x2.mem.bytes := by
  unfold markUnwritten
  dsimp -zeta only

@[simp] theorem setEpoch_mem (x1) (x2 : Block) : (setEpoch x1 x2).mem.bytes = x2.mem.bytes := by
  unfold setEpoch; simp

@[simp] theorem pendingBit_mem (x1 : Block) : (pendingBit x1).mem.bytes = x1.mem.bytes := by
  unfold pendingBit; simp

@[simp] theorem adoptNow_mem (x1 : Block) : (adoptNow x1).mem.bytes = x1.mem.bytes := by
  unfold adoptNow; simp

@[simp] theorem adoptOwn_mem (x1 : Block) : (adoptOwn x1).2.mem.bytes = x1.mem.bytes := by
  unfold adoptOwn
  refine ite_mem_2 ?_ ?_
  · refine ite_mem_2 ?_ ?_
    · extract_lets y0
      have h1 : y0.mem.bytes = x1.mem.bytes := by
        unfold y0
        refine (adoptNow_mem ..).trans ?_
        rfl
      clear_value y0
      dsimp -zeta only
      refine (pendingBit_mem ..).trans ?_
      refine (setDecl_mem ..).trans ?_
      refine (setEpoch_mem ..).trans ?_
      exact h1
    · dsimp -zeta only
  · extract_lets y2 y3
    have h4 : y3.mem.bytes = x1.mem.bytes := by
      unfold y3
      refine (adoptNow_mem ..).trans ?_
      rfl
    clear_value y3
    refine ite_mem_2 ?_ ?_
    · refine ite_mem_2 ?_ ?_
      · dsimp -zeta only
        refine (pendingBit_mem ..).trans ?_
        refine (setDecl_mem ..).trans ?_
        refine (setEpoch_mem ..).trans ?_
        exact h4
      · dsimp -zeta only
        refine (pendingBit_mem ..).trans ?_
        refine (setDecl_mem ..).trans ?_
        rfl
    · dsimp -zeta only
      refine (pendingBit_mem ..).trans ?_
      refine (setDecl_mem ..).trans ?_
      rfl

@[simp] theorem adoptSnap_mem (x1 : Block) : (adoptSnap x1).mem.bytes = x1.mem.bytes := by
  unfold adoptSnap
  dsimp -zeta only

@[simp] theorem setCsetWord_mem (x1) (x2) (x3 : Block) : (setCsetWord x1 x2 x3).mem.bytes = x3.mem.bytes := by
  unfold setCsetWord; simp

@[simp] theorem reportPrec_mem (x1) (x2 : Block) : (reportPrec x1 x2).mem.bytes = x2.mem.bytes := by
  unfold reportPrec; split <;> simp [*]

@[simp] theorem countReserve_mem (x1 : Block) : (countReserve x1).mem.bytes = x1.mem.bytes := by
  unfold countReserve; simp

@[simp] theorem dropPage_mem (x1) (x2 : Block) : (dropPage x1 x2).mem.bytes = x2.mem.bytes := by
  unfold dropPage
  extract_lets y0 y1 y2 y3 y4
  have h5 : y3.mem.bytes = x2.mem.bytes := by
    unfold y3
    dsimp -zeta only
  clear_value y3
  have h6 : y4.bytes = x2.mem.bytes := by
    unfold y4
    exact h5
  clear_value y4
  refine ite_mem ?_ ?_
  · exact h5
  · refine (pmapSet_mem ..).trans ?_
    dsimp -zeta only
    exact h6

@[simp] theorem dropPages_mem (x1) (x2 : Block) : (dropPages x1 x2).mem.bytes = x2.mem.bytes := by
  unfold dropPages
  refine ite_mem ?_ ?_
  · rfl
  · refine (countReserve_mem ..).trans ?_
    refine (forEach_mem _ _ _ ?_).trans ?_
    · intros y0 y1
      refine (dropPage_mem ..).trans ?_
      rfl
    · rfl

@[simp] theorem failVote_mem (x1 : Block) : (failVote x1).mem.bytes = x1.mem.bytes := by
  unfold failVote
  extract_lets y0 y1 y2
  have h3 : y0.mem.bytes = x1.mem.bytes := by
    unfold y0
    refine (forEach_mem _ _ _ ?_).trans ?_
    · intros y4 y5
      refine (dropPages_mem ..).trans ?_
      rfl
    · rfl
  clear_value y0
  have h6 : y2.mem.bytes = x1.mem.bytes := by
    unfold y2
    refine (stepBit_mem ..).trans ?_
    dsimp -zeta only
    exact h3
  clear_value y2
  refine (reportPrec_mem ..).trans ?_
  exact h6

@[simp] theorem setDecs_mem (x1) (x2 : Block) : (setDecs x1 x2).mem.bytes = x2.mem.bytes := by
  unfold setDecs
  dsimp -zeta only

@[simp] theorem afterRound1_mem (x1 : Block) : (afterRound1 x1).mem.bytes = x1.mem.bytes := by
  unfold afterRound1; simp

@[simp] theorem modeDone_mem (x1 : Block) : (modeDone x1).mem.bytes = x1.mem.bytes := by
  unfold modeDone; split <;> simp [*]

@[simp] theorem mapAway_mem (x1) (x2) (x3 : Block) : (mapAway x1 x2 x3).mem.bytes = x3.mem.bytes := by
  unfold mapAway; simp

@[simp] theorem takePage_mem (x1) (x2) (x3 : Block) : (takePage x1 x2 x3).mem.bytes = x3.mem.bytes := by
  unfold takePage
  extract_lets y0 y1 y2
  have h3 : y2.mem.bytes = x3.mem.bytes := by
    unfold y2
    dsimp -zeta only
  clear_value y2
  clear_value y0
  split
  · rename_i y4 y5 y6
    refine (mapAway_mem ..).trans ?_
    exact h3
  · rename_i y7
    refine (pmapSet_mem ..).trans ?_
    exact h3

@[simp] theorem takePages_mem (x1) (x2) (x3 : Block) : (takePages x1 x2 x3).mem.bytes = x3.mem.bytes := by
  unfold takePages
  refine ite_mem ?_ ?_
  · rfl
  · refine (countReserve_mem ..).trans ?_
    refine (forEach_mem _ _ _ ?_).trans ?_
    · intros y0 y1
      refine (takePage_mem ..).trans ?_
      rfl
    · rfl

@[simp] theorem sendVote_mem (x1) (x2) (x3 : Block) : (sendVote x1 x2 x3).mem.bytes = x3.mem.bytes := by
  unfold sendVote
  refine (forEach_mem _ _ _ ?_).trans ?_
  · intros y0 y1
    refine (sendCtrl_mem ..).trans ?_
    rfl
  · rfl

@[simp] theorem allocReserve_mem (x1 : Block) : (allocReserve x1).mem.bytes = x1.mem.bytes := by
  unfold allocReserve
  extract_lets y0
  have h1 : y0.mem.bytes = x1.mem.bytes := by
    unfold y0
    refine (forEach_mem _ _ _ ?_).trans ?_
    · intros y2 y3
      split
      · rename_i y4 y5 y6
        extract_lets y7
        refine (takePages_mem ..).trans ?_
        refine (setDecs_mem ..).trans ?_
        rfl
      · rename_i y8 y9
        refine (setDecs_mem ..).trans ?_
        rfl
    · rfl
  clear_value y0
  refine (sendVote_mem ..).trans ?_
  exact h1

@[simp] theorem pinWords_mem (x1 : Block) : (pinWords x1).mem.bytes = x1.mem.bytes := by
  unfold pinWords; simp

@[simp] theorem applyDec_mem (x1) (x2 : Block) : (applyDec x1 x2).mem.bytes = x2.mem.bytes := by
  unfold applyDec; simp

@[simp] theorem bufPut_mem (x1) (x2) (x3 : Block) : (bufPut x1 x2 x3).mem.bytes = x3.mem.bytes := by
  unfold bufPut
  dsimp -zeta only

@[simp] theorem lvlDec_mem (x1 : Block) (x2) (x3 : Block) : (lvlDec x1 x2 x3).mem.bytes = x3.mem.bytes := by
  unfold lvlDec
  extract_lets y0 y1
  refine ite_mem ?_ ?_
  · rfl
  · split
    · rename_i y2 y3
      rfl
    · rename_i y4 y5 y6
      refine (bufPut_mem ..).trans ?_
      rfl

@[simp] theorem lvlAll_mem (x1 : Block) : (lvlAll x1).mem.bytes = x1.mem.bytes := by
  unfold lvlAll
  refine (forEach_mem _ _ _ ?_).trans ?_
  · intros y0 y1
    refine (lvlDec_mem ..).trans ?_
    rfl
  · rfl

@[simp] theorem finishVote_mem (x1 : Block) : (finishVote x1).mem.bytes = x1.mem.bytes := by
  unfold finishVote
  extract_lets y0 y1 y2 y3 y4 y5 y6 y7 y8 y9 y10 y11 y12 y13 y14
  have h15 : y1.mem.bytes = x1.mem.bytes := by
    unfold y1
    refine (setDecs_mem ..).trans ?_
    rfl
  clear_value y1
  have h16 : y5.mem.bytes = x1.mem.bytes := by
    unfold y5
    refine (pinWords_mem ..).trans ?_
    refine (forEach_mem _ _ _ ?_).trans ?_
    · intros y17 y18
      refine (applyDec_mem ..).trans ?_
      rfl
    · exact h15
  clear_value y5
  have h19 : y6.mem.bytes = x1.mem.bytes := by
    unfold y6
    refine (lvlAll_mem ..).trans ?_
    exact h16
  clear_value y6
  have h20 : y7.mem.bytes = x1.mem.bytes := by
    unfold y7
    refine (setDom_mem ..).trans ?_
    exact h19
  clear_value y7
  have h21 : y9.mem.bytes = x1.mem.bytes := by
    unfold y9
    dsimp -zeta only
    exact h20
  clear_value y9
  have h22 : y10.mem.bytes = x1.mem.bytes := by
    unfold y10
    refine ite_mem ?_ ?_
    · refine (bumpNum_mem ..).trans ?_
      exact h21
    · exact h21
  clear_value y10
  have h23 : y11.mem.bytes = x1.mem.bytes := by
    unfold y11
    refine (bumpNum_mem ..).trans ?_
    exact h22
  clear_value y11
  have h24 : y12.mem.bytes = x1.mem.bytes := by
    unfold y12
    refine (bumpNum_mem ..).trans ?_
    exact h23
  clear_value y12
  have h25 : y13.mem.bytes = x1.mem.bytes := by
    unfold y13
    refine (setNum_mem ..).trans ?_
    exact h24
  clear_value y13
  have h26 : y14.mem.bytes = x1.mem.bytes := by
    unfold y14
    refine (modeDone_mem ..).trans ?_
    exact h25
  clear_value y14
  refine (reportPrec_mem ..).trans ?_
  exact h26

@[simp] theorem formProposals_mem (x1) (x2 : Block) : (formProposals x1 x2).mem.bytes = x2.mem.bytes := by
  unfold formProposals; simp

@[simp] theorem voteDiscard_mem (x1 : Block) : (voteDiscard x1).mem.bytes = x1.mem.bytes := by
  unfold voteDiscard; simp

@[simp] theorem afterRound2_mem (x1 : Block) : (afterRound2 x1).mem.bytes = x1.mem.bytes := by
  unfold afterRound2
  extract_lets y0
  refine (setDecs_mem ..).trans ?_
  refine (forEach_mem _ _ _ ?_).trans ?_
  · intros y1 y2
    refine ite_mem ?_ ?_
    · refine (dropPages_mem ..).trans ?_
      rfl
    · rfl
  · rfl

@[simp] theorem revokeDec_mem (x1) (x2 : Block) : (revokeDec x1 x2).mem.bytes = x2.mem.bytes := by
  unfold revokeDec
  refine ite_mem ?_ ?_
  · rfl
  · extract_lets y0 y1 y2 y3 y4 y5 y6 y7 y8
    have h9 : y3.mem.bytes = x2.mem.bytes := by
      unfold y3
      refine (setCsetWord_mem ..).trans ?_
      rfl
    clear_value y3
    have h10 : y5.mem.bytes = x2.mem.bytes := by
      unfold y5
      dsimp -zeta only
      exact h9
    clear_value y5
    have h11 : y6.mem.bytes = x2.mem.bytes := by
      unfold y6
      refine (takePages_mem ..).trans ?_
      exact h10
    clear_value y6
    have h12 : y7.mem.bytes = x2.mem.bytes := by
      unfold y7
      refine (setNum_mem ..).trans ?_
      exact h11
    clear_value y7
    refine ite_mem ?_ ?_
    · exact h9
    · refine ite_mem ?_ ?_
      · dsimp -zeta only
        exact h12
      · exact h12

@[simp] theorem revokeClean_mem (x1 : Block) : (revokeClean x1).mem.bytes = x1.mem.bytes := by
  unfold revokeClean
  refine ite_mem ?_ ?_
  · rfl
  · extract_lets y0 y1
    have h2 : y0.mem.bytes = x1.mem.bytes := by
      unfold y0
      refine (setDecs_mem ..).trans ?_
      refine (forEach_mem _ _ _ ?_).trans ?_
      · intros y3 y4
        refine (revokeDec_mem ..).trans ?_
        rfl
      · rfl
    clear_value y0
    refine (setNum_mem ..).trans ?_
    exact h2

@[simp] theorem spendVotes_mem (x1 : Block) : (spendVotes x1).mem.bytes = x1.mem.bytes := by
  unfold spendVotes; simp

@[simp] theorem modPort_mem (x1) (x2) (x3 : Block) : (modPort x1 x2 x3).mem.bytes = x3.mem.bytes := by
  unfold modPort; split <;> simp [*]

@[simp] theorem setPstate_mem (x1) (x2 : Block) : (setPstate x1 x2).mem.bytes = x2.mem.bytes := by
  unfold setPstate; simp

@[simp] theorem leaveActive_mem (x1 : Block) : (leaveActive x1).mem.bytes = x1.mem.bytes := by
  unfold leaveActive; split <;> simp [*]

@[simp] theorem respond_mem (x1) (x2) (x3) (x4) (x5 : Block) : (respond x1 x2 x3 x4 x5).mem.bytes = x5.mem.bytes := by
  unfold respond; simp

@[simp] theorem vstErr_mem (x1) (x2) (x3 : Block) : (vstErr x1 x2 x3).mem.bytes = x3.mem.bytes := by
  unfold vstErr; simp

@[simp] theorem enterActive_mem (x1 : Block) : (enterActive x1).mem.bytes = x1.mem.bytes := by
  unfold enterActive; split <;> simp [*]

@[simp] theorem longDone_mem (x1) (x2) (x3) (x4 : Block) : (longDone x1 x2 x3 x4).mem.bytes = x4.mem.bytes := by
  unfold longDone; simp

@[simp] theorem keepContext_mem (x1) (x2) (x3 : Block) : (keepContext x1 x2 x3).mem.bytes = x3.mem.bytes := by
  unfold keepContext; simp

@[simp] theorem sendContextTo_mem (x1) (x2) (x3 : Block) : (sendContextTo x1 x2 x3).mem.bytes = x3.mem.bytes := by
  unfold sendContextTo
  refine (forEach_mem _ _ _ ?_).trans ?_
  · intros y0 y1
    extract_lets y2
    refine (sendCtrl_mem ..).trans ?_
    rfl
  · rfl

@[simp] theorem loadImage_mem (x1) (x2) (x3 : Block) : (loadImage x1 x2 x3).mem.bytes = x3.mem.bytes := by
  unfold loadImage
  dsimp -zeta only

@[simp] theorem orphanCheck_mem (x1 : Block) : (orphanCheck x1).mem.bytes = x1.mem.bytes := by
  unfold orphanCheck; simp

@[simp] theorem adoptMarks_mem (x1 : Block) : (adoptMarks x1).mem.bytes = x1.mem.bytes := by
  unfold adoptMarks; simp

@[simp] theorem sendContext_mem (x1) (x2 : Block) : (sendContext x1 x2).mem.bytes = x2.mem.bytes := by
  unfold sendContext
  extract_lets y0 y1 y2 y3
  have h4 : y1.mem.bytes = x2.mem.bytes := by
    unfold y1
    refine (setRecov_mem ..).trans ?_
    rfl
  clear_value y1
  have h5 : y2.mem.bytes = x2.mem.bytes := by
    unfold y2
    refine (forEach_mem _ _ _ ?_).trans ?_
    · intros y6 y7
      refine (sendContextTo_mem ..).trans ?_
      rfl
    · exact h4
  clear_value y2
  dsimp -zeta only
  exact h5

@[simp] theorem keepManifest_mem (x1) (x2 : Block) : (keepManifest x1 x2).mem.bytes = x2.mem.bytes := by
  unfold keepManifest; simp

@[simp] theorem armInjection_mem (x1) (x2 : Block) : (armInjection x1 x2).mem.bytes = x2.mem.bytes := by
  unfold armInjection
  extract_lets y0 y1 y2
  have h3 : y2.mem.bytes = x2.mem.bytes := by
    unfold y2
    dsimp -zeta only
  clear_value y2
  refine ite_mem ?_ ?_
  · refine (setNum_mem ..).trans ?_
    rfl
  · refine (setNum_mem ..).trans ?_
    exact h3

@[simp] theorem reportShape_mem (x1 : Block) : (reportShape x1).mem.bytes = x1.mem.bytes := by
  unfold reportShape; simp

@[simp] theorem actionCper_mem (x1) (x2) (x3) (x4) (x5 : Block) : (actionCper x1 x2 x3 x4 x5).mem.bytes = x5.mem.bytes := by
  unfold actionCper; simp

@[simp] theorem fenceRec_mem (x1) (x2) (x3) (x4) (x5 : Block) : (fenceRec x1 x2 x3 x4 x5).mem.bytes = x5.mem.bytes := by
  unfold fenceRec; simp

@[simp] theorem fenceGal_mem (x1) (x2) (x3) (x4 : Block) : (fenceGal x1 x2 x3 x4).mem.bytes = x4.mem.bytes := by
  unfold fenceGal; split <;> simp [*]

@[simp] theorem fenceBanister_mem (x1) (x2) (x3 : Block) : (fenceBanister x1 x2 x3).mem.bytes = x3.mem.bytes := by
  unfold fenceBanister; split <;> simp [*]

@[simp] theorem fenceStore_mem (x1) (x2) (x3 : Block) : (fenceStore x1 x2 x3).mem.bytes = x3.mem.bytes := by
  unfold fenceStore; split <;> simp [*]

@[simp] theorem sramEvent_mem (x1) (x2) (x3 : Block) : (sramEvent x1 x2 x3).mem.bytes = x3.mem.bytes := by
  unfold sramEvent
  extract_lets y0 y1
  refine ite_mem ?_ ?_
  · refine (fenceStore_mem ..).trans ?_
    rfl
  · dsimp -zeta only

@[simp] theorem classify_mem (x1) (x2 : Block) : (classify x1 x2).mem.bytes = x2.mem.bytes := by
  unfold classify
  extract_lets y0 y1 y2
  have h3 : y1.mem.bytes = x2.mem.bytes := by
    unfold y1
    refine ite_mem ?_ ?_
    · refine (sramEvent_mem ..).trans ?_
      rfl
    · rfl
  clear_value y1
  refine ite_mem ?_ ?_
  · dsimp -zeta only
    exact h3
  · exact h3

@[simp] theorem doQueuePop_mem (x1) (x2 : Block) : (doQueuePop x1 x2).mem.bytes = x2.mem.bytes := by
  unfold doQueuePop
  split
  · rename_i y0 y1
    rfl
  · rename_i y2 y3 y4 y5
    refine ite_mem ?_ ?_
    · rfl
    · extract_lets y6 y7 y8
      have h9 : y7.mem.bytes = x2.mem.bytes := by
        unfold y7
        dsimp -zeta only
      clear_value y7
      have h10 : y8.mem.bytes = x2.mem.bytes := by
        unfold y8
        refine ite_mem ?_ ?_
        · exact h9
        · refine (makeCper_mem ..).trans ?_
          exact h9
      clear_value y8
      refine ite_mem ?_ ?_
      · exact h10
      · refine (classify_mem ..).trans ?_
        exact h10

@[simp] theorem drainHeld_mem (x1 : Block) : (drainHeld x1).mem.bytes = x1.mem.bytes := by
  unfold drainHeld
  refine (forEach_mem _ _ _ ?_).trans ?_
  · intros y0 y1
    refine (iter_mem _ _ _ ?_).trans ?_
    · intros y2
      refine (doQueuePop_mem ..).trans ?_
      rfl
    · rfl
  · rfl

@[simp] theorem doFloorWrite_mem (x1 : Block) : (doFloorWrite x1).mem.bytes = x1.mem.bytes := by
  unfold doFloorWrite
  split
  · rename_i y0 y1
    rfl
  · rename_i y2 y3 y4 y5
    refine ite_mem ?_ ?_
    · dsimp -zeta only
    · rfl

@[simp] theorem doAdapterRetry_mem (x1) (x2 : Block) : (doAdapterRetry x1 x2).mem.bytes = x2.mem.bytes := by
  unfold doAdapterRetry; split <;> simp [*]

@[simp] theorem sweepEnd_mem (x1) (x2) (x3 : Block) : (sweepEnd x1 x2 x3).mem.bytes = x3.mem.bytes := by
  unfold sweepEnd; simp

@[simp] theorem fenceArr_mem (x1) (x2) (x3) (x4) (x5 : Block) : (fenceArr x1 x2 x3 x4 x5).mem.bytes = x5.mem.bytes := by
  unfold fenceArr
  refine ite_mem ?_ ?_
  · rfl
  · extract_lets y0 y1
    have h2 : y0.mem.bytes = x5.mem.bytes := by
      unfold y0
      refine (fenceRec_mem ..).trans ?_
      rfl
    clear_value y0
    have h3 : y1.mem.bytes = x5.mem.bytes := by
      unfold y1
      refine (forEach_mem _ _ _ ?_).trans ?_
      · intros y4 y5
        refine (floorRec_mem ..).trans ?_
        rfl
      · exact h2
    clear_value y1
    refine ite_mem ?_ ?_
    · refine (fenceGal_mem ..).trans ?_
      exact h3
    · exact h3

@[simp] theorem fenceQuad_mem (x1) (x2) (x3 : Block) : (fenceQuad x1 x2 x3).mem.bytes = x3.mem.bytes := by
  unfold fenceQuad; split <;> simp [*]

@[simp] theorem bridgeFlit_mem (x1 : Block) : (bridgeFlit x1).mem.bytes = x1.mem.bytes := by
  unfold bridgeFlit
  split
  rename_i y0 y1 y2 y3
  have h4 : y2.mem.bytes = x1.mem.bytes := by
    refine (congrArg (fun p => p.2.mem.bytes) y3).symm.trans ?_
    refine (inject_mem ..).trans ?_
    rfl
  refine ite_mem ?_ ?_
  · refine (detect_mem ..).trans ?_
    exact h4
  · exact h4

@[simp] theorem targetedHit_mem (x1) (x2 : Block) : (targetedHit x1 x2).2.mem.bytes = x2.mem.bytes := by
  unfold targetedHit
  extract_lets y0 y1
  refine ite_mem_2 ?_ ?_
  · dsimp -zeta only
    refine (detect_mem ..).trans ?_
    refine (injectFire_mem ..).trans ?_
    rfl
  · dsimp -zeta only

@[simp] theorem sweepStop_mem (x1 : Block) : (sweepStop x1).mem.bytes = x1.mem.bytes := by
  unfold sweepStop; split <;> simp [*]

@[simp] theorem sweepYield_mem (x1 : Block) : (sweepYield x1).mem.bytes = x1.mem.bytes := by
  unfold sweepYield
  split
  · rename_i y0 y1 y2
    refine ite_mem ?_ ?_
    · refine (sweepStop_mem ..).trans ?_
      rfl
    · rfl
  · rename_i y3 y4
    rfl

@[simp] theorem spoilLandings_mem (x1) (x2) (x3 : Block) : (spoilLandings x1 x2 x3).mem.bytes = x3.mem.bytes := by
  unfold spoilLandings; simp

@[simp] theorem setGuard_mem (x1) (x2) (x3 : Block) : (setGuard x1 x2 x3).mem.bytes = x3.mem.bytes := by
  unfold setGuard; split <;> simp [*]

@[simp] theorem guardBoundary_mem (x1 : Block) : (guardBoundary x1).mem.bytes = x1.mem.bytes := by
  unfold guardBoundary
  refine ite_mem ?_ ?_
  · rfl
  · extract_lets y0 y1 y2 y3 y4 y5 y6
    have h7 : y1.mem.bytes = x1.mem.bytes := by
      unfold y1
      refine (forEach_mem _ _ _ ?_).trans ?_
      · intros y8 y9
        refine (setGuard_mem ..).trans ?_
        rfl
      · rfl
    clear_value y1
    have h10 : y2.mem.bytes = x1.mem.bytes := by
      unfold y2
      refine (forEach_mem _ _ _ ?_).trans ?_
      · intros y11 y12
        refine (setGuard_mem ..).trans ?_
        rfl
      · exact h7
    clear_value y2
    have h13 : y3.mem.bytes = x1.mem.bytes := by
      unfold y3
      refine (forEach_mem _ _ _ ?_).trans ?_
      · intros y14 y15
        refine (setGuard_mem ..).trans ?_
        rfl
      · exact h10
    clear_value y3
    have h16 : y5.mem.bytes = x1.mem.bytes := by
      unfold y5
      refine ite_mem ?_ ?_
      · refine (setRelBit_mem ..).trans ?_
        refine (actionCper_mem ..).trans ?_
        refine (floorRec_mem ..).trans ?_
        dsimp -zeta only
        exact h13
      · exact h13
    clear_value y5
    dsimp -zeta only
    exact h16

@[simp] theorem relBoundary_mem (x1 : Block) : (relBoundary x1).mem.bytes = x1.mem.bytes := by
  unfold relBoundary; simp

@[simp] theorem narrowArr_mem (x1) (x2) (x3) (x4) (x5 : Block) : (narrowArr x1 x2 x3 x4 x5).mem.bytes = x5.mem.bytes := by
  unfold narrowArr
  extract_lets y0
  refine ite_mem ?_ ?_
  · rfl
  · refine ite_mem ?_ ?_
    · refine (fenceRec_mem ..).trans ?_
      rfl
    · refine (fenceArr_mem ..).trans ?_
      rfl

@[simp] theorem hardFault_mem (x1) (x2) (x3 : Block) : (hardFault x1 x2 x3).mem.bytes = x3.mem.bytes := by
  unfold hardFault; split <;> simp [*]

@[simp] theorem doBridgeCrc_mem (x1 : Block) : (doBridgeCrc x1).mem.bytes = x1.mem.bytes := by
  unfold doBridgeCrc; simp

@[simp] theorem sweepDue_mem (x1) (x2 : Block) : (sweepDue x1 x2).mem.bytes = x2.mem.bytes := by
  unfold sweepDue
  refine ite_mem ?_ ?_
  · rfl
  · split
    · rename_i y0 y1
      rfl
    · rename_i y2 y3 y4
      dsimp -zeta only

@[simp] theorem sweepAt_mem (x1) (x2) (x3) (x4 : Block) : (sweepAt x1 x2 x3 x4).mem.bytes = x4.mem.bytes := by
  unfold sweepAt; simp

@[simp] theorem doMarginSweep_mem (x1 : Block) : (doMarginSweep x1).mem.bytes = x1.mem.bytes := by
  unfold doMarginSweep
  refine ite_mem ?_ ?_
  · rfl
  · extract_lets y0 y1 y2
    have h3 : y0.mem.bytes = x1.mem.bytes := by
      unfold y0
      refine (setRelBit_mem ..).trans ?_
      rfl
    clear_value y0
    have h4 : y1.mem.bytes = x1.mem.bytes := by
      unfold y1
      refine (sweepDue_mem ..).trans ?_
      refine (sweepDue_mem ..).trans ?_
      exact h3
    clear_value y1
    split
    · rename_i y5 y6
      exact h4
    · rename_i y7 y8 y9
      refine (setRelBit_mem ..).trans ?_
      refine (sweepAt_mem ..).trans ?_
      exact h4

@[simp] theorem askGuard_mem (x1) (x2 : Block) : (askGuard x1 x2).mem.bytes = x2.mem.bytes := by
  unfold askGuard
  dsimp -zeta only

@[simp] theorem guardAction_mem (x1) (x2) (x3 : Block) : (guardAction x1 x2 x3).mem.bytes = x3.mem.bytes := by
  unfold guardAction
  extract_lets y0 y1
  refine ite_mem ?_ ?_
  · refine (fenceGal_mem ..).trans ?_
    rfl
  · refine ite_mem ?_ ?_
    · refine ite_mem ?_ ?_
      · refine ite_mem ?_ ?_
        · refine (askGuard_mem ..).trans ?_
          rfl
        · rfl
      · refine ite_mem ?_ ?_
        · dsimp -zeta only
        · refine (fenceGal_mem ..).trans ?_
          rfl
    · refine ite_mem ?_ ?_
      · refine (fenceGal_mem ..).trans ?_
        rfl
      · refine ite_mem ?_ ?_
        · refine (askGuard_mem ..).trans ?_
          rfl
        · rfl

@[simp] theorem vestibuleFlit_mem (x1) (x2 : Block) : (vestibuleFlit x1 x2).mem.bytes = x2.mem.bytes := by
  unfold vestibuleFlit
  split
  rename_i y0 y1 y2 y3
  have h4 : y2.mem.bytes = x2.mem.bytes := by
    refine (congrArg (fun p => p.2.mem.bytes) y3).symm.trans ?_
    refine (inject_mem ..).trans ?_
    rfl
  refine ite_mem ?_ ?_
  · refine (detectAt_mem ..).trans ?_
    exact h4
  · exact h4

@[simp] theorem marginalEvent_mem (x1) (x2 : Block) : (marginalEvent x1 x2).mem.bytes = x2.mem.bytes := by
  unfold marginalEvent; split <;> simp [*]

@[simp] theorem doCperNotify_mem (x1 : Block) : (doCperNotify x1).mem.bytes = x1.mem.bytes := by
  unfold doCperNotify; split <;> simp [*]

@[simp] theorem suitesAtWork_mem (x1) (x2) (x3 : Block) : (suitesAtWork x1 x2 x3).mem.bytes = x3.mem.bytes := by
  unfold suitesAtWork
  dsimp -zeta only

@[simp] theorem clearFloor_mem (x1 : Block) : (clearFloor x1).mem.bytes = x1.mem.bytes := by
  unfold clearFloor; simp

@[simp] theorem checkArmed_mem (x1 : Block) : (checkArmed x1).mem.bytes = x1.mem.bytes := by
  unfold checkArmed; split <;> simp [*]

@[simp] theorem removeGuard_mem (x1) (x2 : Block) : (removeGuard x1 x2).mem.bytes = x2.mem.bytes := by
  unfold removeGuard
  dsimp -zeta only

@[simp] theorem doSweepPoint_mem (x1) (x2 : Block) : (doSweepPoint x1 x2).mem.bytes = x2.mem.bytes := by
  unfold doSweepPoint
  split
  · rename_i y0 y1
    rfl
  · rename_i y2 y3 y4
    refine ite_mem ?_ ?_
    · rfl
    · extract_lets y5
      split
      rename_i y6 y7 y8 y9
      have h10 : y8.mem.bytes = x2.mem.bytes := by
        refine (congrArg (fun p => p.2.mem.bytes) y9).symm.trans ?_
        refine (inject_mem ..).trans ?_
        rfl
      extract_lets y11 y12 y13 y14 y15 y16
      have h17 : y12.mem.bytes = x2.mem.bytes := by
        unfold y12
        refine (suitesAtWork_mem ..).trans ?_
        refine (spoilLandings_mem ..).trans ?_
        exact h10
      clear_value y12
      have h18 : y13.mem.bytes = x2.mem.bytes := by
        unfold y13
        refine (detect_mem ..).trans ?_
        exact h17
      clear_value y13
      have h19 : y14.mem.bytes = x2.mem.bytes := by
        unfold y14
        refine ite_mem ?_ ?_
        · exact h17
        · refine (detect_mem ..).trans ?_
          exact h17
      clear_value y14
      refine ite_mem ?_ ?_
      · refine (sweepEnd_mem ..).trans ?_
        refine ite_mem ?_ ?_
        · exact h18
        · refine (hardFault_mem ..).trans ?_
          exact h18
      · refine ite_mem ?_ ?_
        · refine (sweepAt_mem ..).trans ?_
          exact h19
        · refine ite_mem ?_ ?_
          · refine (sweepEnd_mem ..).trans ?_
            refine (marginalEvent_mem ..).trans ?_
            exact h19
          · refine ite_mem ?_ ?_
            · refine (sweepEnd_mem ..).trans ?_
              dsimp -zeta only
              exact h19
            · refine ite_mem ?_ ?_
              · refine (sweepAt_mem ..).trans ?_
                exact h19
              · refine (sweepEnd_mem ..).trans ?_
                exact h19

@[simp] theorem doTargeted_mem (x1) (x2) (x3 : Block) : (doTargeted x1 x2 x3).mem.bytes = x3.mem.bytes := by
  unfold doTargeted
  split
  · rename_i y0 y1
    rfl
  · rename_i y2 y3 y4
    extract_lets y5 y6 y7
    have h8 : y6.mem.bytes = x3.mem.bytes := by
      unfold y6
      dsimp -zeta only
    clear_value y6
    have h9 : y7.mem.bytes = x3.mem.bytes := by
      unfold y7
      refine (suitesAtWork_mem ..).trans ?_
      refine (spoilLandings_mem ..).trans ?_
      exact h8
    clear_value y7
    split
    rename_i y10 y11 y12 y13
    have h14 : y12.mem.bytes = x3.mem.bytes := by
      refine (congrArg (fun p => p.2.mem.bytes) y13).symm.trans ?_
      refine (targetedHit_mem ..).trans ?_
      exact h9
    split
    · rename_i y15 y16 y17 y18
      refine (hardFault_mem ..).trans ?_
      refine (detect_mem ..).trans ?_
      exact h14
    · rename_i y19 y20
      refine ite_mem ?_ ?_
      · exact h14
      · refine (marginalEvent_mem ..).trans ?_
        exact h14

@[simp] theorem reportProcs_mem (x1 : Block) : (reportProcs x1).mem.bytes = x1.mem.bytes := by
  unfold reportProcs; simp

@[simp] theorem countRestart_mem (x1) (x2 : Block) : (countRestart x1 x2).mem.bytes = x2.mem.bytes := by
  unfold countRestart; split <;> simp [*]

@[simp] theorem beginRestart_mem (x1) (x2) (x3 : Block) : (beginRestart x1 x2 x3).mem.bytes = x3.mem.bytes := by
  unfold beginRestart; simp

@[simp] theorem raiseCounter_mem (x1) (x2) (x3 : Block) : (raiseCounter x1 x2 x3).mem.bytes = x3.mem.bytes := by
  unfold raiseCounter; simp

@[simp] theorem commitActivation_mem (x1 : Block) : (commitActivation x1).mem.bytes = x1.mem.bytes := by
  unfold commitActivation
  extract_lets y0 y1 y2 y3 y4 y5 y6 y7 y8 y9
  have h10 : y3.mem.bytes = x1.mem.bytes := by
    unfold y3
    dsimp -zeta only
  clear_value y3
  have h11 : y4.mem.bytes = x1.mem.bytes := by
    unfold y4
    refine (raiseCounter_mem ..).trans ?_
    exact h10
  clear_value y4
  have h12 : y5.mem.bytes = x1.mem.bytes := by
    unfold y5
    refine (forEach_mem _ _ _ ?_).trans ?_
    · intros y13 y14
      refine (raiseCounter_mem ..).trans ?_
      rfl
    · exact h11
  clear_value y5
  have h15 : y7.mem.bytes = x1.mem.bytes := by
    unfold y7
    dsimp -zeta only
    exact h12
  clear_value y7
  have h16 : y8.mem.bytes = x1.mem.bytes := by
    unfold y8
    refine (setNum_mem ..).trans ?_
    refine (setNum_mem ..).trans ?_
    exact h15
  clear_value y8
  have h17 : y9.mem.bytes = x1.mem.bytes := by
    unfold y9
    refine (forEach_mem _ _ _ ?_).trans ?_
    · intros y18 y19
      refine (setNum_mem ..).trans ?_
      rfl
    · exact h16
  clear_value y9
  refine (longDone_mem ..).trans ?_
  refine (setFwBit_mem ..).trans ?_
  refine (setFwBit_mem ..).trans ?_
  exact h17

@[simp] theorem sboundHook_mem (x1) (x2 : Block) : (sboundHook x1 x2).mem.bytes = x2.mem.bytes := by
  unfold sboundHook
  refine ite_mem ?_ ?_
  · refine (beginRestart_mem ..).trans ?_
    dsimp -zeta only
  · refine ite_mem ?_ ?_
    · refine (commitActivation_mem ..).trans ?_
      rfl
    · rfl

@[simp] theorem deferActivation_mem (x1 : Block) : (deferActivation x1).mem.bytes = x1.mem.bytes := by
  unfold deferActivation; split <;> simp [*]

@[simp] theorem revertNext_mem (x1 : Block) : (revertNext x1).mem.bytes = x1.mem.bytes := by
  unfold revertNext; split <;> simp [*]

@[simp] theorem revertActivation_mem (x1 : Block) : (revertActivation x1).mem.bytes = x1.mem.bytes := by
  unfold revertActivation; simp

@[simp] theorem reverted_mem (x1 : Block) : (reverted x1).mem.bytes = x1.mem.bytes := by
  unfold reverted; simp

@[simp] theorem commitIdle_mem (x1 : Block) : (commitIdle x1).mem.bytes = x1.mem.bytes := by
  unfold commitIdle; split <;> simp [*]

@[simp] theorem activateNext_mem (x1 : Block) : (activateNext x1).mem.bytes = x1.mem.bytes := by
  unfold activateNext
  refine ite_mem ?_ ?_
  · rfl
  · split
    · rename_i y0 y1
      refine (commitIdle_mem ..).trans ?_
      rfl
    · rename_i y2 y3 y4 y5
      refine ite_mem ?_ ?_
      · refine (setNum_mem ..).trans ?_
        refine (setFwBit_mem ..).trans ?_
        dsimp -zeta only
      · refine ite_mem ?_ ?_
        · dsimp -zeta only
        · refine (beginRestart_mem ..).trans ?_
          rfl

@[simp] theorem lockstepHit_mem (x1) (x2) (x3 : Block) : (lockstepHit x1 x2 x3).mem.bytes = x3.mem.bytes := by
  unfold lockstepHit; simp

@[simp] theorem lockstepCycle_mem (x1 : Block) : (lockstepCycle x1).mem.bytes = x1.mem.bytes := by
  unfold lockstepCycle
  extract_lets y0
  unfold y0
  refine ite_mem ?_ ?_
  · refine (lockstepHit_mem ..).trans ?_
    refine (injectFire_mem ..).trans ?_
    refine ite_mem ?_ ?_
    · refine (lockstepHit_mem ..).trans ?_
      refine (injectFire_mem ..).trans ?_
      rfl
    · rfl
  · refine ite_mem ?_ ?_
    · refine (lockstepHit_mem ..).trans ?_
      refine (injectFire_mem ..).trans ?_
      rfl
    · rfl

@[simp] theorem undefer_mem (x1 : Block) : (undefer x1).mem.bytes = x1.mem.bytes := by
  unfold undefer; split <;> simp [*]

@[simp] theorem activated_mem (x1 : Block) : (activated x1).mem.bytes = x1.mem.bytes := by
  unfold activated; simp

@[simp] theorem activationIdle_mem (x1 : Block) : (activationIdle x1).mem.bytes = x1.mem.bytes := by
  unfold activationIdle; split <;> simp [*]

@[simp] theorem buildRoutes_mem (x1 : Block) : (buildRoutes x1).mem.bytes = x1.mem.bytes := by
  unfold buildRoutes; simp

@[simp] theorem drainStep_mem (x1 : Block) : (drainStep x1).mem.bytes = x1.mem.bytes := by
  unfold drainStep; split <;> simp [*]

@[simp] theorem drainUnits_mem (x1 : Block) : (drainUnits x1).mem.bytes = x1.mem.bytes := by
  unfold drainUnits
  refine (iter_mem _ _ _ ?_).trans ?_
  · intros y0
    refine ite_mem ?_ ?_
    · rfl
    · refine (iter_mem _ _ _ ?_).trans ?_
      · intros y1
        refine (drainStep_mem ..).trans ?_
        rfl
      · rfl
  · rfl

@[simp] theorem nextAct_mem (x1) (x2 : Block) : (nextAct x1 x2).mem.bytes = x2.mem.bytes := by
  unfold nextAct
  dsimp -zeta only

@[simp] theorem adoptSnapshot_mem (x1 : Block) : (adoptSnapshot x1).mem.bytes = x1.mem.bytes := by
  unfold adoptSnapshot; simp

@[simp] theorem adoptOpen_mem (x1 : Block) : (adoptOpen x1).mem.bytes = x1.mem.bytes := by
  unfold adoptOpen; split <;> first | rfl | simp [*] | (split <;> simp [*])

@[simp] theorem takeSnapshot_mem (x1 : Block) : (takeSnapshot x1).mem.bytes = x1.mem.bytes := by
  unfold takeSnapshot; simp

@[simp] theorem takeFlags_mem (x1 : Block) : (takeFlags x1).mem.bytes = x1.mem.bytes := by
  unfold takeFlags; simp

@[simp] theorem sumCsets_mem (x1 : Block) : (sumCsets x1).mem.bytes = x1.mem.bytes := by
  unfold sumCsets; simp

@[simp] theorem fireBoundary_mem (x1 : Block) : (fireBoundary x1).mem.bytes = x1.mem.bytes := by
  unfold fireBoundary
  extract_lets y0 y1 y2 y3 y4
  have h5 : y3.mem.bytes = x1.mem.bytes := by
    unfold y3
    refine (injectFire_mem ..).trans ?_
    rfl
  clear_value y3
  refine ite_mem ?_ ?_
  · rfl
  · refine ite_mem ?_ ?_
    · refine (lockstepHit_mem ..).trans ?_
      refine (injectFire_mem ..).trans ?_
      rfl
    · refine ite_mem ?_ ?_
      · refine (lockstepHit_mem ..).trans ?_
        refine (injectFire_mem ..).trans ?_
        rfl
      · refine ite_mem ?_ ?_
        · refine (retireLane_mem ..).trans ?_
          refine (injectFire_mem ..).trans ?_
          rfl
        · refine ite_mem ?_ ?_
          · refine (linkGoes_mem ..).trans ?_
            refine (injectFire_mem ..).trans ?_
            rfl
          · refine ite_mem ?_ ?_
            · refine (detect_mem ..).trans ?_
              refine (injectFire_mem ..).trans ?_
              rfl
            · refine ite_mem ?_ ?_
              · dsimp -zeta only
                exact h5
              · refine ite_mem ?_ ?_
                · refine (detectAt_mem ..).trans ?_
                  refine (injectFire_mem ..).trans ?_
                  rfl
                · refine (detect_mem ..).trans ?_
                  refine (injectFire_mem ..).trans ?_
                  rfl

@[simp] theorem noteBit_mem (x1) (x2 : Block) : (noteBit x1 x2).mem.bytes = x2.mem.bytes := by
  unfold noteBit
  dsimp -zeta only

@[simp] theorem repairProgram_wf {x1 : Block} (h : mapWf 0 x1.mem.bytes = true) : mapWf 0 (repairProgram x1).mem.bytes = true := by
  unfold repairProgram
  extract_lets y0
  refine ite_wf ?_ ?_
  · exact h
  · split
    rename_i y1 y2 y3 y4
    have h5 : mapWf 0 y3.mem.bytes = true := by
      refine wf_eq (congrArg (fun p => p.2.mem.bytes) y4).symm ?_
      refine memRead_wf ?_
      exact h
    refine ite_wf ?_ ?_
    · refine wf_eq (noteBit_mem ..) ?_
      exact h5
    · extract_lets y6 y7
      have h8 : mapWf 0 y6.mem.bytes = true := by
        unfold y6
        refine forEach_wf _ _ _ ?_ ?_
        · exact h5
        · intros y9 y10 y11
          refine forEach_wf _ _ _ ?_ ?_
          · exact y11
          · intros y12 y13 y14
            refine wf_eq (bufPut_mem ..) ?_
            exact y14
      clear_value y6
      dsimp -zeta only
      exact h8

@[simp] theorem clearPoisonMarks_mem (x1 : Block) : (clearPoisonMarks x1).mem.bytes = x1.mem.bytes := by
  unfold clearPoisonMarks
  extract_lets y0 y1 y2 y3
  have h4 : y1.mem.bytes = x1.mem.bytes := by
    unfold y1
    refine (forEach_mem _ _ _ ?_).trans ?_
    · intros y5 y6
      refine (pmapSet_mem ..).trans ?_
      rfl
    · rfl
  clear_value y1
  have h7 : y2.bytes = x1.mem.bytes := by
    unfold y2
    exact h4
  clear_value y2
  refine (reportPoison_mem ..).trans ?_
  dsimp -zeta only
  exact h7

@[simp] theorem actSnapshot_wf {x1 : Block} (h : mapWf 0 x1.mem.bytes = true) : mapWf 0 (actSnapshot x1).mem.bytes = true := by
  unfold actSnapshot
  extract_lets y0 y1 y2 y3 y4 y5 y6
  have h7 : mapWf 0 y1.mem.bytes = true := by
    unfold y1
    dsimp -zeta only
    exact h
  clear_value y1
  have h8 : mapWf 0 y3.mem.bytes = true := by
    unfold y3
    refine wf_eq (takeSnapshot_mem ..) ?_
    dsimp -zeta only
    exact h7
  clear_value y3
  have h9 : mapWf 0 y4.mem.bytes = true := by
    unfold y4
    refine wf_eq (takeFlags_mem ..) ?_
    refine wf_eq (sumCsets_mem ..) ?_
    exact h8
  clear_value y4
  have h10 : mapWf 0 y6.mem.bytes = true := by
    unfold y6
    dsimp -zeta only
    exact h9
  clear_value y6
  refine wf_eq (fireBoundary_mem ..) ?_
  refine repairProgram_wf ?_
  refine wf_eq (clearPoisonMarks_mem ..) ?_
  refine wf_eq (relBoundary_mem ..) ?_
  exact h10

@[simp] theorem waitFor_mem (x1) (x2 : Block) : (waitFor x1 x2).mem.bytes = x2.mem.bytes := by
  unfold waitFor
  dsimp -zeta only

@[simp] theorem checkSplit_mem (x1 : Block) : (checkSplit x1).mem.bytes = x1.mem.bytes := by
  unfold checkSplit; split <;> simp [*]

@[simp] theorem keepPrecision_mem (x1 : Block) (x2 : Block) : (keepPrecision x1 x2).mem.bytes = x2.mem.bytes := by
  unfold keepPrecision; split <;> simp [*]

@[simp] theorem endVote_mem (x1 : Block) : (endVote x1).mem.bytes = x1.mem.bytes := by
  unfold endVote; simp

@[simp] theorem decideAgree_mem (x1 : Block) : (decideAgree x1).mem.bytes = x1.mem.bytes := by
  unfold decideAgree
  extract_lets y0 y1 y2 y3 y4 y5 y6 y7
  have h8 : y6.mem.bytes = x1.mem.bytes := by
    unfold y6
    dsimp -zeta only
  clear_value y6
  have h9 : y7.mem.bytes = x1.mem.bytes := by
    unfold y7
    refine ite_mem ?_ ?_
    · exact h8
    · refine (stepBit_mem ..).trans ?_
      refine (setDecl_mem ..).trans ?_
      exact h8
  clear_value y7
  refine (pendingBit_mem ..).trans ?_
  refine ite_mem ?_ ?_
  · refine (checkSplit_mem ..).trans ?_
    exact h9
  · exact h9

@[simp] theorem startAgree_mem (x1 : Block) : (startAgree x1).mem.bytes = x1.mem.bytes := by
  unfold startAgree
  extract_lets y0 y1 y2
  have h3 : y2.mem.bytes = x1.mem.bytes := by
    unfold y2
    dsimp -zeta only
  clear_value y2
  refine ite_mem ?_ ?_
  · exact h3
  · refine (forEach_mem _ _ _ ?_).trans ?_
    · intros y4 y5
      refine (sendCtrl_mem ..).trans ?_
      rfl
    · exact h3

@[simp] theorem adoptArcade_mem (x1 : Block) : (adoptArcade x1).mem.bytes = x1.mem.bytes := by
  unfold adoptArcade; simp

@[simp] theorem actRoutes_mem (x1 : Block) : (actRoutes x1).mem.bytes = x1.mem.bytes := by
  unfold actRoutes; split <;> simp [*]

@[simp] theorem setRecord_mem (x1) (x2 : Block) : (setRecord x1 x2).mem.bytes = x2.mem.bytes := by
  unfold setRecord
  dsimp -zeta only

@[simp] theorem actCommit_wf {x1 : Block} (h : mapWf 0 x1.mem.bytes = true) : mapWf 0 (actCommit x1).mem.bytes = true := by
  unfold actCommit
  extract_lets y0 y1 y2 y3 y4 y5
  have h6 : mapWf 0 y0.mem.bytes = true := by
    unfold y0
    refine evalUpdate_wf ?_
    refine wf_eq (updBit_mem ..) ?_
    refine wf_eq (updBit_mem ..) ?_
    exact h
  clear_value y0
  have h7 : mapWf 0 y4.mem.bytes = true := by
    unfold y4
    dsimp -zeta only
    exact h6
  clear_value y4
  refine ite_wf ?_ ?_
  · exact h6
  · refine wf_eq (setRecord_mem ..) ?_
    exact h6

@[simp] theorem actAdvance_mem (x1 : Block) : (actAdvance x1).mem.bytes = x1.mem.bytes := by
  unfold actAdvance
  extract_lets y0 y1 y2
  have h3 : y2.mem.bytes = x1.mem.bytes := by
    unfold y2
    dsimp -zeta only
  clear_value y2
  refine ite_mem ?_ ?_
  · exact h3
  · refine (revokeClean_mem ..).trans ?_
    exact h3

@[simp] theorem flipEntries_mem (x1) (x2 : Block) : (flipEntries x1 x2).mem.bytes = x2.mem.bytes := by
  unfold flipEntries
  refine (forEach_mem _ _ _ ?_).trans ?_
  · intros y0 y1
    refine (pmapSet_mem ..).trans ?_
    rfl
  · rfl

@[simp] theorem applyRecord_mem (x1 : Block) : (applyRecord x1).mem.bytes = x1.mem.bytes := by
  unfold applyRecord; simp

@[simp] theorem actApply_mem (x1 : Block) : (actApply x1).mem.bytes = x1.mem.bytes := by
  unfold actApply
  refine ite_mem ?_ ?_
  · refine (setNum_mem ..).trans ?_
    rfl
  · refine ite_mem ?_ ?_
    · extract_lets y0 y1
      have h2 : y1.mem.bytes = x1.mem.bytes := by
        unfold y1
        refine (applyRecord_mem ..).trans ?_
        refine (setRecord_mem ..).trans ?_
        rfl
      clear_value y1
      refine (setNum_mem ..).trans ?_
      refine (setNum_mem ..).trans ?_
      refine (updBit_mem ..).trans ?_
      exact h2
    · refine (setNum_mem ..).trans ?_
      refine (setRecord_mem ..).trans ?_
      rfl

@[simp] theorem actAdopt_mem (x1 : Block) : (actAdopt x1).mem.bytes = x1.mem.bytes := by
  unfold actAdopt
  extract_lets y0
  have h1 : y0.mem.bytes = x1.mem.bytes := by
    unfold y0
    refine ite_mem ?_ ?_
    · refine ite_mem ?_ ?_
      · refine (setDecl_mem ..).trans ?_
        refine (setEpoch_mem ..).trans ?_
        refine (adoptSnapshot_mem ..).trans ?_
        rfl
      · refine (setDecl_mem ..).trans ?_
        rfl
    · rfl
  clear_value y0
  refine (adoptMarks_mem ..).trans ?_
  refine (pendingBit_mem ..).trans ?_
  exact h1

@[simp] theorem mapSlots_mem (x1 : Block) : (mapSlots x1).mem.bytes = x1.mem.bytes := by
  unfold mapSlots
  extract_lets y0 y1 y2
  have h3 : y2.mem.bytes = x1.mem.bytes := by
    unfold y2
    refine (forEach_mem _ _ _ ?_).trans ?_
    · intros y4 y5
      refine (mapAway_mem ..).trans ?_
      rfl
    · rfl
  clear_value y2
  refine (forEach_mem _ _ _ ?_).trans ?_
  · intros y6 y7
    refine (mapAway_mem ..).trans ?_
    rfl
  · exact h3

@[simp] theorem planWrite_mem (x1 : Block) (x2) (x3) (x4 : Block) : (planWrite x1 x2 x3 x4).mem.bytes = x4.mem.bytes := by
  unfold planWrite; simp

@[simp] theorem newEpoch_mem (x1) (x2 : Block) : (newEpoch x1 x2).mem.bytes = x2.mem.bytes := by
  unfold newEpoch
  extract_lets y0 y1 y2
  have h3 : y1.bytes = x2.mem.bytes := by
    unfold y1
    rfl
  clear_value y1
  have h4 : y2.mem.bytes = x2.mem.bytes := by
    unfold y2
    dsimp -zeta only
    exact h3
  clear_value y2
  refine (forEach_mem _ _ _ ?_).trans ?_
  · intros y5 y6
    refine ite_mem ?_ ?_
    · refine (pmapSet_mem ..).trans ?_
      rfl
    · rfl
  · exact h4

@[simp] theorem reshard_mem (x1 : Block) : (reshard x1).mem.bytes = x1.mem.bytes := by
  unfold reshard
  extract_lets y0 y1
  split
  · rename_i y2 y3 y4
    extract_lets y5 y6
    have h7 : y6.mem.bytes = x1.mem.bytes := by
      unfold y6
      refine (forEach_mem _ _ _ ?_).trans ?_
      · intros y8 y9
        refine (planWrite_mem ..).trans ?_
        rfl
      · refine (newEpoch_mem ..).trans ?_
        rfl
    clear_value y6
    refine (collBit_mem ..).trans ?_
    unfold y1
    refine ite_mem ?_ ?_
    · refine (setDom_mem ..).trans ?_
      refine (setNum_mem ..).trans ?_
      exact h7
    · refine (setNum_mem ..).trans ?_
      exact h7
  · rename_i y10 y11
    refine ite_mem ?_ ?_
    · refine (collBit_mem ..).trans ?_
      unfold y1
      refine ite_mem ?_ ?_
      · refine (setDom_mem ..).trans ?_
        rfl
      · rfl
    · rfl

@[simp] theorem restoreFrames_mem (x1 : Block) : (restoreFrames x1).mem.bytes = x1.mem.bytes := by
  unfold restoreFrames
  extract_lets y0 y1
  have h2 : y1.bytes = x1.mem.bytes := by
    unfold y1
    rfl
  clear_value y1
  refine (forEach_mem _ _ _ ?_).trans ?_
  · intros y3 y4
    refine (pmapSet_mem ..).trans ?_
    rfl
  · dsimp -zeta only
    exact h2

@[simp] theorem actReshard_mem (x1 : Block) : (actReshard x1).mem.bytes = x1.mem.bytes := by
  unfold actReshard
  extract_lets y0 y1
  have h2 : y1.mem.bytes = x1.mem.bytes := by
    unfold y1
    dsimp -zeta only
  clear_value y1
  refine ite_mem ?_ ?_
  · exact h2
  · refine (mapSlots_mem ..).trans ?_
    refine (reshard_mem ..).trans ?_
    refine (restoreFrames_mem ..).trans ?_
    exact h2

@[simp] theorem actTokens_mem (x1 : Block) : (actTokens x1).mem.bytes = x1.mem.bytes := by
  unfold actTokens; split <;> simp [*]

@[simp] theorem startRun_mem (x1) (x2 : Block) : (startRun x1 x2).mem.bytes = x2.mem.bytes := by
  unfold startRun; simp

@[simp] theorem fillSide_mem (x1 : Block) : (fillSide x1).mem.bytes = x1.mem.bytes := by
  unfold fillSide; simp

@[simp] theorem buildRun_mem (x1 : Block) : (buildRun x1).mem.bytes = x1.mem.bytes := by
  unfold buildRun
  extract_lets y0 y1
  have h2 : y1.mem.bytes = x1.mem.bytes := by
    unfold y1
    refine ite_mem ?_ ?_
    · refine (logFault_mem ..).trans ?_
      rfl
    · rfl
  clear_value y1
  refine (startRun_mem ..).trans ?_
  refine (fillSide_mem ..).trans ?_
  exact h2

@[simp] theorem settleEta_mem (x1) (x2 : Block) : (settleEta x1 x2).mem.bytes = x2.mem.bytes := by
  unfold settleEta
  extract_lets y0 y1 y2 y3
  have h4 : y3.mem.bytes = x2.mem.bytes := by
    unfold y3
    dsimp -zeta only
  clear_value y3
  refine ite_mem ?_ ?_
  · refine (setNum_mem ..).trans ?_
    exact h4
  · exact h4

@[simp] theorem lossWord_wf {x1 : Block} (h : mapWf 0 x1.mem.bytes = true) : mapWf 0 (lossWord x1).2.mem.bytes = true := by
  unfold lossWord
  refine ite_wf_2 ?_ ?_
  · dsimp -zeta only
    exact h
  · split
    rename_i y0 y1 y2 y3
    have h4 : mapWf 0 y2.mem.bytes = true := by
      refine wf_eq (congrArg (fun p => p.2.mem.bytes) y3).symm ?_
      refine memRead_wf ?_
      exact h
    dsimp -zeta only
    exact h4

@[simp] theorem writeManifest_wf {x1 : Block} (h : mapWf 0 x1.mem.bytes = true) : mapWf 0 (writeManifest x1).mem.bytes = true := by
  unfold writeManifest
  split
  rename_i y0 y1 y2 y3
  have h4 : mapWf 0 y2.mem.bytes = true := by
    refine wf_eq (congrArg (fun p => p.2.mem.bytes) y3).symm ?_
    refine lossWord_wf ?_
    exact h
  extract_lets y5 y6
  have h7 : mapWf 0 y6.mem.bytes = true := by
    unfold y6
    refine wf_eq (trimBuffer_mem ..) ?_
    refine wf_eq (keepManifest_mem ..) ?_
    exact h4
  clear_value y6
  refine ite_wf ?_ ?_
  · refine wf_eq (setDom_mem ..) ?_
    exact h7
  · exact h7

@[simp] theorem writeContext_mem (x1 : Block) : (writeContext x1).mem.bytes = x1.mem.bytes := by
  unfold writeContext; split <;> simp [*]

@[simp] theorem staleBells_mem (x1 : Block) : (staleBells x1).mem.bytes = x1.mem.bytes := by
  unfold staleBells
  refine (forEach_mem _ _ _ ?_).trans ?_
  · intros y0 y1
    refine (vstErr_mem ..).trans ?_
    rfl
  · rfl

@[simp] theorem closeStep_mem (x1 : Block) : (closeStep x1).mem.bytes = x1.mem.bytes := by
  unfold closeStep; simp

@[simp] theorem goStop_mem (x1 : Block) : (goStop x1).mem.bytes = x1.mem.bytes := by
  unfold goStop; simp

@[simp] theorem goParked_mem (x1 : Block) : (goParked x1).mem.bytes = x1.mem.bytes := by
  unfold goParked
  extract_lets y0 y1 y2
  have h3 : y2.mem.bytes = x1.mem.bytes := by
    unfold y2
    refine (setRecov_mem ..).trans ?_
    refine (setRecov_mem ..).trans ?_
    dsimp -zeta only
  clear_value y2
  refine (goStop_mem ..).trans ?_
  refine (forEach_mem _ _ _ ?_).trans ?_
  · intros y4 y5
    refine (longDone_mem ..).trans ?_
    rfl
  · refine (setNum_mem ..).trans ?_
    exact h3

@[simp] theorem goIssue_mem (x1 : Block) : (goIssue x1).mem.bytes = x1.mem.bytes := by
  unfold goIssue; simp

@[simp] theorem openEta_mem (x1 : Block) : (openEta x1).mem.bytes = x1.mem.bytes := by
  unfold openEta; split <;> simp [*]

@[simp] theorem completeBound_wf {x1 : Block} (h : mapWf 0 x1.mem.bytes = true) : mapWf 0 (completeBound x1).mem.bytes = true := by
  unfold completeBound
  extract_lets y0 y1 y2 y3 y4 y5 y6 y7 y8 y9 y10 y11 y12 y13 y14 y15 y16 y17 y18
  have h19 : mapWf 0 y5.mem.bytes = true := by
    unfold y5
    refine wf_eq (setNum_mem ..) ?_
    exact h
  clear_value y5
  have h20 : mapWf 0 y6.mem.bytes = true := by
    unfold y6
    refine wf_eq (setNum_mem ..) ?_
    refine wf_eq (setNum_mem ..) ?_
    exact h19
  clear_value y6
  have h21 : mapWf 0 y7.mem.bytes = true := by
    unfold y7
    refine wf_eq (setNum_mem ..) ?_
    refine wf_eq (setNum_mem ..) ?_
    refine wf_eq (setNum_mem ..) ?_
    exact h20
  clear_value y7
  have h22 : mapWf 0 y8.mem.bytes = true := by
    unfold y8
    refine ite_wf ?_ ?_
    · exact h21
    · refine wf_eq (settleEta_mem ..) ?_
      exact h21
  clear_value y8
  have h23 : mapWf 0 y9.mem.bytes = true := by
    unfold y9
    refine writeManifest_wf ?_
    exact h22
  clear_value y9
  have h24 : mapWf 0 y10.mem.bytes = true := by
    unfold y10
    refine ite_wf ?_ ?_
    · exact h23
    · refine wf_eq (writeContext_mem ..) ?_
      exact h23
  clear_value y10
  have h25 : mapWf 0 y13.mem.bytes = true := by
    unfold y13
    dsimp -zeta only
    exact h24
  clear_value y13
  have h26 : mapWf 0 y14.mem.bytes = true := by
    unfold y14
    refine wf_eq (closeStep_mem ..) ?_
    exact h25
  clear_value y14
  have h27 : mapWf 0 y15.mem.bytes = true := by
    unfold y15
    refine wf_eq (sboundHook_mem ..) ?_
    exact h26
  clear_value y15
  have h28 : mapWf 0 y16.mem.bytes = true := by
    unfold y16
    refine wf_eq (alert_mem ..) ?_
    exact h27
  clear_value y16
  have h29 : mapWf 0 y17.mem.bytes = true := by
    unfold y17
    refine ite_wf ?_ ?_
    · refine wf_eq (alert_mem ..) ?_
      exact h28
    · exact h28
  clear_value y17
  refine ite_wf ?_ ?_
  · refine wf_eq (goParked_mem ..) ?_
    exact h29
  · refine ite_wf ?_ ?_
    · refine wf_eq (goStop_mem ..) ?_
      exact h29
    · refine ite_wf ?_ ?_
      · dsimp -zeta only
        exact h29
      · refine wf_eq (goIssue_mem ..) ?_
        refine wf_eq (openEta_mem ..) ?_
        exact h29

@[simp] theorem spendAgrees_mem (x1 : Block) : (spendAgrees x1).mem.bytes = x1.mem.bytes := by
  unfold spendAgrees
  dsimp -zeta only

@[simp] theorem answerReq_mem (x1) (x2 : Block) : (answerReq x1 x2).mem.bytes = x2.mem.bytes := by
  unfold answerReq; split <;> simp [*]

@[simp] theorem resumeResult_mem (x1) (x2 : Block) : (resumeResult x1 x2).mem.bytes = x2.mem.bytes := by
  unfold resumeResult; split <;> simp [*]

@[simp] theorem underStart_mem (x1 : Block) : (underStart x1).mem.bytes = x1.mem.bytes := by
  unfold underStart
  extract_lets y0 y1 y2 y3 y4 y5
  have h6 : y2.mem.bytes = x1.mem.bytes := by
    unfold y2
    refine (setNum_mem ..).trans ?_
    refine (setNum_mem ..).trans ?_
    rfl
  clear_value y2
  have h7 : y5.mem.bytes = x1.mem.bytes := by
    unfold y5
    refine (enterActive_mem ..).trans ?_
    dsimp -zeta only
    exact h6
  clear_value y5
  refine ite_mem ?_ ?_
  · refine (goStop_mem ..).trans ?_
    refine (alert_mem ..).trans ?_
    exact h7
  · exact h7

@[simp] theorem endResume_mem (x1 : Block) : (endResume x1).mem.bytes = x1.mem.bytes := by
  unfold endResume
  extract_lets y0 y1 y2 y3 y4 y5 y6 y7 y8 y9 y10 y11 y12 y13 y14 y15 y16 y17 y18
  have h19 : y1.mem.bytes = x1.mem.bytes := by
    unfold y1
    dsimp -zeta only
  clear_value y1
  have h20 : y2.mem.bytes = x1.mem.bytes := by
    unfold y2
    refine (setNum_mem ..).trans ?_
    refine (setRecov_mem ..).trans ?_
    refine (setRecov_mem ..).trans ?_
    exact h19
  clear_value y2
  have h21 : y6.mem.bytes = x1.mem.bytes := by
    unfold y6
    dsimp -zeta only
    exact h20
  clear_value y6
  have h22 : y7.mem.bytes = x1.mem.bytes := by
    unfold y7
    refine ite_mem ?_ ?_
    · exact h21
    · refine (settleEta_mem ..).trans ?_
      exact h21
  clear_value y7
  have h23 : y8.mem.bytes = x1.mem.bytes := by
    unfold y8
    refine (answerReq_mem ..).trans ?_
    refine (resumeResult_mem ..).trans ?_
    exact h22
  clear_value y8
  have h24 : y13.mem.bytes = x1.mem.bytes := by
    unfold y13
    dsimp -zeta only
    exact h19
  clear_value y13
  have h25 : y16.mem.bytes = x1.mem.bytes := by
    unfold y16
    refine (answerReq_mem ..).trans ?_
    refine (setNum_mem ..).trans ?_
    refine (resumeResult_mem ..).trans ?_
    exact h24
  clear_value y16
  have h26 : y17.mem.bytes = x1.mem.bytes := by
    unfold y17
    refine ite_mem ?_ ?_
    · refine (alert_mem ..).trans ?_
      exact h25
    · exact h25
  clear_value y17
  refine ite_mem ?_ ?_
  · refine ite_mem ?_ ?_
    · refine (underStart_mem ..).trans ?_
      exact h23
    · refine (goIssue_mem ..).trans ?_
      refine ite_mem ?_ ?_
      · exact h23
      · refine (openEta_mem ..).trans ?_
        exact h23
  · refine ite_mem ?_ ?_
    · refine (goStop_mem ..).trans ?_
      exact h26
    · dsimp -zeta only
      exact h26

@[simp] theorem boundStep_wf {x1 : Block} (h : mapWf 0 x1.mem.bytes = true) : mapWf 0 (boundStep x1).mem.bytes = true := by
  unfold boundStep
  split
  · rename_i y0 y1
    refine wf_eq (nextAct_mem ..) ?_
    refine actSnapshot_wf ?_
    refine wf_eq (drainHeld_mem ..) ?_
    exact h
  · rename_i y2 y3
    split
    · rename_i y4 y5
      refine wf_eq (waitFor_mem ..) ?_
      refine wf_eq (formProposals_mem ..) ?_
      exact h
    · rename_i y6 y7
      refine ite_wf ?_ ?_
      · refine wf_eq (waitFor_mem ..) ?_
        refine wf_eq (allocReserve_mem ..) ?_
        refine wf_eq (afterRound1_mem ..) ?_
        exact h
      · exact h
    · rename_i y8 y9
      refine ite_wf ?_ ?_
      · refine wf_eq (nextAct_mem ..) ?_
        refine wf_eq (checkSplit_mem ..) ?_
        refine wf_eq (endVote_mem ..) ?_
        refine wf_eq (afterRound2_mem ..) ?_
        exact h
      · exact h
    · rename_i y10 y11
      refine wf_eq (nextAct_mem ..) ?_
      exact h
  · rename_i y12 y13
    split
    · rename_i y14 y15
      refine ite_wf ?_ ?_
      · refine wf_eq (nextAct_mem ..) ?_
        refine wf_eq (decideAgree_mem ..) ?_
        exact h
      · exact h
    · rename_i y16 y17
      refine wf_eq (waitFor_mem ..) ?_
      refine wf_eq (startAgree_mem ..) ?_
      exact h
  · rename_i y18 y19
    refine wf_eq (nextAct_mem ..) ?_
    refine wf_eq (actRoutes_mem ..) ?_
    exact h
  · rename_i y20 y21
    refine wf_eq (nextAct_mem ..) ?_
    refine actCommit_wf ?_
    exact h
  · rename_i y22 y23
    refine wf_eq (nextAct_mem ..) ?_
    refine wf_eq (actAdvance_mem ..) ?_
    exact h
  · rename_i y24 y25
    refine wf_eq (nextAct_mem ..) ?_
    refine wf_eq (laneAction_mem ..) ?_
    exact h
  · rename_i y26 y27
    refine wf_eq (nextAct_mem ..) ?_
    refine wf_eq (actApply_mem ..) ?_
    exact h
  · rename_i y28 y29
    refine wf_eq (nextAct_mem ..) ?_
    refine wf_eq (actAdopt_mem ..) ?_
    exact h
  · rename_i y30 y31
    refine wf_eq (nextAct_mem ..) ?_
    refine wf_eq (actReshard_mem ..) ?_
    exact h
  · rename_i y32 y33
    refine wf_eq (nextAct_mem ..) ?_
    refine wf_eq (actTokens_mem ..) ?_
    exact h
  · rename_i y34 y35
    refine wf_eq (nextAct_mem ..) ?_
    refine wf_eq (buildRun_mem ..) ?_
    exact h
  · rename_i y36 y37
    refine completeBound_wf ?_
    exact h
  · rename_i y38 y39
    refine wf_eq (nextAct_mem ..) ?_
    refine wf_eq (takeSnapshot_mem ..) ?_
    exact h
  · rename_i y40 y41
    split
    · rename_i y42 y43
      refine ite_wf ?_ ?_
      · refine wf_eq (nextAct_mem ..) ?_
        refine wf_eq (decideAgree_mem ..) ?_
        exact h
      · exact h
    · rename_i y44 y45
      refine wf_eq (waitFor_mem ..) ?_
      refine wf_eq (startAgree_mem ..) ?_
      exact h
  · rename_i y46 y47
    refine ite_wf ?_ ?_
    · refine wf_eq (nextAct_mem ..) ?_
      refine wf_eq (actAdopt_mem ..) ?_
      refine wf_eq (spendAgrees_mem ..) ?_
      exact h
    · refine wf_eq (endResume_mem ..) ?_
      refine wf_eq (spendAgrees_mem ..) ?_
      exact h
  · rename_i y48 y49
    refine wf_eq (nextAct_mem ..) ?_
    refine wf_eq (buildRun_mem ..) ?_
    refine wf_eq (buildRoutes_mem ..) ?_
    exact h
  · rename_i y50 y51 y52 y53 y54 y55 y56 y57 y58 y59 y60 y61 y62 y63 y64 y65 y66 y67
    refine wf_eq (endResume_mem ..) ?_
    exact h

@[simp] theorem boundGo_wf {x1 : Block} (h : mapWf 0 x1.mem.bytes = true) : mapWf 0 (boundGo x1).mem.bytes = true := by
  unfold boundGo
  refine iter_wf _ _ _ ?_ ?_
  · exact h
  · intros y0 y1
    refine ite_wf ?_ ?_
    · refine boundStep_wf ?_
      exact y1
    · exact y1

@[simp] theorem doBoundary_wf {x1 : Block} (h : mapWf 0 x1.mem.bytes = true) : mapWf 0 (doBoundary x1).mem.bytes = true := by
  unfold doBoundary
  split
  · rename_i y0 y1
    extract_lets y2 y3 y4
    have h5 : mapWf 0 y2.mem.bytes = true := by
      unfold y2
      refine wf_eq (drainUnits_mem ..) ?_
      refine drainLoop_wf ?_
      exact h
    clear_value y2
    have h6 : mapWf 0 y3.mem.bytes = true := by
      unfold y3
      refine wf_eq (discardOpen_mem ..) ?_
      exact h5
    clear_value y3
    refine ite_wf ?_ ?_
    · refine boundGo_wf ?_
      dsimp -zeta only
      exact h6
    · exact h5
  · rename_i y7 y8
    refine boundGo_wf ?_
    exact h
  · rename_i y9 y10 y11
    exact h

@[simp] theorem doConnRetry_mem (x1 : Block) : (doConnRetry x1).mem.bytes = x1.mem.bytes := by
  unfold doConnRetry
  refine ite_mem ?_ ?_
  · extract_lets y0 y1 y2 y3
    have h4 : y1.mem.bytes = x1.mem.bytes := by
      unfold y1
      refine (routeBuild_mem ..).trans ?_
      rfl
    clear_value y1
    have h5 : y3.mem.bytes = x1.mem.bytes := by
      unfold y3
      dsimp -zeta only
      exact h4
    clear_value y3
    refine ite_mem ?_ ?_
    · exact h5
    · refine ite_mem ?_ ?_
      · refine (goParked_mem ..).trans ?_
        exact h5
      · refine (goIssue_mem ..).trans ?_
        refine (openEta_mem ..).trans ?_
        exact h5
  · rfl

@[simp] theorem doSbound_mem (x1 : Block) : (doSbound x1).mem.bytes = x1.mem.bytes := by
  unfold doSbound
  split
  · rename_i y0 y1 y2
    refine (holdSlot_mem ..).trans ?_
    rfl
  · rename_i y3 y4
    refine ite_mem ?_ ?_
    · refine (logFault_mem ..).trans ?_
      rfl
    · refine ite_mem ?_ ?_
      · dsimp -zeta only
      · rfl

@[simp] theorem lostVote_mem (x1 : Block) : (lostVote x1).mem.bytes = x1.mem.bytes := by
  unfold lostVote; simp

@[simp] theorem doVoteTimeout_wf {x1 : Block} (h : mapWf 0 x1.mem.bytes = true) : mapWf 0 (doVoteTimeout x1).mem.bytes = true := by
  unfold doVoteTimeout
  refine ite_wf ?_ ?_
  · refine boundGo_wf ?_
    refine wf_eq (nextAct_mem ..) ?_
    refine wf_eq (lostVote_mem ..) ?_
    refine wf_eq (checkSplit_mem ..) ?_
    exact h
  · exact h

@[simp] theorem doWatchdog_mem (x1 : Block) : (doWatchdog x1).mem.bytes = x1.mem.bytes := by
  unfold doWatchdog
  extract_lets y0 y1 y2 y3 y4 y5 y6 y7
  have h8 : y3.mem.bytes = x1.mem.bytes := by
    unfold y3
    refine ite_mem ?_ ?_
    · rfl
    · dsimp -zeta only
  clear_value y3
  refine ite_mem ?_ ?_
  · rfl
  · refine (discardOpen_mem ..).trans ?_
    refine (stepBit_mem ..).trans ?_
    dsimp -zeta only
    exact h8

@[simp] theorem recoverRecord_mem (x1 : Block) : (recoverRecord x1).mem.bytes = x1.mem.bytes := by
  unfold recoverRecord
  extract_lets y0 y1
  refine ite_mem ?_ ?_
  · refine (cperNow_mem ..).trans ?_
    rfl
  · refine ite_mem ?_ ?_
    · refine (setRecord_mem ..).trans ?_
      dsimp -zeta only
    · refine ite_mem ?_ ?_
      · refine (updBit_mem ..).trans ?_
        refine (applyRecord_mem ..).trans ?_
        refine (setRecord_mem ..).trans ?_
        rfl
      · rfl

@[simp] theorem beginResume_wf {x1} {x2} {x3 : Block} (h : mapWf 0 x3.mem.bytes = true) : mapWf 0 (beginResume x1 x2 x3).mem.bytes = true := by
  unfold beginResume
  refine boundGo_wf ?_
  dsimp -zeta only
  exact h

@[simp] theorem doAgreeTimeout_wf {x1 : Block} (h : mapWf 0 x1.mem.bytes = true) : mapWf 0 (doAgreeTimeout x1).mem.bytes = true := by
  unfold doAgreeTimeout
  refine ite_wf ?_ ?_
  · refine boundGo_wf ?_
    refine wf_eq (nextAct_mem ..) ?_
    refine wf_eq (decideAgree_mem ..) ?_
    exact h
  · exact h

@[simp] theorem doUnlisted_mem (x1) (x2 : Block) : (doUnlisted x1 x2).mem.bytes = x2.mem.bytes := by
  unfold doUnlisted; simp

@[simp] theorem waitTake_mem (x1) (x2) (x3) (x4 : Block) : (waitTake x1 x2 x3 x4).mem.bytes = x4.mem.bytes := by
  unfold waitTake
  refine (forEach_mem _ _ _ ?_).trans ?_
  · intros y0 y1
    refine (tokSub_mem ..).trans ?_
    rfl
  · rfl

@[simp] theorem doSlotA_wf {x1} {x2} {x3} {x4} {x5} {x6} {x7 : Block} (h : mapWf 0 x7.mem.bytes = true) : mapWf 0 (doSlotA x1 x2 x3 x4 x5 x6 x7).mem.bytes = true := by
  unfold doSlotA
  refine withHeld_wf (hf := ?_) ?_
  · intros y0 y1 y2
    refine issueA_wf ?_
    exact y2
  · exact h

@[simp] theorem doSwait_mem (x1) (x2) (x3) (x4 : Block) : (doSwait x1 x2 x3 x4).mem.bytes = x4.mem.bytes := by
  unfold doSwait
  refine (withSlot_mem (hf := ?_) ..).trans ?_
  · intros y0 y1
    refine ite_mem ?_ ?_
    · refine (discardSlot_mem ..).trans ?_
      rfl
    · refine ite_mem ?_ ?_
      · refine (waitTake_mem ..).trans ?_
        rfl
      · refine (freezeFor_mem ..).trans ?_
        rfl
  · rfl

@[simp] theorem doSsignal_mem (x1) (x2) (x3) (x4) (x5 : Block) : (doSsignal x1 x2 x3 x4 x5).mem.bytes = x5.mem.bytes := by
  unfold doSsignal
  refine (withSlot_mem (hf := ?_) ..).trans ?_
  · intros y0 y1
    extract_lets y2
    refine ite_mem ?_ ?_
    · refine (discardSlot_mem ..).trans ?_
      rfl
    · refine ite_mem ?_ ?_
      · refine (slotFault_mem ..).trans ?_
        rfl
      · split
        · rename_i y3 y4
          refine (slotFault_mem ..).trans ?_
          rfl
        · rename_i y5 y6 y7
          refine (tokAdd_mem ..).trans ?_
          rfl
  · rfl

@[simp] theorem openSide_mem (x1) (x2) (x3) (x4) (x5 : Block) : (openSide x1 x2 x3 x4 x5).mem.bytes = x5.mem.bytes := by
  unfold openSide; split <;> simp [*]

@[simp] theorem sideOn_mem (x1) (x2) (x3) (x4) (x5) (x6 : Block) : (sideOn x1 x2 x3 x4 x5 x6).mem.bytes = x6.mem.bytes := by
  unfold sideOn
  refine (reach_mem (hf := ?_) ..).trans ?_
  · intros y0
    refine ite_mem ?_ ?_
    · refine (slotFault_mem ..).trans ?_
      rfl
    · refine ite_mem ?_ ?_
      · refine (slotFault_mem ..).trans ?_
        rfl
      · refine (openSide_mem ..).trans ?_
        rfl
  · rfl

@[simp] theorem doSide_mem (x1) (x2) (x3) (x4) (x5 : Block) : (doSide x1 x2 x3 x4 x5).mem.bytes = x5.mem.bytes := by
  unfold doSide; simp

@[simp] theorem doChecked_mem (x1) (x2) (x3) (x4 : Block) : (doChecked x1 x2 x3 x4).mem.bytes = x4.mem.bytes := by
  unfold doChecked
  split
  · rename_i y0 y1 y2
    refine (holdSlot_mem ..).trans ?_
    rfl
  · rename_i y3 y4
    refine ite_mem ?_ ?_
    · refine (slotFault_mem ..).trans ?_
      rfl
    · refine ite_mem ?_ ?_
      · refine (slotFault_mem ..).trans ?_
        rfl
      · dsimp -zeta only

@[simp] theorem wakeGal_mem (x1) (x2) (x3) (x4 : Block) : (wakeGal x1 x2 x3 x4).mem.bytes = x4.mem.bytes := by
  unfold wakeGal
  extract_lets y0
  refine ite_mem ?_ ?_
  · refine (forEach_mem _ _ _ ?_).trans ?_
    · intros y1 y2
      refine (setKeeper_mem ..).trans ?_
      rfl
    · rfl
  · refine (setGclk_mem ..).trans ?_
    rfl

@[simp] theorem doCwake_mem (x1) (x2) (x3) (x4 : Block) : (doCwake x1 x2 x3 x4).mem.bytes = x4.mem.bytes := by
  unfold doCwake; split <;> first | rfl | simp [*] | (split <;> simp [*])

@[simp] theorem doSlot_wf {x1} {x2} {x3 : Block} (h : mapWf 0 x3.mem.bytes = true) : mapWf 0 (doSlot x1 x2 x3).mem.bytes = true := by
  unfold doSlot
  split
  · rename_i y0 y1 y2
    refine wf_eq (doMloadW_mem ..) ?_
    exact h
  · rename_i y3 y4 y5
    refine wf_eq (doMstream_mem ..) ?_
    exact h
  · rename_i y6 y7 y8
    refine wf_eq (doMopen_mem ..) ?_
    exact h
  · rename_i y9 y10 y11
    refine wf_eq (doMclose_mem ..) ?_
    exact h
  · rename_i y12 y13 y14
    refine wf_eq (doMdrain_mem ..) ?_
    exact h
  · rename_i y15 y16 y17
    refine wf_eq (doMshift_mem ..) ?_
    exact h
  · rename_i y18 y19 y20
    refine wf_eq (doVadd_mem ..) ?_
    exact h
  · rename_i y21 y22 y23
    refine wf_eq (doVsub_mem ..) ?_
    exact h
  · rename_i y24 y25 y26
    refine wf_eq (doVmul_mem ..) ?_
    exact h
  · rename_i y27 y28 y29
    refine wf_eq (doVfma_mem ..) ?_
    exact h
  · rename_i y30 y31 y32
    refine wf_eq (doVmax_mem ..) ?_
    exact h
  · rename_i y33 y34 y35
    refine wf_eq (doVmin_mem ..) ?_
    exact h
  · rename_i y36 y37 y38
    refine wf_eq (doVabs_mem ..) ?_
    exact h
  · rename_i y39 y40 y41
    refine wf_eq (doVneg_mem ..) ?_
    exact h
  · rename_i y42 y43 y44
    refine wf_eq (doVsel_mem ..) ?_
    exact h
  · rename_i y45 y46 y47
    refine wf_eq (doVmov_mem ..) ?_
    exact h
  · rename_i y48 y49 y50
    refine wf_eq (doVtrn_mem ..) ?_
    exact h
  · rename_i y51 y52 y53
    refine wf_eq (doVand_mem ..) ?_
    exact h
  · rename_i y54 y55 y56
    refine wf_eq (doVor_mem ..) ?_
    exact h
  · rename_i y57 y58 y59
    refine wf_eq (doVxor_mem ..) ?_
    exact h
  · rename_i y60 y61 y62
    refine wf_eq (doVshl_mem ..) ?_
    exact h
  · rename_i y63 y64 y65
    refine wf_eq (doVshr_mem ..) ?_
    exact h
  · rename_i y66 y67 y68
    refine wf_eq (doVexp2_mem ..) ?_
    exact h
  · rename_i y69 y70 y71
    refine wf_eq (doVlog2_mem ..) ?_
    exact h
  · rename_i y72 y73 y74
    refine wf_eq (doVrcp_mem ..) ?_
    exact h
  · rename_i y75 y76 y77
    refine wf_eq (doVrsq_mem ..) ?_
    exact h
  · rename_i y78 y79 y80
    refine wf_eq (doVscale_mem ..) ?_
    exact h
  · rename_i y81 y82 y83
    refine wf_eq (doVred_mem ..) ?_
    exact h
  · rename_i y84 y85 y86
    refine wf_eq (doVsmax_mem ..) ?_
    exact h
  · rename_i y87 y88 y89
    refine wf_eq (doVcmp_mem ..) ?_
    exact h
  · rename_i y90 y91 y92
    refine wf_eq (doVmset_mem ..) ?_
    exact h
  · rename_i y93 y94 y95
    refine wf_eq (doVmlog_mem ..) ?_
    exact h
  · rename_i y96 y97 y98
    refine wf_eq (doVcvt_mem ..) ?_
    exact h
  · rename_i y99 y100 y101
    refine wf_eq (doVqnt_mem ..) ?_
    exact h
  · rename_i y102 y103 y104
    refine wf_eq (doVdqn_mem ..) ?_
    exact h
  · rename_i y105 y106 y107
    refine wf_eq (doVrnd_mem ..) ?_
    exact h
  · rename_i y108 y109 y110
    refine wf_eq (doVld_mem ..) ?_
    exact h
  · rename_i y111 y112 y113
    refine wf_eq (doVst_mem ..) ?_
    exact h
  · rename_i y114 y115 y116
    refine wf_eq (doVflg_mem ..) ?_
    exact h
  · rename_i y117 y118 y119
    refine wf_eq (doVsolve_mem ..) ?_
    exact h
  · rename_i y120 y121 y122
    refine doDget_wf ?_
    exact h
  · rename_i y123 y124 y125
    refine doDput_wf ?_
    exact h
  · rename_i y126 y127 y128
    refine doDmov_wf ?_
    exact h
  · rename_i y129 y130 y131
    refine doSlotA_wf ?_
    exact h
  · rename_i y132 y133 y134
    refine doSlotA_wf ?_
    exact h
  · rename_i y135 y136 y137
    refine doSlotA_wf ?_
    exact h
  · rename_i y138 y139 y140
    refine doSlotA_wf ?_
    exact h
  · rename_i y141 y142 y143
    refine doSlotA_wf ?_
    exact h
  · rename_i y144 y145 y146
    refine doSlotA_wf ?_
    exact h
  · rename_i y147 y148 y149 y150
    refine wf_eq (doSwait_mem ..) ?_
    exact h
  · rename_i y151 y152 y153 y154 y155
    refine wf_eq (doSsignal_mem ..) ?_
    exact h
  · rename_i y156
    refine wf_eq (doSbound_mem ..) ?_
    exact h
  · rename_i y157 y158 y159 y160 y161
    refine ite_wf ?_ ?_
    · refine wf_eq (doSide_mem ..) ?_
      exact h
    · refine wf_eq (sideOn_mem ..) ?_
      exact h
  · rename_i y162 y163 y164 y165
    refine wf_eq (doChecked_mem ..) ?_
    exact h
  · rename_i y166 y167 y168 y169
    refine wf_eq (doCwake_mem ..) ?_
    exact h
  · rename_i y170 y171 y172 y173 y174 y175 y176 y177 y178 y179 y180 y181 y182 y183 y184 y185 y186 y187 y188 y189 y190 y191 y192 y193 y194 y195 y196 y197 y198 y199 y200 y201 y202 y203 y204 y205 y206 y207 y208 y209 y210 y211 y212 y213 y214 y215 y216 y217 y218 y219 y220 y221 y222 y223 y224 y225
    exact h

@[simp] theorem doHeld_wf {x1} {x2 : Block} (h : mapWf 0 x2.mem.bytes = true) : mapWf 0 (doHeld x1 x2).mem.bytes = true := by
  unfold doHeld
  split
  · rename_i y0 y1 y2
    refine doSlot_wf ?_
    exact h
  · rename_i y3 y4
    refine wf_eq (doUnlisted_mem ..) ?_
    exact h

@[simp] theorem nextSeg_mem (x1 : Block) : (nextSeg x1).mem.bytes = x1.mem.bytes := by
  unfold nextSeg
  split
  · rename_i y0 y1
    rfl
  · rename_i y2 y3 y4 y5
    refine ite_mem ?_ ?_
    · rfl
    · extract_lets y6 y7
      dsimp -zeta only

@[simp] theorem skipSegs_mem (x1 : Block) : (skipSegs x1).mem.bytes = x1.mem.bytes := by
  unfold skipSegs
  refine (iter_mem _ _ _ ?_).trans ?_
  · intros y0
    refine (nextSeg_mem ..).trans ?_
    rfl
  · rfl

@[simp] theorem advanceBundle_mem (x1) (x2 : Block) : (advanceBundle x1 x2).mem.bytes = x2.mem.bytes := by
  unfold advanceBundle; simp

@[simp] theorem runEmpty_mem (x1) (x2) (x3 : Block) : (runEmpty x1 x2 x3).mem.bytes = x3.mem.bytes := by
  unfold runEmpty
  extract_lets y0
  split
  · rename_i y1 y2
    refine (slotFault_mem ..).trans ?_
    rfl
  · rename_i y3 y4
    refine (doSbound_mem ..).trans ?_
    rfl
  · rename_i y5 y6 y7 y8 y9 y10
    refine ite_mem ?_ ?_
    · refine (slotFault_mem ..).trans ?_
      rfl
    · rfl
  · rename_i y11 y12 y13 y14 y15
    refine ite_mem ?_ ?_
    · refine (slotFault_mem ..).trans ?_
      rfl
    · rfl
  · rename_i y16 y17 y18 y19 y20 y21
    rfl

@[simp] theorem slotNone_mem (x1) (x2) (x3 : Block) : (slotNone x1 x2 x3).mem.bytes = x3.mem.bytes := by
  unfold slotNone
  refine ite_mem ?_ ?_
  · refine (forEach_mem _ _ _ ?_).trans ?_
    · intros y0 y1
      refine (doUnlisted_mem ..).trans ?_
      rfl
    · rfl
  · split
    · rename_i y2
      rfl
    · rename_i y3 y4 y5
      refine (slotFault_mem ..).trans ?_
      rfl

@[simp] theorem runSlot_wf {x1} {x2} {x3 : Block} (h : mapWf 0 x3.mem.bytes = true) : mapWf 0 (runSlot x1 x2 x3).mem.bytes = true := by
  unfold runSlot
  split
  · rename_i y0
    exact h
  · rename_i y1 y2 y3
    split
    · rename_i y4 y5
      refine wf_eq (slotNone_mem ..) ?_
      exact h
    · rename_i y6 y7 y8 y9 y10 y11
      refine wf_eq (sideOn_mem ..) ?_
      exact h
    · rename_i y12 y13 y14 y15 y16
      refine ite_wf ?_ ?_
      · exact h
      · refine wf_eq (doSwait_mem ..) ?_
        exact h
    · rename_i y17 y18 y19 y20 y21
      refine ite_wf ?_ ?_
      · refine doSlot_wf ?_
        exact h
      · refine forEach_wf _ _ _ ?_ ?_
        · exact h
        · intros y22 y23 y24
          split
          · rename_i y25 y26 y27
            refine doSlot_wf ?_
            exact y24
          · rename_i y28 y29
            exact y24

@[simp] theorem issueSlots_wf {x1} {x2} {x3 : Block} (h : mapWf 0 x3.mem.bytes = true) : mapWf 0 (issueSlots x1 x2 x3).mem.bytes = true := by
  unfold issueSlots
  extract_lets y0 y1 y2 y3
  have h4 : mapWf 0 y2.mem.bytes = true := by
    unfold y2
    refine wf_eq (bridgeFlit_mem ..) ?_
    refine wf_eq (advanceBundle_mem ..) ?_
    exact h
  clear_value y2
  refine ite_wf ?_ ?_
  · refine wf_eq (logFault_mem ..) ?_
    exact h4
  · refine ite_wf ?_ ?_
    · refine forEach_wf _ _ _ ?_ ?_
      · exact h4
      · intros y5 y6 y7
        refine wf_eq (runEmpty_mem ..) ?_
        exact y7
    · refine forEach_wf _ _ _ ?_ ?_
      · exact h4
      · intros y8 y9 y10
        refine runSlot_wf ?_
        exact y10

@[simp] theorem stallTake_wf {x1} {x2 : Block} (h : mapWf 0 x2.mem.bytes = true) : mapWf 0 (stallTake x1 x2).mem.bytes = true := by
  unfold stallTake
  extract_lets y0
  have h1 : mapWf 0 y0.mem.bytes = true := by
    unfold y0
    refine wf_eq (waitTake_mem ..) ?_
    exact h
  clear_value y0
  split
  · rename_i y2 y3
    exact h1
  · rename_i y4 y5 y6
    dsimp -zeta only
    extract_lets y7 y8
    have h9 : mapWf 0 y7.mem.bytes = true := by
      unfold y7
      refine forEach_wf _ _ _ ?_ ?_
      · dsimp -zeta only
        exact h1
      · intros y10 y11 y12
        refine doHeld_wf ?_
        exact y12
    clear_value y7
    refine ite_wf ?_ ?_
    · refine issueSlots_wf ?_
      exact h9
    · exact h9

@[simp] theorem setSideQueue_mem (x1) (x2) (x3 : Block) : (setSideQueue x1 x2 x3).mem.bytes = x3.mem.bytes := by
  unfold setSideQueue; split <;> simp [*]

@[simp] theorem placeSlice_mem (x1) (x2 : Block) : (placeSlice x1 x2).2.mem.bytes = x2.mem.bytes := by
  unfold placeSlice
  extract_lets y0
  split
  · rename_i y1 y2
    dsimp -zeta only
  · rename_i y3 y4 y5
    extract_lets y6
    have h7 : y6.mem.bytes = x2.mem.bytes := by
      unfold y6
      refine (forEach_mem _ _ _ ?_).trans ?_
      · intros y8 y9
        refine (waitTake_mem ..).trans ?_
        rfl
      · rfl
    clear_value y6
    dsimp -zeta only
    refine (setSideQueue_mem ..).trans ?_
    exact h7

@[simp] theorem startSuite_mem (x1) (x2) (x3) (x4) (x5 : Block) : (startSuite x1 x2 x3 x4 x5).mem.bytes = x5.mem.bytes := by
  unfold startSuite
  refine ite_mem ?_ ?_
  · rfl
  · split
    · rename_i y0 y1
      rfl
    · rename_i y2 y3 y4
      extract_lets y5 y6
      have h7 : y5.mem.bytes = x5.mem.bytes := by
        unfold y5
        refine ite_mem ?_ ?_
        · refine (spoilLandings_mem ..).trans ?_
          rfl
        · rfl
      clear_value y5
      dsimp -zeta only
      exact h7

@[simp] theorem runSentinels_mem (x1) (x2 : Block) : (runSentinels x1 x2).mem.bytes = x2.mem.bytes := by
  unfold runSentinels
  refine ite_mem ?_ ?_
  · rfl
  · refine (forEach_mem _ _ _ ?_).trans ?_
    · intros y0 y1
      extract_lets y2
      have h3 : y2.mem.bytes = y1.mem.bytes := by
        unfold y2
        refine (forEach_mem _ _ _ ?_).trans ?_
        · intros y4 y5
          refine (startSuite_mem ..).trans ?_
          rfl
        · rfl
      clear_value y2
      refine ite_mem ?_ ?_
      · refine (forEach_mem _ _ _ ?_).trans ?_
        · intros y6 y7
          refine (startSuite_mem ..).trans ?_
          rfl
        · exact h3
      · exact h3
    · rfl

@[simp] theorem sideDiscard_mem (x1) (x2 : Block) : (sideDiscard x1 x2).mem.bytes = x2.mem.bytes := by
  unfold sideDiscard; simp

@[simp] theorem sideUnlisted_mem (x1) (x2) (x3 : Block) : (sideUnlisted x1 x2 x3).mem.bytes = x3.mem.bytes := by
  unfold sideUnlisted
  split
  · rename_i y0 y1 y2
    refine ite_mem ?_ ?_
    · refine (vIssueNone_mem ..).trans ?_
      rfl
    · refine (sideDiscard_mem ..).trans ?_
      rfl
  · rename_i y3 y4
    refine (sideDiscard_mem ..).trans ?_
    rfl

@[simp] theorem sideSlot_wf {x1} {x2} {x3} {x4} {x5} {x6 : Block} (h : mapWf 0 x6.mem.bytes = true) : mapWf 0 (sideSlot x1 x2 x3 x4 x5 x6).mem.bytes = true := by
  unfold sideSlot
  extract_lets y0 y1
  refine ite_wf ?_ ?_
  · refine wf_eq (sideDiscard_mem ..) ?_
    exact h
  · refine doSlot_wf ?_
    exact h

@[simp] theorem sideRun_wf {x1} {x2} {x3} {x4 : Block} (h : mapWf 0 x4.mem.bytes = true) : mapWf 0 (sideRun x1 x2 x3 x4).mem.bytes = true := by
  unfold sideRun
  split
  · rename_i y0
    exact h
  · rename_i y1 y2 y3
    split
    · rename_i y4 y5
      refine ite_wf ?_ ?_
      · refine forEach_wf _ _ _ ?_ ?_
        · exact h
        · intros y6 y7 y8
          refine wf_eq (sideUnlisted_mem ..) ?_
          exact y8
      · refine wf_eq (sideDiscard_mem ..) ?_
        exact h
    · rename_i y9 y10 y11
      refine ite_wf ?_ ?_
      · refine sideSlot_wf ?_
        exact h
      · refine forEach_wf _ _ _ ?_ ?_
        · exact h
        · intros y12 y13 y14
          split
          · rename_i y15 y16 y17
            refine sideSlot_wf ?_
            exact y14
          · rename_i y18 y19
            exact y14

@[simp] theorem sideBundle_wf {x1} {x2} {x3 : Block} (h : mapWf 0 x3.mem.bytes = true) : mapWf 0 (sideBundle x1 x2 x3).2.mem.bytes = true := by
  unfold sideBundle
  extract_lets y0 y1 y2 y3 y4
  refine ite_wf_2 ?_ ?_
  · dsimp -zeta only
    refine wf_eq (logFault_mem ..) ?_
    exact h
  · dsimp -zeta only
    refine forEach_wf _ _ _ ?_ ?_
    · exact h
    · intros y5 y6 y7
      refine sideRun_wf ?_
      exact y7

@[simp] theorem sideWindow_wf {x1} {x2 : Block} (h : mapWf 0 x2.mem.bytes = true) : mapWf 0 (sideWindow x1 x2).2.mem.bytes = true := by
  unfold sideWindow
  split
  rename_i y0 y1 y2 y3
  have h4 : mapWf 0 y2.mem.bytes = true := by
    refine wf_eq (congrArg (fun p => p.2.mem.bytes) y3).symm ?_
    refine ite_wf_2 ?_ ?_
    · refine wf_eq (placeSlice_mem ..) ?_
      exact h
    · dsimp -zeta only
      exact h
  split
  · rename_i y5 y6
    dsimp -zeta only
    refine ite_wf ?_ ?_
    · refine wf_eq (runSentinels_mem ..) ?_
      exact h4
    · exact h4
  · rename_i y7 y8 y9
    refine ite_wf_2 ?_ ?_
    · refine sideBundle_wf ?_
      exact h4
    · dsimp -zeta only
      exact h4

@[simp] theorem sideGo_wf {x1} {x2 : Block} (h : mapWf 0 x2.mem.bytes = true) : mapWf 0 (sideGo x1 x2).2.mem.bytes = true := by
  unfold sideGo
  split
  · rename_i y0 y1
    dsimp -zeta only
    exact h
  · rename_i y2 y3 y4 y5
    split
    rename_i y6 y7 y8 y9
    have h10 : mapWf 0 y8.mem.bytes = true := by
      refine wf_eq (congrArg (fun p => p.2.mem.bytes) y9).symm ?_
      refine sideWindow_wf ?_
      exact h
    split
    rename_i y11 y12 y13 y14
    have h15 : mapWf 0 y13.mem.bytes = true := by
      refine wf_eq (congrArg (fun p => p.2.mem.bytes) y14).symm ?_
      refine sideGo_wf ?_
      exact h10
    dsimp -zeta only
    exact h15

@[simp] theorem gateBundle_wf {x1 : Block} (h : mapWf 0 x1.mem.bytes = true) : mapWf 0 (gateBundle x1).mem.bytes = true := by
  unfold gateBundle
  extract_lets y0 y1 y2
  split
  · rename_i y3 y4
    refine issueSlots_wf ?_
    exact h
  · rename_i y5 y6 y7 y8
    refine ite_wf ?_ ?_
    · refine wf_eq (wakeFreeze_mem ..) ?_
      exact h
    · refine ite_wf ?_ ?_
      · refine issueSlots_wf ?_
        refine wf_eq (waitTake_mem ..) ?_
        exact h
      · refine wf_eq (freezeFor_mem ..) ?_
        exact h

@[simp] theorem endFreeze_wf {x1 : Block} (h : mapWf 0 x1.mem.bytes = true) : mapWf 0 (endFreeze x1).mem.bytes = true := by
  unfold endFreeze
  split
  · rename_i y0 y1
    exact h
  · rename_i y2 y3 y4
    extract_lets y5 y6
    have h7 : mapWf 0 y5.mem.bytes = true := by
      unfold y5
      dsimp -zeta only
      exact h
    clear_value y5
    have h8 : mapWf 0 y6.mem.bytes = true := by
      unfold y6
      refine forEach_wf _ _ _ ?_ ?_
      · exact h7
      · intros y9 y10 y11
        refine doHeld_wf ?_
        exact y11
    clear_value y6
    refine ite_wf ?_ ?_
    · refine gateBundle_wf ?_
      exact h8
    · exact h8

@[simp] theorem fetchHit_mem (x1 : Block) : (fetchHit x1).mem.bytes = x1.mem.bytes := by
  unfold fetchHit
  extract_lets y0 y1
  split
  rename_i y2 y3 y4 y5
  have h6 : y4.mem.bytes = x1.mem.bytes := by
    refine (congrArg (fun p => p.2.mem.bytes) y5).symm.trans ?_
    refine (inject_mem ..).trans ?_
    rfl
  extract_lets y7
  have h8 : y7.mem.bytes = x1.mem.bytes := by
    unfold y7
    refine ite_mem ?_ ?_
    · refine (detect_mem ..).trans ?_
      exact h6
    · exact h6
  clear_value y7
  split
  rename_i y9 y10 y11 y12
  have h13 : y11.mem.bytes = x1.mem.bytes := by
    refine (congrArg (fun p => p.2.mem.bytes) y12).symm.trans ?_
    refine (inject_mem ..).trans ?_
    exact h8
  extract_lets y14 y15
  have h16 : y15.mem.bytes = x1.mem.bytes := by
    unfold y15
    refine ite_mem ?_ ?_
    · refine (detect_mem ..).trans ?_
      dsimp -zeta only
      exact h13
    · exact h13
  clear_value y15
  split
  rename_i y17 y18 y19 y20
  have h21 : y19.mem.bytes = x1.mem.bytes := by
    refine (congrArg (fun p => p.2.mem.bytes) y20).symm.trans ?_
    refine ite_mem_2 ?_ ?_
    · refine (inject_mem ..).trans ?_
      exact h16
    · dsimp -zeta only
      exact h16
  refine ite_mem ?_ ?_
  · refine (detectAt_mem ..).trans ?_
    dsimp -zeta only
    exact h21
  · exact h21

@[simp] theorem enterPairing_mem (x1 : Block) : (enterPairing x1).mem.bytes = x1.mem.bytes := by
  unfold enterPairing
  extract_lets y0 y1 y2 y3 y4 y5 y6
  have h7 : y2.mem.bytes = x1.mem.bytes := by
    unfold y2
    refine (forEach_mem _ _ _ ?_).trans ?_
    · intros y8 y9
      refine (logFault_mem ..).trans ?_
      refine (setLgroup_mem ..).trans ?_
      rfl
    · rfl
  clear_value y2
  have h10 : y4.mem.bytes = x1.mem.bytes := by
    unfold y4
    refine (forEach_mem _ _ _ ?_).trans ?_
    · intros y11 y12
      refine (slotFault_mem ..).trans ?_
      rfl
    · exact h7
  clear_value y4
  dsimp -zeta only
  exact h10

@[simp] theorem takePairing_mem (x1 : Block) : (takePairing x1).mem.bytes = x1.mem.bytes := by
  unfold takePairing
  split
  · rename_i y0 y1
    rfl
  · rename_i y2 y3 y4 y5
    extract_lets y6 y7
    have h8 : y6.mem.bytes = x1.mem.bytes := by
      unfold y6
      refine ite_mem ?_ ?_
      · refine (enterPairing_mem ..).trans ?_
        rfl
      · rfl
    clear_value y6
    dsimp -zeta only
    exact h8

@[simp] theorem takeBundle_wf {x1 : Block} (h : mapWf 0 x1.mem.bytes = true) : mapWf 0 (takeBundle x1).mem.bytes = true := by
  unfold takeBundle
  extract_lets y0 y1 y2
  have h3 : mapWf 0 y0.mem.bytes = true := by
    unfold y0
    refine wf_eq (fetchHit_mem ..) ?_
    refine wf_eq (takePairing_mem ..) ?_
    exact h
  clear_value y0
  refine ite_wf ?_ ?_
  · refine wf_eq (doWatchdog_mem ..) ?_
    refine wf_eq (freezeFor_mem ..) ?_
    exact h3
  · refine ite_wf ?_ ?_
    · refine wf_eq (freezeFor_mem ..) ?_
      exact h3
    · refine gateBundle_wf ?_
      exact h3

@[simp] theorem issueNext_wf {x1 : Block} (h : mapWf 0 x1.mem.bytes = true) : mapWf 0 (issueNext x1).mem.bytes = true := by
  unfold issueNext
  refine ite_wf ?_ ?_
  · dsimp -zeta only
    exact h
  · refine ite_wf ?_ ?_
    · refine wf_eq (logFault_mem ..) ?_
      refine wf_eq (doSbound_mem ..) ?_
      exact h
    · refine takeBundle_wf ?_
      exact h

@[simp] theorem sentinelHit_mem (x1) (x2 : Block) : (sentinelHit x1 x2).mem.bytes = x2.mem.bytes := by
  unfold sentinelHit
  extract_lets y0 y1
  refine ite_mem ?_ ?_
  · refine (detect_mem ..).trans ?_
    refine (injectFire_mem ..).trans ?_
    rfl
  · rfl

@[simp] theorem endSuites_mem (x1 : Block) : (endSuites x1).mem.bytes = x1.mem.bytes := by
  unfold endSuites
  extract_lets y0 y1 y2
  have h3 : y2.mem.bytes = x1.mem.bytes := by
    unfold y2
    dsimp -zeta only
  clear_value y2
  refine ite_mem ?_ ?_
  · rfl
  · refine (forEach_mem _ _ _ ?_).trans ?_
    · intros y4 y5
      refine (sentinelHit_mem ..).trans ?_
      rfl
    · exact h3

@[simp] theorem sideCycle_wf {x1 : Block} (h : mapWf 0 x1.mem.bytes = true) : mapWf 0 (sideCycle x1).mem.bytes = true := by
  unfold sideCycle
  refine ite_wf ?_ ?_
  · exact h
  · extract_lets y0
    have h1 : mapWf 0 y0.mem.bytes = true := by
      unfold y0
      refine wf_eq (endSuites_mem ..) ?_
      exact h
    clear_value y0
    refine ite_wf ?_ ?_
    · exact h1
    · split
      rename_i y2 y3 y4 y5
      have h6 : mapWf 0 y4.mem.bytes = true := by
        refine wf_eq (congrArg (fun p => p.2.mem.bytes) y5).symm ?_
        refine sideGo_wf ?_
        exact h1
      dsimp -zeta only
      exact h6

@[simp] theorem releaseKind_wf {x1} {x2 : Block} (h : mapWf 0 x2.mem.bytes = true) : mapWf 0 (releaseKind x1 x2).mem.bytes = true := by
  unfold releaseKind
  split
  · rename_i y0 y1
    exact h
  · rename_i y2 y3 y4
    refine ite_wf ?_ ?_
    · refine ite_wf ?_ ?_
      · refine stallTake_wf ?_
        exact h
      · refine endFreeze_wf ?_
        exact h
    · exact h

end Sys2Proof.Machine
end

