-- ==== Sys2Proof/Laws/MemRecovery.lean ====
section
/-! SUPPORT. What each operation does to the bytes of memory: events, loads, recovery, receiving, resets, power, security and firmware.
`f_mem`: `f` leaves every byte as it is; `f_wf`: `f` keeps the canonical form. -/

set_option maxRecDepth 4000

namespace Sys2Proof.Machine

@[simp] theorem doFetchHoldEnd_wf {x1 : Block} (h : mapWf 0 x1.mem.bytes = true) : mapWf 0 (doFetchHoldEnd x1).mem.bytes = true := by
  unfold doFetchHoldEnd
  refine ite_wf ?_ ?_
  · exact h
  · extract_lets y0 y1 y2
    refine releaseKind_wf ?_
    dsimp -zeta only
    exact h

@[simp] theorem bareCycle_wf {x1 : Block} (h : mapWf 0 x1.mem.bytes = true) : mapWf 0 (bareCycle x1).mem.bytes = true := by
  unfold bareCycle
  refine wf_eq (clockCycle_mem ..) ?_
  refine sideCycle_wf ?_
  refine drainLoop_wf ?_
  exact h

@[simp] theorem doBundleIssue_wf {x1 : Block} (h : mapWf 0 x1.mem.bytes = true) : mapWf 0 (doBundleIssue x1).mem.bytes = true := by
  unfold doBundleIssue
  refine ite_wf ?_ ?_
  · exact h
  · extract_lets y0
    have h1 : mapWf 0 y0.mem.bytes = true := by
      unfold y0
      refine iter_wf _ _ _ ?_ ?_
      · exact h
      · intros y2 y3
        refine ite_wf ?_ ?_
        · refine bareCycle_wf ?_
          exact y3
        · exact y3
    clear_value y0
    refine ite_wf ?_ ?_
    · refine issueNext_wf ?_
      exact h1
    · exact h1

@[simp] theorem autoIssue_wf {x1 : Block} (h : mapWf 0 x1.mem.bytes = true) : mapWf 0 (autoIssue x1).mem.bytes = true := by
  unfold autoIssue
  refine ite_wf ?_ ?_
  · refine issueNext_wf ?_
    exact h
  · exact h

@[simp] theorem autoRelease_wf {x1 : Block} (h : mapWf 0 x1.mem.bytes = true) : mapWf 0 (autoRelease x1).mem.bytes = true := by
  unfold autoRelease
  refine releaseKind_wf ?_
  refine releaseKind_wf ?_
  refine releaseKind_wf ?_
  exact h

@[simp] theorem autoCycle_wf {x1 : Block} (h : mapWf 0 x1.mem.bytes = true) : mapWf 0 (autoCycle x1).mem.bytes = true := by
  unfold autoCycle
  extract_lets y0
  have h1 : mapWf 0 y0.mem.bytes = true := by
    unfold y0
    refine wf_eq (lockstepCycle_mem ..) ?_
    exact h
  clear_value y0
  refine ite_wf ?_ ?_
  · refine wf_eq (passTime_mem ..) ?_
    exact h1
  · refine wf_eq (tellBeacons_mem ..) ?_
    refine wf_eq (clockCycle_mem ..) ?_
    refine sideCycle_wf ?_
    refine autoIssue_wf ?_
    refine autoRelease_wf ?_
    refine drainLoop_wf ?_
    exact h1

theorem runGoal_wf (f : Block → Block) (p : Block → Bool) (hf : ∀ s, mapWf 0 s.mem.bytes = true → mapWf 0 (f s).mem.bytes = true) (n : Nat) (s t : Block)
    (h : mapWf 0 s.mem.bytes = true) (ht : runGoal f p n s = some t) : mapWf 0 t.mem.bytes = true := by
  induction n generalizing s with
  | zero => unfold runGoal at ht; split at ht <;> first | (cases ht; exact h) | cases ht
  | succ n ih =>
    unfold runGoal at ht
    split at ht
    · cases ht; exact h
    · exact ih _ (hf _ h) ht
theorem runUntil_wf {x1} {x2} {x3 : Block} (h : mapWf 0 x3.mem.bytes = true) : mapWf 0 (runUntil x1 x2 x3).mem.bytes = true := by
  unfold runUntil
  split
  · exact h
  · cases e : runGoal autoCycle x1 x2 x3 with
    | none => exact h
    | some t => exact runGoal_wf _ _ (fun _ hs => autoCycle_wf hs) _ _ _ h e

@[simp] theorem doDrainStart_wf {x1 : Block} (h : mapWf 0 x1.mem.bytes = true) : mapWf 0 (doDrainStart x1).mem.bytes = true := by
  unfold doDrainStart
  extract_lets y0
  refine ite_wf ?_ ?_
  · exact h
  · refine runUntil_wf ?_
    exact h

@[simp] theorem doRampDown_wf {x1} {x2} {x3 : Block} (h : mapWf 0 x3.mem.bytes = true) : mapWf 0 (doRampDown x1 x2 x3).mem.bytes = true := by
  unfold doRampDown
  refine ite_wf ?_ ?_
  · refine runUntil_wf ?_
    exact h
  · exact h

@[simp] theorem doLandingWrite_wf {x1 : Block} (h : mapWf 0 x1.mem.bytes = true) : mapWf 0 (doLandingWrite x1).mem.bytes = true := by
  unfold doLandingWrite
  refine ite_wf ?_ ?_
  · exact h
  · refine runUntil_wf ?_
    exact h

@[simp] theorem doClockStop_mem (x1) (x2 : Block) : (doClockStop x1 x2).mem.bytes = x2.mem.bytes := by
  unfold doClockStop
  extract_lets y0
  refine ite_mem ?_ ?_
  · refine (setGclk_mem ..).trans ?_
    rfl
  · rfl

@[simp] theorem placeAll_mem (x1) (x2) (x3 : Block) : (placeAll x1 x2 x3).2.mem.bytes = x3.mem.bytes := by
  unfold placeAll
  split
  · rename_i y0 y1
    dsimp -zeta only
  · rename_i y2 y3 y4 y5
    split
    rename_i y6 y7 y8 y9
    have h10 : y8.mem.bytes = x3.mem.bytes := by
      refine (congrArg (fun p => p.2.mem.bytes) y9).symm.trans ?_
      refine ite_mem_2 ?_ ?_
      · refine (placeSlice_mem ..).trans ?_
        rfl
      · dsimp -zeta only
    split
    rename_i y11 y12 y13 y14
    have h15 : y13.mem.bytes = x3.mem.bytes := by
      refine (congrArg (fun p => p.2.mem.bytes) y14).symm.trans ?_
      refine (placeAll_mem ..).trans ?_
      exact h10
    dsimp -zeta only
    exact h15

@[simp] theorem doRampDownEnd_wf {x1} {x2} {x3 : Block} (h : mapWf 0 x3.mem.bytes = true) : mapWf 0 (doRampDownEnd x1 x2 x3).mem.bytes = true := by
  unfold doRampDownEnd
  refine ite_wf ?_ ?_
  · refine runUntil_wf ?_
    exact h
  · exact h

@[simp] theorem doSlicePlace_wf {x1} {x2 : Block} (h : mapWf 0 x2.mem.bytes = true) : mapWf 0 (doSlicePlace x1 x2).mem.bytes = true := by
  unfold doSlicePlace
  refine ite_wf ?_ ?_
  · exact h
  · extract_lets y0
    have h1 : mapWf 0 y0.mem.bytes = true := by
      unfold y0
      refine runUntil_wf ?_
      exact h
    clear_value y0
    split
    rename_i y2 y3 y4 y5
    have h6 : mapWf 0 y4.mem.bytes = true := by
      refine wf_eq (congrArg (fun p => p.2.mem.bytes) y5).symm ?_
      refine wf_eq (placeAll_mem ..) ?_
      exact h1
    dsimp -zeta only
    exact h6

@[simp] theorem doLandingRelease_wf {x1 : Block} (h : mapWf 0 x1.mem.bytes = true) : mapWf 0 (doLandingRelease x1).mem.bytes = true := by
  unfold doLandingRelease
  refine ite_wf ?_ ?_
  · exact h
  · refine runUntil_wf ?_
    exact h

theorem doRampHoldEnd_wf {x1 : Block} (h : mapWf 0 x1.mem.bytes = true) : mapWf 0 (doRampHoldEnd x1).mem.bytes = true := by
  unfold doRampHoldEnd
  refine ite_wf h ?_
  extract_lets met
  split
  · rename_i t e
    exact releaseKind_wf (runGoal_wf _ _ (fun _ hs => wf_eq (clockCycle_mem ..) hs) _ _ _ h e)
  · exact h

@[simp] theorem doRampUpEnd_wf {x1} {x2} {x3 : Block} (h : mapWf 0 x3.mem.bytes = true) : mapWf 0 (doRampUpEnd x1 x2 x3).mem.bytes = true := by
  unfold doRampUpEnd
  refine ite_wf ?_ ?_
  · refine runUntil_wf ?_
    exact h
  · exact h

@[simp] theorem doClockRestart_mem (x1) (x2 : Block) : (doClockRestart x1 x2).mem.bytes = x2.mem.bytes := by
  unfold doClockRestart
  extract_lets y0
  refine ite_mem ?_ ?_
  · refine (wakeGal_mem ..).trans ?_
    refine (setGclk_mem ..).trans ?_
    rfl
  · rfl

@[simp] theorem doKeeperCycle_mem (x1 : Block) : (doKeeperCycle x1).mem.bytes = x1.mem.bytes := by
  unfold doKeeperCycle; split <;> simp [*]

@[simp] theorem precFaults_mem (x1 : Block) : (precFaults x1).mem.bytes = x1.mem.bytes := by
  unfold precFaults
  refine (forEach_mem _ _ _ ?_).trans ?_
  · intros y0 y1
    extract_lets y2
    refine ite_mem ?_ ?_
    · rfl
    · refine (logFault_mem ..).trans ?_
      rfl
  · rfl

@[simp] theorem withImage_mem (x1) (x2 : Block) : (withImage x1 x2).mem.bytes = x2.mem.bytes := by
  unfold withImage
  dsimp -zeta only

@[simp] theorem clearProgram_mem (x1 : Block) : (clearProgram x1).mem.bytes = x1.mem.bytes := by
  unfold clearProgram; simp

@[simp] theorem initCsets_mem (x1 : Block) : (initCsets x1).mem.bytes = x1.mem.bytes := by
  unfold initCsets; simp

@[simp] theorem initTokens_mem (x1 : Block) : (initTokens x1).mem.bytes = x1.mem.bytes := by
  unfold initTokens; simp

@[simp] theorem powerLandings_mem (x1 : Block) : (powerLandings x1).mem.bytes = x1.mem.bytes := by
  unfold powerLandings; simp

@[simp] theorem finishLoad_mem (x1) (x2 : Block) : (finishLoad x1 x2).mem.bytes = x2.mem.bytes := by
  unfold finishLoad; simp

@[simp] theorem tryLoad_wf {x1} {x2} {x3 : Block} (h : mapWf 0 x3.mem.bytes = true) : mapWf 0 (tryLoad x1 x2 x3).2.mem.bytes = true := by
  unfold tryLoad
  refine ite_wf_2 ?_ ?_
  · dsimp -zeta only
    exact h
  · refine ite_wf_2 ?_ ?_
    · dsimp -zeta only
      exact h
    · split
      rename_i y0 y1 y2 y3
      have h4 : mapWf 0 y2.mem.bytes = true := by
        refine wf_eq (congrArg (fun p => p.2.mem.bytes) y3).symm ?_
        refine memRead_wf ?_
        exact h
      extract_lets y5 y6 y7
      refine ite_wf_2 ?_ ?_
      · dsimp -zeta only
        exact h4
      · refine ite_wf_2 ?_ ?_
        · dsimp -zeta only
          refine wf_eq (setNum_mem ..) ?_
          exact h4
        · split
          rename_i y8 y9 y10 y11
          have h12 : mapWf 0 y10.mem.bytes = true := by
            refine wf_eq (congrArg (fun p => p.2.mem.bytes) y11).symm ?_
            refine wf_eq (adoptOwn_mem ..) ?_
            exact h4
          refine ite_wf_2 ?_ ?_
          · dsimp -zeta only
            refine wf_eq (setNum_mem ..) ?_
            exact h12
          · extract_lets y13 y14 y15 y16 y17 y18
            have h19 : mapWf 0 y13.mem.bytes = true := by
              unfold y13
              refine wf_eq (withImage_mem ..) ?_
              exact h12
            clear_value y13
            have h20 : mapWf 0 y15.mem.bytes = true := by
              unfold y15
              refine wf_eq (clearProgram_mem ..) ?_
              exact h12
            clear_value y15
            have h21 : mapWf 0 y17.mem.bytes = true := by
              unfold y17
              refine wf_eq (withImage_mem ..) ?_
              dsimp -zeta only
              exact h20
            clear_value y17
            have h22 : mapWf 0 y18.mem.bytes = true := by
              unfold y18
              refine wf_eq (setNum_mem ..) ?_
              exact h21
            clear_value y18
            refine ite_wf_2 ?_ ?_
            · dsimp -zeta only
              refine wf_eq (setNum_mem ..) ?_
              exact h12
            · dsimp -zeta only
              refine wf_eq (finishLoad_mem ..) ?_
              exact h22

@[simp] theorem doLoad_wf {x1} {x2} {x3} {x4 : Block} (h : mapWf 0 x4.mem.bytes = true) : mapWf 0 (doLoad x1 x2 x3 x4).mem.bytes = true := by
  unfold doLoad
  split
  rename_i y0 y1 y2 y3
  have h4 : mapWf 0 y2.mem.bytes = true := by
    refine wf_eq (congrArg (fun p => p.2.mem.bytes) y3).symm ?_
    refine tryLoad_wf ?_
    exact h
  refine ite_wf ?_ ?_
  · refine wf_eq (respond_mem ..) ?_
    exact h4
  · refine wf_eq (longDone_mem ..) ?_
    refine wf_eq (setNum_mem ..) ?_
    refine wf_eq (respond_mem ..) ?_
    exact h4

@[simp] theorem recovEnd_mem (x1) (x2) (x3) (x4 : Block) : (recovEnd x1 x2 x3 x4).mem.bytes = x4.mem.bytes := by
  unfold recovEnd; simp

@[simp] theorem endJob_mem (x1) (x2 : Block) : (endJob x1 x2).mem.bytes = x2.mem.bytes := by
  unfold endJob; split <;> simp [*]

@[simp] theorem startRebuild_mem (x1) (x2 : Block) : (startRebuild x1 x2).mem.bytes = x2.mem.bytes := by
  unfold startRebuild; simp

@[simp] theorem restoreReserve_mem (x1 : Block) : (restoreReserve x1).mem.bytes = x1.mem.bytes := by
  unfold restoreReserve
  extract_lets y0 y1 y2
  have h3 : y0.mem.bytes = x1.mem.bytes := by
    unfold y0
    refine (forEach_mem _ _ _ ?_).trans ?_
    · intros y4 y5
      refine (dropPage_mem ..).trans ?_
      rfl
    · rfl
  clear_value y0
  refine (countReserve_mem ..).trans ?_
  refine (forEach_mem _ _ _ ?_).trans ?_
  · intros y6 y7
    refine (takePages_mem ..).trans ?_
    rfl
  · exact h3

@[simp] theorem putTokens_mem (x1) (x2 : Block) : (putTokens x1 x2).mem.bytes = x2.mem.bytes := by
  unfold putTokens; simp

@[simp] theorem putLevels_mem (x1) (x2 : Block) : (putLevels x1 x2).mem.bytes = x2.mem.bytes := by
  unfold putLevels
  extract_lets y0
  refine (forEach_mem _ _ _ ?_).trans ?_
  · intros y1 y2
    refine (bufPut_mem ..).trans ?_
    rfl
  · rfl

@[simp] theorem putLanes_mem (x1) (x2 : Block) : (putLanes x1 x2).mem.bytes = x2.mem.bytes := by
  unfold putLanes; simp

@[simp] theorem applyContext_mem (x1) (x2) (x3 : Block) : (applyContext x1 x2 x3).mem.bytes = x3.mem.bytes := by
  unfold applyContext; split <;> simp [*]

@[simp] theorem finishTakeover_mem (x1) (x2 : Block) : (finishTakeover x1 x2).mem.bytes = x2.mem.bytes := by
  unfold finishTakeover
  extract_lets y0 y1
  have h2 : y1.mem.bytes = x2.mem.bytes := by
    unfold y1
    dsimp -zeta only
  clear_value y1
  refine ite_mem ?_ ?_
  · refine (endJob_mem ..).trans ?_
    refine (setRecov_mem ..).trans ?_
    refine (buildRun_mem ..).trans ?_
    exact h2
  · refine ite_mem ?_ ?_
    · refine (endJob_mem ..).trans ?_
      exact h2
    · refine ite_mem ?_ ?_
      · refine (endJob_mem ..).trans ?_
        exact h2
      · refine (endJob_mem ..).trans ?_
        refine (setRecov_mem ..).trans ?_
        refine (applyContext_mem ..).trans ?_
        exact h2

@[simp] theorem jobGo_mem (x1 : Block) : (jobGo x1).mem.bytes = x1.mem.bytes := by
  unfold jobGo
  split
  · rename_i y0 y1
    rfl
  · rename_i y2 y3 y4
    refine ite_mem ?_ ?_
    · refine (endJob_mem ..).trans ?_
      rfl
    · refine ite_mem ?_ ?_
      · refine ite_mem ?_ ?_
        · rfl
        · refine ite_mem ?_ ?_
          · refine (endJob_mem ..).trans ?_
            rfl
          · refine (startRebuild_mem ..).trans ?_
            rfl
      · refine ite_mem ?_ ?_
        · refine (endJob_mem ..).trans ?_
          rfl
        · refine ite_mem ?_ ?_
          · refine (finishTakeover_mem ..).trans ?_
            rfl
          · rfl

@[simp] theorem unload_mem (x1 : Block) : (unload x1).mem.bytes = x1.mem.bytes := by
  unfold unload; simp

@[simp] theorem clearGallery_mem (x1) (x2 : Block) : (clearGallery x1 x2).mem.bytes = x2.mem.bytes := by
  unfold clearGallery; simp

@[simp] theorem resetGallery_mem (x1) (x2 : Block) : (resetGallery x1 x2).mem.bytes = x2.mem.bytes := by
  unfold resetGallery
  refine ite_mem ?_ ?_
  · refine ite_mem ?_ ?_
    · refine (leaveActive_mem ..).trans ?_
      refine (unload_mem ..).trans ?_
      refine (clearGallery_mem ..).trans ?_
      rfl
    · rfl
  · refine (clearGallery_mem ..).trans ?_
    rfl

@[simp] theorem pullRange_mem (x1) (x2) (x3) (x4) (x5 : Block) : (pullRange x1 x2 x3 x4 x5).mem.bytes = x5.mem.bytes := by
  unfold pullRange
  split
  · rename_i y0 y1
    rfl
  · rename_i y2 y3 y4
    refine ite_mem ?_ ?_
    · rfl
    · refine ite_mem ?_ ?_
      · dsimp -zeta only
      · extract_lets y5 y6
        have h7 : y6.mem.bytes = x5.mem.bytes := by
          unfold y6
          dsimp -zeta only
        clear_value y6
        refine (forEach_mem _ _ _ ?_).trans ?_
        · intros y8 y9
          extract_lets y10
          refine (sendPacket_mem ..).trans ?_
          rfl
        · exact h7

@[simp] theorem pullHeld_mem (x1 : Block) : (pullHeld x1).mem.bytes = x1.mem.bytes := by
  unfold pullHeld
  refine (forEach_mem _ _ _ ?_).trans ?_
  · intros y0 y1
    refine (pullRange_mem ..).trans ?_
    rfl
  · rfl

@[simp] theorem copyRange_wf {x1} {x2} {x3} {x4 : Block} (h : mapWf 0 x4.mem.bytes = true) : mapWf 0 (copyRange x1 x2 x3 x4).mem.bytes = true := by
  unfold copyRange
  split
  · rename_i y0 y1
    exact h
  · rename_i y2 y3 y4
    extract_lets y5 y6 y7 y8
    have h9 : mapWf 0 y5.2.mem.bytes = true := by
      unfold y5
      refine memRead_wf ?_
      exact h
    clear_value y5
    have h10 : mapWf 0 y6.mem.bytes = true := by
      unfold y6
      exact h9
    clear_value y6
    have h11 : mapWf 0 y8.mem.bytes = true := by
      unfold y8
      dsimp -zeta only
      exact h10
    clear_value y8
    refine copyRange_wf ?_
    refine memWrite_wf ?_
    exact h11

@[simp] theorem pullRank_wf {x1} {x2} {x3 : Block} (h : mapWf 0 x3.mem.bytes = true) : mapWf 0 (pullRank x1 x2 x3).mem.bytes = true := by
  unfold pullRank
  extract_lets y0
  refine forEach_wf _ _ _ ?_ ?_
  · exact h
  · intros y1 y2 y3
    refine ite_wf ?_ ?_
    · refine copyRange_wf ?_
      exact y3
    · refine wf_eq (pullRange_mem ..) ?_
      exact y3

@[simp] theorem startJob_mem (x1) (x2) (x3) (x4) (x5 : Block) : (startJob x1 x2 x3 x4 x5).mem.bytes = x5.mem.bytes := by
  unfold startJob; simp

@[simp] theorem doTakeSlices_wf {x1} {x2} {x3 : Block} (h : mapWf 0 x3.mem.bytes = true) : mapWf 0 (doTakeSlices x1 x2 x3).mem.bytes = true := by
  unfold doTakeSlices
  extract_lets y0 y1 y2
  have h3 : mapWf 0 y0.mem.bytes = true := by
    unfold y0
    refine wf_eq (respond_mem ..) ?_
    exact h
  clear_value y0
  refine ite_wf ?_ ?_
  · refine wf_eq (recovEnd_mem ..) ?_
    exact h3
  · refine wf_eq (jobGo_mem ..) ?_
    refine wf_eq (pullHeld_mem ..) ?_
    refine pullRank_wf ?_
    refine wf_eq (startJob_mem ..) ?_
    exact h3

@[simp] theorem doContextMsg_mem (x1) (x2) (x3) (x4) (x5 : Block) : (doContextMsg x1 x2 x3 x4 x5).mem.bytes = x5.mem.bytes := by
  unfold doContextMsg
  extract_lets y0 y1 y2 y3 y4 y5 y6
  have h7 : y6.mem.bytes = x5.mem.bytes := by
    unfold y6
    dsimp -zeta only
  clear_value y6
  refine ite_mem ?_ ?_
  · dsimp -zeta only
  · refine ite_mem ?_ ?_
    · refine (keepContext_mem ..).trans ?_
      exact h7
    · exact h7

@[simp] theorem doRestore_wf {x1} {x2} {x3} {x4 : Block} (h : mapWf 0 x4.mem.bytes = true) : mapWf 0 (doRestore x1 x2 x3 x4).mem.bytes = true := by
  unfold doRestore
  refine ite_wf ?_ ?_
  · refine wf_eq (respond_mem ..) ?_
    exact h
  · extract_lets y0
    have h1 : mapWf 0 y0.mem.bytes = true := by
      unfold y0
      refine wf_eq (respond_mem ..) ?_
      exact h
    clear_value y0
    refine ite_wf ?_ ?_
    · refine wf_eq (recovEnd_mem ..) ?_
      exact h1
    · split
      rename_i y2 y3 y4 y5
      have h6 : mapWf 0 y4.mem.bytes = true := by
        refine wf_eq (congrArg (fun p => p.2.mem.bytes) y5).symm ?_
        refine memRead_wf ?_
        exact h1
      extract_lets y7
      split
      rename_i y8 y9 y10 y11
      have h12 : mapWf 0 y10.mem.bytes = true := by
        refine wf_eq (congrArg (fun p => p.2.mem.bytes) y11).symm ?_
        refine ite_wf_2 ?_ ?_
        · dsimp -zeta only
          exact h6
        · refine memRead_wf ?_
          exact h6
      extract_lets y13
      refine ite_wf ?_ ?_
      · refine wf_eq (recovEnd_mem ..) ?_
        refine wf_eq (applyContext_mem ..) ?_
        exact h12
      · refine wf_eq (recovEnd_mem ..) ?_
        exact h12

@[simp] theorem refuseState_mem (x1) (x2) (x3 : Block) : (refuseState x1 x2 x3).mem.bytes = x3.mem.bytes := by
  unfold refuseState; simp

@[simp] theorem doResume_wf {x1} {x2 : Block} (h : mapWf 0 x2.mem.bytes = true) : mapWf 0 (doResume x1 x2).mem.bytes = true := by
  unfold doResume
  refine ite_wf ?_ ?_
  · refine wf_eq (refuseState_mem ..) ?_
    exact h
  · refine beginResume_wf ?_
    dsimp -zeta only
    exact h

@[simp] theorem doTakeTwin_mem (x1) (x2) (x3 : Block) : (doTakeTwin x1 x2 x3).mem.bytes = x3.mem.bytes := by
  unfold doTakeTwin
  extract_lets y0 y1
  have h2 : y0.mem.bytes = x3.mem.bytes := by
    unfold y0
    refine (respond_mem ..).trans ?_
    rfl
  clear_value y0
  refine ite_mem ?_ ?_
  · refine (recovEnd_mem ..).trans ?_
    exact h2
  · refine (jobGo_mem ..).trans ?_
    refine (pullHeld_mem ..).trans ?_
    refine (startJob_mem ..).trans ?_
    exact h2

@[simp] theorem pullArrive_mem (x1) (x2 : Block) : (pullArrive x1 x2).mem.bytes = x2.mem.bytes := by
  unfold pullArrive
  split
  · rename_i y0 y1
    rfl
  · rename_i y2 y3 y4
    extract_lets y5 y6 y7 y8
    refine ite_mem ?_ ?_
    · rfl
    · refine (jobGo_mem ..).trans ?_
      dsimp -zeta only

@[simp] theorem doReMirror_mem (x1) (x2 : Block) : (doReMirror x1 x2).mem.bytes = x2.mem.bytes := by
  unfold doReMirror
  extract_lets y0
  have h1 : y0.mem.bytes = x2.mem.bytes := by
    unfold y0
    refine (respond_mem ..).trans ?_
    rfl
  clear_value y0
  refine ite_mem ?_ ?_
  · refine (recovEnd_mem ..).trans ?_
    exact h1
  · refine (jobGo_mem ..).trans ?_
    refine (pullHeld_mem ..).trans ?_
    refine (startJob_mem ..).trans ?_
    exact h1

@[simp] theorem doPark_mem (x1) (x2 : Block) : (doPark x1 x2).mem.bytes = x2.mem.bytes := by
  unfold doPark
  refine ite_mem ?_ ?_
  · refine (refuseState_mem ..).trans ?_
    rfl
  · extract_lets y0 y1 y2
    have h3 : y0.mem.bytes = x2.mem.bytes := by
      unfold y0
      refine (respond_mem ..).trans ?_
      rfl
    clear_value y0
    have h4 : y2.mem.bytes = x2.mem.bytes := by
      unfold y2
      dsimp -zeta only
      exact h3
    clear_value y2
    refine ite_mem ?_ ?_
    · refine (goParked_mem ..).trans ?_
      exact h4
    · refine (setRecov_mem ..).trans ?_
      exact h4

@[simp] theorem doReplay_wf {x1} {x2 : Block} (h : mapWf 0 x2.mem.bytes = true) : mapWf 0 (doReplay x1 x2).mem.bytes = true := by
  unfold doReplay
  extract_lets y0 y1 y2 y3 y4
  have h5 : mapWf 0 y2.mem.bytes = true := by
    unfold y2
    refine wf_eq (setNum_mem ..) ?_
    refine wf_eq (setNum_mem ..) ?_
    exact h
  clear_value y2
  refine ite_wf ?_ ?_
  · refine wf_eq (refuseState_mem ..) ?_
    exact h
  · refine ite_wf ?_ ?_
    · unfold y1
      refine wf_eq (respond_mem ..) ?_
      refine wf_eq (setNum_mem ..) ?_
      exact h
    · refine ite_wf ?_ ?_
      · unfold y1
        refine wf_eq (respond_mem ..) ?_
        refine wf_eq (setNum_mem ..) ?_
        exact h
      · refine beginResume_wf ?_
        dsimp -zeta only
        exact h5

@[simp] theorem doSave_wf {x1} {x2} {x3 : Block} (h : mapWf 0 x3.mem.bytes = true) : mapWf 0 (doSave x1 x2 x3).mem.bytes = true := by
  unfold doSave
  refine ite_wf ?_ ?_
  · refine wf_eq (respond_mem ..) ?_
    exact h
  · extract_lets y0
    have h1 : mapWf 0 y0.mem.bytes = true := by
      unfold y0
      refine wf_eq (respond_mem ..) ?_
      exact h
    clear_value y0
    refine ite_wf ?_ ?_
    · refine wf_eq (recovEnd_mem ..) ?_
      exact h1
    · split
      · rename_i y2 y3
        refine wf_eq (recovEnd_mem ..) ?_
        exact h1
      · rename_i y4 y5
        refine wf_eq (recovEnd_mem ..) ?_
        refine memWrite_wf ?_
        exact h1

@[simp] theorem doStart_wf {x1} {x2 : Block} (h : mapWf 0 x2.mem.bytes = true) : mapWf 0 (doStart x1 x2).mem.bytes = true := by
  unfold doStart
  refine ite_wf ?_ ?_
  · refine wf_eq (refuseState_mem ..) ?_
    exact h
  · refine beginResume_wf ?_
    dsimp -zeta only
    exact h

@[simp] theorem doControl_mem (x1) (x2) (x3 : Block) : (doControl x1 x2 x3).mem.bytes = x3.mem.bytes := by
  unfold doControl
  refine (forEach_mem _ _ _ ?_).trans ?_
  · intros y0 y1
    split
    rename_i y2 y3 y4 y5
    refine ite_mem ?_ ?_
    · refine (doNak_mem ..).trans ?_
      rfl
    · refine ite_mem ?_ ?_
      · refine (retireLane_mem ..).trans ?_
        rfl
      · refine ite_mem ?_ ?_
        · refine (doLaneJoin_mem ..).trans ?_
          rfl
        · refine ite_mem ?_ ?_
          · refine (doDown_mem ..).trans ?_
            rfl
          · rfl
  · rfl

@[simp] theorem forwardPacket_mem (x1) (x2) (x3 : Block) : (forwardPacket x1 x2 x3).mem.bytes = x3.mem.bytes := by
  unfold forwardPacket
  refine ite_mem ?_ ?_
  · refine (logFault_mem ..).trans ?_
    rfl
  · extract_lets y0 y1
    refine ite_mem ?_ ?_
    · split
      · rename_i y2 y3 y4
        refine (enqueue_mem ..).trans ?_
        rfl
      · rename_i y5 y6
        refine (sendCtrl_mem ..).trans ?_
        rfl
    · refine (launch_mem ..).trans ?_
      rfl

@[simp] theorem markSplit_mem (x1) (x2 : Block) : (markSplit x1 x2).mem.bytes = x2.mem.bytes := by
  unfold markSplit
  dsimp -zeta only

@[simp] theorem doVote_wf {x1} {x2 : Block} (h : mapWf 0 x2.mem.bytes = true) : mapWf 0 (doVote x1 x2).mem.bytes = true := by
  unfold doVote
  refine ite_wf ?_ ?_
  · refine wf_eq (markSplit_mem ..) ?_
    refine wf_eq (voteDiscard_mem ..) ?_
    exact h
  · refine ite_wf ?_ ?_
    · refine wf_eq (voteDiscard_mem ..) ?_
      exact h
    · refine boundGo_wf ?_
      dsimp -zeta only
      exact h

@[simp] theorem doAgree_wf {x1} {x2 : Block} (h : mapWf 0 x2.mem.bytes = true) : mapWf 0 (doAgree x1 x2).mem.bytes = true := by
  unfold doAgree
  refine ite_wf ?_ ?_
  · refine ite_wf ?_ ?_
    · refine wf_eq (markSplit_mem ..) ?_
      exact h
    · exact h
  · refine ite_wf ?_ ?_
    · exact h
    · refine boundGo_wf ?_
      dsimp -zeta only
      exact h

@[simp] theorem doCtrl_wf {x1} {x2} {x3} {x4 : Block} (h : mapWf 0 x4.mem.bytes = true) : mapWf 0 (doCtrl x1 x2 x3 x4).mem.bytes = true := by
  unfold doCtrl
  extract_lets y0 y1 y2
  split
  · rename_i y3 y4
    refine doReady_wf ?_
    exact h
  · rename_i y5 y6
    refine wf_eq (doContextMsg_mem ..) ?_
    exact h
  · rename_i y7 y8
    refine doAgree_wf ?_
    exact h
  · rename_i y9 y10
    refine doVote_wf ?_
    exact h
  · rename_i y11 y12
    refine wf_eq (doStreamAck_mem ..) ?_
    exact h
  · rename_i y13 y14
    refine wf_eq (doGapRequest_mem ..) ?_
    exact h
  · rename_i y15 y16
    refine wf_eq (doPortUp_mem ..) ?_
    exact h
  · rename_i y17 y18
    refine wf_eq (doNoRoute_mem ..) ?_
    exact h
  · rename_i y19 y20
    refine wf_eq (doRejection_mem ..) ?_
    exact h
  · rename_i y21 y22 y23 y24 y25 y26 y27 y28 y29 y30
    dsimp -zeta only
    exact h

@[simp] theorem doPacketEffect_wf {x1} {x2 : Block} (h : mapWf 0 x2.mem.bytes = true) : mapWf 0 (doPacketEffect x1 x2).mem.bytes = true := by
  unfold doPacketEffect
  extract_lets y0
  refine ite_wf ?_ ?_
  · refine wf_eq (packetToken_mem ..) ?_
    refine doCtrl_wf ?_
    exact h
  · refine ite_wf ?_ ?_
    · refine wf_eq (pullArrive_mem ..) ?_
      refine performEffect_wf ?_
      exact h
    · refine wf_eq (logFault_mem ..) ?_
      exact h

@[simp] theorem countPacket_mem (x1) (x2) (x3 : Block) : (countPacket x1 x2 x3).mem.bytes = x3.mem.bytes := by
  unfold countPacket; split <;> simp [*]

@[simp] theorem takePacket_wf {x1} {x2} {x3 : Block} (h : mapWf 0 x3.mem.bytes = true) : mapWf 0 (takePacket x1 x2 x3).mem.bytes = true := by
  unfold takePacket
  refine ite_wf ?_ ?_
  · refine wf_eq (collBit_mem ..) ?_
    exact h
  · extract_lets y0 y1 y2 y3 y4 y5 y6 y7
    have h8 : mapWf 0 y4.mem.bytes = true := by
      unfold y4
      refine wf_eq (countPacket_mem ..) ?_
      exact h
    clear_value y4
    have h9 : mapWf 0 y7.mem.bytes = true := by
      unfold y7
      dsimp -zeta only
      exact h8
    clear_value y7
    refine ite_wf ?_ ?_
    · refine drainLoop_wf ?_
      refine doPacketEffect_wf ?_
      dsimp -zeta only
      exact h
    · refine ite_wf ?_ ?_
      · refine wf_eq (countPacket_mem ..) ?_
        exact h
      · refine ite_wf ?_ ?_
        · exact h8
        · refine wf_eq (sendCtrl_mem ..) ?_
          exact h9

@[simp] theorem packetIn_wf {x1} {x2} {x3 : Block} (h : mapWf 0 x3.mem.bytes = true) : mapWf 0 (packetIn x1 x2 x3).mem.bytes = true := by
  unfold packetIn
  refine ite_wf ?_ ?_
  · refine takePacket_wf ?_
    exact h
  · refine wf_eq (forwardPacket_mem ..) ?_
    exact h

@[simp] theorem deliverFlit_wf {x1} {x2} {x3 : Block} (h : mapWf 0 x3.mem.bytes = true) : mapWf 0 (deliverFlit x1 x2 x3).mem.bytes = true := by
  unfold deliverFlit
  extract_lets y0 y1 y2
  refine ite_wf ?_ ?_
  · refine packetIn_wf ?_
    refine wf_eq (setLink_mem ..) ?_
    exact h
  · refine wf_eq (setLink_mem ..) ?_
    exact h

@[simp] theorem deliverNext_wf {x1} {x2 : Block} (h : mapWf 0 x2.mem.bytes = true) : mapWf 0 (deliverNext x1 x2).mem.bytes = true := by
  unfold deliverNext
  extract_lets y0
  split
  · rename_i y1 y2
    exact h
  · rename_i y3 y4 y5
    refine deliverFlit_wf ?_
    refine wf_eq (setLink_mem ..) ?_
    exact h

@[simp] theorem dataFlitIn_wf {x1} {x2} {x3 : Block} (h : mapWf 0 x3.mem.bytes = true) : mapWf 0 (dataFlitIn x1 x2 x3).mem.bytes = true := by
  unfold dataFlitIn
  extract_lets y0 y1
  have h2 : mapWf 0 y1.mem.bytes = true := by
    unfold y1
    refine wf_eq (setLink_mem ..) ?_
    exact h
  clear_value y1
  refine ite_wf ?_ ?_
  · exact h
  · refine ite_wf ?_ ?_
    · exact h
    · refine iter_wf _ _ _ ?_ ?_
      · exact h2
      · intros y3 y4
        refine deliverNext_wf ?_
        exact y4

@[simp] theorem laneFlitIn_wf {x1} {x2} {x3} {x4} {x5 : Block} (h : mapWf 0 x5.mem.bytes = true) : mapWf 0 (laneFlitIn x1 x2 x3 x4 x5).mem.bytes = true := by
  unfold laneFlitIn
  extract_lets y0 y1 y2 y3
  have h4 : mapWf 0 y2.mem.bytes = true := by
    unfold y2
    refine wf_eq (setLink_mem ..) ?_
    exact h
  clear_value y2
  split
  rename_i y5 y6 y7 y8
  have h9 : mapWf 0 y7.mem.bytes = true := by
    refine wf_eq (congrArg (fun p => p.2.mem.bytes) y8).symm ?_
    refine wf_eq (inject_mem ..) ?_
    exact h4
  refine ite_wf ?_ ?_
  · extract_lets y10
    have h11 : mapWf 0 y10.mem.bytes = true := by
      unfold y10
      refine ite_wf ?_ ?_
      · exact h9
      · refine wf_eq (linkCount_mem ..) ?_
        exact h9
    clear_value y10
    refine wf_eq (detect_mem ..) ?_
    refine wf_eq (modLink_mem ..) ?_
    exact h11
  · refine ite_wf ?_ ?_
    · refine wf_eq (linkCount_mem ..) ?_
      exact h9
    · extract_lets y12
      have h13 : mapWf 0 y12.mem.bytes = true := by
        unfold y12
        refine wf_eq (releaseRetain_mem ..) ?_
        refine wf_eq (modLink_mem ..) ?_
        exact h9
      clear_value y12
      refine wf_eq (modLink_mem ..) ?_
      refine ite_wf ?_ ?_
      · refine dataFlitIn_wf ?_
        exact h13
      · refine ite_wf ?_ ?_
        · refine wf_eq (doControl_mem ..) ?_
          exact h13
        · refine ite_wf ?_ ?_
          · refine wf_eq (doBeacon_mem ..) ?_
            exact h13
          · exact h13

@[simp] theorem flitIn_wf {x1} {x2} {x3} {x4} {x5 : Block} (h : mapWf 0 x5.mem.bytes = true) : mapWf 0 (flitIn x1 x2 x3 x4 x5).mem.bytes = true := by
  unfold flitIn
  refine ite_wf ?_ ?_
  · exact h
  · split
    rename_i y0 y1 y2 y3
    have h4 : mapWf 0 y2.mem.bytes = true := by
      refine wf_eq (congrArg (fun p => p.2.mem.bytes) y3).symm ?_
      refine wf_eq (inject_mem ..) ?_
      exact h
    refine ite_wf ?_ ?_
    · refine wf_eq (linkGoes_mem ..) ?_
      exact h4
    · split
      rename_i y5 y6 y7 y8
      have h9 : mapWf 0 y7.mem.bytes = true := by
        refine wf_eq (congrArg (fun p => p.2.mem.bytes) y8).symm ?_
        refine wf_eq (inject_mem ..) ?_
        exact h4
      refine ite_wf ?_ ?_
      · refine wf_eq (retireLane_mem ..) ?_
        exact h9
      · refine laneFlitIn_wf ?_
        exact h9

@[simp] theorem onPacket_wf {x1} {x2} {x3 : Block} (h : mapWf 0 x3.mem.bytes = true) : mapWf 0 (onPacket x1 x2 x3).mem.bytes = true := by
  unfold onPacket
  refine ite_wf ?_ ?_
  · refine packetIn_wf ?_
    exact h
  · exact h

@[simp] theorem asHeld_mem (x1 : Block) : (asHeld x1).mem.bytes = x1.mem.bytes := by
  unfold asHeld; split <;> simp [*]

@[simp] theorem loseChanges_mem (x1 : Block) : (loseChanges x1).mem.bytes = x1.mem.bytes := by
  unfold loseChanges
  dsimp -zeta only

@[simp] theorem resetKeys_mem (x1 : Block) : (resetKeys x1).mem.bytes = x1.mem.bytes := by
  unfold resetKeys
  dsimp -zeta only

@[simp] theorem compactFloor_mem (x1 : Block) : (compactFloor x1).mem.bytes = x1.mem.bytes := by
  unfold compactFloor; split <;> simp [*]

@[simp] theorem resetArcade_mem (x1) (x2 : Block) : (resetArcade x1 x2).mem.bytes = x2.mem.bytes := by
  unfold resetArcade; simp

@[simp] theorem clearHalls_mem (x1 : Block) : (clearHalls x1).mem.bytes = x1.mem.bytes := by
  unfold clearHalls
  dsimp -zeta only

@[simp] theorem railUp_mem (x1) (x2 : Block) : (railUp x1 x2).mem.bytes = x2.mem.bytes := by
  unfold railUp; split <;> simp [*]

@[simp] theorem railDown_mem (x1) (x2 : Block) : (railDown x1 x2).mem.bytes = x2.mem.bytes := by
  unfold railDown; split <;> simp [*]

@[simp] theorem railsTo_mem (x1) (x2 : Block) : (railsTo x1 x2).mem.bytes = x2.mem.bytes := by
  unfold railsTo
  refine ite_mem ?_ ?_
  · refine (forEach_mem _ _ _ ?_).trans ?_
    · intros y0 y1
      refine (railUp_mem ..).trans ?_
      rfl
    · rfl
  · refine (forEach_mem _ _ _ ?_).trans ?_
    · intros y2 y3
      refine (railDown_mem ..).trans ?_
      rfl
    · rfl

@[simp] theorem shutDown_wf {x1} {x2 : Block} (h : mapWf 0 x2.mem.bytes = true) : mapWf 0 (shutDown x1 x2).mem.bytes = true := by
  unfold shutDown
  extract_lets y0 y1 y2 y3 y4 y5 y6 y7 y8 y9 y10 y11 y12
  have h13 : mapWf 0 y1.mem.bytes = true := by
    unfold y1
    refine wf_eq (unload_mem ..) ?_
    exact h
  clear_value y1
  have h14 : mapWf 0 y2.mem.bytes = true := by
    unfold y2
    refine wf_eq (resetArcade_mem ..) ?_
    refine wf_eq (clearHalls_mem ..) ?_
    exact h13
  clear_value y2
  have h15 : mapWf 0 y4.bytes = true := by
    unfold y4
    rfl
  clear_value y4
  have h16 : mapWf 0 y8.mem.bytes = true := by
    unfold y8
    refine wf_eq (railsTo_mem ..) ?_
    dsimp -zeta only
    exact h15
  clear_value y8
  have h17 : mapWf 0 y9.mem.bytes = true := by
    unfold y9
    refine wf_eq (setNum_mem ..) ?_
    exact h16
  clear_value y9
  have h18 : mapWf 0 y10.mem.bytes = true := by
    unfold y10
    refine wf_eq (setNum_mem ..) ?_
    exact h17
  clear_value y10
  have h19 : mapWf 0 y11.mem.bytes = true := by
    unfold y11
    refine wf_eq (setSec_mem ..) ?_
    exact h18
  clear_value y11
  have h20 : mapWf 0 y12.mem.bytes = true := by
    unfold y12
    refine wf_eq (setNum_mem ..) ?_
    exact h19
  clear_value y12
  refine wf_eq (setNum_mem ..) ?_
  exact h20

@[simp] theorem enterDormant_wf {x1 : Block} (h : mapWf 0 x1.mem.bytes = true) : mapWf 0 (enterDormant x1).mem.bytes = true := by
  unfold enterDormant
  refine shutDown_wf ?_
  exact h

@[simp] theorem loadFlash_mem (x1 : Block) : (loadFlash x1).mem.bytes = x1.mem.bytes := by
  unfold loadFlash
  extract_lets y0 y1 y2 y3
  have h4 : y1.mem.bytes = x1.mem.bytes := by
    unfold y1
    dsimp -zeta only
  clear_value y1
  refine ite_mem ?_ ?_
  · refine (setNum_mem ..).trans ?_
    exact h4
  · refine (setEpoch_mem ..).trans ?_
    exact h4

@[simp] theorem coldReset_wf {x1} {x2 : Block} (h : mapWf 0 x2.mem.bytes = true) : mapWf 0 (coldReset x1 x2).mem.bytes = true := by
  unfold coldReset
  extract_lets y0 y1 y2 y3 y4 y5 y6 y7 y8 y9 y10 y11 y12 y13
  have h14 : mapWf 0 y2.mem.bytes = true := by
    unfold y2
    refine wf_eq (resetKeys_mem ..) ?_
    refine enterDormant_wf ?_
    exact h
  clear_value y2
  have h15 : mapWf 0 y8.mem.bytes = true := by
    unfold y8
    dsimp -zeta only
    exact h14
  clear_value y8
  have h16 : mapWf 0 y10.mem.bytes = true := by
    unfold y10
    refine wf_eq (loadFlash_mem ..) ?_
    dsimp -zeta only
    exact h15
  clear_value y10
  have h17 : mapWf 0 y12.mem.bytes = true := by
    unfold y12
    dsimp -zeta only
    exact h16
  clear_value y12
  have h18 : mapWf 0 y13.mem.bytes = true := by
    unfold y13
    refine wf_eq (setPwrBit_mem ..) ?_
    refine wf_eq (setNum_mem ..) ?_
    refine wf_eq (setNum_mem ..) ?_
    exact h17
  clear_value y13
  refine wf_eq (setNum_mem ..) ?_
  exact h18

@[simp] theorem stagedWrite_mem (x1 : Block) : (stagedWrite x1).mem.bytes = x1.mem.bytes := by
  unfold stagedWrite; split <;> simp [*]

@[simp] theorem levelCounters_mem (x1 : Block) : (levelCounters x1).mem.bytes = x1.mem.bytes := by
  unfold levelCounters
  refine (forEach_mem _ _ _ ?_).trans ?_
  · intros y0 y1
    refine (raiseCounter_mem ..).trans ?_
    rfl
  · rfl

@[simp] theorem pairDevice_mem (x1) (x2 : Block) : (pairDevice x1 x2).mem.bytes = x2.mem.bytes := by
  unfold pairDevice; simp

@[simp] theorem authCounters_mem (x1 : Block) : (authCounters x1).2.mem.bytes = x1.mem.bytes := by
  unfold authCounters
  extract_lets y0 y1 y2
  refine ite_mem_2 ?_ ?_
  · dsimp -zeta only
  · refine ite_mem_2 ?_ ?_
    · dsimp -zeta only
      refine (levelCounters_mem ..).trans ?_
      rfl
    · refine ite_mem_2 ?_ ?_
      · dsimp -zeta only
        refine (levelCounters_mem ..).trans ?_
        refine (pairDevice_mem ..).trans ?_
        rfl
      · refine ite_mem_2 ?_ ?_
        · dsimp -zeta only
          refine (levelCounters_mem ..).trans ?_
          refine (pairDevice_mem ..).trans ?_
          rfl
        · dsimp -zeta only

@[simp] theorem loadSet_mem (x1) (x2 : Block) : (loadSet x1 x2).mem.bytes = x2.mem.bytes := by
  unfold loadSet
  refine (forEach_mem _ _ _ ?_).trans ?_
  · intros y0 y1
    refine (loadImage_mem ..).trans ?_
    rfl
  · rfl

@[simp] theorem selectFirmware_mem (x1 : Block) : (selectFirmware x1).2.mem.bytes = x1.mem.bytes := by
  unfold selectFirmware
  extract_lets y0 y1 y2 y3 y4
  have h5 : y1.mem.bytes = x1.mem.bytes := by
    unfold y1
    dsimp -zeta only
  clear_value y1
  have h6 : y3.mem.bytes = x1.mem.bytes := by
    unfold y3
    refine (setNum_mem ..).trans ?_
    refine (forEach_mem _ _ _ ?_).trans ?_
    · intros y7 y8
      refine (setNum_mem ..).trans ?_
      rfl
    · exact h5
  clear_value y3
  refine ite_mem_2 ?_ ?_
  · dsimp -zeta only
    refine (loadSet_mem ..).trans ?_
    refine (setNum_mem ..).trans ?_
    dsimp -zeta only
    exact h6
  · refine ite_mem_2 ?_ ?_
    · dsimp -zeta only
      refine (loadSet_mem ..).trans ?_
      refine (setFwBit_mem ..).trans ?_
      refine (setNum_mem ..).trans ?_
      dsimp -zeta only
      exact h6
    · dsimp -zeta only
      refine (setFwBit_mem ..).trans ?_
      refine (setNum_mem ..).trans ?_
      exact h6

@[simp] theorem fixRec_mem (x1 : Block) (x2) : (fixRec x1 x2).mem.bytes = x1.mem.bytes := by
  unfold fixRec; split <;> simp [*]

@[simp] theorem bootPage_mem (x1) (x2 : Block) : (bootPage x1 x2).mem.bytes = x2.mem.bytes := by
  unfold bootPage
  refine ite_mem ?_ ?_
  · rfl
  · extract_lets y0 y1 y2
    have h3 : y1.bytes = x2.mem.bytes := by
      unfold y1
      rfl
    clear_value y1
    split
    · rename_i y4 y5 y6
      refine (pmapSet_mem ..).trans ?_
      dsimp -zeta only
      exact h3
    · rename_i y7 y8
      refine (pmapSet_mem ..).trans ?_
      rfl

@[simp] theorem bootMemory_wf {x1 : Block} (h : mapWf 0 x1.mem.bytes = true) : mapWf 0 (bootMemory x1).mem.bytes = true := by
  unfold bootMemory
  extract_lets y0 y1 y2 y3 y4 y5 y6
  have h7 : mapWf 0 y1.mem.bytes = true := by
    unfold y1
    refine foldl_wf _ _ _ ?_ ?_
    · dsimp -zeta only
      rfl
    · intros y8 y9 y10
      refine wf_eq (fixRec_mem ..) ?_
      exact y10
  clear_value y1
  have h11 : mapWf 0 y3.mem.bytes = true := by
    unfold y3
    refine forEach_wf _ _ _ ?_ ?_
    · exact h7
    · intros y12 y13 y14
      refine wf_eq (bootPage_mem ..) ?_
      exact y14
  clear_value y3
  have h15 : mapWf 0 y4.mem.bytes = true := by
    unfold y4
    refine wf_eq (setNum_mem ..) ?_
    refine wf_eq (setNum_mem ..) ?_
    refine wf_eq (setNum_mem ..) ?_
    exact h11
  clear_value y4
  have h16 : mapWf 0 y5.mem.bytes = true := by
    unfold y5
    refine wf_eq (setNum_mem ..) ?_
    exact h15
  clear_value y5
  have h17 : mapWf 0 y6.mem.bytes = true := by
    unfold y6
    refine wf_eq (setNum_mem ..) ?_
    exact h16
  clear_value y6
  refine wf_eq (setNum_mem ..) ?_
  exact h17

@[simp] theorem bootGuards_mem (x1 : Block) : (bootGuards x1).mem.bytes = x1.mem.bytes := by
  unfold bootGuards; simp

@[simp] theorem freshWords_mem (x1 : Block) : (freshWords x1).mem.bytes = x1.mem.bytes := by
  unfold freshWords; simp

@[simp] theorem bootRecord_mem (x1 : Block) : (bootRecord x1).mem.bytes = x1.mem.bytes := by
  unfold bootRecord; split <;> simp [*]

@[simp] theorem stageDefaults_mem (x1 : Block) : (stageDefaults x1).mem.bytes = x1.mem.bytes := by
  unfold stageDefaults
  extract_lets y0 y1 y2 y3
  have h4 : y3.mem.bytes = x1.mem.bytes := by
    unfold y3
    dsimp -zeta only
  clear_value y3
  refine (stagedWrite_mem ..).trans ?_
  refine (forEach_mem _ _ _ ?_).trans ?_
  · intros y5 y6
    refine (markUnwritten_mem ..).trans ?_
    rfl
  · exact h4

theorem wipe_wf {x1 : Block} (h : mapWf 0 x1.mem.bytes = true) : mapWf 0 (wipe x1).mem.bytes = true := by
  have h0 := bootMemory_wf (wf_eq (clearHalls_mem x1) h)
  unfold wipe
  generalize bootMemory (clearHalls x1) = t at h0 ⊢
  refine wf_eq (stageDefaults_mem ..) ?_
  refine wf_eq (setNum_mem ..) ?_
  exact h0

@[simp] theorem wipeDue_wf {x1 : Block} (h : mapWf 0 x1.mem.bytes = true) : mapWf 0 (wipeDue x1).mem.bytes = true := by
  unfold wipeDue
  refine ite_wf ?_ ?_
  · refine wipe_wf ?_
    exact h
  · exact h

@[simp] theorem restoreKey_mem (x1) (x2 : Block) : (restoreKey x1 x2).mem.bytes = x2.mem.bytes := by
  unfold restoreKey
  dsimp -zeta only

@[simp] theorem restoreLost_mem (x1 : Block) : (restoreLost x1).mem.bytes = x1.mem.bytes := by
  unfold restoreLost
  refine ite_mem ?_ ?_
  · rfl
  · extract_lets y0 y1 y2 y3
    have h4 : y0.mem.bytes = x1.mem.bytes := by
      unfold y0
      refine (forEach_mem _ _ _ ?_).trans ?_
      · intros y5 y6
        refine (restoreKey_mem ..).trans ?_
        rfl
      · rfl
    clear_value y0
    have h7 : y2.mem.bytes = x1.mem.bytes := by
      unfold y2
      refine (adoptNow_mem ..).trans ?_
      dsimp -zeta only
      exact h4
    clear_value y2
    have h8 : y3.mem.bytes = x1.mem.bytes := by
      unfold y3
      refine ite_mem ?_ ?_
      · exact h7
      · refine (setEpoch_mem ..).trans ?_
        exact h7
    clear_value y3
    refine (pendingBit_mem ..).trans ?_
    exact h8

@[simp] theorem bootHalls_wf {x1 : Block} (h : mapWf 0 x1.mem.bytes = true) : mapWf 0 (bootHalls x1).2.mem.bytes = true := by
  unfold bootHalls
  split
  rename_i y0 y1 y2 y3
  have h4 : mapWf 0 y2.mem.bytes = true := by
    refine wf_eq (congrArg (fun p => p.2.mem.bytes) y3).symm ?_
    refine wf_eq (selectFirmware_mem ..) ?_
    exact h
  refine ite_wf_2 ?_ ?_
  · dsimp -zeta only
    exact h4
  · extract_lets y5 y6 y7 y8 y9 y10 y11 y12 y13
    have h14 : mapWf 0 y6.mem.bytes = true := by
      unfold y6
      dsimp -zeta only
      exact h4
    clear_value y6
    have h15 : mapWf 0 y7.mem.bytes = true := by
      unfold y7
      refine wf_eq (compactFloor_mem ..) ?_
      refine bootMemory_wf ?_
      exact h14
    clear_value y7
    have h16 : mapWf 0 y8.mem.bytes = true := by
      unfold y8
      refine wf_eq (resetArcade_mem ..) ?_
      refine wf_eq (bootGuards_mem ..) ?_
      refine wf_eq (clearHalls_mem ..) ?_
      exact h15
    clear_value y8
    have h17 : mapWf 0 y9.mem.bytes = true := by
      unfold y9
      refine forEach_wf _ _ _ ?_ ?_
      · exact h16
      · intros y18 y19 y20
        refine wf_eq (applyPlan_mem ..) ?_
        exact y20
    clear_value y9
    have h21 : mapWf 0 y11.mem.bytes = true := by
      unfold y11
      refine wf_eq (railsTo_mem ..) ?_
      dsimp -zeta only
      exact h17
    clear_value y11
    have h22 : mapWf 0 y12.mem.bytes = true := by
      unfold y12
      refine wf_eq (reportArcade_mem ..) ?_
      refine wf_eq (freshWords_mem ..) ?_
      exact h21
    clear_value y12
    have h23 : mapWf 0 y13.mem.bytes = true := by
      unfold y13
      refine wf_eq (setNum_mem ..) ?_
      exact h22
    clear_value y13
    dsimp -zeta only
    refine wf_eq (bootRecord_mem ..) ?_
    refine wf_eq (flushFatal_mem ..) ?_
    refine wipeDue_wf ?_
    refine wf_eq (restoreLost_mem ..) ?_
    exact h23

@[simp] theorem bootFromRom_wf {x1 : Block} (h : mapWf 0 x1.mem.bytes = true) : mapWf 0 (bootFromRom x1).2.mem.bytes = true := by
  unfold bootFromRom
  split
  rename_i y0 y1 y2 y3
  have h4 : mapWf 0 y2.mem.bytes = true := by
    refine wf_eq (congrArg (fun p => p.2.mem.bytes) y3).symm ?_
    refine wf_eq (authCounters_mem ..) ?_
    exact h
  refine ite_wf_2 ?_ ?_
  · refine bootHalls_wf ?_
    exact h4
  · dsimp -zeta only
    refine wf_eq (setFwBit_mem ..) ?_
    exact h4

@[simp] theorem wipeEnd_wf {x1 : Block} (h : mapWf 0 x1.mem.bytes = true) : mapWf 0 (wipeEnd x1).mem.bytes = true := by
  unfold wipeEnd
  refine ite_wf ?_ ?_
  · extract_lets y0
    have h1 : mapWf 0 y0.mem.bytes = true := by
      unfold y0
      refine wipe_wf ?_
      exact h
    clear_value y0
    refine wf_eq (setNum_mem ..) ?_
    exact h1
  · exact h

@[simp] theorem bootStops_mem (x1) (x2 : Block) : (bootStops x1 x2).mem.bytes = x2.mem.bytes := by
  unfold bootStops; simp

@[simp] theorem coldBoot_wf {x1} {x2 : Block} (h : mapWf 0 x2.mem.bytes = true) : mapWf 0 (coldBoot x1 x2).mem.bytes = true := by
  unfold coldBoot
  extract_lets y0
  have h1 : mapWf 0 y0.mem.bytes = true := by
    unfold y0
    refine coldReset_wf ?_
    exact h
  clear_value y0
  split
  rename_i y2 y3 y4 y5
  have h6 : mapWf 0 y4.mem.bytes = true := by
    refine wf_eq (congrArg (fun p => p.2.mem.bytes) y5).symm ?_
    refine wf_eq (authCounters_mem ..) ?_
    exact h1
  refine ite_wf ?_ ?_
  · refine wf_eq (bootStops_mem ..) ?_
    exact h6
  · extract_lets y7
    have h8 : mapWf 0 y7.mem.bytes = true := by
      unfold y7
      refine wf_eq (setNum_mem ..) ?_
      exact h6
    clear_value y7
    refine ite_wf ?_ ?_
    · exact h8
    · refine bootHalls_wf ?_
      exact h8

@[simp] theorem resetObjects_mem (x1) (x2 : Block) : (resetObjects x1 x2).mem.bytes = x2.mem.bytes := by
  unfold resetObjects; simp

@[simp] theorem warmReset_wf {x1 : Block} (h : mapWf 0 x1.mem.bytes = true) : mapWf 0 (warmReset x1).mem.bytes = true := by
  unfold warmReset
  extract_lets y0 y1 y2 y3 y4 y5
  have h6 : mapWf 0 y1.mem.bytes = true := by
    unfold y1
    dsimp -zeta only
    exact h
  clear_value y1
  have h7 : mapWf 0 y2.mem.bytes = true := by
    unfold y2
    refine wf_eq (resetArcade_mem ..) ?_
    refine wf_eq (clearHalls_mem ..) ?_
    exact h6
  clear_value y2
  have h8 : mapWf 0 y3.mem.bytes = true := by
    unfold y3
    refine wf_eq (railsTo_mem ..) ?_
    dsimp -zeta only
    exact h7
  clear_value y3
  have h9 : mapWf 0 y4.mem.bytes = true := by
    unfold y4
    refine wf_eq (freshWords_mem ..) ?_
    refine wf_eq (resetKeys_mem ..) ?_
    refine wf_eq (resetObjects_mem ..) ?_
    exact h8
  clear_value y4
  have h10 : mapWf 0 y5.mem.bytes = true := by
    unfold y5
    refine wf_eq (reportArcade_mem ..) ?_
    refine forEach_wf _ _ _ ?_ ?_
    · exact h9
    · intros y11 y12 y13
      refine wf_eq (applyPlan_mem ..) ?_
      exact y13
  clear_value y5
  split
  rename_i y14 y15 y16 y17
  have h18 : mapWf 0 y16.mem.bytes = true := by
    refine wf_eq (congrArg (fun p => p.2.mem.bytes) y17).symm ?_
    refine wf_eq (selectFirmware_mem ..) ?_
    exact h10
  refine ite_wf ?_ ?_
  · refine wipeDue_wf ?_
    refine wf_eq (recoverRecord_mem ..) ?_
    refine wf_eq (flushFatal_mem ..) ?_
    exact h18
  · refine enterDormant_wf ?_
    exact h18

@[simp] theorem stepDown_mem (x1) (x2 : Block) : (stepDown x1 x2).mem.bytes = x2.mem.bytes := by
  unfold stepDown; split <;> simp [*]

@[simp] theorem holdReq_mem (x1) (x2 : Block) : (holdReq x1 x2).mem.bytes = x2.mem.bytes := by
  unfold holdReq
  dsimp -zeta only

@[simp] theorem pollInject_mem (x1 : Block) : (pollInject x1).mem.bytes = x1.mem.bytes := by
  unfold pollInject
  split
  rename_i y0 y1 y2 y3
  have h4 : y2.mem.bytes = x1.mem.bytes := by
    refine (congrArg (fun p => p.2.mem.bytes) y3).symm.trans ?_
    refine (inject_mem ..).trans ?_
    rfl
  refine ite_mem ?_ ?_
  · dsimp -zeta only
    exact h4
  · exact h4

@[simp] theorem setResult_mem (x1) (x2 : Block) : (setResult x1 x2).mem.bytes = x2.mem.bytes := by
  unfold setResult; simp

@[simp] theorem endTrans_mem (x1) (x2 : Block) : (endTrans x1 x2).mem.bytes = x2.mem.bytes := by
  unfold endTrans
  extract_lets y0 y1 y2 y3
  have h4 : y1.mem.bytes = x2.mem.bytes := by
    unfold y1
    refine (setNum_mem ..).trans ?_
    refine (setResult_mem ..).trans ?_
    rfl
  clear_value y1
  have h5 : y3.mem.bytes = x2.mem.bytes := by
    unfold y3
    dsimp -zeta only
    exact h4
  clear_value y3
  refine ite_mem ?_ ?_
  · exact h5
  · refine (longDone_mem ..).trans ?_
    refine (setNum_mem ..).trans ?_
    exact h5

@[simp] theorem doBeaconLoss_mem (x1 : Block) : (doBeaconLoss x1).mem.bytes = x1.mem.bytes := by
  unfold doBeaconLoss
  dsimp -zeta only

@[simp] theorem setTarget_mem (x1) (x2 : Block) : (setTarget x1 x2).mem.bytes = x2.mem.bytes := by
  unfold setTarget; simp

@[simp] theorem beginTrans_mem (x1) (x2) (x3 : Block) : (beginTrans x1 x2 x3).mem.bytes = x3.mem.bytes := by
  unfold beginTrans; simp

@[simp] theorem powerGo_mem (x1) (x2) (x3 : Block) : (powerGo x1 x2 x3).mem.bytes = x3.mem.bytes := by
  unfold powerGo
  extract_lets y0 y1
  have h2 : y0.mem.bytes = x3.mem.bytes := by
    unfold y0
    refine (setTarget_mem ..).trans ?_
    rfl
  clear_value y0
  refine ite_mem ?_ ?_
  · refine (endTrans_mem ..).trans ?_
    dsimp -zeta only
    exact h2
  · refine ite_mem ?_ ?_
    · refine (beginTrans_mem ..).trans ?_
      dsimp -zeta only
      exact h2
    · refine (beginTrans_mem ..).trans ?_
      exact h2

@[simp] theorem powerWrite_mem (x1) (x2 : Block) : (powerWrite x1 x2).mem.bytes = x2.mem.bytes := by
  unfold powerWrite; split <;> first | rfl | simp [*] | (split <;> simp [*])

@[simp] theorem doWake_mem (x1) (x2 : Block) : (doWake x1 x2).mem.bytes = x2.mem.bytes := by
  unfold doWake
  refine ite_mem ?_ ?_
  · rfl
  · refine ite_mem ?_ ?_
    · refine (holdReq_mem ..).trans ?_
      rfl
    · split
      · rename_i y0 y1 y2 y3
        refine ite_mem ?_ ?_
        · dsimp -zeta only
        · rfl
      · rename_i y4 y5
        refine ite_mem ?_ ?_
        · refine (powerGo_mem ..).trans ?_
          rfl
        · rfl

@[simp] theorem enterStandby_mem (x1 : Block) : (enterStandby x1).mem.bytes = x1.mem.bytes := by
  unfold enterStandby
  extract_lets y0 y1 y2 y3 y4 y5
  have h6 : y0.mem.bytes = x1.mem.bytes := by
    unfold y0
    refine (forEach_mem _ _ _ ?_).trans ?_
    · intros y7 y8
      refine (modLink_mem ..).trans ?_
      rfl
    · rfl
  clear_value y0
  have h9 : y4.mem.bytes = x1.mem.bytes := by
    unfold y4
    refine (railsTo_mem ..).trans ?_
    dsimp -zeta only
    exact h6
  clear_value y4
  have h10 : y5.mem.bytes = x1.mem.bytes := by
    unfold y5
    refine (setNum_mem ..).trans ?_
    exact h9
  clear_value y5
  refine (checkArmed_mem ..).trans ?_
  refine (reportArcade_mem ..).trans ?_
  refine (setNum_mem ..).trans ?_
  exact h10

@[simp] theorem leaveCurbed_mem (x1 : Block) : (leaveCurbed x1).mem.bytes = x1.mem.bytes := by
  unfold leaveCurbed; simp

@[simp] theorem doStepUp_mem (x1 : Block) : (doStepUp x1).mem.bytes = x1.mem.bytes := by
  unfold doStepUp
  refine ite_mem ?_ ?_
  · rfl
  · extract_lets y0 y1 y2 y3
    have h4 : y1.mem.bytes = x1.mem.bytes := by
      unfold y1
      refine (setNum_mem ..).trans ?_
      rfl
    clear_value y1
    have h5 : y2.mem.bytes = x1.mem.bytes := by
      unfold y2
      refine (detect_mem ..).trans ?_
      exact h4
    clear_value y2
    have h6 : y3.mem.bytes = x1.mem.bytes := by
      unfold y3
      refine (alert_mem ..).trans ?_
      exact h5
    clear_value y3
    refine ite_mem ?_ ?_
    · refine (leaveCurbed_mem ..).trans ?_
      exact h6
    · exact h6

@[simp] theorem crash_wf {x1} {x2 : Block} (h : mapWf 0 x2.mem.bytes = true) : mapWf 0 (crash x1 x2).mem.bytes = true := by
  unfold crash
  extract_lets y0 y1 y2
  have h3 : mapWf 0 y0.mem.bytes = true := by
    unfold y0
    refine wf_eq (setPwrBit_mem ..) ?_
    refine wf_eq (loseChanges_mem ..) ?_
    refine enterDormant_wf ?_
    exact h
  clear_value y0
  have h4 : mapWf 0 y2.mem.bytes = true := by
    unfold y2
    dsimp -zeta only
    exact h3
  clear_value y2
  refine ite_wf ?_ ?_
  · refine wf_eq (endTrans_mem ..) ?_
    exact h4
  · exact h4

@[simp] theorem doTrip_wf {x1} {x2} {x3 : Block} (h : mapWf 0 x3.mem.bytes = true) : mapWf 0 (doTrip x1 x2 x3).mem.bytes = true := by
  unfold doTrip
  refine ite_wf ?_ ?_
  · exact h
  · extract_lets y0 y1
    have h2 : mapWf 0 y1.mem.bytes = true := by
      unfold y1
      dsimp -zeta only
      exact h
    clear_value y1
    refine ite_wf ?_ ?_
    · refine wf_eq (setNum_mem ..) ?_
      exact h2
    · refine wf_eq (setPwrBit_mem ..) ?_
      refine crash_wf ?_
      exact h2

@[simp] theorem doColdBoot_wf {x1} {x2 : Block} (h : mapWf 0 x2.mem.bytes = true) : mapWf 0 (doColdBoot x1 x2).mem.bytes = true := by
  unfold doColdBoot
  refine ite_wf ?_ ?_
  · refine coldBoot_wf ?_
    exact h
  · exact h

@[simp] theorem setEmergencies_mem (x1) (x2) (x3 : Block) : (setEmergencies x1 x2 x3).mem.bytes = x3.mem.bytes := by
  unfold setEmergencies
  extract_lets y0 y1
  have h2 : y1.mem.bytes = x3.mem.bytes := by
    unfold y1
    refine (setPwrBits_mem ..).trans ?_
    rfl
  clear_value y1
  refine ite_mem ?_ ?_
  · refine (stepDown_mem ..).trans ?_
    exact h2
  · exact h2

@[simp] theorem doECurrent_mem (x1) (x2 : Block) : (doECurrent x1 x2).mem.bytes = x2.mem.bytes := by
  unfold doECurrent; split <;> simp [*]

@[simp] theorem doHostPower_mem (x1) (x2 : Block) : (doHostPower x1 x2).mem.bytes = x2.mem.bytes := by
  unfold doHostPower; split <;> simp [*]

@[simp] theorem doVoteFail_wf {x1 : Block} (h : mapWf 0 x1.mem.bytes = true) : mapWf 0 (doVoteFail x1).mem.bytes = true := by
  unfold doVoteFail
  refine ite_wf ?_ ?_
  · exact h
  · refine warmReset_wf ?_
    refine wf_eq (detectFatal_mem ..) ?_
    exact h

@[simp] theorem doRailFault_wf {x1 : Block} (h : mapWf 0 x1.mem.bytes = true) : mapWf 0 (doRailFault x1).mem.bytes = true := by
  unfold doRailFault
  refine ite_wf ?_ ?_
  · exact h
  · refine crash_wf ?_
    dsimp -zeta only
    exact h

@[simp] theorem doBrownout_wf {x1} {x2 : Block} (h : mapWf 0 x2.mem.bytes = true) : mapWf 0 (doBrownout x1 x2).mem.bytes = true := by
  unfold doBrownout
  refine ite_wf ?_ ?_
  · exact h
  · extract_lets y0 y1 y2
    have h3 : mapWf 0 y1.mem.bytes = true := by
      unfold y1
      refine crash_wf ?_
      dsimp -zeta only
      exact h
    clear_value y1
    refine ite_wf ?_ ?_
    · dsimp -zeta only
      exact h3
    · exact h3

@[simp] theorem doStepTimer_mem (x1 : Block) : (doStepTimer x1).mem.bytes = x1.mem.bytes := by
  unfold doStepTimer
  extract_lets y0
  refine ite_mem ?_ ?_
  · refine (stepDown_mem ..).trans ?_
    rfl
  · rfl

@[simp] theorem doClockFault_wf {x1 : Block} (h : mapWf 0 x1.mem.bytes = true) : mapWf 0 (doClockFault x1).mem.bytes = true := by
  unfold doClockFault
  refine ite_wf ?_ ?_
  · refine ite_wf ?_ ?_
    · dsimp -zeta only
      exact h
    · exact h
  · extract_lets y0 y1
    have h2 : mapWf 0 y1.mem.bytes = true := by
      unfold y1
      refine wf_eq (setPwrBit_mem ..) ?_
      dsimp -zeta only
      exact h
    clear_value y1
    refine ite_wf ?_ ?_
    · exact h2
    · refine crash_wf ?_
      exact h2

@[simp] theorem doHostFault_mem (x1 : Block) : (doHostFault x1).mem.bytes = x1.mem.bytes := by
  unfold doHostFault; split <;> simp [*]

@[simp] theorem doPrst_wf {x1} {x2 : Block} (h : mapWf 0 x2.mem.bytes = true) : mapWf 0 (doPrst x1 x2).mem.bytes = true := by
  unfold doPrst
  refine ite_wf ?_ ?_
  · exact h
  · extract_lets y0 y1
    have h2 : mapWf 0 y0.mem.bytes = true := by
      unfold y0
      refine shutDown_wf ?_
      exact h
    clear_value y0
    dsimp -zeta only
    exact h2

@[simp] theorem doCrystal_mem (x1 : Block) : (doCrystal x1).mem.bytes = x1.mem.bytes := by
  unfold doCrystal; simp

@[simp] theorem doEJunction_mem (x1) (x2 : Block) : (doEJunction x1 x2).mem.bytes = x2.mem.bytes := by
  unfold doEJunction; split <;> simp [*]

@[simp] theorem doSensorPoll_mem (x1) (x2 : Block) : (doSensorPoll x1 x2).mem.bytes = x2.mem.bytes := by
  unfold doSensorPoll
  extract_lets y0 y1 y2 y3 y4 y5 y6 y7
  have h8 : y2.mem.bytes = x2.mem.bytes := by
    unfold y2
    dsimp -zeta only
  clear_value y2
  have h9 : y3.mem.bytes = x2.mem.bytes := by
    unfold y3
    refine (noteMirror_mem ..).trans ?_
    exact h8
  clear_value y3
  have h10 : y5.mem.bytes = x2.mem.bytes := by
    unfold y5
    refine (pollInject_mem ..).trans ?_
    dsimp -zeta only
    exact h9
  clear_value y5
  refine ite_mem ?_ ?_
  · exact h8
  · refine (setEmergencies_mem ..).trans ?_
    dsimp -zeta only
    exact h10

@[simp] theorem doInput_wf {x1} {x2 : Block} (h : mapWf 0 x2.mem.bytes = true) : mapWf 0 (doInput x1 x2).mem.bytes = true := by
  unfold doInput
  refine ite_wf ?_ ?_
  · refine doBrownout_wf ?_
    dsimp -zeta only
    exact h
  · extract_lets y0 y1 y2 y3 y4
    have h5 : mapWf 0 y2.mem.bytes = true := by
      unfold y2
      dsimp -zeta only
      exact h
    clear_value y2
    refine ite_wf ?_ ?_
    · refine wf_eq (setNum_mem ..) ?_
      dsimp -zeta only
      exact h5
    · exact h5

@[simp] theorem lifeChanged_mem (x1 : Block) : (lifeChanged x1).mem.bytes = x1.mem.bytes := by
  unfold lifeChanged; simp

@[simp] theorem raiseLife_mem (x1) (x2 : Block) : (raiseLife x1 x2).mem.bytes = x2.mem.bytes := by
  unfold raiseLife; simp

@[simp] theorem takeOwner_mem (x1) (x2 : Block) : (takeOwner x1 x2).mem.bytes = x2.mem.bytes := by
  unfold takeOwner
  extract_lets y0 y1 y2
  have h3 : y2.mem.bytes = x2.mem.bytes := by
    unfold y2
    dsimp -zeta only
  clear_value y2
  refine ite_mem ?_ ?_
  · refine (raiseLife_mem ..).trans ?_
    exact h3
  · exact h3

@[simp] theorem setAuth_mem (x1) (x2 : Block) : (setAuth x1 x2).mem.bytes = x2.mem.bytes := by
  unfold setAuth; simp

@[simp] theorem generateKey_mem (x1 : Block) : (generateKey x1).mem.bytes = x1.mem.bytes := by
  unfold generateKey; split <;> simp [*]

@[simp] theorem setDebug_mem (x1) (x2 : Block) : (setDebug x1 x2).mem.bytes = x2.mem.bytes := by
  unfold setDebug; simp

@[simp] theorem renew_mem (x1 : Block) : (renew x1).mem.bytes = x1.mem.bytes := by
  unfold renew
  dsimp -zeta only

@[simp] theorem useToken_mem (x1) (x2 : Block) : (useToken x1 x2).2.mem.bytes = x2.mem.bytes := by
  unfold useToken
  extract_lets y0 y1 y2 y3 y4
  have h5 : y2.mem.bytes = x2.mem.bytes := by
    unfold y2
    refine (setAuth_mem ..).trans ?_
    refine (renew_mem ..).trans ?_
    rfl
  clear_value y2
  have h6 : y4.mem.bytes = x2.mem.bytes := by
    unfold y4
    refine ite_mem ?_ ?_
    · refine (setNum_mem ..).trans ?_
      dsimp -zeta only
      exact h5
    · exact h5
  clear_value y4
  refine ite_mem_2 ?_ ?_
  · dsimp -zeta only
    refine (bumpNum_mem ..).trans ?_
    exact h5
  · dsimp -zeta only
    refine (setDebug_mem ..).trans ?_
    exact h6

@[simp] theorem tapToken_mem (x1) (x2 : Block) : (tapToken x1 x2).mem.bytes = x2.mem.bytes := by
  unfold tapToken; simp

@[simp] theorem doTapToken_mem (x1) (x2 : Block) : (doTapToken x1 x2).mem.bytes = x2.mem.bytes := by
  unfold doTapToken; split <;> simp [*]

@[simp] theorem installChain_mem (x1) (x2 : Block) : (installChain x1 x2).mem.bytes = x2.mem.bytes := by
  unfold installChain; split <;> simp [*]

@[simp] theorem lifeRequest_mem (x1) (x2 : Block) : (lifeRequest x1 x2).mem.bytes = x2.mem.bytes := by
  unfold lifeRequest
  generalize lifeCheck x1 x2 = code
  extract_lets c s t
  clear_value c
  have h1 : s.mem.bytes = x2.mem.bytes := (setAuth_mem ..).trans (renew_mem ..)
  clear_value s
  have h2 : t.mem.bytes = x2.mem.bytes := (raiseLife_mem ..).trans h1
  clear_value t
  exact ite_mem h1 (ite_mem ((setNum_mem ..).trans h2) h2)

@[simp] theorem enrol_mem (x1) (x2 : Block) : (enrol x1 x2).mem.bytes = x2.mem.bytes := by
  unfold enrol
  dsimp only
  have h1 : (setAuth (enrolCheck x1 x2) (renew x2)).mem.bytes = x2.mem.bytes := (setAuth_mem ..).trans (renew_mem ..)
  generalize enrolCheck x1 x2 = code at h1 ⊢
  generalize setAuth code (renew x2) = t at h1 ⊢
  exact ite_mem h1 ((takeOwner_mem ..).trans h1)

@[simp] theorem doEnrol_mem (x1) (x2 : Block) : (doEnrol x1 x2).mem.bytes = x2.mem.bytes := by
  unfold doEnrol; split <;> first | rfl | simp [*] | (split <;> simp [*])

@[simp] theorem doLifecycle_mem (x1) (x2) (x3 : Block) : (doLifecycle x1 x2 x3).mem.bytes = x3.mem.bytes := by
  unfold doLifecycle; split <;> first | rfl | simp [*] | (split <;> simp [*])

@[simp] theorem testGallery_mem (x1) (x2 : Block) : (testGallery x1 x2).mem.bytes = x2.mem.bytes := by
  unfold testGallery; split <;> simp [*]

@[simp] theorem gccFails_mem (x1) (x2) (x3) (x4 : Block) : (gccFails x1 x2 x3 x4).mem.bytes = x4.mem.bytes := by
  unfold gccFails
  extract_lets y0 y1
  have h2 : y1.mem.bytes = x4.mem.bytes := by
    unfold y1
    refine (testGallery_mem ..).trans ?_
    refine (detect_mem ..).trans ?_
    rfl
  clear_value y1
  refine ite_mem ?_ ?_
  · refine (setProc_mem ..).trans ?_
    exact h2
  · refine ite_mem ?_ ?_
    · refine (setProc_mem ..).trans ?_
      exact h2
    · refine (reportProcs_mem ..).trans ?_
      refine (fenceGal_mem ..).trans ?_
      refine (setProc_mem ..).trans ?_
      exact h2

@[simp] theorem doSign_mem (x1 : Block) : (doSign x1).mem.bytes = x1.mem.bytes := by
  unfold doSign
  split
  · rename_i y0 y1
    rfl
  · rename_i y2 y3 y4 y5
    refine ite_mem ?_ ?_
    · rfl
    · extract_lets y6 y7 y8
      dsimp -zeta only

@[simp] theorem noteImage_mem (x1) (x2 : Block) : (noteImage x1 x2).mem.bytes = x2.mem.bytes := by
  unfold noteImage
  extract_lets y0
  refine ite_mem ?_ ?_
  · refine (loadImage_mem ..).trans ?_
    rfl
  · rfl

@[simp] theorem writeEpoch_mem (x1 : Block) : (writeEpoch x1).mem.bytes = x1.mem.bytes := by
  unfold writeEpoch
  dsimp -zeta only

@[simp] theorem writeFlash_mem (x1) (x2 : Block) : (writeFlash x1 x2).mem.bytes = x2.mem.bytes := by
  unfold writeFlash; simp

@[simp] theorem doPersist_mem (x1 : Block) : (doPersist x1).mem.bytes = x1.mem.bytes := by
  unfold doPersist
  split
  · rename_i y0 y1
    rfl
  · rename_i y2 y3 y4 y5
    refine ite_mem ?_ ?_
    · rfl
    · extract_lets y6 y7
      have h8 : y6.mem.bytes = x1.mem.bytes := by
        unfold y6
        refine ite_mem ?_ ?_
        · refine (writeEpoch_mem ..).trans ?_
          rfl
        · refine (writeFlash_mem ..).trans ?_
          rfl
      clear_value y6
      dsimp -zeta only
      exact h8

@[simp] theorem doProcWatchdog_mem (x1) (x2 : Block) : (doProcWatchdog x1 x2).mem.bytes = x2.mem.bytes := by
  unfold doProcWatchdog; split <;> simp [*]

@[simp] theorem doGccHold_mem (x1) (x2 : Block) : (doGccHold x1 x2).mem.bytes = x2.mem.bytes := by
  unfold doGccHold
  extract_lets y0
  refine ite_mem ?_ ?_
  · refine (beginRestart_mem ..).trans ?_
    rfl
  · rfl

@[simp] theorem restartFails_wf {x1} {x2} {x3 : Block} (h : mapWf 0 x3.mem.bytes = true) : mapWf 0 (restartFails x1 x2 x3).mem.bytes = true := by
  unfold restartFails
  extract_lets y0 y1 y2 y3 y4 y5
  have h6 : mapWf 0 y3.mem.bytes = true := by
    unfold y3
    refine wf_eq (gccFails_mem ..) ?_
    exact h
  clear_value y3
  have h7 : mapWf 0 y5.mem.bytes = true := by
    unfold y5
    refine warmReset_wf ?_
    exact h
  clear_value y5
  refine ite_wf ?_ ?_
  · refine ite_wf ?_ ?_
    · refine ite_wf ?_ ?_
      · refine wf_eq (revertActivation_mem ..) ?_
        exact h6
      · refine ite_wf ?_ ?_
        · refine wf_eq (reverted_mem ..) ?_
          exact h6
        · exact h6
    · exact h6
  · refine ite_wf ?_ ?_
    · refine wf_eq (reportProcs_mem ..) ?_
      refine wf_eq (countRestart_mem ..) ?_
      refine wf_eq (setProc_mem ..) ?_
      exact h
    · refine ite_wf ?_ ?_
      · refine wf_eq (longDone_mem ..) ?_
        refine wf_eq (setNum_mem ..) ?_
        exact h7
      · exact h7

@[simp] theorem undoAction_mem (x1 : Block) : (undoAction x1).mem.bytes = x1.mem.bytes := by
  unfold undoAction
  extract_lets y0 y1
  have h2 : y0.mem.bytes = x1.mem.bytes := by
    unfold y0
    refine ite_mem ?_ ?_
    · refine (forEach_mem _ _ _ ?_).trans ?_
      · intros y3 y4
        refine (dropPages_mem ..).trans ?_
        rfl
      · rfl
    · rfl
  clear_value y0
  dsimp -zeta only
  exact h2

@[simp] theorem resumeBoundary_wf {x1 : Block} (h : mapWf 0 x1.mem.bytes = true) : mapWf 0 (resumeBoundary x1).mem.bytes = true := by
  unfold resumeBoundary
  extract_lets y0
  have h1 : mapWf 0 y0.mem.bytes = true := by
    unfold y0
    refine wf_eq (recoverRecord_mem ..) ?_
    exact h
  clear_value y0
  refine ite_wf ?_ ?_
  · refine boundGo_wf ?_
    refine wf_eq (undoAction_mem ..) ?_
    exact h1
  · exact h1

@[simp] theorem fwDone_mem (x1) (x2) (x3 : Block) : (fwDone x1 x2 x3).mem.bytes = x3.mem.bytes := by
  unfold fwDone; simp

@[simp] theorem doActivate_mem (x1) (x2 : Block) : (doActivate x1 x2).mem.bytes = x2.mem.bytes := by
  unfold doActivate
  refine ite_mem ?_ ?_
  · refine (respond_mem ..).trans ?_
    rfl
  · extract_lets y0 y1 y2 y3
    have h4 : y0.mem.bytes = x2.mem.bytes := by
      unfold y0
      refine (respond_mem ..).trans ?_
      rfl
    clear_value y0
    have h5 : y2.mem.bytes = x2.mem.bytes := by
      unfold y2
      dsimp -zeta only
      exact h4
    clear_value y2
    refine ite_mem ?_ ?_
    · refine (fwDone_mem ..).trans ?_
      exact h4
    · refine ite_mem ?_ ?_
      · refine (setNum_mem ..).trans ?_
        refine (setFwBit_mem ..).trans ?_
        dsimp -zeta only
        exact h5
      · refine (activateNext_mem ..).trans ?_
        refine (setFwBit_mem ..).trans ?_
        exact h5

@[simp] theorem logLatched_mem (x1) (x2 : Block) : (logLatched x1 x2).mem.bytes = x2.mem.bytes := by
  unfold logLatched
  extract_lets y0 y1
  split
  rename_i y2 y3 y4 y5
  refine (forEach_mem _ _ _ ?_).trans ?_
  · intros y6 y7
    refine (detect_mem ..).trans ?_
    rfl
  · dsimp -zeta only

@[simp] theorem putSet_mem (x1) (x2) (x3 : Block) : (putSet x1 x2 x3).mem.bytes = x3.mem.bytes := by
  unfold putSet; simp

@[simp] theorem doAbandon_mem (x1) (x2 : Block) : (doAbandon x1 x2).mem.bytes = x2.mem.bytes := by
  unfold doAbandon
  refine ite_mem ?_ ?_
  · refine (respond_mem ..).trans ?_
    rfl
  · extract_lets y0 y1
    have h2 : y0.mem.bytes = x2.mem.bytes := by
      unfold y0
      refine (respond_mem ..).trans ?_
      rfl
    clear_value y0
    refine ite_mem ?_ ?_
    · refine (fwDone_mem ..).trans ?_
      refine (setFwBit_mem ..).trans ?_
      dsimp -zeta only
      exact h2
    · refine (fwDone_mem ..).trans ?_
      exact h2

@[simp] theorem doStage_wf {x1} {x2} {x3} {x4} {x5 : Block} (h : mapWf 0 x5.mem.bytes = true) : mapWf 0 (doStage x1 x2 x3 x4 x5).mem.bytes = true := by
  unfold doStage
  refine ite_wf ?_ ?_
  · refine wf_eq (respond_mem ..) ?_
    exact h
  · extract_lets y0
    have h1 : mapWf 0 y0.mem.bytes = true := by
      unfold y0
      refine wf_eq (respond_mem ..) ?_
      exact h
    clear_value y0
    refine ite_wf ?_ ?_
    · refine wf_eq (fwDone_mem ..) ?_
      exact h1
    · split
      rename_i y2 y3 y4 y5
      have h6 : mapWf 0 y4.mem.bytes = true := by
        refine wf_eq (congrArg (fun p => p.2.mem.bytes) y5).symm ?_
        refine memRead_wf ?_
        exact h1
      extract_lets y7 y8 y9 y10 y11
      have h12 : mapWf 0 y10.mem.bytes = true := by
        unfold y10
        refine wf_eq (putSet_mem ..) ?_
        exact h6
      clear_value y10
      refine ite_wf ?_ ?_
      · refine wf_eq (fwDone_mem ..) ?_
        exact h6
      · refine ite_wf ?_ ?_
        · refine wf_eq (fwDone_mem ..) ?_
          exact h6
        · refine wf_eq (fwDone_mem ..) ?_
          refine wf_eq (setFwBit_mem ..) ?_
          dsimp -zeta only
          exact h12

@[simp] theorem doLockstep_mem (x1) (x2 : Block) : (doLockstep x1 x2).mem.bytes = x2.mem.bytes := by
  unfold doLockstep; split <;> simp [*]

@[simp] theorem restartOk_wf {x1} {x2 : Block} (h : mapWf 0 x2.mem.bytes = true) : mapWf 0 (restartOk x1 x2).mem.bytes = true := by
  unfold restartOk
  extract_lets y0 y1 y2 y3 y4 y5
  have h6 : mapWf 0 y1.mem.bytes = true := by
    unfold y1
    refine wf_eq (noteImage_mem ..) ?_
    refine wf_eq (reportProcs_mem ..) ?_
    refine wf_eq (setProc_mem ..) ?_
    exact h
  clear_value y1
  have h7 : mapWf 0 y2.mem.bytes = true := by
    unfold y2
    refine ite_wf ?_ ?_
    · refine wf_eq (flushFatal_mem ..) ?_
      exact h6
    · exact h6
  clear_value y2
  have h8 : mapWf 0 y3.mem.bytes = true := by
    unfold y3
    refine ite_wf ?_ ?_
    · refine wf_eq (logLatched_mem ..) ?_
      exact h7
    · exact h7
  clear_value y3
  have h9 : mapWf 0 y4.mem.bytes = true := by
    unfold y4
    refine ite_wf ?_ ?_
    · refine resumeBoundary_wf ?_
      exact h8
    · exact h8
  clear_value y4
  have h10 : mapWf 0 y5.mem.bytes = true := by
    unfold y5
    refine ite_wf ?_ ?_
    · refine wf_eq (testGallery_mem ..) ?_
      exact h9
    · exact h9
  clear_value y5
  refine ite_wf ?_ ?_
  · refine wf_eq (activated_mem ..) ?_
    exact h10
  · refine ite_wf ?_ ?_
    · refine wf_eq (reverted_mem ..) ?_
      exact h10
    · exact h10

end Sys2Proof.Machine
end

