-- ==== Sys2Proof/Laws/MemPorts.lean ====
section
/-! SUPPORT. What each operation does to the bytes of memory: object accesses, the vestibules, the portico and the debug port.
`f_mem`: `f` leaves every byte as it is; `f_wf`: `f` keeps the canonical form. -/

set_option maxRecDepth 4000

namespace Sys2Proof.Machine

@[simp] theorem refuseWrite_mem (x1 : Block) : (refuseWrite x1).2.mem.bytes = x1.mem.bytes := by
  unfold refuseWrite; simp

@[simp] theorem countClamp_mem (x1) (x2 : Block) : (countClamp x1 x2).mem.bytes = x2.mem.bytes := by
  unfold countClamp; simp

@[simp] theorem onFlash_mem (x1) (x2) (x3 : Block) (hf : ∀ a0, (x2 a0).mem.bytes = a0.mem.bytes) : (onFlash x1 x2 x3).mem.bytes = x3.mem.bytes := by
  unfold onFlash; split <;> simp [*]

@[simp] theorem actNum_mem (x1) (x2) (x3 : Block) : (actNum x1 x2 x3).mem.bytes = x3.mem.bytes := by
  unfold actNum; split <;> first | rfl | simp [*] | (split <;> simp [*])

@[simp] theorem etaWrite_mem (x1) (x2 : Block) : (etaWrite x1 x2).mem.bytes = x2.mem.bytes := by
  unfold etaWrite
  refine ite_mem ?_ ?_
  · rfl
  · refine ite_mem ?_ ?_
    · dsimp -zeta only
    · dsimp -zeta only

@[simp] theorem laneWrite_mem (x1) (x2 : Block) : (laneWrite x1 x2).mem.bytes = x2.mem.bytes := by
  unfold laneWrite; split <;> simp [*]

@[simp] theorem afterStore_mem (x1) (x2 : Block) : (afterStore x1 x2).mem.bytes = x2.mem.bytes := by
  unfold afterStore
  extract_lets y0 y1
  have h2 : y0.mem.bytes = x2.mem.bytes := by
    unfold y0
    refine ite_mem ?_ ?_
    · refine (markUnwritten_mem ..).trans ?_
      rfl
    · rfl
  clear_value y0
  have h3 : y1.mem.bytes = x2.mem.bytes := by
    unfold y1
    refine ite_mem ?_ ?_
    · refine (stagedWrite_mem ..).trans ?_
      exact h2
    · exact h2
  clear_value y1
  refine (etaWrite_mem ..).trans ?_
  refine (laneWrite_mem ..).trans ?_
  exact h3

@[simp] theorem writeNum_mem (x1) (x2) (x3 : Block) : (writeNum x1 x2 x3).mem.bytes = x3.mem.bytes := by
  unfold writeNum
  extract_lets y0 y1
  have h2 : y1.mem.bytes = x3.mem.bytes := by
    unfold y1
    refine ite_mem ?_ ?_
    · rfl
    · refine (countClamp_mem ..).trans ?_
      rfl
  clear_value y1
  refine ite_mem ?_ ?_
  · refine (actNum_mem ..).trans ?_
    exact h2
  · refine (afterStore_mem ..).trans ?_
    refine (setNum_mem ..).trans ?_
    exact h2

@[simp] theorem actDom_mem (x1) (x2) (x3 : Block) : (actDom x1 x2 x3).mem.bytes = x3.mem.bytes := by
  unfold actDom; split <;> simp [*]

@[simp] theorem writeDom_mem (x1) (x2) (x3 : Block) : (writeDom x1 x2 x3).mem.bytes = x3.mem.bytes := by
  unfold writeDom
  extract_lets y0 y1
  have h2 : y1.mem.bytes = x3.mem.bytes := by
    unfold y1
    refine ite_mem ?_ ?_
    · rfl
    · refine (countClamp_mem ..).trans ?_
      rfl
  clear_value y1
  refine ite_mem ?_ ?_
  · refine (actDom_mem ..).trans ?_
    exact h2
  · refine (afterStore_mem ..).trans ?_
    refine (setDom_mem ..).trans ?_
    exact h2

@[simp] theorem objWriteWhole_mem (x1) (x2) (x3) (x4 : Block) : (objWriteWhole x1 x2 x3 x4).2.mem.bytes = x4.mem.bytes := by
  unfold objWriteWhole
  split
  · rename_i y0 y1 y2 y3
    refine ite_mem_2 ?_ ?_
    · refine (refuseWrite_mem ..).trans ?_
      rfl
    · dsimp -zeta only
  · rename_i y4 y5 y6 y7
    dsimp -zeta only
  · rename_i y8 y9 y10 y11 y12
    refine ite_mem_2 ?_ ?_
    · refine ite_mem_2 ?_ ?_
      · dsimp -zeta only
        refine (writeNum_mem ..).trans ?_
        rfl
      · dsimp -zeta only
    · dsimp -zeta only
      refine (writeDom_mem ..).trans ?_
      rfl

@[simp] theorem doInstall_mem (x1) (x2) (x3 : Block) : (doInstall x1 x2 x3).mem.bytes = x3.mem.bytes := by
  unfold doInstall; split <;> simp [*]

@[simp] theorem objWrite_mem (x1) (x2) (x3) (x4) (x5 : Block) : (objWrite x1 x2 x3 x4 x5).2.mem.bytes = x5.mem.bytes := by
  unfold objWrite
  split
  · rename_i y0 y1 y2 y3
    refine ite_mem_2 ?_ ?_
    · refine (refuseWrite_mem ..).trans ?_
      rfl
    · dsimp -zeta only
  · rename_i y4 y5 y6 y7
    dsimp -zeta only
  · rename_i y8 y9 y10 y11 y12
    extract_lets y13
    refine ite_mem_2 ?_ ?_
    · refine ite_mem_2 ?_ ?_
      · dsimp -zeta only
      · dsimp -zeta only
        refine (writeNum_mem ..).trans ?_
        rfl
    · refine ite_mem_2 ?_ ?_
      · dsimp -zeta only
      · refine ite_mem_2 ?_ ?_
        · refine ite_mem_2 ?_ ?_
          · dsimp -zeta only
          · dsimp -zeta only
            refine (writeDom_mem ..).trans ?_
            rfl
        · dsimp -zeta only
          refine (writeDom_mem ..).trans ?_
          rfl

@[simp] theorem writeRow_mem (x1) (x2) (x3) (x4) (x5 : Block) : (writeRow x1 x2 x3 x4 x5).mem.bytes = x5.mem.bytes := by
  unfold writeRow; split <;> simp [*]

@[simp] theorem complete_mem (x1) (x2) (x3) (x4) (x5) (x6) (x7) (x8 : Block) : (complete x1 x2 x3 x4 x5 x6 x7 x8).mem.bytes = x8.mem.bytes := by
  unfold complete; simp

@[simp] theorem winRead_mem (x1) (x2) (x3) (x4) (x5 : Block) : (winRead x1 x2 x3 x4 x5).mem.bytes = x5.mem.bytes := by
  unfold winRead; split <;> simp [*]

@[simp] theorem takeHead_mem (x1) (x2) (x3 : Block) : (takeHead x1 x2 x3).mem.bytes = x3.mem.bytes := by
  unfold takeHead; split <;> first | rfl | simp [*] | (split <;> simp [*])

@[simp] theorem apRead_wf {x1} {x2} {x3} {x4} {x5 : Block} (h : mapWf 0 x5.mem.bytes = true) : mapWf 0 (apRead x1 x2 x3 x4 x5).mem.bytes = true := by
  unfold apRead
  refine ite_wf ?_ ?_
  · refine wf_eq (complete_mem ..) ?_
    refine wf_eq (vstErr_mem ..) ?_
    exact h
  · refine ite_wf ?_ ?_
    · refine wf_eq (complete_mem ..) ?_
      refine wf_eq (vstErr_mem ..) ?_
      exact h
    · split
      rename_i y0 y1 y2 y3
      have h4 : mapWf 0 y2.mem.bytes = true := by
        refine wf_eq (congrArg (fun p => p.2.mem.bytes) y3).symm ?_
        refine memRead_wf ?_
        exact h
      extract_lets y5 y6 y7 y8 y9
      have h10 : mapWf 0 y8.mem.bytes = true := by
        unfold y8
        refine forEach_wf _ _ _ ?_ ?_
        · exact h4
        · intros y11 y12 y13
          refine wf_eq (cperNow_mem ..) ?_
          exact y13
      clear_value y8
      have h14 : mapWf 0 y9.mem.bytes = true := by
        unfold y9
        refine wf_eq (vstErr_mem ..) ?_
        refine wf_eq (modPort_mem ..) ?_
        exact h10
      clear_value y9
      refine ite_wf ?_ ?_
      · refine wf_eq (complete_mem ..) ?_
        exact h4
      · refine wf_eq (complete_mem ..) ?_
        exact h14

@[simp] theorem countRing_mem (x1) (x2 : Block) : (countRing x1 x2).mem.bytes = x2.mem.bytes := by
  unfold countRing; simp

@[simp] theorem ringProgram_mem (x1) (x2) (x3) (x4 : Block) : (ringProgram x1 x2 x3 x4).mem.bytes = x4.mem.bytes := by
  unfold ringProgram
  extract_lets y0 y1 y2
  have h3 : y2.mem.bytes = x4.mem.bytes := by
    unfold y2
    refine ite_mem ?_ ?_
    · refine (vstErr_mem ..).trans ?_
      rfl
    · split
      · rename_i y4 y5 y6
        refine (tokAdd_mem ..).trans ?_
        rfl
      · rename_i y7 y8
        rfl
  clear_value y2
  refine (countRing_mem ..).trans ?_
  exact h3

@[simp] theorem ringColl_wf {x1} {x2} {x3 : Block} (h : mapWf 0 x3.mem.bytes = true) : mapWf 0 (ringColl x1 x2 x3).mem.bytes = true := by
  unfold ringColl
  extract_lets y0 y1 y2 y3 y4 y5
  have h6 : mapWf 0 y5.mem.bytes = true := by
    unfold y5
    refine ite_wf ?_ ?_
    · refine wf_eq (vstErr_mem ..) ?_
      exact h
    · refine ite_wf ?_ ?_
      · exact h
      · refine ite_wf ?_ ?_
        · refine wf_eq (vstErr_mem ..) ?_
          exact h
        · refine collsGo_wf ?_
          dsimp -zeta only
          exact h
  clear_value y5
  refine wf_eq (countRing_mem ..) ?_
  exact h6

@[simp] theorem winPut_wf {x1} {x2} {x3} {x4} {x5} {x6 : Block} (hf : ∀ a0 a1 a2, mapWf 0 a2.mem.bytes = true → mapWf 0 (x1 a0 a1 a2).mem.bytes = true) (h : mapWf 0 x6.mem.bytes = true) : mapWf 0 (winPut x1 x2 x3 x4 x5 x6).mem.bytes = true := by
  unfold winPut
  refine ite_wf ?_ ?_
  · refine wf_eq (modPort_mem ..) ?_
    exact h
  · refine ite_wf ?_ ?_
    · refine wf_eq (modPort_mem ..) ?_
      exact h
    · refine ite_wf ?_ ?_
      · refine wf_eq (modPort_mem ..) ?_
        exact h
      · refine ite_wf ?_ ?_
        · refine wf_eq (ringProgram_mem ..) ?_
          exact h
        · refine ite_wf ?_ ?_
          · refine ringColl_wf ?_
            exact h
          · refine ite_wf ?_ ?_
            · apply hf
              exact h
            · refine ite_wf ?_ ?_
              · refine wf_eq (modPort_mem ..) ?_
                exact h
              · refine ite_wf ?_ ?_
                · refine wf_eq (modPort_mem ..) ?_
                  exact h
                · refine ite_wf ?_ ?_
                  · refine wf_eq (vstErr_mem ..) ?_
                    exact h
                  · exact h

@[simp] theorem apWrite_wf {x1} {x2} {x3} {x4} {x5 : Block} (h : mapWf 0 x5.mem.bytes = true) : mapWf 0 (apWrite x1 x2 x3 x4 x5).mem.bytes = true := by
  unfold apWrite
  refine ite_wf ?_ ?_
  · refine wf_eq (vstErr_mem ..) ?_
    exact h
  · refine ite_wf ?_ ?_
    · refine wf_eq (vstErr_mem ..) ?_
      exact h
    · refine memWrite_wf ?_
      exact h

@[simp] theorem doVlinkDown_mem (x1) (x2 : Block) : (doVlinkDown x1 x2).mem.bytes = x2.mem.bytes := by
  unfold doVlinkDown; simp

@[simp] theorem doVread_mem (x1) (x2) (x3) (x4) (x5 : Block) : (doVread x1 x2 x3 x4 x5).mem.bytes = x5.mem.bytes := by
  unfold doVread; split <;> simp [*]

@[simp] theorem winWrite_wf {x1} {x2} {x3} {x4} {x5 : Block} (hf : ∀ a0 a1 a2, mapWf 0 a2.mem.bytes = true → mapWf 0 (x1 a0 a1 a2).mem.bytes = true) (h : mapWf 0 x5.mem.bytes = true) : mapWf 0 (winWrite x1 x2 x3 x4 x5).mem.bytes = true := by
  unfold winWrite
  refine ite_wf ?_ ?_
  · refine wf_eq (vstErr_mem ..) ?_
    exact h
  · refine forEach_wf _ _ _ ?_ ?_
    · exact h
    · intros y0 y1 y2
      refine winPut_wf (hf := ?_) ?_
      · intros y3 y4 y5 y6
        apply hf
        exact y6
      · exact y2

@[simp] theorem doRing_mem (x1) (x2) (x3) (x4 : Block) : (doRing x1 x2 x3 x4).mem.bytes = x4.mem.bytes := by
  unfold doRing; split <;> simp [*]

@[simp] theorem doLinkUp_mem (x1) (x2 : Block) : (doLinkUp x1 x2).mem.bytes = x2.mem.bytes := by
  unfold doLinkUp; split <;> simp [*]

@[simp] theorem redoDark_mem (x1) (x2 : Block) : (redoDark x1 x2).mem.bytes = x2.mem.bytes := by
  unfold redoDark; split <;> simp [*]

@[simp] theorem sleepDone_wf {x1 : Block} (h : mapWf 0 x1.mem.bytes = true) : mapWf 0 (sleepDone x1).mem.bytes = true := by
  unfold sleepDone
  extract_lets y0 y1 y2 y3
  have h4 : mapWf 0 y3.mem.bytes = true := by
    unfold y3
    refine forEach_wf _ _ _ ?_ ?_
    · refine wf_eq (endTrans_mem ..) ?_
      refine enterDormant_wf ?_
      dsimp -zeta only
      exact h
    · intros y5 y6 y7
      refine wf_eq (redoDark_mem ..) ?_
      exact y7
  clear_value y3
  refine ite_wf ?_ ?_
  · refine wf_eq (powerGo_mem ..) ?_
    exact h4
  · exact h4

@[simp] theorem refuseReq_mem (x1) (x2) (x3) (x4 : Block) : (refuseReq x1 x2 x3 x4).mem.bytes = x4.mem.bytes := by
  unfold refuseReq; split <;> simp [*]

@[simp] theorem holdRequest_mem (x1) (x2 : Block) : (holdRequest x1 x2).mem.bytes = x2.mem.bytes := by
  unfold holdRequest
  split
  · rename_i y0 y1 y2
    refine ite_mem ?_ ?_
    · dsimp -zeta only
    · refine (holdReq_mem ..).trans ?_
      rfl
  · rename_i y3 y4
    refine (holdReq_mem ..).trans ?_
    rfl

@[simp] theorem doObjRead_mem (x1) (x2) (x3) (x4) (x5) (x6 : Block) : (doObjRead x1 x2 x3 x4 x5 x6).mem.bytes = x6.mem.bytes := by
  unfold doObjRead; simp

@[simp] theorem doObjWrite_mem (x1) (x2) (x3) (x4) (x5) (x6 : Block) : (doObjWrite x1 x2 x3 x4 x5 x6).mem.bytes = x6.mem.bytes := by
  unfold doObjWrite; simp

@[simp] theorem fromStandby_mem (x1) (x2) (x3) (x4) (x5 : Block) (hf : ∀ a0, (x4 a0).mem.bytes = a0.mem.bytes) : (fromStandby x1 x2 x3 x4 x5).mem.bytes = x5.mem.bytes := by
  unfold fromStandby
  extract_lets y0
  split
  · rename_i y1 y2
    refine ite_mem ?_ ?_
    · unfold y0
      dsimp -zeta only
      refine (powerGo_mem ..).trans ?_
      rfl
    · refine (hf ..).trans ?_
      rfl
  · rename_i y3 y4 y5
    refine (refuseState_mem ..).trans ?_
    rfl
  · rename_i y6 y7 y8 y9
    refine ite_mem ?_ ?_
    · unfold y0
      dsimp -zeta only
    · refine (refuseState_mem ..).trans ?_
      rfl
theorem fromStandby_wf {x1} {x2} {x3} {x4} {x5 : Block} (hf : ∀ a0, mapWf 0 a0.mem.bytes = true → mapWf 0 (x4 a0).mem.bytes = true) (h : mapWf 0 x5.mem.bytes = true) : mapWf 0 (fromStandby x1 x2 x3 x4 x5).mem.bytes = true := by
  unfold fromStandby
  extract_lets y0
  split
  · rename_i y1 y2
    refine ite_wf ?_ ?_
    · unfold y0
      dsimp -zeta only
      refine wf_eq (powerGo_mem ..) ?_
      exact h
    · apply hf
      exact h
  · rename_i y3 y4 y5
    refine wf_eq (refuseState_mem ..) ?_
    exact h
  · rename_i y6 y7 y8 y9
    refine ite_wf ?_ ?_
    · unfold y0
      dsimp -zeta only
      exact h
    · refine wf_eq (refuseState_mem ..) ?_
      exact h

@[simp] theorem doWarm_wf {x1} {x2 : Block} (h : mapWf 0 x2.mem.bytes = true) : mapWf 0 (doWarm x1 x2).mem.bytes = true := by
  unfold doWarm
  refine warmReset_wf ?_
  refine wf_eq (respond_mem ..) ?_
  exact h

@[simp] theorem doPower_mem (x1) (x2) (x3 : Block) : (doPower x1 x2 x3).mem.bytes = x3.mem.bytes := by
  unfold doPower; split <;> simp [*]

@[simp] theorem doAttest_mem (x1) (x2) (x3 : Block) : (doAttest x1 x2 x3).mem.bytes = x3.mem.bytes := by
  unfold doAttest; split <;> simp [*]

@[simp] theorem doToken_mem (x1) (x2) (x3 : Block) : (doToken x1 x2 x3).mem.bytes = x3.mem.bytes := by
  unfold doToken; simp

@[simp] theorem performReq_wf {x1} {x2 : Block} (h : mapWf 0 x2.mem.bytes = true) : mapWf 0 (performReq x1 x2).mem.bytes = true := by
  unfold performReq
  split
  · rename_i y0 y1 y2 y3 y4 y5
    refine wf_eq (doObjRead_mem ..) ?_
    exact h
  · rename_i y6 y7 y8 y9 y10 y11
    refine wf_eq (doObjWrite_mem ..) ?_
    exact h
  · rename_i y12 y13
    refine wf_eq (respond_mem ..) ?_
    exact h
  · rename_i y14 y15 y16 y17
    refine doLoad_wf ?_
    exact h
  · rename_i y18 y19
    refine fromStandby_wf (hf := ?_) ?_
    · intros y20 y21
      refine doStart_wf ?_
      exact y21
    · exact h
  · rename_i y22 y23
    refine fromStandby_wf (hf := ?_) ?_
    · intros y24 y25
      refine doReplay_wf ?_
      exact y25
    · exact h
  · rename_i y26 y27
    refine wf_eq (doPark_mem ..) ?_
    exact h
  · rename_i y28 y29
    refine fromStandby_wf (hf := ?_) ?_
    · intros y30 y31
      refine doResume_wf ?_
      exact y31
    · exact h
  · rename_i y32 y33 y34
    refine doSave_wf ?_
    exact h
  · rename_i y35 y36 y37 y38
    refine doRestore_wf ?_
    exact h
  · rename_i y39 y40 y41
    refine doTakeSlices_wf ?_
    exact h
  · rename_i y42 y43 y44
    refine wf_eq (doTakeTwin_mem ..) ?_
    exact h
  · rename_i y45 y46
    refine wf_eq (doReMirror_mem ..) ?_
    exact h
  · rename_i y47 y48
    refine doWarm_wf ?_
    exact h
  · rename_i y49 y50
    refine wf_eq (doPower_mem ..) ?_
    exact h
  · rename_i y51 y52
    refine wf_eq (doPower_mem ..) ?_
    exact h
  · rename_i y53 y54
    refine wf_eq (doPower_mem ..) ?_
    exact h
  · rename_i y55 y56 y57
    refine wf_eq (doAttest_mem ..) ?_
    exact h
  · rename_i y58 y59 y60
    refine wf_eq (doToken_mem ..) ?_
    exact h
  · rename_i y61 y62 y63 y64 y65
    refine doStage_wf ?_
    exact h
  · rename_i y66 y67
    refine wf_eq (doActivate_mem ..) ?_
    exact h
  · rename_i y68 y69
    refine wf_eq (doAbandon_mem ..) ?_
    exact h
  · rename_i y70 y71 y72 y73 y74 y75 y76 y77 y78 y79 y80 y81 y82 y83 y84 y85 y86 y87 y88 y89 y90 y91 y92
    exact h

@[simp] theorem serve_wf {x1} {x2 : Block} (h : mapWf 0 x2.mem.bytes = true) : mapWf 0 (serve x1 x2).mem.bytes = true := by
  unfold serve
  split
  · rename_i y0 y1
    exact h
  · rename_i y2 y3 y4 y5
    split
    · rename_i y6 y7 y8
      refine wf_eq (refuseReq_mem ..) ?_
      exact h
    · rename_i y9 y10
      refine ite_wf ?_ ?_
      · refine wf_eq (holdRequest_mem ..) ?_
        exact h
      · refine performReq_wf ?_
        exact h

@[simp] theorem redo_wf {x1} {x2 : Block} (h : mapWf 0 x2.mem.bytes = true) : mapWf 0 (redo x1 x2).mem.bytes = true := by
  unfold redo
  split
  · rename_i y0 y1
    refine wf_eq (doEnrol_mem ..) ?_
    exact h
  · rename_i y2 y3
    refine wf_eq (doLifecycle_mem ..) ?_
    exact h
  · rename_i y4 y5
    refine wf_eq (doLifecycle_mem ..) ?_
    exact h
  · rename_i y6 y7
    refine wf_eq (doTapToken_mem ..) ?_
    exact h
  · rename_i y8 y9 y10
    refine wf_eq (onFlash_mem (hf := ?_) ..) ?_
    · intros y11
      refine (clearFloor_mem ..).trans ?_
      rfl
    · exact h
  · rename_i y12 y13 y14
    refine wf_eq (onFlash_mem (hf := ?_) ..) ?_
    · intros y15
      refine (generateKey_mem ..).trans ?_
      rfl
    · exact h
  · rename_i y16 y17 y18
    refine wf_eq (onFlash_mem (hf := ?_) ..) ?_
    · intros y19
      refine (installChain_mem ..).trans ?_
      rfl
    · exact h
  · rename_i y20 y21
    refine wf_eq (doWake_mem ..) ?_
    exact h
  · rename_i y22 y23
    refine ite_wf ?_ ?_
    · refine serve_wf ?_
      exact h
    · refine wf_eq (powerWrite_mem ..) ?_
      exact h
  · rename_i y24 y25
    refine ite_wf ?_ ?_
    · refine serve_wf ?_
      exact h
    · refine wf_eq (powerWrite_mem ..) ?_
      exact h
  · rename_i y26 y27
    refine ite_wf ?_ ?_
    · refine serve_wf ?_
      exact h
    · refine wf_eq (powerWrite_mem ..) ?_
      exact h
  · rename_i y28 y29 y30 y31 y32 y33 y34 y35 y36 y37 y38 y39
    refine serve_wf ?_
    exact h

@[simp] theorem redoAll_wf {x1 : Block} (h : mapWf 0 x1.mem.bytes = true) : mapWf 0 (redoAll x1).mem.bytes = true := by
  unfold redoAll
  extract_lets y0 y1
  refine forEach_wf _ _ _ ?_ ?_
  · dsimp -zeta only
    exact h
  · intros y2 y3 y4
    refine redo_wf ?_
    exact y4

@[simp] theorem restDone_mem (x1 : Block) : (restDone x1).mem.bytes = x1.mem.bytes := by
  unfold restDone
  extract_lets y0
  have h1 : y0.mem.bytes = x1.mem.bytes := by
    unfold y0
    refine (endTrans_mem ..).trans ?_
    refine (enterStandby_mem ..).trans ?_
    rfl
  clear_value y0
  refine ite_mem ?_ ?_
  · refine (powerGo_mem ..).trans ?_
    exact h1
  · exact h1

@[simp] theorem wakeDone_wf {x1 : Block} (h : mapWf 0 x1.mem.bytes = true) : mapWf 0 (wakeDone x1).mem.bytes = true := by
  unfold wakeDone
  split
  rename_i y0 y1 y2 y3
  have h4 : mapWf 0 y2.mem.bytes = true := by
    refine wf_eq (congrArg (fun p => p.2.mem.bytes) y3).symm ?_
    refine ite_wf_2 ?_ ?_
    · refine bootFromRom_wf ?_
      exact h
    · dsimp -zeta only
      exact h
  extract_lets y5 y6 y7 y8
  have h9 : mapWf 0 y7.mem.bytes = true := by
    unfold y7
    dsimp -zeta only
    exact h4
  clear_value y7
  refine ite_wf ?_ ?_
  · refine wf_eq (endTrans_mem ..) ?_
    exact h9
  · refine ite_wf ?_ ?_
    · dsimp -zeta only
      exact h9
    · refine wf_eq (endTrans_mem ..) ?_
      exact h9

@[simp] theorem leaveStandby_wf {x1 : Block} (h : mapWf 0 x1.mem.bytes = true) : mapWf 0 (leaveStandby x1).mem.bytes = true := by
  unfold leaveStandby
  extract_lets y0 y1 y2 y3
  have h4 : mapWf 0 y0.mem.bytes = true := by
    unfold y0
    refine wf_eq (railsTo_mem ..) ?_
    dsimp -zeta only
    exact h
  clear_value y0
  have h5 : mapWf 0 y1.mem.bytes = true := by
    unfold y1
    refine wf_eq (commitIdle_mem ..) ?_
    refine wf_eq (endTrans_mem ..) ?_
    refine wf_eq (setPstate_mem ..) ?_
    exact h4
  clear_value y1
  have h6 : mapWf 0 y2.mem.bytes = true := by
    unfold y2
    refine ite_wf ?_ ?_
    · refine wf_eq (stepDown_mem ..) ?_
      exact h5
    · exact h5
  clear_value y2
  split
  · rename_i y7 y8 y9
    refine serve_wf ?_
    dsimp -zeta only
    exact h6
  · rename_i y10 y11
    exact h6

@[simp] theorem doTransDone_wf {x1 : Block} (h : mapWf 0 x1.mem.bytes = true) : mapWf 0 (doTransDone x1).mem.bytes = true := by
  unfold doTransDone
  split
  · rename_i y0 y1
    exact h
  · rename_i y2 y3 y4 y5
    refine ite_wf ?_ ?_
    · exact h
    · refine ite_wf ?_ ?_
      · refine sleepDone_wf ?_
        exact h
      · refine redoAll_wf ?_
        refine ite_wf ?_ ?_
        · refine wf_eq (restDone_mem ..) ?_
          exact h
        · refine ite_wf ?_ ?_
          · refine wakeDone_wf ?_
            exact h
          · refine leaveStandby_wf ?_
            exact h

@[simp] theorem answerReports_mem (x1 : Block) : (answerReports x1).mem.bytes = x1.mem.bytes := by
  unfold answerReports
  refine (forEach_mem _ _ _ ?_).trans ?_
  · intros y0 y1
    refine (respond_mem ..).trans ?_
    rfl
  · dsimp -zeta only

@[simp] theorem goesOnFor_wf {x1} {x2 : Block} (h : mapWf 0 x2.mem.bytes = true) : mapWf 0 (goesOnFor x1 x2).mem.bytes = true := by
  unfold goesOnFor
  refine redoAll_wf ?_
  refine ite_wf ?_ ?_
  · refine wf_eq (answerReports_mem ..) ?_
    exact h
  · exact h

@[simp] theorem interruptReq_mem (x1 : Block) : (interruptReq x1).mem.bytes = x1.mem.bytes := by
  unfold interruptReq; split <;> simp [*]

@[simp] theorem afterRestart_wf {x1} {x2 : Block} (h : mapWf 0 x2.mem.bytes = true) : mapWf 0 (afterRestart x1 x2).mem.bytes = true := by
  unfold afterRestart
  refine goesOnFor_wf ?_
  refine restartOk_wf ?_
  refine ite_wf ?_ ?_
  · refine wf_eq (interruptReq_mem ..) ?_
    exact h
  · exact h

@[simp] theorem doActivationNext_wf {x1} {x2 : Block} (h : mapWf 0 x2.mem.bytes = true) : mapWf 0 (doActivationNext x1 x2).mem.bytes = true := by
  unfold doActivationNext
  split
  · rename_i y0 y1
    exact h
  · rename_i y2 y3 y4 y5
    refine ite_wf ?_ ?_
    · exact h
    · refine ite_wf ?_ ?_
      · refine afterRestart_wf ?_
        exact h
      · refine wf_eq (revertActivation_mem ..) ?_
        exact h

@[simp] theorem doRestartDone_wf {x1} {x2} {x3 : Block} (h : mapWf 0 x3.mem.bytes = true) : mapWf 0 (doRestartDone x1 x2 x3).mem.bytes = true := by
  unfold doRestartDone
  refine ite_wf ?_ ?_
  · exact h
  · split
    rename_i y0 y1 y2 y3
    have h4 : mapWf 0 y2.mem.bytes = true := by
      refine wf_eq (congrArg (fun p => p.2.mem.bytes) y3).symm ?_
      refine ite_wf_2 ?_ ?_
      · refine wf_eq (inject_mem ..) ?_
        exact h
      · dsimp -zeta only
        exact h
    refine ite_wf ?_ ?_
    · refine restartFails_wf ?_
      exact h4
    · refine afterRestart_wf ?_
      exact h4

@[simp] theorem ringMailbox_mem (x1) (x2) (x3) (x4) (x5 : Block) (hf : ∀ a0, (x4 a0).mem.bytes = a0.mem.bytes) : (ringMailbox x1 x2 x3 x4 x5).mem.bytes = x5.mem.bytes := by
  unfold ringMailbox
  extract_lets y0 y1 y2
  have h3 : y1.mem.bytes = x5.mem.bytes := by
    unfold y1
    refine (countRing_mem ..).trans ?_
    rfl
  clear_value y1
  split
  · rename_i y4 y5 y6 y7
    refine ite_mem ?_ ?_
    · exact h3
    · refine (vstErr_mem ..).trans ?_
      exact h3
  · rename_i y8 y9
    refine ite_mem ?_ ?_
    · refine (alert_mem ..).trans ?_
      exact h3
    · refine (hf ..).trans ?_
      refine (modPort_mem ..).trans ?_
      exact h3
theorem ringMailbox_wf {x1} {x2} {x3} {x4} {x5 : Block} (hf : ∀ a0, mapWf 0 a0.mem.bytes = true → mapWf 0 (x4 a0).mem.bytes = true) (h : mapWf 0 x5.mem.bytes = true) : mapWf 0 (ringMailbox x1 x2 x3 x4 x5).mem.bytes = true := by
  unfold ringMailbox
  extract_lets y0 y1 y2
  have h3 : mapWf 0 y1.mem.bytes = true := by
    unfold y1
    refine wf_eq (countRing_mem ..) ?_
    exact h
  clear_value y1
  split
  · rename_i y4 y5 y6 y7
    refine ite_wf ?_ ?_
    · exact h3
    · refine wf_eq (vstErr_mem ..) ?_
      exact h3
  · rename_i y8 y9
    refine ite_wf ?_ ?_
    · refine wf_eq (alert_mem ..) ?_
      exact h3
    · apply hf
      refine wf_eq (modPort_mem ..) ?_
      exact h3

@[simp] theorem serveBuffer_wf {x1} {x2} {x3 : Block} (h : mapWf 0 x3.mem.bytes = true) : mapWf 0 (serveBuffer x1 x2 x3).mem.bytes = true := by
  unfold serveBuffer
  extract_lets y0 y1 y2 y3
  refine ite_wf ?_ ?_
  · refine wf_eq (respond_mem ..) ?_
    exact h
  · refine ite_wf ?_ ?_
    · refine wf_eq (respond_mem ..) ?_
      exact h
    · split
      · rename_i y4 y5 y6
        refine wf_eq (respond_mem ..) ?_
        exact h
      · rename_i y7 y8 y9
        refine serve_wf ?_
        exact h

@[simp] theorem ringBuffer_wf {x1} {x2} {x3 : Block} (h : mapWf 0 x3.mem.bytes = true) : mapWf 0 (ringBuffer x1 x2 x3).mem.bytes = true := by
  unfold ringBuffer
  extract_lets y0
  refine ringMailbox_wf (hf := ?_) ?_
  · intros y1 y2
    refine serveBuffer_wf ?_
    exact y2
  · exact h

@[simp] theorem doWindowWrite_wf {x1} {x2} {x3} {x4 : Block} (h : mapWf 0 x4.mem.bytes = true) : mapWf 0 (doWindowWrite x1 x2 x3 x4).mem.bytes = true := by
  unfold doWindowWrite
  refine ite_wf ?_ ?_
  · exact h
  · refine winWrite_wf (hf := ?_) ?_
    · intros y0 y1 y2 y3
      refine ringBuffer_wf ?_
      exact y3
    · exact h

@[simp] theorem dropXfer_mem (x1) (x2 : Block) : (dropXfer x1 x2).mem.bytes = x2.mem.bytes := by
  unfold dropXfer
  dsimp -zeta only

@[simp] theorem doSegmentTimeout_mem (x1) (x2 : Block) : (doSegmentTimeout x1 x2).mem.bytes = x2.mem.bytes := by
  unfold doSegmentTimeout; split <;> simp [*]

@[simp] theorem plcaHear_mem (x1 : Block) : (plcaHear x1).mem.bytes = x1.mem.bytes := by
  unfold plcaHear; split <;> simp [*]

@[simp] theorem queueFrame_mem (x1) (x2 : Block) : (queueFrame x1 x2).mem.bytes = x2.mem.bytes := by
  unfold queueFrame; split <;> simp [*]

@[simp] theorem sendFrame_mem (x1) (x2 : Block) : (sendFrame x1 x2).mem.bytes = x2.mem.bytes := by
  unfold sendFrame; simp

@[simp] theorem keepFrame_mem (x1) (x2) (x3) (x4 : Block) : (keepFrame x1 x2 x3 x4).mem.bytes = x4.mem.bytes := by
  unfold keepFrame; simp

@[simp] theorem serveFrame_mem (x1) (x2) (x3 : Block) (hf : ∀ a0, (x2 a0).2.mem.bytes = a0.mem.bytes) : (serveFrame x1 x2 x3).mem.bytes = x3.mem.bytes := by
  unfold serveFrame
  split
  · rename_i y0 y1 y2
    refine (sendFrame_mem ..).trans ?_
    rfl
  · rename_i y3 y4
    refine ite_mem ?_ ?_
    · rfl
    · split
      rename_i y5 y6 y7 y8
      have h9 : y7.mem.bytes = x3.mem.bytes := by
        refine (congrArg (fun p => p.2.mem.bytes) y8).symm.trans ?_
        refine ite_mem_2 ?_ ?_
        · dsimp -zeta only
        · refine ite_mem_2 ?_ ?_
          · dsimp -zeta only
          · refine (hf ..).trans ?_
            rfl
      extract_lets y10
      refine (sendFrame_mem ..).trans ?_
      refine (keepFrame_mem ..).trans ?_
      exact h9

@[simp] theorem porticoGet_mem (x1) (x2 : Block) : (porticoGet x1 x2).2.mem.bytes = x2.mem.bytes := by
  unfold porticoGet; simp

@[simp] theorem porticoPut_mem (x1) (x2 : Block) : (porticoPut x1 x2).2.mem.bytes = x2.mem.bytes := by
  unfold porticoPut; split <;> simp [*]

@[simp] theorem openXfer_mem (x1) (x2 : Block) : (openXfer x1 x2).mem.bytes = x2.mem.bytes := by
  unfold openXfer
  dsimp -zeta only

@[simp] theorem porticoStart_mem (x1) (x2 : Block) : (porticoStart x1 x2).2.mem.bytes = x2.mem.bytes := by
  unfold porticoStart
  extract_lets y0 y1 y2
  refine ite_mem_2 ?_ ?_
  · dsimp -zeta only
  · refine ite_mem_2 ?_ ?_
    · dsimp -zeta only
    · split
      · rename_i y3 y4
        dsimp -zeta only
      · rename_i y5 y6 y7
        extract_lets y8 y9
        dsimp -zeta only
        refine (openXfer_mem ..).trans ?_
        rfl

@[simp] theorem putXfer_mem (x1) (x2 : Block) : (putXfer x1 x2).mem.bytes = x2.mem.bytes := by
  unfold putXfer
  dsimp -zeta only

@[simp] theorem segmentIn_mem (x1) (x2) (x3 : Block) : (segmentIn x1 x2 x3).2.mem.bytes = x3.mem.bytes := by
  unfold segmentIn; split <;> simp [*]

@[simp] theorem segmentOut_mem (x1) (x2) (x3 : Block) : (segmentOut x1 x2 x3).2.mem.bytes = x3.mem.bytes := by
  unfold segmentOut; split <;> simp [*]

@[simp] theorem porticoSegment_mem (x1) (x2 : Block) : (porticoSegment x1 x2).2.mem.bytes = x2.mem.bytes := by
  unfold porticoSegment; split <;> first | rfl | simp [*] | (split <;> simp [*])

@[simp] theorem porticoEnd_mem (x1) (x2 : Block) : (porticoEnd x1 x2).2.mem.bytes = x2.mem.bytes := by
  unfold porticoEnd
  split
  · rename_i y0 y1
    dsimp -zeta only
  · rename_i y2 y3 y4
    refine ite_mem_2 ?_ ?_
    · dsimp -zeta only
      refine (dropXfer_mem ..).trans ?_
      rfl
    · refine ite_mem_2 ?_ ?_
      · dsimp -zeta only
      · split
        rename_i y5 y6 y7 y8
        have h9 : y7.mem.bytes = x2.mem.bytes := by
          refine (congrArg (fun p => p.2.mem.bytes) y8).symm.trans ?_
          refine (objWriteWhole_mem ..).trans ?_
          refine (dropXfer_mem ..).trans ?_
          rfl
        dsimp -zeta only
        exact h9

@[simp] theorem porticoAbort_mem (x1) (x2 : Block) : (porticoAbort x1 x2).2.mem.bytes = x2.mem.bytes := by
  unfold porticoAbort; split <;> simp [*]

@[simp] theorem porticoDigest_mem (x1) (x2 : Block) : (porticoDigest x1 x2).2.mem.bytes = x2.mem.bytes := by
  unfold porticoDigest
  dsimp -zeta only

@[simp] theorem porticoType_mem (x1) (x2 : Block) : (porticoType x1 x2).2.mem.bytes = x2.mem.bytes := by
  unfold porticoType
  dsimp -zeta only

@[simp] theorem serveSvc_mem (x1) (x2 : Block) : (serveSvc x1 x2).mem.bytes = x2.mem.bytes := by
  unfold serveSvc; split <;> simp [*]

@[simp] theorem serveQueue_mem (x1 : Block) : (serveQueue x1).mem.bytes = x1.mem.bytes := by
  unfold serveQueue
  refine (forEach_mem _ _ _ ?_).trans ?_
  · intros y0 y1
    refine (serveSvc_mem ..).trans ?_
    rfl
  · dsimp -zeta only

@[simp] theorem arrive_mem (x1) (x2 : Block) : (arrive x1 x2).mem.bytes = x2.mem.bytes := by
  unfold arrive
  refine ite_mem ?_ ?_
  · rfl
  · refine ite_mem ?_ ?_
    · refine (bumpNum_mem ..).trans ?_
      rfl
    · refine ite_mem ?_ ?_
      · rfl
      · extract_lets y0
        have h1 : y0.mem.bytes = x2.mem.bytes := by
          unfold y0
          refine (bumpNum_mem ..).trans ?_
          refine (plcaHear_mem ..).trans ?_
          rfl
        clear_value y0
        refine ite_mem ?_ ?_
        · refine (queueFrame_mem ..).trans ?_
          exact h1
        · refine (serveSvc_mem ..).trans ?_
          refine (serveQueue_mem ..).trans ?_
          exact h1

@[simp] theorem onSvc_mem (x1) (x2) (x3 : Block) : (onSvc x1 x2 x3).mem.bytes = x3.mem.bytes := by
  unfold onSvc; split <;> simp [*]

@[simp] theorem doSegmentStart_mem (x1) (x2 : Block) : (doSegmentStart x1 x2).mem.bytes = x2.mem.bytes := by
  unfold doSegmentStart; simp

@[simp] theorem doSegmentAbort_mem (x1) (x2 : Block) : (doSegmentAbort x1 x2).mem.bytes = x2.mem.bytes := by
  unfold doSegmentAbort; simp

@[simp] theorem doSegment_mem (x1) (x2 : Block) : (doSegment x1 x2).mem.bytes = x2.mem.bytes := by
  unfold doSegment; simp

@[simp] theorem doPorticoWrite_mem (x1) (x2 : Block) : (doPorticoWrite x1 x2).mem.bytes = x2.mem.bytes := by
  unfold doPorticoWrite; simp

@[simp] theorem doPorticoRead_mem (x1) (x2 : Block) : (doPorticoRead x1 x2).mem.bytes = x2.mem.bytes := by
  unfold doPorticoRead; simp

@[simp] theorem doPorticoDigest_mem (x1) (x2 : Block) : (doPorticoDigest x1 x2).mem.bytes = x2.mem.bytes := by
  unfold doPorticoDigest; simp

@[simp] theorem doSegmentEnd_mem (x1) (x2 : Block) : (doSegmentEnd x1 x2).mem.bytes = x2.mem.bytes := by
  unfold doSegmentEnd; simp

@[simp] theorem onTap_mem (x1) (x2 : Block) (hf : ∀ a0, (x1 a0).mem.bytes = a0.mem.bytes) : (onTap x1 x2).mem.bytes = x2.mem.bytes := by
  unfold onTap; split <;> simp [*]
theorem onTap_wf {x1} {x2 : Block} (hf : ∀ a0, mapWf 0 a0.mem.bytes = true → mapWf 0 (x1 a0).mem.bytes = true) (h : mapWf 0 x2.mem.bytes = true) : mapWf 0 (onTap x1 x2).mem.bytes = true := by
  unfold onTap
  refine ite_wf ?_ ?_
  · apply hf
    exact h
  · exact h

@[simp] theorem tapShift_mem (x1) (x2) (x3) (x4 : Block) : (tapShift x1 x2 x3 x4).mem.bytes = x4.mem.bytes := by
  unfold tapShift
  dsimp -zeta only

@[simp] theorem asBypass_mem (x1) (x2 : Block) : (asBypass x1 x2).mem.bytes = x2.mem.bytes := by
  unfold asBypass; simp

@[simp] theorem tapAt_mem (x1) (x2) (x3) (x4 : Block) (hf : ∀ a0, (x3 a0).mem.bytes = a0.mem.bytes) : (tapAt x1 x2 x3 x4).mem.bytes = x4.mem.bytes := by
  unfold tapAt
  refine (onTap_mem (hf := ?_) ..).trans ?_
  · intros y0
    refine ite_mem ?_ ?_
    · refine (asBypass_mem ..).trans ?_
      rfl
    · refine (hf ..).trans ?_
      rfl
  · rfl

@[simp] theorem doTapTok_mem (x1) (x2 : Block) : (doTapTok x1 x2).mem.bytes = x2.mem.bytes := by
  unfold doTapTok; simp

@[simp] theorem setMaskBytes_mem (x1) (x2) (x3) (x4 : Block) : (setMaskBytes x1 x2 x3 x4).mem.bytes = x4.mem.bytes := by
  unfold setMaskBytes
  extract_lets y0 y1 y2
  have h3 : y1.mem.bytes = x4.mem.bytes := by
    unfold y1
    refine (setMask_mem ..).trans ?_
    rfl
  clear_value y1
  refine ite_mem ?_ ?_
  · exact h3
  · dsimp -zeta only
    exact h3

@[simp] theorem dbgRead_mem (x1) (x2 : Block) : (dbgRead x1 x2).mem.bytes = x2.mem.bytes := by
  unfold dbgRead
  refine ite_mem ?_ ?_
  · refine (tapShift_mem ..).trans ?_
    rfl
  · split
    · rename_i y0 y1
      refine (tapShift_mem ..).trans ?_
      rfl
    · rename_i y2 y3 y4
      split
      rename_i y5 y6 y7 y8
      have h9 : y7.mem.bytes = x2.mem.bytes := by
        refine (congrArg (fun p => p.2.mem.bytes) y8).symm.trans ?_
        refine ite_mem_2 ?_ ?_
        · refine (fresh_mem ..).trans ?_
          rfl
        · dsimp -zeta only
      refine (tapShift_mem ..).trans ?_
      exact h9

@[simp] theorem doDbgRead_mem (x1) (x2 : Block) : (doDbgRead x1 x2).mem.bytes = x2.mem.bytes := by
  unfold doDbgRead; split <;> simp [*]

@[simp] theorem debugServe_mem (x1) (x2 : Block) : (debugServe x1 x2).2.2.mem.bytes = x2.mem.bytes := by
  unfold debugServe
  split
  · rename_i y0 y1 y2 y3 y4 y5
    refine ite_mem_2_2 ?_ ?_
    · split
      rename_i y6 y7 y8 y9
      dsimp -zeta only
    · dsimp -zeta only
  · rename_i y10 y11 y12 y13 y14 y15
    split
    · rename_i y16 y17 y18
      dsimp -zeta only
    · rename_i y19 y20
      split
      rename_i y21 y22 y23 y24
      have h25 : y23.mem.bytes = x2.mem.bytes := by
        refine (congrArg (fun p => p.2.mem.bytes) y24).symm.trans ?_
        refine (objWrite_mem ..).trans ?_
        rfl
      dsimp -zeta only
      exact h25
  · rename_i y26 y27
    dsimp -zeta only
  · rename_i y28 y29 y30 y31
    dsimp -zeta only

@[simp] theorem dbgObj_mem (x1) (x2 : Block) : (dbgObj x1 x2).mem.bytes = x2.mem.bytes := by
  unfold dbgObj
  extract_lets y0 y1 y2 y3
  split
  rename_i y4 y5 y6 y7 y8
  have h9 : y7.mem.bytes = x2.mem.bytes := by
    refine (congrArg (fun p => p.2.2.mem.bytes) y8).symm.trans ?_
    refine ite_mem_2_2 ?_ ?_
    · dsimp -zeta only
    · refine ite_mem_2_2 ?_ ?_
      · dsimp -zeta only
      · refine ite_mem_2_2 ?_ ?_
        · dsimp -zeta only
        · split
          · rename_i y10 y11 y12
            dsimp -zeta only
          · rename_i y13 y14 y15
            refine (debugServe_mem ..).trans ?_
            rfl
  refine (tapShift_mem ..).trans ?_
  exact h9

@[simp] theorem doDbgobj_mem (x1) (x2 : Block) : (doDbgobj x1 x2).mem.bytes = x2.mem.bytes := by
  unfold doDbgobj; simp

@[simp] theorem doBypass_mem (x1) (x2 : Block) : (doBypass x1 x2).mem.bytes = x2.mem.bytes := by
  unfold doBypass; simp

@[simp] theorem setTileElem_mem (x1) (x2) (x3) (x4) (x5 : Block) : (setTileElem x1 x2 x3 x4 x5).mem.bytes = x5.mem.bytes := by
  unfold setTileElem; simp

@[simp] theorem setToken_mem (x1) (x2) (x3) (x4 : Block) : (setToken x1 x2 x3 x4).mem.bytes = x4.mem.bytes := by
  unfold setToken
  dsimp -zeta only

@[simp] theorem setFlagBytes_mem (x1) (x2) (x3) (x4 : Block) : (setFlagBytes x1 x2 x3 x4).mem.bytes = x4.mem.bytes := by
  unfold setFlagBytes; simp

@[simp] theorem dbgPut_mem (x1) (x2) (x3 : Block) : (dbgPut x1 x2 x3).mem.bytes = x3.mem.bytes := by
  unfold dbgPut; split <;> simp [*]

@[simp] theorem dbgWrite_mem (x1) (x2) (x3 : Block) : (dbgWrite x1 x2 x3).mem.bytes = x3.mem.bytes := by
  unfold dbgWrite
  extract_lets y0
  have h1 : y0.mem.bytes = x3.mem.bytes := by
    unfold y0
    refine (tapShift_mem ..).trans ?_
    rfl
  clear_value y0
  refine ite_mem ?_ ?_
  · exact h1
  · split
    · rename_i y2 y3
      exact h1
    · rename_i y4 y5 y6
      refine (dbgPut_mem ..).trans ?_
      exact h1

@[simp] theorem boundary_mem (x1) (x2) (x3 : Block) : (boundary x1 x2 x3).mem.bytes = x3.mem.bytes := by
  unfold boundary; simp

@[simp] theorem doDbgWrite_mem (x1) (x2) (x3 : Block) : (doDbgWrite x1 x2 x3).mem.bytes = x3.mem.bytes := by
  unfold doDbgWrite; simp

@[simp] theorem haltProc_mem (x1) (x2 : Block) : (haltProc x1 x2).mem.bytes = x2.mem.bytes := by
  unfold haltProc; split <;> simp [*]

@[simp] theorem doSample_mem (x1) (x2 : Block) : (doSample x1 x2).mem.bytes = x2.mem.bytes := by
  unfold doSample; simp

@[simp] theorem doIdcode_mem (x1 : Block) : (doIdcode x1).mem.bytes = x1.mem.bytes := by
  unfold doIdcode; simp

@[simp] theorem stepProc_mem (x1) (x2 : Block) : (stepProc x1 x2).mem.bytes = x2.mem.bytes := by
  unfold stepProc; simp

@[simp] theorem resumeProc_wf {x1} {x2 : Block} (h : mapWf 0 x2.mem.bytes = true) : mapWf 0 (resumeProc x1 x2).mem.bytes = true := by
  unfold resumeProc
  extract_lets y0 y1 y2
  have h3 : mapWf 0 y0.mem.bytes = true := by
    unfold y0
    refine wf_eq (tapShift_mem ..) ?_
    exact h
  clear_value y0
  have h4 : mapWf 0 y2.mem.bytes = true := by
    unfold y2
    refine goesOnFor_wf ?_
    refine wf_eq (setProc_mem ..) ?_
    exact h3
  clear_value y2
  refine ite_wf ?_ ?_
  · refine ite_wf ?_ ?_
    · refine boundGo_wf ?_
      exact h4
    · exact h4
  · exact h3

@[simp] theorem doExtest_mem (x1) (x2 : Block) : (doExtest x1 x2).mem.bytes = x2.mem.bytes := by
  unfold doExtest; simp

@[simp] theorem idle_wf {x1 : Block} (h : mapWf 0 x1.mem.bytes = true) : mapWf 0 (idle x1).mem.bytes = true := by
  unfold idle
  refine wipeEnd_wf ?_
  refine wf_eq (serveQueue_mem ..) ?_
  refine wf_eq (firstBuild_mem ..) ?_
  refine wf_eq (jobGo_mem ..) ?_
  refine autoCycle_wf ?_
  exact h

end Sys2Proof.Machine
end

