-- ==== Sys2Proof/Laws/Ops.lean ====
section
/-! SUPPORT. What the shared forms of a command can do, said once: an effect on the block, a command that names
a unit, a slot on its way to its gallery, a request to the mailbox. -/

namespace Sys2Proof.Machine

/-! ## Effects -/

theorem effect_eq (f : Block → Block) (s : State) : effect f s = .next { s with toBlock := f s.toBlock } := rfl

theorem effect_next {f : Block → Block} {s t : State} :
    effect f s = .next t ↔ t.toBlock = f s.toBlock ∧ t.pending = s.pending := by
  rw [effect_eq]
  constructor
  · intro h; cases h; exact ⟨rfl, rfl⟩
  · rintro ⟨h1, h2⟩
    cases t; cases h1; cases h2; rfl

theorem effect_not_fault (f : Block → Block) (s : State) (e : Fault) : effect f s ≠ .fault e := by
  rw [effect_eq]; exact fun h => nomatch h

theorem effect_not_refused (f : Block → Block) (s : State) (e : Refusal) : effect f s ≠ .refused e := by
  rw [effect_eq]; exact fun h => nomatch h

/-! ## Commands that name a unit -/

theorem onLink_there {l : Nat} (h : l < 18) (f : Block → Block) (s : State) :
    onLink l f s = effect (fun s => if halls s then f s else s) s := by
  unfold onLink; exact if_neg (by omega)

theorem onLink_none {l : Nat} (h : 18 ≤ l) (f : Block → Block) (s : State) : onLink l f s = .fault .noSuchUnit := by
  unfold onLink; exact if_pos h

theorem onLane_there {l lane : Nat} (h : l < 18) (h' : lane < 25) (f : Block → Block) (s : State) :
    onLane l lane f s = effect (fun s => if halls s then f s else s) s := by
  unfold onLane; exact if_neg (by omega)

theorem onLane_none {l lane : Nat} (h : 18 ≤ l ∨ 25 ≤ lane) (f : Block → Block) (s : State) :
    onLane l lane f s = .fault .noSuchUnit := by
  unfold onLane; exact if_pos h

theorem onAlcove_there {g a : Nat} (h : g < 50) (h' : a < 8) (f : Block → Block) (s : State) :
    onAlcove g a f s = effect f s := by
  unfold onAlcove; exact if_neg (by omega)

theorem onAlcove_none {g a : Nat} (h : 50 ≤ g ∨ 8 ≤ a) (f : Block → Block) (s : State) :
    onAlcove g a f s = .fault .noSuchUnit := by
  unfold onAlcove; exact if_pos h

theorem onGallery_there {g : Nat} (h : g < 50) (f : Block → Block) (s : State) : onGallery g f s = effect f s := by
  unfold onGallery; exact if_neg (by omega)

theorem onGallery_none {g : Nat} (h : 50 ≤ g) (f : Block → Block) (s : State) : onGallery g f s = .fault .noSuchUnit := by
  unfold onGallery; exact if_pos h

theorem onProc_there {n : Nat} (h : n < 53) (f : Block → Block) (s : State) : onProc n f s = effect f s := by
  unfold onProc; exact if_neg (by omega)

theorem onProc_none {n : Nat} (h : 53 ≤ n) (f : Block → Block) (s : State) : onProc n f s = .fault .noSuchUnit := by
  unfold onProc; exact if_pos h

/-- A port whose link is active or in L1 serves the command; L1 is left first. -/
theorem onPort_there {p : Nat} (h : p < 2) (f : Block → Block) (s : State) :
    onPort p f s = effect (fun s => if alive s && decide (2 ≤ (port s p).link) then f (vestibuleFlit p (modPort p portWake s)) else s) s := by
  unfold onPort; exact if_neg (by omega)

theorem onPort_none {p : Nat} (h : 2 ≤ p) (f : Block → Block) (s : State) : onPort p f s = .fault .noSuchUnit := by
  unfold onPort; exact if_pos h

/-! ## Slots -/

/-- A frozen module holds the slot. -/
theorem withHeld_frozen {h : HeldSlot} {x : SlotCtx} {f : Nat → Block → Block} {s : Block} {z : Freeze} (hz : s.freeze = some z) :
    withHeld h x f s = holdSlot h z s := by
  unfold withHeld; rw [hz]

/-- A gallery that is not bound discards the slot with a program fault. -/
theorem withHeld_unbound {h : HeldSlot} {x : SlotCtx} {f : Nat → Block → Block} {s : Block} (hz : s.freeze = none)
    (hg : physOf s x.gal = none) : withHeld h x f s = logFault .program 255 x.bundle 0x194 x.tag s := by
  unfold withHeld; simp only [hz, hg]

/-- A running gallery takes the slot. -/
theorem withHeld_runs {h : HeldSlot} {x : SlotCtx} {f : Nat → Block → Block} {s : Block} {g : Nat} (hz : s.freeze = none)
    (hg : physOf s x.gal = some g) (hr : (gclk s g).running = true) : withHeld h x f s = f g s := by
  unfold withHeld; simp only [hz, hg, hr, if_true]

/-- A gallery whose clock is stopped raises a wake hold, which keeps the slot. -/
theorem withHeld_stopped {h : HeldSlot} {x : SlotCtx} {f : Nat → Block → Block} {s : Block} {g : Nat} (hz : s.freeze = none)
    (hg : physOf s x.gal = some g) (hr : (gclk s g).running = false) : withHeld h x f s = wakeFreeze false [h] [g] s := by
  unfold withHeld; simp only [hz, hg, hr, Bool.false_eq_true, if_false]

/-- The same of an instruction's slot. -/
theorem withSlot_runs {i : Instr} {x : SlotCtx} {f : Nat → Block → Block} {s : Block} {g : Nat} (hz : s.freeze = none)
    (hg : physOf s x.gal = some g) (hr : (gclk s g).running = true) : withSlot i x f s = f g s := withHeld_runs hz hg hr

/-! ## Logs keep everything but the log and the step status -/

theorem stepBit_eq (n : Nat) (s : Block) : stepBit n s = { s with bnd := (stepBit n s).bnd } := rfl

theorem logFault_eq (k : LogKind) (g p d t : Nat) (s : Block) :
    logFault k g p d t s = { s with logs := (logFault k g p d t s).logs, bnd := (logFault k g p d t s).bnd } := by
  unfold logFault
  dsimp only
  repeat' split
  all_goals rfl

theorem logFault_log (k : LogKind) (g p d t : Nat) (s : Block) :
    (logFault k g p d t s).logs = { s.logs with log := s.logs.log ++ [{ kind := k, gal := g, place := p, detail := d, tag := t }] } := by
  unfold logFault
  dsimp only
  repeat' split
  all_goals rfl

theorem slotFault_eq (k : LogKind) (g : Nat) (x : SlotCtx) (d : Nat) (s : Block) :
    slotFault k g x d s = { s with logs := (slotFault k g x d s).logs, bnd := (slotFault k g x d s).bnd } :=
  logFault_eq ..

theorem slotFaultIf_eq (b : Bool) (k : LogKind) (g : Nat) (x : SlotCtx) (d : Nat) (s : Block) :
    slotFaultIf b k g x d s = { s with logs := (slotFaultIf b k g x d s).logs, bnd := (slotFaultIf b k g x d s).bnd } := by
  unfold slotFaultIf
  cases b
  · rfl
  · exact slotFault_eq ..

/-! ## Running to an event -/

/-- When the condition first holds after `n` cycles, no more than the limit, the run ends there. -/
theorem runGoal_at (cy : Block → Block) (p : Block → Bool) (n m : Nat) (s : Block) (h : n ≤ m)
    (hp : p (iter cy n s) = true) (hn : ∀ k, k < n → p (iter cy k s) = false) :
    runGoal cy p m s = some (iter cy n s) := by
  induction n generalizing m s with
  | zero =>
    have h0 : p s = true := hp
    cases m with
    | zero => simp [runGoal, h0, iter]
    | succ m => simp [runGoal, h0, iter]
  | succ n ih =>
    cases m with
    | zero => exact absurd h (by omega)
    | succ m =>
      have h0 : p s = false := hn 0 (by omega)
      unfold runGoal
      rw [h0]
      exact ih m (cy s) (by omega) hp (fun k hk => hn (k + 1) (by omega))

end Sys2Proof.Machine
end

