-- ==== Sys2Proof/Laws/State.lean ====
section
/-! SUPPORT. Small laws of the tables and of the named updates of the state: what a table reads after
`mapSet`, and which fields each named update keeps. -/

namespace Sys2Proof.Machine

/-! ## Tables -/

@[simp] theorem mapGet_mapSet_same {α : Type _} [DecidableEq α] (d : α) (m : SMap α) (k : Nat) (v : α) :
    mapGet d (mapSet d m k v) k = v := by
  induction m generalizing v with
  | nil => unfold mapSet; split <;> simp_all [mapGet]
  | cons a r ih =>
    obtain ⟨k', v'⟩ := a
    unfold mapSet
    split
    · split
      · rename_i h; subst h; exact ih _
      · simp [mapGet]
    · split
      · simp [mapGet]
      · rename_i h _; simp [mapGet, h, ih]

/-- Reading with another default than the one the table was written with. -/
theorem mapGet_other {α : Type _} [DecidableEq α] (d d' : α) (m : SMap α) (k j : Nat) (v : α) (h : j ≠ k) :
    mapGet d' (mapSet d m k v) j = mapGet d' m j := by
  induction m generalizing v with
  | nil => unfold mapSet; split <;> simp_all [mapGet]; intro h'; exact absurd h'.symm h
  | cons a r ih =>
    obtain ⟨k', v'⟩ := a
    have hkj : k ≠ j := fun h' => h h'.symm
    unfold mapSet
    split
    · rename_i e; subst e
      split <;> simp [mapGet, hkj, ih]
    · split
      · simp [mapGet, hkj]
      · by_cases e : k' = j <;> simp [mapGet, e, ih]

theorem mapGet_mapSet_ne {α : Type _} [DecidableEq α] (d : α) (m : SMap α) (k j : Nat) (v : α) (h : j ≠ k) :
    mapGet d (mapSet d m k v) j = mapGet d m j := mapGet_other d d m k j v h

/-! ## Values of the store -/

/-- A number's change is noted for the mirrors; nothing but the store changes. -/
theorem setNum_eq (k v : Nat) (s : Block) : setNum k v s = { s with store := (setNum k v s).store } := by
  unfold setNum noteMirror
  repeat' split
  all_goals rfl

theorem setNum_nums (k v : Nat) (s : Block) :
    (setNum k v s).store.nums = mapSet (numDflt s.arc.slot k) s.store.nums k v := by
  unfold setNum noteMirror
  dsimp only
  repeat' split
  all_goals rfl


@[simp] theorem num_setNum_same (k v : Nat) (s : Block) : num (setNum k v s) k = v := by
  unfold num; rw [setNum_nums, setNum_eq]; exact mapGet_mapSet_same ..

theorem num_setNum_ne (k j v : Nat) (s : Block) (h : j ≠ k) : num (setNum k v s) j = num s j := by
  unfold num; rw [setNum_nums, setNum_eq]
  exact mapGet_other _ _ _ _ _ _ h

@[simp] theorem dom_setDom_same (k : Nat) (v : Bytes) (s : Block) : dom (setDom k v s) k = v := by
  simp [dom, setDom]

theorem dom_setDom_ne (k j : Nat) (v : Bytes) (s : Block) (h : j ≠ k) : dom (setDom k v s) j = dom s j := by
  unfold dom setDom
  exact mapGet_other _ _ _ _ _ _ h

/-! ## Fields that a named update keeps -/

@[simp] theorem setNum_keeps_clk (k v : Nat) (s : Block) : (setNum k v s).clk = s.clk := by rw [setNum_eq]
@[simp] theorem setNum_keeps_freeze (k v : Nat) (s : Block) : (setNum k v s).freeze = s.freeze := by rw [setNum_eq]
@[simp] theorem setNum_keeps_arr (k v : Nat) (s : Block) : (setNum k v s).arr = s.arr := by rw [setNum_eq]
@[simp] theorem setNum_keeps_vec (k v : Nat) (s : Block) : (setNum k v s).vec = s.vec := by rw [setNum_eq]
@[simp] theorem setNum_keeps_lanes (k v : Nat) (s : Block) : (setNum k v s).lanes = s.lanes := by rw [setNum_eq]
@[simp] theorem setNum_keeps_mezz (k v : Nat) (s : Block) : (setNum k v s).mezz = s.mezz := by rw [setNum_eq]
@[simp] theorem setNum_keeps_tok (k v : Nat) (s : Block) : (setNum k v s).tok = s.tok := by rw [setNum_eq]
@[simp] theorem setNum_keeps_gals (k v : Nat) (s : Block) : (setNum k v s).gals = s.gals := by rw [setNum_eq]
@[simp] theorem setNum_keeps_logs (k v : Nat) (s : Block) : (setNum k v s).logs = s.logs := by rw [setNum_eq]
@[simp] theorem setNum_keeps_prog (k v : Nat) (s : Block) : (setNum k v s).prog = s.prog := by rw [setNum_eq]
@[simp] theorem setNum_keeps_queues (k v : Nat) (s : Block) : (setNum k v s).queues = s.queues := by rw [setNum_eq]
@[simp] theorem setNum_keeps_bind (k v : Nat) (s : Block) : (setNum k v s).bind = s.bind := by rw [setNum_eq]
@[simp] theorem setNum_keeps_side (k v : Nat) (s : Block) : (setNum k v s).side = s.side := by rw [setNum_eq]
@[simp] theorem setNum_keeps_sideA (k v : Nat) (s : Block) : (setNum k v s).sideA = s.sideA := by rw [setNum_eq]
@[simp] theorem setNum_keeps_sideB (k v : Nat) (s : Block) : (setNum k v s).sideB = s.sideB := by rw [setNum_eq]
@[simp] theorem setNum_keeps_stoppedTags (k v : Nat) (s : Block) : (setNum k v s).stoppedTags = s.stoppedTags := by rw [setNum_eq]
@[simp] theorem setNum_keeps_bnd (k v : Nat) (s : Block) : (setNum k v s).bnd = s.bnd := by rw [setNum_eq]
@[simp] theorem setNum_keeps_mem (k v : Nat) (s : Block) : (setNum k v s).mem = s.mem := by rw [setNum_eq]
@[simp] theorem setNum_keeps_upd (k v : Nat) (s : Block) : (setNum k v s).upd = s.upd := by rw [setNum_eq]
@[simp] theorem setNum_keeps_arc (k v : Nat) (s : Block) : (setNum k v s).arc = s.arc := by rw [setNum_eq]
@[simp] theorem setNum_keeps_colls (k v : Nat) (s : Block) : (setNum k v s).colls = s.colls := by rw [setNum_eq]
@[simp] theorem setNum_keeps_portA (k v : Nat) (s : Block) : (setNum k v s).portA = s.portA := by rw [setNum_eq]
@[simp] theorem setNum_keeps_portB (k v : Nat) (s : Block) : (setNum k v s).portB = s.portB := by rw [setNum_eq]
@[simp] theorem setNum_keeps_portico (k v : Nat) (s : Block) : (setNum k v s).portico = s.portico := by rw [setNum_eq]
@[simp] theorem setNum_keeps_rel (k v : Nat) (s : Block) : (setNum k v s).rel = s.rel := by rw [setNum_eq]
@[simp] theorem setNum_keeps_recov (k v : Nat) (s : Block) : (setNum k v s).recov = s.recov := by rw [setNum_eq]
@[simp] theorem setNum_keeps_fw (k v : Nat) (s : Block) : (setNum k v s).fw = s.fw := by rw [setNum_eq]
@[simp] theorem setNum_keeps_sec (k v : Nat) (s : Block) : (setNum k v s).sec = s.sec := by rw [setNum_eq]
@[simp] theorem setNum_keeps_pwr (k v : Nat) (s : Block) : (setNum k v s).pwr = s.pwr := by rw [setNum_eq]
@[simp] theorem setNum_keeps_dark (k v : Nat) (s : Block) : (setNum k v s).dark = s.dark := by rw [setNum_eq]
@[simp] theorem setNum_keeps_freeCtr (k v : Nat) (s : Block) : (setNum k v s).freeCtr = s.freeCtr := by rw [setNum_eq]

@[simp] theorem setDom_keeps_clk (k : Nat) (v : Bytes) (s : Block) : (setDom k v s).clk = s.clk := rfl
@[simp] theorem setDom_keeps_freeze (k : Nat) (v : Bytes) (s : Block) : (setDom k v s).freeze = s.freeze := rfl
@[simp] theorem setDom_keeps_arr (k : Nat) (v : Bytes) (s : Block) : (setDom k v s).arr = s.arr := rfl
@[simp] theorem setDom_keeps_vec (k : Nat) (v : Bytes) (s : Block) : (setDom k v s).vec = s.vec := rfl
@[simp] theorem setDom_keeps_lanes (k : Nat) (v : Bytes) (s : Block) : (setDom k v s).lanes = s.lanes := rfl
@[simp] theorem setDom_keeps_mezz (k : Nat) (v : Bytes) (s : Block) : (setDom k v s).mezz = s.mezz := rfl
@[simp] theorem setDom_keeps_tok (k : Nat) (v : Bytes) (s : Block) : (setDom k v s).tok = s.tok := rfl
@[simp] theorem setDom_keeps_gals (k : Nat) (v : Bytes) (s : Block) : (setDom k v s).gals = s.gals := rfl
@[simp] theorem setDom_keeps_logs (k : Nat) (v : Bytes) (s : Block) : (setDom k v s).logs = s.logs := rfl
@[simp] theorem setDom_keeps_prog (k : Nat) (v : Bytes) (s : Block) : (setDom k v s).prog = s.prog := rfl
@[simp] theorem setDom_keeps_queues (k : Nat) (v : Bytes) (s : Block) : (setDom k v s).queues = s.queues := rfl
@[simp] theorem setDom_keeps_bind (k : Nat) (v : Bytes) (s : Block) : (setDom k v s).bind = s.bind := rfl
@[simp] theorem setDom_keeps_side (k : Nat) (v : Bytes) (s : Block) : (setDom k v s).side = s.side := rfl
@[simp] theorem setDom_keeps_sideA (k : Nat) (v : Bytes) (s : Block) : (setDom k v s).sideA = s.sideA := rfl
@[simp] theorem setDom_keeps_sideB (k : Nat) (v : Bytes) (s : Block) : (setDom k v s).sideB = s.sideB := rfl
@[simp] theorem setDom_keeps_stoppedTags (k : Nat) (v : Bytes) (s : Block) : (setDom k v s).stoppedTags = s.stoppedTags := rfl
@[simp] theorem setDom_keeps_bnd (k : Nat) (v : Bytes) (s : Block) : (setDom k v s).bnd = s.bnd := rfl
@[simp] theorem setDom_keeps_mem (k : Nat) (v : Bytes) (s : Block) : (setDom k v s).mem = s.mem := rfl
@[simp] theorem setDom_keeps_upd (k : Nat) (v : Bytes) (s : Block) : (setDom k v s).upd = s.upd := rfl
@[simp] theorem setDom_keeps_arc (k : Nat) (v : Bytes) (s : Block) : (setDom k v s).arc = s.arc := rfl
@[simp] theorem setDom_keeps_colls (k : Nat) (v : Bytes) (s : Block) : (setDom k v s).colls = s.colls := rfl
@[simp] theorem setDom_keeps_portA (k : Nat) (v : Bytes) (s : Block) : (setDom k v s).portA = s.portA := rfl
@[simp] theorem setDom_keeps_portB (k : Nat) (v : Bytes) (s : Block) : (setDom k v s).portB = s.portB := rfl
theorem setDom_portico (k : Nat) (v : Bytes) (s : Block) : (setDom k v s).portico = (touch k (dom s k != v) s).portico := rfl
@[simp] theorem setDom_keeps_rel (k : Nat) (v : Bytes) (s : Block) : (setDom k v s).rel = s.rel := rfl
@[simp] theorem setDom_keeps_recov (k : Nat) (v : Bytes) (s : Block) : (setDom k v s).recov = s.recov := rfl
@[simp] theorem setDom_keeps_fw (k : Nat) (v : Bytes) (s : Block) : (setDom k v s).fw = s.fw := rfl
@[simp] theorem setDom_keeps_sec (k : Nat) (v : Bytes) (s : Block) : (setDom k v s).sec = s.sec := rfl
@[simp] theorem setDom_keeps_pwr (k : Nat) (v : Bytes) (s : Block) : (setDom k v s).pwr = s.pwr := rfl
@[simp] theorem setDom_keeps_dark (k : Nat) (v : Bytes) (s : Block) : (setDom k v s).dark = s.dark := rfl
@[simp] theorem setDom_keeps_freeCtr (k : Nat) (v : Bytes) (s : Block) : (setDom k v s).freeCtr = s.freeCtr := rfl

@[simp] theorem touch_keeps_clk (k : Nat) (c : Bool) (s : Block) : (touch k c s).clk = s.clk := rfl
@[simp] theorem touch_keeps_freeze (k : Nat) (c : Bool) (s : Block) : (touch k c s).freeze = s.freeze := rfl
@[simp] theorem touch_keeps_arr (k : Nat) (c : Bool) (s : Block) : (touch k c s).arr = s.arr := rfl
@[simp] theorem touch_keeps_vec (k : Nat) (c : Bool) (s : Block) : (touch k c s).vec = s.vec := rfl
@[simp] theorem touch_keeps_lanes (k : Nat) (c : Bool) (s : Block) : (touch k c s).lanes = s.lanes := rfl
@[simp] theorem touch_keeps_mezz (k : Nat) (c : Bool) (s : Block) : (touch k c s).mezz = s.mezz := rfl
@[simp] theorem touch_keeps_tok (k : Nat) (c : Bool) (s : Block) : (touch k c s).tok = s.tok := rfl
@[simp] theorem touch_keeps_gals (k : Nat) (c : Bool) (s : Block) : (touch k c s).gals = s.gals := rfl
@[simp] theorem touch_keeps_logs (k : Nat) (c : Bool) (s : Block) : (touch k c s).logs = s.logs := rfl
@[simp] theorem touch_keeps_prog (k : Nat) (c : Bool) (s : Block) : (touch k c s).prog = s.prog := rfl
@[simp] theorem touch_keeps_queues (k : Nat) (c : Bool) (s : Block) : (touch k c s).queues = s.queues := rfl
@[simp] theorem touch_keeps_bind (k : Nat) (c : Bool) (s : Block) : (touch k c s).bind = s.bind := rfl
@[simp] theorem touch_keeps_side (k : Nat) (c : Bool) (s : Block) : (touch k c s).side = s.side := rfl
@[simp] theorem touch_keeps_sideA (k : Nat) (c : Bool) (s : Block) : (touch k c s).sideA = s.sideA := rfl
@[simp] theorem touch_keeps_sideB (k : Nat) (c : Bool) (s : Block) : (touch k c s).sideB = s.sideB := rfl
@[simp] theorem touch_keeps_stoppedTags (k : Nat) (c : Bool) (s : Block) : (touch k c s).stoppedTags = s.stoppedTags := rfl
@[simp] theorem touch_keeps_bnd (k : Nat) (c : Bool) (s : Block) : (touch k c s).bnd = s.bnd := rfl
@[simp] theorem touch_keeps_mem (k : Nat) (c : Bool) (s : Block) : (touch k c s).mem = s.mem := rfl
@[simp] theorem touch_keeps_upd (k : Nat) (c : Bool) (s : Block) : (touch k c s).upd = s.upd := rfl
@[simp] theorem touch_keeps_arc (k : Nat) (c : Bool) (s : Block) : (touch k c s).arc = s.arc := rfl
@[simp] theorem touch_keeps_colls (k : Nat) (c : Bool) (s : Block) : (touch k c s).colls = s.colls := rfl
@[simp] theorem touch_keeps_portA (k : Nat) (c : Bool) (s : Block) : (touch k c s).portA = s.portA := rfl
@[simp] theorem touch_keeps_portB (k : Nat) (c : Bool) (s : Block) : (touch k c s).portB = s.portB := rfl
@[simp] theorem touch_keeps_rel (k : Nat) (c : Bool) (s : Block) : (touch k c s).rel = s.rel := rfl
@[simp] theorem touch_keeps_recov (k : Nat) (c : Bool) (s : Block) : (touch k c s).recov = s.recov := rfl
@[simp] theorem touch_keeps_fw (k : Nat) (c : Bool) (s : Block) : (touch k c s).fw = s.fw := rfl
@[simp] theorem touch_keeps_sec (k : Nat) (c : Bool) (s : Block) : (touch k c s).sec = s.sec := rfl
@[simp] theorem touch_keeps_pwr (k : Nat) (c : Bool) (s : Block) : (touch k c s).pwr = s.pwr := rfl
@[simp] theorem touch_keeps_dark (k : Nat) (c : Bool) (s : Block) : (touch k c s).dark = s.dark := rfl
@[simp] theorem touch_keeps_freeCtr (k : Nat) (c : Bool) (s : Block) : (touch k c s).freeCtr = s.freeCtr := rfl
@[simp] theorem touch_keeps_store (k : Nat) (c : Bool) (s : Block) : (touch k c s).store = s.store := rfl

@[simp] theorem setGclk_keeps_clk (g : Nat) (c : GClk) (s : Block) : (setGclk g c s).clk = s.clk := rfl
@[simp] theorem setGclk_keeps_freeze (g : Nat) (c : GClk) (s : Block) : (setGclk g c s).freeze = s.freeze := rfl
@[simp] theorem setGclk_keeps_arr (g : Nat) (c : GClk) (s : Block) : (setGclk g c s).arr = s.arr := rfl
@[simp] theorem setGclk_keeps_vec (g : Nat) (c : GClk) (s : Block) : (setGclk g c s).vec = s.vec := rfl
@[simp] theorem setGclk_keeps_lanes (g : Nat) (c : GClk) (s : Block) : (setGclk g c s).lanes = s.lanes := rfl
@[simp] theorem setGclk_keeps_mezz (g : Nat) (c : GClk) (s : Block) : (setGclk g c s).mezz = s.mezz := rfl
@[simp] theorem setGclk_keeps_tok (g : Nat) (c : GClk) (s : Block) : (setGclk g c s).tok = s.tok := rfl
@[simp] theorem setGclk_keeps_logs (g : Nat) (c : GClk) (s : Block) : (setGclk g c s).logs = s.logs := rfl
@[simp] theorem setGclk_keeps_prog (g : Nat) (c : GClk) (s : Block) : (setGclk g c s).prog = s.prog := rfl
@[simp] theorem setGclk_keeps_queues (g : Nat) (c : GClk) (s : Block) : (setGclk g c s).queues = s.queues := rfl
@[simp] theorem setGclk_keeps_bind (g : Nat) (c : GClk) (s : Block) : (setGclk g c s).bind = s.bind := rfl
@[simp] theorem setGclk_keeps_side (g : Nat) (c : GClk) (s : Block) : (setGclk g c s).side = s.side := rfl
@[simp] theorem setGclk_keeps_sideA (g : Nat) (c : GClk) (s : Block) : (setGclk g c s).sideA = s.sideA := rfl
@[simp] theorem setGclk_keeps_sideB (g : Nat) (c : GClk) (s : Block) : (setGclk g c s).sideB = s.sideB := rfl
@[simp] theorem setGclk_keeps_stoppedTags (g : Nat) (c : GClk) (s : Block) : (setGclk g c s).stoppedTags = s.stoppedTags := rfl
@[simp] theorem setGclk_keeps_bnd (g : Nat) (c : GClk) (s : Block) : (setGclk g c s).bnd = s.bnd := rfl
@[simp] theorem setGclk_keeps_mem (g : Nat) (c : GClk) (s : Block) : (setGclk g c s).mem = s.mem := rfl
@[simp] theorem setGclk_keeps_upd (g : Nat) (c : GClk) (s : Block) : (setGclk g c s).upd = s.upd := rfl
@[simp] theorem setGclk_keeps_arc (g : Nat) (c : GClk) (s : Block) : (setGclk g c s).arc = s.arc := rfl
@[simp] theorem setGclk_keeps_colls (g : Nat) (c : GClk) (s : Block) : (setGclk g c s).colls = s.colls := rfl
@[simp] theorem setGclk_keeps_portA (g : Nat) (c : GClk) (s : Block) : (setGclk g c s).portA = s.portA := rfl
@[simp] theorem setGclk_keeps_portB (g : Nat) (c : GClk) (s : Block) : (setGclk g c s).portB = s.portB := rfl
@[simp] theorem setGclk_keeps_portico (g : Nat) (c : GClk) (s : Block) : (setGclk g c s).portico = s.portico := rfl
@[simp] theorem setGclk_keeps_store (g : Nat) (c : GClk) (s : Block) : (setGclk g c s).store = s.store := rfl
@[simp] theorem setGclk_keeps_rel (g : Nat) (c : GClk) (s : Block) : (setGclk g c s).rel = s.rel := rfl
@[simp] theorem setGclk_keeps_recov (g : Nat) (c : GClk) (s : Block) : (setGclk g c s).recov = s.recov := rfl
@[simp] theorem setGclk_keeps_fw (g : Nat) (c : GClk) (s : Block) : (setGclk g c s).fw = s.fw := rfl
@[simp] theorem setGclk_keeps_sec (g : Nat) (c : GClk) (s : Block) : (setGclk g c s).sec = s.sec := rfl
@[simp] theorem setGclk_keeps_pwr (g : Nat) (c : GClk) (s : Block) : (setGclk g c s).pwr = s.pwr := rfl
@[simp] theorem setGclk_keeps_dark (g : Nat) (c : GClk) (s : Block) : (setGclk g c s).dark = s.dark := rfl
@[simp] theorem setGclk_keeps_freeCtr (g : Nat) (c : GClk) (s : Block) : (setGclk g c s).freeCtr = s.freeCtr := rfl

@[simp] theorem setKeeper_keeps_clk (g a : Nat) (c : Keeper) (s : Block) : (setKeeper g a c s).clk = s.clk := rfl
@[simp] theorem setKeeper_keeps_freeze (g a : Nat) (c : Keeper) (s : Block) : (setKeeper g a c s).freeze = s.freeze := rfl
@[simp] theorem setKeeper_keeps_arr (g a : Nat) (c : Keeper) (s : Block) : (setKeeper g a c s).arr = s.arr := rfl
@[simp] theorem setKeeper_keeps_vec (g a : Nat) (c : Keeper) (s : Block) : (setKeeper g a c s).vec = s.vec := rfl
@[simp] theorem setKeeper_keeps_lanes (g a : Nat) (c : Keeper) (s : Block) : (setKeeper g a c s).lanes = s.lanes := rfl
@[simp] theorem setKeeper_keeps_mezz (g a : Nat) (c : Keeper) (s : Block) : (setKeeper g a c s).mezz = s.mezz := rfl
@[simp] theorem setKeeper_keeps_tok (g a : Nat) (c : Keeper) (s : Block) : (setKeeper g a c s).tok = s.tok := rfl
@[simp] theorem setKeeper_keeps_logs (g a : Nat) (c : Keeper) (s : Block) : (setKeeper g a c s).logs = s.logs := rfl
@[simp] theorem setKeeper_keeps_prog (g a : Nat) (c : Keeper) (s : Block) : (setKeeper g a c s).prog = s.prog := rfl
@[simp] theorem setKeeper_keeps_queues (g a : Nat) (c : Keeper) (s : Block) : (setKeeper g a c s).queues = s.queues := rfl
@[simp] theorem setKeeper_keeps_bind (g a : Nat) (c : Keeper) (s : Block) : (setKeeper g a c s).bind = s.bind := rfl
@[simp] theorem setKeeper_keeps_side (g a : Nat) (c : Keeper) (s : Block) : (setKeeper g a c s).side = s.side := rfl
@[simp] theorem setKeeper_keeps_sideA (g a : Nat) (c : Keeper) (s : Block) : (setKeeper g a c s).sideA = s.sideA := rfl
@[simp] theorem setKeeper_keeps_sideB (g a : Nat) (c : Keeper) (s : Block) : (setKeeper g a c s).sideB = s.sideB := rfl
@[simp] theorem setKeeper_keeps_stoppedTags (g a : Nat) (c : Keeper) (s : Block) : (setKeeper g a c s).stoppedTags = s.stoppedTags := rfl
@[simp] theorem setKeeper_keeps_bnd (g a : Nat) (c : Keeper) (s : Block) : (setKeeper g a c s).bnd = s.bnd := rfl
@[simp] theorem setKeeper_keeps_mem (g a : Nat) (c : Keeper) (s : Block) : (setKeeper g a c s).mem = s.mem := rfl
@[simp] theorem setKeeper_keeps_upd (g a : Nat) (c : Keeper) (s : Block) : (setKeeper g a c s).upd = s.upd := rfl
@[simp] theorem setKeeper_keeps_arc (g a : Nat) (c : Keeper) (s : Block) : (setKeeper g a c s).arc = s.arc := rfl
@[simp] theorem setKeeper_keeps_colls (g a : Nat) (c : Keeper) (s : Block) : (setKeeper g a c s).colls = s.colls := rfl
@[simp] theorem setKeeper_keeps_portA (g a : Nat) (c : Keeper) (s : Block) : (setKeeper g a c s).portA = s.portA := rfl
@[simp] theorem setKeeper_keeps_portB (g a : Nat) (c : Keeper) (s : Block) : (setKeeper g a c s).portB = s.portB := rfl
@[simp] theorem setKeeper_keeps_portico (g a : Nat) (c : Keeper) (s : Block) : (setKeeper g a c s).portico = s.portico := rfl
@[simp] theorem setKeeper_keeps_store (g a : Nat) (c : Keeper) (s : Block) : (setKeeper g a c s).store = s.store := rfl
@[simp] theorem setKeeper_keeps_rel (g a : Nat) (c : Keeper) (s : Block) : (setKeeper g a c s).rel = s.rel := rfl
@[simp] theorem setKeeper_keeps_recov (g a : Nat) (c : Keeper) (s : Block) : (setKeeper g a c s).recov = s.recov := rfl
@[simp] theorem setKeeper_keeps_fw (g a : Nat) (c : Keeper) (s : Block) : (setKeeper g a c s).fw = s.fw := rfl
@[simp] theorem setKeeper_keeps_sec (g a : Nat) (c : Keeper) (s : Block) : (setKeeper g a c s).sec = s.sec := rfl
@[simp] theorem setKeeper_keeps_pwr (g a : Nat) (c : Keeper) (s : Block) : (setKeeper g a c s).pwr = s.pwr := rfl
@[simp] theorem setKeeper_keeps_dark (g a : Nat) (c : Keeper) (s : Block) : (setKeeper g a c s).dark = s.dark := rfl
@[simp] theorem setKeeper_keeps_freeCtr (g a : Nat) (c : Keeper) (s : Block) : (setKeeper g a c s).freeCtr = s.freeCtr := rfl

@[simp] theorem setLink_keeps_clk (l : Nat) (k : Link) (s : Block) : (setLink l k s).clk = s.clk := rfl
@[simp] theorem setLink_keeps_freeze (l : Nat) (k : Link) (s : Block) : (setLink l k s).freeze = s.freeze := rfl
@[simp] theorem setLink_keeps_arr (l : Nat) (k : Link) (s : Block) : (setLink l k s).arr = s.arr := rfl
@[simp] theorem setLink_keeps_vec (l : Nat) (k : Link) (s : Block) : (setLink l k s).vec = s.vec := rfl
@[simp] theorem setLink_keeps_lanes (l : Nat) (k : Link) (s : Block) : (setLink l k s).lanes = s.lanes := rfl
@[simp] theorem setLink_keeps_mezz (l : Nat) (k : Link) (s : Block) : (setLink l k s).mezz = s.mezz := rfl
@[simp] theorem setLink_keeps_tok (l : Nat) (k : Link) (s : Block) : (setLink l k s).tok = s.tok := rfl
@[simp] theorem setLink_keeps_gals (l : Nat) (k : Link) (s : Block) : (setLink l k s).gals = s.gals := rfl
@[simp] theorem setLink_keeps_logs (l : Nat) (k : Link) (s : Block) : (setLink l k s).logs = s.logs := rfl
@[simp] theorem setLink_keeps_prog (l : Nat) (k : Link) (s : Block) : (setLink l k s).prog = s.prog := rfl
@[simp] theorem setLink_keeps_queues (l : Nat) (k : Link) (s : Block) : (setLink l k s).queues = s.queues := rfl
@[simp] theorem setLink_keeps_bind (l : Nat) (k : Link) (s : Block) : (setLink l k s).bind = s.bind := rfl
@[simp] theorem setLink_keeps_side (l : Nat) (k : Link) (s : Block) : (setLink l k s).side = s.side := rfl
@[simp] theorem setLink_keeps_sideA (l : Nat) (k : Link) (s : Block) : (setLink l k s).sideA = s.sideA := rfl
@[simp] theorem setLink_keeps_sideB (l : Nat) (k : Link) (s : Block) : (setLink l k s).sideB = s.sideB := rfl
@[simp] theorem setLink_keeps_stoppedTags (l : Nat) (k : Link) (s : Block) : (setLink l k s).stoppedTags = s.stoppedTags := rfl
@[simp] theorem setLink_keeps_bnd (l : Nat) (k : Link) (s : Block) : (setLink l k s).bnd = s.bnd := rfl
@[simp] theorem setLink_keeps_mem (l : Nat) (k : Link) (s : Block) : (setLink l k s).mem = s.mem := rfl
@[simp] theorem setLink_keeps_upd (l : Nat) (k : Link) (s : Block) : (setLink l k s).upd = s.upd := rfl
@[simp] theorem setLink_keeps_colls (l : Nat) (k : Link) (s : Block) : (setLink l k s).colls = s.colls := rfl
@[simp] theorem setLink_keeps_portA (l : Nat) (k : Link) (s : Block) : (setLink l k s).portA = s.portA := rfl
@[simp] theorem setLink_keeps_portB (l : Nat) (k : Link) (s : Block) : (setLink l k s).portB = s.portB := rfl
@[simp] theorem setLink_keeps_portico (l : Nat) (k : Link) (s : Block) : (setLink l k s).portico = s.portico := rfl
@[simp] theorem setLink_keeps_store (l : Nat) (k : Link) (s : Block) : (setLink l k s).store = s.store := rfl
@[simp] theorem setLink_keeps_rel (l : Nat) (k : Link) (s : Block) : (setLink l k s).rel = s.rel := rfl
@[simp] theorem setLink_keeps_recov (l : Nat) (k : Link) (s : Block) : (setLink l k s).recov = s.recov := rfl
@[simp] theorem setLink_keeps_fw (l : Nat) (k : Link) (s : Block) : (setLink l k s).fw = s.fw := rfl
@[simp] theorem setLink_keeps_sec (l : Nat) (k : Link) (s : Block) : (setLink l k s).sec = s.sec := rfl
@[simp] theorem setLink_keeps_pwr (l : Nat) (k : Link) (s : Block) : (setLink l k s).pwr = s.pwr := rfl
@[simp] theorem setLink_keeps_dark (l : Nat) (k : Link) (s : Block) : (setLink l k s).dark = s.dark := rfl
@[simp] theorem setLink_keeps_freeCtr (l : Nat) (k : Link) (s : Block) : (setLink l k s).freeCtr = s.freeCtr := rfl

@[simp] theorem setWbuf_keeps_clk (a b : Nat) (w : WBuf) (s : Block) : (setWbuf a b w s).clk = s.clk := rfl
@[simp] theorem setWbuf_keeps_freeze (a b : Nat) (w : WBuf) (s : Block) : (setWbuf a b w s).freeze = s.freeze := rfl
@[simp] theorem setWbuf_keeps_vec (a b : Nat) (w : WBuf) (s : Block) : (setWbuf a b w s).vec = s.vec := rfl
@[simp] theorem setWbuf_keeps_lanes (a b : Nat) (w : WBuf) (s : Block) : (setWbuf a b w s).lanes = s.lanes := rfl
@[simp] theorem setWbuf_keeps_mezz (a b : Nat) (w : WBuf) (s : Block) : (setWbuf a b w s).mezz = s.mezz := rfl
@[simp] theorem setWbuf_keeps_tok (a b : Nat) (w : WBuf) (s : Block) : (setWbuf a b w s).tok = s.tok := rfl
@[simp] theorem setWbuf_keeps_gals (a b : Nat) (w : WBuf) (s : Block) : (setWbuf a b w s).gals = s.gals := rfl
@[simp] theorem setWbuf_keeps_logs (a b : Nat) (w : WBuf) (s : Block) : (setWbuf a b w s).logs = s.logs := rfl
@[simp] theorem setWbuf_keeps_prog (a b : Nat) (w : WBuf) (s : Block) : (setWbuf a b w s).prog = s.prog := rfl
@[simp] theorem setWbuf_keeps_queues (a b : Nat) (w : WBuf) (s : Block) : (setWbuf a b w s).queues = s.queues := rfl
@[simp] theorem setWbuf_keeps_bind (a b : Nat) (w : WBuf) (s : Block) : (setWbuf a b w s).bind = s.bind := rfl
@[simp] theorem setWbuf_keeps_side (a b : Nat) (w : WBuf) (s : Block) : (setWbuf a b w s).side = s.side := rfl
@[simp] theorem setWbuf_keeps_sideA (a b : Nat) (w : WBuf) (s : Block) : (setWbuf a b w s).sideA = s.sideA := rfl
@[simp] theorem setWbuf_keeps_sideB (a b : Nat) (w : WBuf) (s : Block) : (setWbuf a b w s).sideB = s.sideB := rfl
@[simp] theorem setWbuf_keeps_stoppedTags (a b : Nat) (w : WBuf) (s : Block) : (setWbuf a b w s).stoppedTags = s.stoppedTags := rfl
@[simp] theorem setWbuf_keeps_bnd (a b : Nat) (w : WBuf) (s : Block) : (setWbuf a b w s).bnd = s.bnd := rfl
@[simp] theorem setWbuf_keeps_mem (a b : Nat) (w : WBuf) (s : Block) : (setWbuf a b w s).mem = s.mem := rfl
@[simp] theorem setWbuf_keeps_upd (a b : Nat) (w : WBuf) (s : Block) : (setWbuf a b w s).upd = s.upd := rfl
@[simp] theorem setWbuf_keeps_arc (a b : Nat) (w : WBuf) (s : Block) : (setWbuf a b w s).arc = s.arc := rfl
@[simp] theorem setWbuf_keeps_colls (a b : Nat) (w : WBuf) (s : Block) : (setWbuf a b w s).colls = s.colls := rfl
@[simp] theorem setWbuf_keeps_portA (a b : Nat) (w : WBuf) (s : Block) : (setWbuf a b w s).portA = s.portA := rfl
@[simp] theorem setWbuf_keeps_portB (a b : Nat) (w : WBuf) (s : Block) : (setWbuf a b w s).portB = s.portB := rfl
@[simp] theorem setWbuf_keeps_portico (a b : Nat) (w : WBuf) (s : Block) : (setWbuf a b w s).portico = s.portico := rfl
@[simp] theorem setWbuf_keeps_store (a b : Nat) (w : WBuf) (s : Block) : (setWbuf a b w s).store = s.store := rfl
@[simp] theorem setWbuf_keeps_rel (a b : Nat) (w : WBuf) (s : Block) : (setWbuf a b w s).rel = s.rel := rfl
@[simp] theorem setWbuf_keeps_recov (a b : Nat) (w : WBuf) (s : Block) : (setWbuf a b w s).recov = s.recov := rfl
@[simp] theorem setWbuf_keeps_fw (a b : Nat) (w : WBuf) (s : Block) : (setWbuf a b w s).fw = s.fw := rfl
@[simp] theorem setWbuf_keeps_sec (a b : Nat) (w : WBuf) (s : Block) : (setWbuf a b w s).sec = s.sec := rfl
@[simp] theorem setWbuf_keeps_pwr (a b : Nat) (w : WBuf) (s : Block) : (setWbuf a b w s).pwr = s.pwr := rfl
@[simp] theorem setWbuf_keeps_dark (a b : Nat) (w : WBuf) (s : Block) : (setWbuf a b w s).dark = s.dark := rfl
@[simp] theorem setWbuf_keeps_freeCtr (a b : Nat) (w : WBuf) (s : Block) : (setWbuf a b w s).freeCtr = s.freeCtr := rfl

@[simp] theorem setPort_keeps_clk (a : Nat) (j : Option LoadJob) (s : Block) : (setPort a j s).clk = s.clk := rfl
@[simp] theorem setPort_keeps_freeze (a : Nat) (j : Option LoadJob) (s : Block) : (setPort a j s).freeze = s.freeze := rfl
@[simp] theorem setPort_keeps_vec (a : Nat) (j : Option LoadJob) (s : Block) : (setPort a j s).vec = s.vec := rfl
@[simp] theorem setPort_keeps_lanes (a : Nat) (j : Option LoadJob) (s : Block) : (setPort a j s).lanes = s.lanes := rfl
@[simp] theorem setPort_keeps_mezz (a : Nat) (j : Option LoadJob) (s : Block) : (setPort a j s).mezz = s.mezz := rfl
@[simp] theorem setPort_keeps_tok (a : Nat) (j : Option LoadJob) (s : Block) : (setPort a j s).tok = s.tok := rfl
@[simp] theorem setPort_keeps_gals (a : Nat) (j : Option LoadJob) (s : Block) : (setPort a j s).gals = s.gals := rfl
@[simp] theorem setPort_keeps_logs (a : Nat) (j : Option LoadJob) (s : Block) : (setPort a j s).logs = s.logs := rfl
@[simp] theorem setPort_keeps_prog (a : Nat) (j : Option LoadJob) (s : Block) : (setPort a j s).prog = s.prog := rfl
@[simp] theorem setPort_keeps_queues (a : Nat) (j : Option LoadJob) (s : Block) : (setPort a j s).queues = s.queues := rfl
@[simp] theorem setPort_keeps_bind (a : Nat) (j : Option LoadJob) (s : Block) : (setPort a j s).bind = s.bind := rfl
@[simp] theorem setPort_keeps_side (a : Nat) (j : Option LoadJob) (s : Block) : (setPort a j s).side = s.side := rfl
@[simp] theorem setPort_keeps_sideA (a : Nat) (j : Option LoadJob) (s : Block) : (setPort a j s).sideA = s.sideA := rfl
@[simp] theorem setPort_keeps_sideB (a : Nat) (j : Option LoadJob) (s : Block) : (setPort a j s).sideB = s.sideB := rfl
@[simp] theorem setPort_keeps_stoppedTags (a : Nat) (j : Option LoadJob) (s : Block) : (setPort a j s).stoppedTags = s.stoppedTags := rfl
@[simp] theorem setPort_keeps_bnd (a : Nat) (j : Option LoadJob) (s : Block) : (setPort a j s).bnd = s.bnd := rfl
@[simp] theorem setPort_keeps_mem (a : Nat) (j : Option LoadJob) (s : Block) : (setPort a j s).mem = s.mem := rfl
@[simp] theorem setPort_keeps_upd (a : Nat) (j : Option LoadJob) (s : Block) : (setPort a j s).upd = s.upd := rfl
@[simp] theorem setPort_keeps_arc (a : Nat) (j : Option LoadJob) (s : Block) : (setPort a j s).arc = s.arc := rfl
@[simp] theorem setPort_keeps_colls (a : Nat) (j : Option LoadJob) (s : Block) : (setPort a j s).colls = s.colls := rfl
@[simp] theorem setPort_keeps_portA (a : Nat) (j : Option LoadJob) (s : Block) : (setPort a j s).portA = s.portA := rfl
@[simp] theorem setPort_keeps_portB (a : Nat) (j : Option LoadJob) (s : Block) : (setPort a j s).portB = s.portB := rfl
@[simp] theorem setPort_keeps_portico (a : Nat) (j : Option LoadJob) (s : Block) : (setPort a j s).portico = s.portico := rfl
@[simp] theorem setPort_keeps_store (a : Nat) (j : Option LoadJob) (s : Block) : (setPort a j s).store = s.store := rfl
@[simp] theorem setPort_keeps_rel (a : Nat) (j : Option LoadJob) (s : Block) : (setPort a j s).rel = s.rel := rfl
@[simp] theorem setPort_keeps_recov (a : Nat) (j : Option LoadJob) (s : Block) : (setPort a j s).recov = s.recov := rfl
@[simp] theorem setPort_keeps_fw (a : Nat) (j : Option LoadJob) (s : Block) : (setPort a j s).fw = s.fw := rfl
@[simp] theorem setPort_keeps_sec (a : Nat) (j : Option LoadJob) (s : Block) : (setPort a j s).sec = s.sec := rfl
@[simp] theorem setPort_keeps_pwr (a : Nat) (j : Option LoadJob) (s : Block) : (setPort a j s).pwr = s.pwr := rfl
@[simp] theorem setPort_keeps_dark (a : Nat) (j : Option LoadJob) (s : Block) : (setPort a j s).dark = s.dark := rfl
@[simp] theorem setPort_keeps_freeCtr (a : Nat) (j : Option LoadJob) (s : Block) : (setPort a j s).freeCtr = s.freeCtr := rfl

@[simp] theorem setLrow_keeps_clk (a u : Nat) (r : LRow) (s : Block) : (setLrow a u r s).clk = s.clk := rfl
@[simp] theorem setLrow_keeps_freeze (a u : Nat) (r : LRow) (s : Block) : (setLrow a u r s).freeze = s.freeze := rfl
@[simp] theorem setLrow_keeps_vec (a u : Nat) (r : LRow) (s : Block) : (setLrow a u r s).vec = s.vec := rfl
@[simp] theorem setLrow_keeps_lanes (a u : Nat) (r : LRow) (s : Block) : (setLrow a u r s).lanes = s.lanes := rfl
@[simp] theorem setLrow_keeps_mezz (a u : Nat) (r : LRow) (s : Block) : (setLrow a u r s).mezz = s.mezz := rfl
@[simp] theorem setLrow_keeps_tok (a u : Nat) (r : LRow) (s : Block) : (setLrow a u r s).tok = s.tok := rfl
@[simp] theorem setLrow_keeps_gals (a u : Nat) (r : LRow) (s : Block) : (setLrow a u r s).gals = s.gals := rfl
@[simp] theorem setLrow_keeps_logs (a u : Nat) (r : LRow) (s : Block) : (setLrow a u r s).logs = s.logs := rfl
@[simp] theorem setLrow_keeps_prog (a u : Nat) (r : LRow) (s : Block) : (setLrow a u r s).prog = s.prog := rfl
@[simp] theorem setLrow_keeps_queues (a u : Nat) (r : LRow) (s : Block) : (setLrow a u r s).queues = s.queues := rfl
@[simp] theorem setLrow_keeps_bind (a u : Nat) (r : LRow) (s : Block) : (setLrow a u r s).bind = s.bind := rfl
@[simp] theorem setLrow_keeps_side (a u : Nat) (r : LRow) (s : Block) : (setLrow a u r s).side = s.side := rfl
@[simp] theorem setLrow_keeps_sideA (a u : Nat) (r : LRow) (s : Block) : (setLrow a u r s).sideA = s.sideA := rfl
@[simp] theorem setLrow_keeps_sideB (a u : Nat) (r : LRow) (s : Block) : (setLrow a u r s).sideB = s.sideB := rfl
@[simp] theorem setLrow_keeps_stoppedTags (a u : Nat) (r : LRow) (s : Block) : (setLrow a u r s).stoppedTags = s.stoppedTags := rfl
@[simp] theorem setLrow_keeps_bnd (a u : Nat) (r : LRow) (s : Block) : (setLrow a u r s).bnd = s.bnd := rfl
@[simp] theorem setLrow_keeps_mem (a u : Nat) (r : LRow) (s : Block) : (setLrow a u r s).mem = s.mem := rfl
@[simp] theorem setLrow_keeps_upd (a u : Nat) (r : LRow) (s : Block) : (setLrow a u r s).upd = s.upd := rfl
@[simp] theorem setLrow_keeps_arc (a u : Nat) (r : LRow) (s : Block) : (setLrow a u r s).arc = s.arc := rfl
@[simp] theorem setLrow_keeps_colls (a u : Nat) (r : LRow) (s : Block) : (setLrow a u r s).colls = s.colls := rfl
@[simp] theorem setLrow_keeps_portA (a u : Nat) (r : LRow) (s : Block) : (setLrow a u r s).portA = s.portA := rfl
@[simp] theorem setLrow_keeps_portB (a u : Nat) (r : LRow) (s : Block) : (setLrow a u r s).portB = s.portB := rfl
@[simp] theorem setLrow_keeps_portico (a u : Nat) (r : LRow) (s : Block) : (setLrow a u r s).portico = s.portico := rfl
@[simp] theorem setLrow_keeps_store (a u : Nat) (r : LRow) (s : Block) : (setLrow a u r s).store = s.store := rfl
@[simp] theorem setLrow_keeps_rel (a u : Nat) (r : LRow) (s : Block) : (setLrow a u r s).rel = s.rel := rfl
@[simp] theorem setLrow_keeps_recov (a u : Nat) (r : LRow) (s : Block) : (setLrow a u r s).recov = s.recov := rfl
@[simp] theorem setLrow_keeps_fw (a u : Nat) (r : LRow) (s : Block) : (setLrow a u r s).fw = s.fw := rfl
@[simp] theorem setLrow_keeps_sec (a u : Nat) (r : LRow) (s : Block) : (setLrow a u r s).sec = s.sec := rfl
@[simp] theorem setLrow_keeps_pwr (a u : Nat) (r : LRow) (s : Block) : (setLrow a u r s).pwr = s.pwr := rfl
@[simp] theorem setLrow_keeps_dark (a u : Nat) (r : LRow) (s : Block) : (setLrow a u r s).dark = s.dark := rfl
@[simp] theorem setLrow_keeps_freeCtr (a u : Nat) (r : LRow) (s : Block) : (setLrow a u r s).freeCtr = s.freeCtr := rfl

@[simp] theorem setLgroup_keeps_clk (a n : Nat) (g : Option Group) (s : Block) : (setLgroup a n g s).clk = s.clk := rfl
@[simp] theorem setLgroup_keeps_freeze (a n : Nat) (g : Option Group) (s : Block) : (setLgroup a n g s).freeze = s.freeze := rfl
@[simp] theorem setLgroup_keeps_vec (a n : Nat) (g : Option Group) (s : Block) : (setLgroup a n g s).vec = s.vec := rfl
@[simp] theorem setLgroup_keeps_lanes (a n : Nat) (g : Option Group) (s : Block) : (setLgroup a n g s).lanes = s.lanes := rfl
@[simp] theorem setLgroup_keeps_mezz (a n : Nat) (g : Option Group) (s : Block) : (setLgroup a n g s).mezz = s.mezz := rfl
@[simp] theorem setLgroup_keeps_tok (a n : Nat) (g : Option Group) (s : Block) : (setLgroup a n g s).tok = s.tok := rfl
@[simp] theorem setLgroup_keeps_gals (a n : Nat) (g : Option Group) (s : Block) : (setLgroup a n g s).gals = s.gals := rfl
@[simp] theorem setLgroup_keeps_logs (a n : Nat) (g : Option Group) (s : Block) : (setLgroup a n g s).logs = s.logs := rfl
@[simp] theorem setLgroup_keeps_prog (a n : Nat) (g : Option Group) (s : Block) : (setLgroup a n g s).prog = s.prog := rfl
@[simp] theorem setLgroup_keeps_queues (a n : Nat) (g : Option Group) (s : Block) : (setLgroup a n g s).queues = s.queues := rfl
@[simp] theorem setLgroup_keeps_bind (a n : Nat) (g : Option Group) (s : Block) : (setLgroup a n g s).bind = s.bind := rfl
@[simp] theorem setLgroup_keeps_side (a n : Nat) (g : Option Group) (s : Block) : (setLgroup a n g s).side = s.side := rfl
@[simp] theorem setLgroup_keeps_sideA (a n : Nat) (g : Option Group) (s : Block) : (setLgroup a n g s).sideA = s.sideA := rfl
@[simp] theorem setLgroup_keeps_sideB (a n : Nat) (g : Option Group) (s : Block) : (setLgroup a n g s).sideB = s.sideB := rfl
@[simp] theorem setLgroup_keeps_stoppedTags (a n : Nat) (g : Option Group) (s : Block) : (setLgroup a n g s).stoppedTags = s.stoppedTags := rfl
@[simp] theorem setLgroup_keeps_bnd (a n : Nat) (g : Option Group) (s : Block) : (setLgroup a n g s).bnd = s.bnd := rfl
@[simp] theorem setLgroup_keeps_mem (a n : Nat) (g : Option Group) (s : Block) : (setLgroup a n g s).mem = s.mem := rfl
@[simp] theorem setLgroup_keeps_upd (a n : Nat) (g : Option Group) (s : Block) : (setLgroup a n g s).upd = s.upd := rfl
@[simp] theorem setLgroup_keeps_arc (a n : Nat) (g : Option Group) (s : Block) : (setLgroup a n g s).arc = s.arc := rfl
@[simp] theorem setLgroup_keeps_colls (a n : Nat) (g : Option Group) (s : Block) : (setLgroup a n g s).colls = s.colls := rfl
@[simp] theorem setLgroup_keeps_portA (a n : Nat) (g : Option Group) (s : Block) : (setLgroup a n g s).portA = s.portA := rfl
@[simp] theorem setLgroup_keeps_portB (a n : Nat) (g : Option Group) (s : Block) : (setLgroup a n g s).portB = s.portB := rfl
@[simp] theorem setLgroup_keeps_portico (a n : Nat) (g : Option Group) (s : Block) : (setLgroup a n g s).portico = s.portico := rfl
@[simp] theorem setLgroup_keeps_store (a n : Nat) (g : Option Group) (s : Block) : (setLgroup a n g s).store = s.store := rfl
@[simp] theorem setLgroup_keeps_rel (a n : Nat) (g : Option Group) (s : Block) : (setLgroup a n g s).rel = s.rel := rfl
@[simp] theorem setLgroup_keeps_recov (a n : Nat) (g : Option Group) (s : Block) : (setLgroup a n g s).recov = s.recov := rfl
@[simp] theorem setLgroup_keeps_fw (a n : Nat) (g : Option Group) (s : Block) : (setLgroup a n g s).fw = s.fw := rfl
@[simp] theorem setLgroup_keeps_sec (a n : Nat) (g : Option Group) (s : Block) : (setLgroup a n g s).sec = s.sec := rfl
@[simp] theorem setLgroup_keeps_pwr (a n : Nat) (g : Option Group) (s : Block) : (setLgroup a n g s).pwr = s.pwr := rfl
@[simp] theorem setLgroup_keeps_dark (a n : Nat) (g : Option Group) (s : Block) : (setLgroup a n g s).dark = s.dark := rfl
@[simp] theorem setLgroup_keeps_freeCtr (a n : Nat) (g : Option Group) (s : Block) : (setLgroup a n g s).freeCtr = s.freeCtr := rfl

@[simp] theorem setConv_keeps_clk (g a : Nat) (c : Conv) (s : Block) : (setConv g a c s).clk = s.clk := rfl
@[simp] theorem setConv_keeps_freeze (g a : Nat) (c : Conv) (s : Block) : (setConv g a c s).freeze = s.freeze := rfl
@[simp] theorem setConv_keeps_arr (g a : Nat) (c : Conv) (s : Block) : (setConv g a c s).arr = s.arr := rfl
@[simp] theorem setConv_keeps_lanes (g a : Nat) (c : Conv) (s : Block) : (setConv g a c s).lanes = s.lanes := rfl
@[simp] theorem setConv_keeps_mezz (g a : Nat) (c : Conv) (s : Block) : (setConv g a c s).mezz = s.mezz := rfl
@[simp] theorem setConv_keeps_tok (g a : Nat) (c : Conv) (s : Block) : (setConv g a c s).tok = s.tok := rfl
@[simp] theorem setConv_keeps_gals (g a : Nat) (c : Conv) (s : Block) : (setConv g a c s).gals = s.gals := rfl
@[simp] theorem setConv_keeps_logs (g a : Nat) (c : Conv) (s : Block) : (setConv g a c s).logs = s.logs := rfl
@[simp] theorem setConv_keeps_prog (g a : Nat) (c : Conv) (s : Block) : (setConv g a c s).prog = s.prog := rfl
@[simp] theorem setConv_keeps_queues (g a : Nat) (c : Conv) (s : Block) : (setConv g a c s).queues = s.queues := rfl
@[simp] theorem setConv_keeps_bind (g a : Nat) (c : Conv) (s : Block) : (setConv g a c s).bind = s.bind := rfl
@[simp] theorem setConv_keeps_side (g a : Nat) (c : Conv) (s : Block) : (setConv g a c s).side = s.side := rfl
@[simp] theorem setConv_keeps_sideA (g a : Nat) (c : Conv) (s : Block) : (setConv g a c s).sideA = s.sideA := rfl
@[simp] theorem setConv_keeps_sideB (g a : Nat) (c : Conv) (s : Block) : (setConv g a c s).sideB = s.sideB := rfl
@[simp] theorem setConv_keeps_stoppedTags (g a : Nat) (c : Conv) (s : Block) : (setConv g a c s).stoppedTags = s.stoppedTags := rfl
@[simp] theorem setConv_keeps_bnd (g a : Nat) (c : Conv) (s : Block) : (setConv g a c s).bnd = s.bnd := rfl
@[simp] theorem setConv_keeps_mem (g a : Nat) (c : Conv) (s : Block) : (setConv g a c s).mem = s.mem := rfl
@[simp] theorem setConv_keeps_upd (g a : Nat) (c : Conv) (s : Block) : (setConv g a c s).upd = s.upd := rfl
@[simp] theorem setConv_keeps_arc (g a : Nat) (c : Conv) (s : Block) : (setConv g a c s).arc = s.arc := rfl
@[simp] theorem setConv_keeps_colls (g a : Nat) (c : Conv) (s : Block) : (setConv g a c s).colls = s.colls := rfl
@[simp] theorem setConv_keeps_portA (g a : Nat) (c : Conv) (s : Block) : (setConv g a c s).portA = s.portA := rfl
@[simp] theorem setConv_keeps_portB (g a : Nat) (c : Conv) (s : Block) : (setConv g a c s).portB = s.portB := rfl
@[simp] theorem setConv_keeps_portico (g a : Nat) (c : Conv) (s : Block) : (setConv g a c s).portico = s.portico := rfl
@[simp] theorem setConv_keeps_store (g a : Nat) (c : Conv) (s : Block) : (setConv g a c s).store = s.store := rfl
@[simp] theorem setConv_keeps_rel (g a : Nat) (c : Conv) (s : Block) : (setConv g a c s).rel = s.rel := rfl
@[simp] theorem setConv_keeps_recov (g a : Nat) (c : Conv) (s : Block) : (setConv g a c s).recov = s.recov := rfl
@[simp] theorem setConv_keeps_fw (g a : Nat) (c : Conv) (s : Block) : (setConv g a c s).fw = s.fw := rfl
@[simp] theorem setConv_keeps_sec (g a : Nat) (c : Conv) (s : Block) : (setConv g a c s).sec = s.sec := rfl
@[simp] theorem setConv_keeps_pwr (g a : Nat) (c : Conv) (s : Block) : (setConv g a c s).pwr = s.pwr := rfl
@[simp] theorem setConv_keeps_dark (g a : Nat) (c : Conv) (s : Block) : (setConv g a c s).dark = s.dark := rfl
@[simp] theorem setConv_keeps_freeCtr (g a : Nat) (c : Conv) (s : Block) : (setConv g a c s).freeCtr = s.freeCtr := rfl

@[simp] theorem setTreg_keeps_clk (g r : Nat) (v : List TElem) (s : Block) : (setTreg g r v s).clk = s.clk := rfl
@[simp] theorem setTreg_keeps_freeze (g r : Nat) (v : List TElem) (s : Block) : (setTreg g r v s).freeze = s.freeze := rfl
@[simp] theorem setTreg_keeps_arr (g r : Nat) (v : List TElem) (s : Block) : (setTreg g r v s).arr = s.arr := rfl
@[simp] theorem setTreg_keeps_lanes (g r : Nat) (v : List TElem) (s : Block) : (setTreg g r v s).lanes = s.lanes := rfl
@[simp] theorem setTreg_keeps_mezz (g r : Nat) (v : List TElem) (s : Block) : (setTreg g r v s).mezz = s.mezz := rfl
@[simp] theorem setTreg_keeps_tok (g r : Nat) (v : List TElem) (s : Block) : (setTreg g r v s).tok = s.tok := rfl
@[simp] theorem setTreg_keeps_gals (g r : Nat) (v : List TElem) (s : Block) : (setTreg g r v s).gals = s.gals := rfl
@[simp] theorem setTreg_keeps_logs (g r : Nat) (v : List TElem) (s : Block) : (setTreg g r v s).logs = s.logs := rfl
@[simp] theorem setTreg_keeps_prog (g r : Nat) (v : List TElem) (s : Block) : (setTreg g r v s).prog = s.prog := rfl
@[simp] theorem setTreg_keeps_queues (g r : Nat) (v : List TElem) (s : Block) : (setTreg g r v s).queues = s.queues := rfl
@[simp] theorem setTreg_keeps_bind (g r : Nat) (v : List TElem) (s : Block) : (setTreg g r v s).bind = s.bind := rfl
@[simp] theorem setTreg_keeps_side (g r : Nat) (v : List TElem) (s : Block) : (setTreg g r v s).side = s.side := rfl
@[simp] theorem setTreg_keeps_sideA (g r : Nat) (v : List TElem) (s : Block) : (setTreg g r v s).sideA = s.sideA := rfl
@[simp] theorem setTreg_keeps_sideB (g r : Nat) (v : List TElem) (s : Block) : (setTreg g r v s).sideB = s.sideB := rfl
@[simp] theorem setTreg_keeps_stoppedTags (g r : Nat) (v : List TElem) (s : Block) : (setTreg g r v s).stoppedTags = s.stoppedTags := rfl
@[simp] theorem setTreg_keeps_bnd (g r : Nat) (v : List TElem) (s : Block) : (setTreg g r v s).bnd = s.bnd := rfl
@[simp] theorem setTreg_keeps_mem (g r : Nat) (v : List TElem) (s : Block) : (setTreg g r v s).mem = s.mem := rfl
@[simp] theorem setTreg_keeps_upd (g r : Nat) (v : List TElem) (s : Block) : (setTreg g r v s).upd = s.upd := rfl
@[simp] theorem setTreg_keeps_arc (g r : Nat) (v : List TElem) (s : Block) : (setTreg g r v s).arc = s.arc := rfl
@[simp] theorem setTreg_keeps_colls (g r : Nat) (v : List TElem) (s : Block) : (setTreg g r v s).colls = s.colls := rfl
@[simp] theorem setTreg_keeps_portA (g r : Nat) (v : List TElem) (s : Block) : (setTreg g r v s).portA = s.portA := rfl
@[simp] theorem setTreg_keeps_portB (g r : Nat) (v : List TElem) (s : Block) : (setTreg g r v s).portB = s.portB := rfl
@[simp] theorem setTreg_keeps_portico (g r : Nat) (v : List TElem) (s : Block) : (setTreg g r v s).portico = s.portico := rfl
@[simp] theorem setTreg_keeps_store (g r : Nat) (v : List TElem) (s : Block) : (setTreg g r v s).store = s.store := rfl
@[simp] theorem setTreg_keeps_rel (g r : Nat) (v : List TElem) (s : Block) : (setTreg g r v s).rel = s.rel := rfl
@[simp] theorem setTreg_keeps_recov (g r : Nat) (v : List TElem) (s : Block) : (setTreg g r v s).recov = s.recov := rfl
@[simp] theorem setTreg_keeps_fw (g r : Nat) (v : List TElem) (s : Block) : (setTreg g r v s).fw = s.fw := rfl
@[simp] theorem setTreg_keeps_sec (g r : Nat) (v : List TElem) (s : Block) : (setTreg g r v s).sec = s.sec := rfl
@[simp] theorem setTreg_keeps_pwr (g r : Nat) (v : List TElem) (s : Block) : (setTreg g r v s).pwr = s.pwr := rfl
@[simp] theorem setTreg_keeps_dark (g r : Nat) (v : List TElem) (s : Block) : (setTreg g r v s).dark = s.dark := rfl
@[simp] theorem setTreg_keeps_freeCtr (g r : Nat) (v : List TElem) (s : Block) : (setTreg g r v s).freeCtr = s.freeCtr := rfl

@[simp] theorem setProc_keeps_clk (n : Nat) (p : Proc) (s : Block) : (setProc n p s).clk = s.clk := rfl
@[simp] theorem setProc_keeps_freeze (n : Nat) (p : Proc) (s : Block) : (setProc n p s).freeze = s.freeze := rfl
@[simp] theorem setProc_keeps_arr (n : Nat) (p : Proc) (s : Block) : (setProc n p s).arr = s.arr := rfl
@[simp] theorem setProc_keeps_vec (n : Nat) (p : Proc) (s : Block) : (setProc n p s).vec = s.vec := rfl
@[simp] theorem setProc_keeps_lanes (n : Nat) (p : Proc) (s : Block) : (setProc n p s).lanes = s.lanes := rfl
@[simp] theorem setProc_keeps_mezz (n : Nat) (p : Proc) (s : Block) : (setProc n p s).mezz = s.mezz := rfl
@[simp] theorem setProc_keeps_tok (n : Nat) (p : Proc) (s : Block) : (setProc n p s).tok = s.tok := rfl
@[simp] theorem setProc_keeps_gals (n : Nat) (p : Proc) (s : Block) : (setProc n p s).gals = s.gals := rfl
@[simp] theorem setProc_keeps_logs (n : Nat) (p : Proc) (s : Block) : (setProc n p s).logs = s.logs := rfl
@[simp] theorem setProc_keeps_prog (n : Nat) (p : Proc) (s : Block) : (setProc n p s).prog = s.prog := rfl
@[simp] theorem setProc_keeps_queues (n : Nat) (p : Proc) (s : Block) : (setProc n p s).queues = s.queues := rfl
@[simp] theorem setProc_keeps_bind (n : Nat) (p : Proc) (s : Block) : (setProc n p s).bind = s.bind := rfl
@[simp] theorem setProc_keeps_side (n : Nat) (p : Proc) (s : Block) : (setProc n p s).side = s.side := rfl
@[simp] theorem setProc_keeps_sideA (n : Nat) (p : Proc) (s : Block) : (setProc n p s).sideA = s.sideA := rfl
@[simp] theorem setProc_keeps_sideB (n : Nat) (p : Proc) (s : Block) : (setProc n p s).sideB = s.sideB := rfl
@[simp] theorem setProc_keeps_stoppedTags (n : Nat) (p : Proc) (s : Block) : (setProc n p s).stoppedTags = s.stoppedTags := rfl
@[simp] theorem setProc_keeps_bnd (n : Nat) (p : Proc) (s : Block) : (setProc n p s).bnd = s.bnd := rfl
@[simp] theorem setProc_keeps_mem (n : Nat) (p : Proc) (s : Block) : (setProc n p s).mem = s.mem := rfl
@[simp] theorem setProc_keeps_upd (n : Nat) (p : Proc) (s : Block) : (setProc n p s).upd = s.upd := rfl
@[simp] theorem setProc_keeps_arc (n : Nat) (p : Proc) (s : Block) : (setProc n p s).arc = s.arc := rfl
@[simp] theorem setProc_keeps_colls (n : Nat) (p : Proc) (s : Block) : (setProc n p s).colls = s.colls := rfl
@[simp] theorem setProc_keeps_portA (n : Nat) (p : Proc) (s : Block) : (setProc n p s).portA = s.portA := rfl
@[simp] theorem setProc_keeps_portB (n : Nat) (p : Proc) (s : Block) : (setProc n p s).portB = s.portB := rfl
@[simp] theorem setProc_keeps_portico (n : Nat) (p : Proc) (s : Block) : (setProc n p s).portico = s.portico := rfl
@[simp] theorem setProc_keeps_store (n : Nat) (p : Proc) (s : Block) : (setProc n p s).store = s.store := rfl
@[simp] theorem setProc_keeps_rel (n : Nat) (p : Proc) (s : Block) : (setProc n p s).rel = s.rel := rfl
@[simp] theorem setProc_keeps_recov (n : Nat) (p : Proc) (s : Block) : (setProc n p s).recov = s.recov := rfl
@[simp] theorem setProc_keeps_sec (n : Nat) (p : Proc) (s : Block) : (setProc n p s).sec = s.sec := rfl
@[simp] theorem setProc_keeps_pwr (n : Nat) (p : Proc) (s : Block) : (setProc n p s).pwr = s.pwr := rfl
@[simp] theorem setProc_keeps_dark (n : Nat) (p : Proc) (s : Block) : (setProc n p s).dark = s.dark := rfl
@[simp] theorem setProc_keeps_freeCtr (n : Nat) (p : Proc) (s : Block) : (setProc n p s).freeCtr = s.freeCtr := rfl

@[simp] theorem modColl_keeps_clk (d : Nat) (f : Coll → Coll) (s : Block) : (modColl d f s).clk = s.clk := rfl
@[simp] theorem modColl_keeps_freeze (d : Nat) (f : Coll → Coll) (s : Block) : (modColl d f s).freeze = s.freeze := rfl
@[simp] theorem modColl_keeps_arr (d : Nat) (f : Coll → Coll) (s : Block) : (modColl d f s).arr = s.arr := rfl
@[simp] theorem modColl_keeps_vec (d : Nat) (f : Coll → Coll) (s : Block) : (modColl d f s).vec = s.vec := rfl
@[simp] theorem modColl_keeps_lanes (d : Nat) (f : Coll → Coll) (s : Block) : (modColl d f s).lanes = s.lanes := rfl
@[simp] theorem modColl_keeps_mezz (d : Nat) (f : Coll → Coll) (s : Block) : (modColl d f s).mezz = s.mezz := rfl
@[simp] theorem modColl_keeps_tok (d : Nat) (f : Coll → Coll) (s : Block) : (modColl d f s).tok = s.tok := rfl
@[simp] theorem modColl_keeps_gals (d : Nat) (f : Coll → Coll) (s : Block) : (modColl d f s).gals = s.gals := rfl
@[simp] theorem modColl_keeps_logs (d : Nat) (f : Coll → Coll) (s : Block) : (modColl d f s).logs = s.logs := rfl
@[simp] theorem modColl_keeps_prog (d : Nat) (f : Coll → Coll) (s : Block) : (modColl d f s).prog = s.prog := rfl
@[simp] theorem modColl_keeps_queues (d : Nat) (f : Coll → Coll) (s : Block) : (modColl d f s).queues = s.queues := rfl
@[simp] theorem modColl_keeps_bind (d : Nat) (f : Coll → Coll) (s : Block) : (modColl d f s).bind = s.bind := rfl
@[simp] theorem modColl_keeps_side (d : Nat) (f : Coll → Coll) (s : Block) : (modColl d f s).side = s.side := rfl
@[simp] theorem modColl_keeps_sideA (d : Nat) (f : Coll → Coll) (s : Block) : (modColl d f s).sideA = s.sideA := rfl
@[simp] theorem modColl_keeps_sideB (d : Nat) (f : Coll → Coll) (s : Block) : (modColl d f s).sideB = s.sideB := rfl
@[simp] theorem modColl_keeps_stoppedTags (d : Nat) (f : Coll → Coll) (s : Block) : (modColl d f s).stoppedTags = s.stoppedTags := rfl
@[simp] theorem modColl_keeps_bnd (d : Nat) (f : Coll → Coll) (s : Block) : (modColl d f s).bnd = s.bnd := rfl
@[simp] theorem modColl_keeps_mem (d : Nat) (f : Coll → Coll) (s : Block) : (modColl d f s).mem = s.mem := rfl
@[simp] theorem modColl_keeps_upd (d : Nat) (f : Coll → Coll) (s : Block) : (modColl d f s).upd = s.upd := rfl
@[simp] theorem modColl_keeps_arc (d : Nat) (f : Coll → Coll) (s : Block) : (modColl d f s).arc = s.arc := rfl
@[simp] theorem modColl_keeps_portA (d : Nat) (f : Coll → Coll) (s : Block) : (modColl d f s).portA = s.portA := rfl
@[simp] theorem modColl_keeps_portB (d : Nat) (f : Coll → Coll) (s : Block) : (modColl d f s).portB = s.portB := rfl
@[simp] theorem modColl_keeps_portico (d : Nat) (f : Coll → Coll) (s : Block) : (modColl d f s).portico = s.portico := rfl
@[simp] theorem modColl_keeps_store (d : Nat) (f : Coll → Coll) (s : Block) : (modColl d f s).store = s.store := rfl
@[simp] theorem modColl_keeps_rel (d : Nat) (f : Coll → Coll) (s : Block) : (modColl d f s).rel = s.rel := rfl
@[simp] theorem modColl_keeps_recov (d : Nat) (f : Coll → Coll) (s : Block) : (modColl d f s).recov = s.recov := rfl
@[simp] theorem modColl_keeps_fw (d : Nat) (f : Coll → Coll) (s : Block) : (modColl d f s).fw = s.fw := rfl
@[simp] theorem modColl_keeps_sec (d : Nat) (f : Coll → Coll) (s : Block) : (modColl d f s).sec = s.sec := rfl
@[simp] theorem modColl_keeps_pwr (d : Nat) (f : Coll → Coll) (s : Block) : (modColl d f s).pwr = s.pwr := rfl
@[simp] theorem modColl_keeps_dark (d : Nat) (f : Coll → Coll) (s : Block) : (modColl d f s).dark = s.dark := rfl
@[simp] theorem modColl_keeps_freeCtr (d : Nat) (f : Coll → Coll) (s : Block) : (modColl d f s).freeCtr = s.freeCtr := rfl

@[simp] theorem setRecord_keeps_clk (r : CommitRec) (s : Block) : (setRecord r s).clk = s.clk := rfl
@[simp] theorem setRecord_keeps_freeze (r : CommitRec) (s : Block) : (setRecord r s).freeze = s.freeze := rfl
@[simp] theorem setRecord_keeps_arr (r : CommitRec) (s : Block) : (setRecord r s).arr = s.arr := rfl
@[simp] theorem setRecord_keeps_vec (r : CommitRec) (s : Block) : (setRecord r s).vec = s.vec := rfl
@[simp] theorem setRecord_keeps_lanes (r : CommitRec) (s : Block) : (setRecord r s).lanes = s.lanes := rfl
@[simp] theorem setRecord_keeps_mezz (r : CommitRec) (s : Block) : (setRecord r s).mezz = s.mezz := rfl
@[simp] theorem setRecord_keeps_tok (r : CommitRec) (s : Block) : (setRecord r s).tok = s.tok := rfl
@[simp] theorem setRecord_keeps_gals (r : CommitRec) (s : Block) : (setRecord r s).gals = s.gals := rfl
@[simp] theorem setRecord_keeps_logs (r : CommitRec) (s : Block) : (setRecord r s).logs = s.logs := rfl
@[simp] theorem setRecord_keeps_prog (r : CommitRec) (s : Block) : (setRecord r s).prog = s.prog := rfl
@[simp] theorem setRecord_keeps_queues (r : CommitRec) (s : Block) : (setRecord r s).queues = s.queues := rfl
@[simp] theorem setRecord_keeps_bind (r : CommitRec) (s : Block) : (setRecord r s).bind = s.bind := rfl
@[simp] theorem setRecord_keeps_side (r : CommitRec) (s : Block) : (setRecord r s).side = s.side := rfl
@[simp] theorem setRecord_keeps_sideA (r : CommitRec) (s : Block) : (setRecord r s).sideA = s.sideA := rfl
@[simp] theorem setRecord_keeps_sideB (r : CommitRec) (s : Block) : (setRecord r s).sideB = s.sideB := rfl
@[simp] theorem setRecord_keeps_stoppedTags (r : CommitRec) (s : Block) : (setRecord r s).stoppedTags = s.stoppedTags := rfl
@[simp] theorem setRecord_keeps_bnd (r : CommitRec) (s : Block) : (setRecord r s).bnd = s.bnd := rfl
@[simp] theorem setRecord_keeps_mem (r : CommitRec) (s : Block) : (setRecord r s).mem = s.mem := rfl
@[simp] theorem setRecord_keeps_arc (r : CommitRec) (s : Block) : (setRecord r s).arc = s.arc := rfl
@[simp] theorem setRecord_keeps_colls (r : CommitRec) (s : Block) : (setRecord r s).colls = s.colls := rfl
@[simp] theorem setRecord_keeps_portA (r : CommitRec) (s : Block) : (setRecord r s).portA = s.portA := rfl
@[simp] theorem setRecord_keeps_portB (r : CommitRec) (s : Block) : (setRecord r s).portB = s.portB := rfl
@[simp] theorem setRecord_keeps_portico (r : CommitRec) (s : Block) : (setRecord r s).portico = s.portico := rfl
@[simp] theorem setRecord_keeps_store (r : CommitRec) (s : Block) : (setRecord r s).store = s.store := rfl
@[simp] theorem setRecord_keeps_rel (r : CommitRec) (s : Block) : (setRecord r s).rel = s.rel := rfl
@[simp] theorem setRecord_keeps_recov (r : CommitRec) (s : Block) : (setRecord r s).recov = s.recov := rfl
@[simp] theorem setRecord_keeps_fw (r : CommitRec) (s : Block) : (setRecord r s).fw = s.fw := rfl
@[simp] theorem setRecord_keeps_sec (r : CommitRec) (s : Block) : (setRecord r s).sec = s.sec := rfl
@[simp] theorem setRecord_keeps_pwr (r : CommitRec) (s : Block) : (setRecord r s).pwr = s.pwr := rfl
@[simp] theorem setRecord_keeps_dark (r : CommitRec) (s : Block) : (setRecord r s).dark = s.dark := rfl
@[simp] theorem setRecord_keeps_freeCtr (r : CommitRec) (s : Block) : (setRecord r s).freeCtr = s.freeCtr := rfl

@[simp] theorem setPoison_keeps_clk (k : Nat) (b : Bool) (s : Block) : (setPoison k b s).clk = s.clk := rfl
@[simp] theorem setPoison_keeps_freeze (k : Nat) (b : Bool) (s : Block) : (setPoison k b s).freeze = s.freeze := rfl
@[simp] theorem setPoison_keeps_arr (k : Nat) (b : Bool) (s : Block) : (setPoison k b s).arr = s.arr := rfl
@[simp] theorem setPoison_keeps_vec (k : Nat) (b : Bool) (s : Block) : (setPoison k b s).vec = s.vec := rfl
@[simp] theorem setPoison_keeps_lanes (k : Nat) (b : Bool) (s : Block) : (setPoison k b s).lanes = s.lanes := rfl
@[simp] theorem setPoison_keeps_mezz (k : Nat) (b : Bool) (s : Block) : (setPoison k b s).mezz = s.mezz := rfl
@[simp] theorem setPoison_keeps_tok (k : Nat) (b : Bool) (s : Block) : (setPoison k b s).tok = s.tok := rfl
@[simp] theorem setPoison_keeps_gals (k : Nat) (b : Bool) (s : Block) : (setPoison k b s).gals = s.gals := rfl
@[simp] theorem setPoison_keeps_logs (k : Nat) (b : Bool) (s : Block) : (setPoison k b s).logs = s.logs := rfl
@[simp] theorem setPoison_keeps_prog (k : Nat) (b : Bool) (s : Block) : (setPoison k b s).prog = s.prog := rfl
@[simp] theorem setPoison_keeps_queues (k : Nat) (b : Bool) (s : Block) : (setPoison k b s).queues = s.queues := rfl
@[simp] theorem setPoison_keeps_bind (k : Nat) (b : Bool) (s : Block) : (setPoison k b s).bind = s.bind := rfl
@[simp] theorem setPoison_keeps_side (k : Nat) (b : Bool) (s : Block) : (setPoison k b s).side = s.side := rfl
@[simp] theorem setPoison_keeps_sideA (k : Nat) (b : Bool) (s : Block) : (setPoison k b s).sideA = s.sideA := rfl
@[simp] theorem setPoison_keeps_sideB (k : Nat) (b : Bool) (s : Block) : (setPoison k b s).sideB = s.sideB := rfl
@[simp] theorem setPoison_keeps_stoppedTags (k : Nat) (b : Bool) (s : Block) : (setPoison k b s).stoppedTags = s.stoppedTags := rfl
@[simp] theorem setPoison_keeps_bnd (k : Nat) (b : Bool) (s : Block) : (setPoison k b s).bnd = s.bnd := rfl
@[simp] theorem setPoison_keeps_upd (k : Nat) (b : Bool) (s : Block) : (setPoison k b s).upd = s.upd := rfl
@[simp] theorem setPoison_keeps_arc (k : Nat) (b : Bool) (s : Block) : (setPoison k b s).arc = s.arc := rfl
@[simp] theorem setPoison_keeps_colls (k : Nat) (b : Bool) (s : Block) : (setPoison k b s).colls = s.colls := rfl
@[simp] theorem setPoison_keeps_portA (k : Nat) (b : Bool) (s : Block) : (setPoison k b s).portA = s.portA := rfl
@[simp] theorem setPoison_keeps_portB (k : Nat) (b : Bool) (s : Block) : (setPoison k b s).portB = s.portB := rfl
@[simp] theorem setPoison_keeps_portico (k : Nat) (b : Bool) (s : Block) : (setPoison k b s).portico = s.portico := rfl
@[simp] theorem setPoison_keeps_store (k : Nat) (b : Bool) (s : Block) : (setPoison k b s).store = s.store := rfl
@[simp] theorem setPoison_keeps_rel (k : Nat) (b : Bool) (s : Block) : (setPoison k b s).rel = s.rel := rfl
@[simp] theorem setPoison_keeps_recov (k : Nat) (b : Bool) (s : Block) : (setPoison k b s).recov = s.recov := rfl
@[simp] theorem setPoison_keeps_fw (k : Nat) (b : Bool) (s : Block) : (setPoison k b s).fw = s.fw := rfl
@[simp] theorem setPoison_keeps_sec (k : Nat) (b : Bool) (s : Block) : (setPoison k b s).sec = s.sec := rfl
@[simp] theorem setPoison_keeps_pwr (k : Nat) (b : Bool) (s : Block) : (setPoison k b s).pwr = s.pwr := rfl
@[simp] theorem setPoison_keeps_dark (k : Nat) (b : Bool) (s : Block) : (setPoison k b s).dark = s.dark := rfl
@[simp] theorem setPoison_keeps_freeCtr (k : Nat) (b : Bool) (s : Block) : (setPoison k b s).freeCtr = s.freeCtr := rfl

end Sys2Proof.Machine
end

