-- ==== Sys2Proof/Tests/Slice0.lean ====
section
/-! SUPPORT. Tests: well-formed and ill-formed commands, a state and operands that meet the hypotheses of each statement
of Certificates/Slice0/Obligations.lean, and small checks of single steps. Expected values come from the spec. -/

namespace Sys2Proof.Tests

open Sys2Proof Sys2Proof.Machine

set_option Elab.async false

/-! ## Well-formed commands -/

def x0 : SlotCtx := default
def ld0 : MloadF := default
def st0 : MstreamF := default
def op0 : MopenF := default
def dr0 : DrainF := default
def sh0 : MshiftF := default
def v0 : VecF := default
def q0 : VqntF := default
def dq0 : VdqnF := default
def vm0 : VmemF := default
def ds0 : DslotF := default
def as0 : AslotF := default
def mo0 : MemOpF := { data := [0], poison := [false], tag := 0, mtype := 0, addr := 0 }
def d0 : DescF := default
def pk0 : Packet := default
def sf0 : StreamF := default
def vo0 : VoteF := { (default : VoteF) with round := 1 }
def ag0 : AgreeF := default
def rq0 : ReqF := default
def fr0 : FrameF := { (default : FrameF) with dst := 2 ^ 48 - 1, etherType := 0x88B5, fcsOk := true, ver := 1 }
def vm1 : VmsgF := { op := 1, tag := 0 }
def se0 : SensorF := { (default : SensorF) with temps := List.replicate 50 0 }

theorem test_wf_x0 : x0.wf = true ∧ ([{ x0 with gal := 48 }, { x0 with tag := 2 ^ 8 }, { x0 with bundle := 2 ^ 32 }, {
    x0 with bank := 2 ^ 8 }, { x0 with moff := 2 ^ 23 }, { x0 with roff := 2 ^ 22 }, { x0 with xoff := 2 ^ 12 }] : List
    SlotCtx).all (fun y => !y.wf) = true := by
  decide +kernel
theorem test_wf_ld0 : ld0.wf = true ∧ ([{ ld0 with alcove := 2 ^ 3 }, { ld0 with first := 2 ^ 7 }, { ld0 with count :=
    2 ^ 7 }, { ld0 with fmt := 2 ^ 8 }, { ld0 with width := 2 ^ 4 }, { ld0 with lvl := 2 ^ 8 }, { ld0 with src := 2 ^ 23
    }, { ld0 with arrStride := 2 ^ 23 }, { ld0 with scaleSrc := 2 ^ 23 }] : List MloadF).all (fun y => !y.wf) = true := by
  decide +kernel
theorem test_wf_st0 : st0.wf = true ∧ ([{ st0 with alcove := 2 ^ 3 }, { st0 with first := 2 ^ 7 }, { st0 with count :=
    2 ^ 7 }, { st0 with bus := 2 ^ 2 }, { st0 with group := 2 ^ 6 }, { st0 with nRows := 2 ^ 20 }, { st0 with rowDesc := 2
    ^ 6 }, { st0 with rowBase := 2 ^ 23 }, { st0 with rowPitch := 2 ^ 16 }, { st0 with passStride := 2 ^ 23 }, { st0 with
    rowMask := 2 ^ 64 }, { st0 with kMask := 2 ^ 16 }, { st0 with advance := 2 ^ 1 }, { st0 with wPassStride := 2 ^ 23 }]
    : List MstreamF).all (fun y => !y.wf) = true := by
  decide +kernel
theorem test_wf_op0 : op0.wf = true ∧ ([{ op0 with alcove := 2 ^ 3 }, { op0 with first := 2 ^ 7 }, { op0 with count :=
    2 ^ 7 }, { op0 with group := 2 ^ 6 }, { op0 with base := 2 ^ 6 }, { op0 with rows := 2 ^ 6 }, { op0 with fmt := 2 ^ 8
    }, { op0 with mode := 2 ^ 2 }, { op0 with anchor := 2 ^ 10 }] : List MopenF).all (fun y => !y.wf) = true := by
  decide +kernel
theorem test_wf_dr0 : dr0.wf = true ∧ ([{ dr0 with alcove := 2 ^ 3 }, { dr0 with first := 2 ^ 7 }, { dr0 with count :=
    2 ^ 7 }, { dr0 with group := 2 ^ 6 }, { dr0 with clear := 2 ^ 1 }, { dr0 with dst := 2 ^ 6 }, { dr0 with ofmt := 2 ^ 8
    }, { dr0 with fmask := 2 ^ 3 }] : List DrainF).all (fun y => !y.wf) = true := by
  decide +kernel
theorem test_wf_sh0 : sh0.wf = true ∧ ([{ sh0 with alcove := 2 ^ 3 }, { sh0 with first := 2 ^ 7 }, { sh0 with count :=
    2 ^ 7 }, { sh0 with group := 2 ^ 6 }, { sh0 with row0 := 2 ^ 6 }, { sh0 with nrows := 2 ^ 6 }, { sh0 with ksrc := 2 ^
    7 }, { sh0 with kimm := 2 ^ 11 }] : List MshiftF).all (fun y => !y.wf) = true := by
  decide +kernel
theorem test_wf_v0 : v0.wf = true ∧ ([{ v0 with ntiles := 2 ^ 4 }, { v0 with dst := 2 ^ 6 }, { v0 with dstride := 2 ^
    2 }, { v0 with a := 2 ^ 18 }, { v0 with b := 2 ^ 18 }, { v0 with c := 2 ^ 18 }, { v0 with mask := 2 ^ 3 }, { v0 with
    mzero := 2 ^ 1 }, { v0 with fmt := 2 ^ 8 }, { v0 with sat := 2 ^ 1 }, { v0 with aux := 2 ^ 16 }] : List VecF).all (fun
    y => !y.wf) = true := by
  decide +kernel
theorem test_wf_q0 : q0.wf = true ∧ ([{ q0 with src := 2 ^ 6 }, { q0 with ntiles := 2 ^ 4 }, { q0 with axis := 2 ^ 1
    }, { q0 with srcFmt := 2 ^ 8 }, { q0 with desc := 2 ^ 6 }, { q0 with kspan := 2 ^ 14 }, { q0 with kvalid := 2 ^ 9 }, {
    q0 with row0 := 2 ^ 22 }, { q0 with dstElem := 2 ^ 23 }, { q0 with dstScale := 2 ^ 23 }, { q0 with dstOut := 2 ^ 23 },
    { q0 with rnd := 2 ^ 1 }, { q0 with rng := 2 ^ 1 }, { q0 with smode := 2 ^ 1 }, { q0 with fscale := 2 ^ 8 }] : List
    VqntF).all (fun y => !y.wf) = true := by
  decide +kernel
theorem test_wf_dq0 : dq0.wf = true ∧ ([{ dq0 with ntiles := 2 ^ 4 }, { dq0 with dst := 2 ^ 6 }, { dq0 with dstride :=
    2 ^ 2 }, { dq0 with desc := 2 ^ 6 }, { dq0 with axis := 2 ^ 1 }, { dq0 with kspan := 2 ^ 14 }, { dq0 with kvalid := 2
    ^ 9 }, { dq0 with srcElem := 2 ^ 23 }, { dq0 with srcScale := 2 ^ 23 }, { dq0 with srcOut := 2 ^ 23 }, { dq0 with ofmt
    := 2 ^ 8 }, { dq0 with unturn := 2 ^ 1 }, { dq0 with mask := 2 ^ 3 }, { dq0 with mzero := 2 ^ 1 }] : List VdqnF).all
    (fun y => !y.wf) = true := by
  decide +kernel
theorem test_wf_vm0 : vm0.wf = true ∧ ([{ vm0 with ntiles := 2 ^ 4 }, { vm0 with reg := 2 ^ 6 }, { vm0 with dstride :=
    2 ^ 2 }, { vm0 with addr := 2 ^ 23 }, { vm0 with pitch := 2 ^ 16 }, { vm0 with sfmt := 2 ^ 8 }, { vm0 with mask := 2 ^
    3 }, { vm0 with mzero := 2 ^ 1 }, { vm0 with layout := 2 ^ 1 }] : List VmemF).all (fun y => !y.wf) = true := by
  decide +kernel
theorem test_wf_ds0 : ds0.wf = true ∧ ([{ ds0 with loff := 2 ^ 36 }, { ds0 with token := 2 ^ 8 }, { ds0 with xdesc :=
    2 ^ 12 }] : List DslotF).all (fun y => !y.wf) = true := by
  decide +kernel
theorem test_wf_as0 : as0.wf = true ∧ ([{ as0 with token := 2 ^ 8 }, { as0 with adesc := 2 ^ 10 }] : List AslotF).all
    (fun y => !y.wf) = true := by
  decide +kernel
theorem test_wf_mo0 : mo0.wf = true ∧ ([{ mo0 with tag := 2 ^ 8 }, { mo0 with mtype := 2 ^ 4 }, { mo0 with addr := 2 ^
    39 }, { mo0 with data := List.replicate 8193 0 }, { mo0 with data := [], poison := [] }, { mo0 with poison := [] }] :
    List MemOpF).all (fun y => !y.wf) = true := by
  decide +kernel
theorem test_wf_d0 : d0.wf = true ∧ ([{ d0 with ctx := { x0 with gal := 48 } }, { d0 with slot := { ds0 with token :=
    256 } }] : List DescF).all (fun y => !y.wf) = true := by
  decide +kernel
theorem test_wf_pk0 : pk0.wf = true ∧ ([{ pk0 with src := 72 }, { pk0 with shall := 2 }, { pk0 with dst := 72 }, { pk0
    with vc := 4 }, { pk0 with hop := 2 ^ 3 }, { pk0 with header := 2 ^ 256 }, { pk0 with data := List.replicate 8193 0 },
    { pk0 with poison := [true] }] : List Packet).all (fun y => !y.wf) = true := by
  decide +kernel
theorem test_wf_sf0 : sf0.wf = true ∧ ([{ sf0 with dst := 72 }, { sf0 with shall := 2 }, { sf0 with vc := 4 }, { sf0
    with pseq := 2 ^ 16 }] : List StreamF).all (fun y => !y.wf) = true := by
  decide +kernel
theorem test_wf_vo0 : vo0.wf = true ∧ ([{ vo0 with slot := 72 }, { vo0 with step := 2 ^ 64 }, { vo0 with attempt := 2
    ^ 32 }, { vo0 with epoch := 2 ^ 32 }, { vo0 with round := 3 }, { vo0 with items := [(1024, default)] }] : List
    VoteF).all (fun y => !y.wf) = true := by
  decide +kernel
theorem test_wf_ag0 : ag0.wf = true ∧ ([{ ag0 with slot := 72 }, { ag0 with step := 2 ^ 64 }, { ag0 with attempt := 2
    ^ 32 }, { ag0 with eo := 2 ^ 32 }, { ag0 with prop := 2 ^ 32 }] : List AgreeF).all (fun y => !y.wf) = true := by
  decide +kernel
theorem test_wf_rq0 : rq0.wf = true ∧ ([{ rq0 with port := 2 }, { rq0 with seq := 2 ^ 32 }] : List ReqF).all (fun y =>
    !y.wf) = true := by
  decide +kernel
theorem test_wf_fr0 : fr0.wf = true ∧ ([{ fr0 with src := 2 ^ 48 }, { fr0 with dst := 2 ^ 48 }, { fr0 with etherType
    := 2 ^ 16 }, { fr0 with svc := 2 ^ 8 }, { fr0 with ver := 2 ^ 8 }, { fr0 with seq := 2 ^ 32 }, { fr0 with index := 2 ^
    16 }, { fr0 with sub := 2 ^ 8 }, { fr0 with len := 2 ^ 16 }, { fr0 with offset := 2 ^ 32 }, { fr0 with xfer := 2 ^ 32
    }] : List FrameF).all (fun y => !y.wf) = true := by
  decide +kernel
theorem test_wf_se0 : se0.wf = true ∧ ([{ se0 with temps := [] }] : List SensorF).all (fun y => !y.wf) = true := by
  decide +kernel

theorem test_wf_accepts_1 : ([.bundleIssue, .mloadW x0 ld0, .mstream x0 st0, .landingWrite,
    .mopen x0 op0, .mclose x0 dr0, .mdrain x0 dr0, .mshift x0 sh0,
    .landingOpRelease, .drainStart, .vadd x0 v0, .vsub x0 v0,
    .vmul x0 v0, .vfma x0 v0, .vmax x0 v0, .vmin x0 v0,
    .vabs x0 v0, .vneg x0 v0, .vsel x0 v0, .vmov x0 v0,
    .vtrn x0 v0, .vand x0 v0, .vor x0 v0, .vxor x0 v0,
    .vshl x0 v0, .vshr x0 v0, .vexp2 x0 v0, .vlog2 x0 v0,
    .vrcp x0 v0, .vrsq x0 v0, .vscale x0 v0, .vred x0 v0,
    .vsmax x0 v0, .vcmp x0 v0, .vmset x0 v0, .vmlog x0 v0,
    .vcvt x0 v0, .vqnt x0 q0, .vdqn x0 dq0, .vrnd x0 v0] : List Instr).all (fun i => i.wf) = true := by
  decide +kernel
theorem test_wf_accepts_2 : ([.vld x0 vm0, .vst x0 vm0, .vflg x0 v0, .vsolve x0 v0,
    .dget x0 ds0, .dput x0 ds0, .dmov x0 ds0, .add mo0,
    .max mo0, .xor mo0, .updatePass1 d0, .updatePass2 d0,
    .queueHoldEnd, .descriptorCompletion 0 false, .asendData x0 as0, .asendTokenOnly x0 as0,
    .aredReduceScatter x0 as0, .aredAllReduce x0 as0, .aredPhase2 0, .agathPush x0 as0,
    .agathReuse x0 as0, .swait x0 0 0, .stallRelease, .ssignal x0 0 0 0,
    .sbound, .boundaryActions, .connectivityRetry, .voteTimeout,
    .agreementTimeout, .watchdogAbort, .side x0 0 0 0, .sideSlicePlace 0,
    .checked x0 0 0, .cwake x0 0 0, .galleryClockStop 0, .galleryClockRestart 0,
    .wakeHoldEnd, .currentKeeperCycle, .rampDownStart 0 0, .rampDownEnd 0 0] : List Instr).all (fun i => i.wf) = true := by
  decide +kernel
theorem test_wf_accepts_3 : ([.rampUpEnd 0 0, .rampHoldEnd, .fetchHoldEnd, .errorQueuePop 0,
    .rowRemap 0 0 0 0, .pageMigration 0, .channelCopy 0 0, .channelCopyEnd 0 0,
    .patrolScrub 0 false, .dataFlit 0 0 (List.replicate 256 0) false, .idleFlit 0 0 (List.replicate 256 0) false, .nak 0 0 0,
    .laneRetire 0 0 0, .laneJoin 0 0, .down 0 0, .spareLaneTrained 0,
    .beacon 0 (List.replicate 240 0), .beaconPeriod 0, .replayTimeout 0 0, .lossOfSignal 0,
    .linkNoFlit 0, .laneLossOfLock 0 0, .laneErrorSecond 0 [], .laneNoFlit 0 0,
    .linkHoldExpiry 0 false, .linkTrainingDone 0 0, .linkTrainingTimeout 0, .alignDone 0 0,
    .alignTimeout 0, .mwrite pk0, .rreq pk0, .token pk0,
    .streamAcknowledgement sf0, .streamAckPeriod, .gapRequest sf0, .readyMessage 0 0 0 0 0 0,
    .voteMessage vo0, .agreementMessage ag0, .contextMessage 0 0 0 [], .portUpMessage 0 0] : List Instr).all (fun i =>
      i.wf) = true := by
  decide +kernel
theorem test_wf_accepts_4 : ([.noRoute 0 sf0, .mwriteRejection 0 0 0, .linkReset .host 0, .laneMode .host 0,
    .vestibuleRead 0 vm1 0 4, .windowRegisterWrite 0 0 [], .vstRetryCntRead 0 0, .vstPoisonCntRead 0 0,
    .apertureRead 0 0 0 4 0, .apertureWrite 0 0 0 [] [], .programDoorbell 0 0 0, .collectiveDoorbellAnchor 0 0,
    .collectiveDoorbellSums 0 0, .vestibuleLinkDown 0, .vestibuleLinkUp 0, .objectRead rq0 0 0 0 0,
    .objectWrite rq0 0 0 0 [], .digestQuery rq0, .programLoad rq0 0 0, .start rq0,
    .replayStart rq0, .park rq0, .resume rq0, .save rq0 0,
    .restore rq0 0 0, .takeoverSlices rq0 0, .takeoverTwin rq0 0, .reMirror rq0,
    .warmReset rq0, .powerRequestDormant rq0, .powerRequestStandby rq0, .powerRequestReady rq0,
    .powerTransitionDone, .attestationReport rq0 (List.replicate 64 0), .debugToken rq0 (List.replicate 196 0),
      .firmwareStage rq0 0 0 0,
    .firmwareActivate rq0, .activationNextRestart false, .firmwareAbandon rq0, .porticoRead fr0] : List Instr).all
      (fun i => i.wf) = true := by
  decide +kernel
theorem test_wf_accepts_5 : ([.porticoWrite fr0, .segmentStart fr0, .segment fr0, .segmentEnd fr0,
    .segmentAbort fr0, .segmentTimeout 0, .porticoDigestQuery fr0, .restoreDefaults .host 0,
    .clearPoisoned .host 0, .removeGuardBand .host 0, .clearFloorMap .host 0, .galleryReset .host 0,
    .clearLatchedBits .host 0, .ownerEnrolment [], .lifecycleToReturned [], .lifecycleToProvisioned [],
    .generateIdentityKey .host 0, .installCertificateChain .host [], .injectionArm .host 0, .bypass false,
    .idcode, .extest [], .samplePreload [], .dbgobj [],
    .dbgmemRead 0, .dbgmemWrite 0 0, .tapToken (List.replicate 196 0), .corectlHalt 0,
    .corectlStep 0, .corectlResume 0, .prstN 0, .coldBoot 0,
    .wakeN 0, .inputApplied 0, .brownout false, .railFault 0,
    .hostFault, .clockFault, .eCurrent 0, .eJunction 0 0] : List Instr).all (fun i => i.wf) = true := by
  decide +kernel
theorem test_wf_accepts_6 : ([.sensorPoll se0, .curbedStepTimer, .clockStepUp, .thermalTrip 0 0,
    .processorWatchdog 0, .lockstepMismatch 0, .processorRestartDone 0 false, .gccHoldExpiry 0,
    .hallBridgeVoteFail, .targetedSentinel 0 none 0 [], .targetedSentinel 0 (some .array) 1055 [15], .marginSweep,
      .sweepPoint (.columns 7 131 [15]), .sweepPoint .pass,
    .persistFlashWrite, .floorMapRecordWrite, .manifestSignature, .cperNotify,
    .linkSignalDetect 0, .crystalRunsAgain, .hostSitePowerRequest 0, .coordinatorBeaconLoss,
    .adapterRetry 0, .hallBridgeCrcError false] : List Instr).all (fun i => i.wf) = true := by
  decide +kernel

theorem test_wf_refuses_1 : ([.mloadW { x0 with gal := 48 } ld0, .mloadW x0 { ld0 with alcove := 8 }, .mstream { x0
    with gal := 48 } st0, .mstream x0 { st0 with alcove := 8 },
    .mopen { x0 with gal := 48 } op0, .mopen x0 { op0 with alcove := 8 }, .mclose { x0 with gal := 48 } dr0, .mclose
      x0 { dr0 with alcove := 8 },
    .mdrain { x0 with gal := 48 } dr0, .mdrain x0 { dr0 with alcove := 8 }, .mshift { x0 with gal := 48 } sh0, .mshift
      x0 { sh0 with alcove := 8 },
    .vadd { x0 with gal := 48 } v0, .vadd x0 { v0 with dst := 64 }, .vsub { x0 with gal := 48 } v0, .vsub x0 { v0 with
      dst := 64 },
    .vmul { x0 with gal := 48 } v0, .vmul x0 { v0 with dst := 64 }, .vfma { x0 with gal := 48 } v0, .vfma x0 { v0 with
      dst := 64 },
    .vmax { x0 with gal := 48 } v0, .vmax x0 { v0 with dst := 64 }, .vmin { x0 with gal := 48 } v0, .vmin x0 { v0 with
      dst := 64 },
    .vabs { x0 with gal := 48 } v0, .vabs x0 { v0 with dst := 64 }, .vneg { x0 with gal := 48 } v0, .vneg x0 { v0 with
      dst := 64 },
    .vsel { x0 with gal := 48 } v0, .vsel x0 { v0 with dst := 64 }, .vmov { x0 with gal := 48 } v0, .vmov x0 { v0 with
      dst := 64 },
    .vtrn { x0 with gal := 48 } v0, .vtrn x0 { v0 with dst := 64 }, .vand { x0 with gal := 48 } v0, .vand x0 { v0 with
      dst := 64 },
    .vor { x0 with gal := 48 } v0, .vor x0 { v0 with dst := 64 }, .vxor { x0 with gal := 48 } v0, .vxor x0 { v0 with
      dst := 64 }] : List Instr).all (fun i => !i.wf) = true := by
  decide +kernel
theorem test_wf_refuses_2 : ([.vshl { x0 with gal := 48 } v0, .vshl x0 { v0 with dst := 64 }, .vshr { x0 with gal :=
    48 } v0, .vshr x0 { v0 with dst := 64 },
    .vexp2 { x0 with gal := 48 } v0, .vexp2 x0 { v0 with dst := 64 }, .vlog2 { x0 with gal := 48 } v0, .vlog2 x0 { v0
      with dst := 64 },
    .vrcp { x0 with gal := 48 } v0, .vrcp x0 { v0 with dst := 64 }, .vrsq { x0 with gal := 48 } v0, .vrsq x0 { v0 with
      dst := 64 },
    .vscale { x0 with gal := 48 } v0, .vscale x0 { v0 with dst := 64 }, .vred { x0 with gal := 48 } v0, .vred x0 { v0
      with dst := 64 },
    .vsmax { x0 with gal := 48 } v0, .vsmax x0 { v0 with dst := 64 }, .vcmp { x0 with gal := 48 } v0, .vcmp x0 { v0
      with dst := 64 },
    .vmset { x0 with gal := 48 } v0, .vmset x0 { v0 with dst := 64 }, .vmlog { x0 with gal := 48 } v0, .vmlog x0 { v0
      with dst := 64 },
    .vcvt { x0 with gal := 48 } v0, .vcvt x0 { v0 with dst := 64 }, .vqnt { x0 with gal := 48 } q0, .vqnt x0 { q0 with
      src := 64 },
    .vdqn { x0 with gal := 48 } dq0, .vdqn x0 { dq0 with dst := 64 }, .vrnd { x0 with gal := 48 } v0, .vrnd x0 { v0
      with dst := 64 },
    .vld { x0 with gal := 48 } vm0, .vld x0 { vm0 with reg := 64 }, .vst { x0 with gal := 48 } vm0, .vst x0 { vm0 with
      reg := 64 },
    .vflg { x0 with gal := 48 } v0, .vflg x0 { v0 with dst := 64 }, .vsolve { x0 with gal := 48 } v0, .vsolve x0 { v0
      with dst := 64 }] : List Instr).all (fun i => !i.wf) = true := by
  decide +kernel
theorem test_wf_refuses_3 : ([.dget { x0 with gal := 48 } ds0, .dget x0 { ds0 with token := 256 }, .dput { x0 with gal
    := 48 } ds0, .dput x0 { ds0 with token := 256 },
    .dmov { x0 with gal := 48 } ds0, .dmov x0 { ds0 with token := 256 }, .add { mo0 with mtype := 16 }, .max { mo0
      with mtype := 16 },
    .xor { mo0 with mtype := 16 }, .updatePass1 { d0 with ctx := { x0 with gal := 48 } }, .updatePass2 { d0 with ctx
      := { x0 with gal := 48 } }, .asendData { x0 with gal := 48 } as0,
    .asendData x0 { as0 with token := 256 }, .asendTokenOnly { x0 with gal := 48 } as0, .asendTokenOnly x0 { as0 with
      token := 256 }, .aredReduceScatter { x0 with gal := 48 } as0,
    .aredReduceScatter x0 { as0 with token := 256 }, .aredAllReduce { x0 with gal := 48 } as0, .aredAllReduce x0 { as0
      with token := 256 }, .aredPhase2 1024,
    .agathPush { x0 with gal := 48 } as0, .agathPush x0 { as0 with token := 256 }, .agathReuse { x0 with gal := 48 }
      as0, .agathReuse x0 { as0 with token := 256 },
    .swait { x0 with gal := 48 } 0 0, .swait x0 (2 ^ 8) 0, .swait x0 0 (2 ^ 32), .ssignal { x0 with gal := 48 } 0 0 0,
    .ssignal x0 (2 ^ 8) 0 0, .ssignal x0 0 (2 ^ 32) 0, .ssignal x0 0 0 (2 ^ 6), .side { x0 with gal := 48 } 0 0 0,
    .side x0 (2 ^ 16) 0 0, .side x0 0 (2 ^ 8) 0, .side x0 0 0 (2 ^ 1), .sideSlicePlace 2,
    .checked { x0 with gal := 48 } 0 0, .checked x0 (2 ^ 1) 0, .checked x0 0 (2 ^ 1), .cwake { x0 with gal := 48 } 0
      0] : List Instr).all (fun i => !i.wf) = true := by
  decide +kernel
theorem test_wf_refuses_4 : ([.cwake x0 (2 ^ 8) 0, .cwake x0 0 (2 ^ 1), .galleryClockStop 50, .galleryClockRestart 50,
    .rampDownStart 50 0, .rampDownStart 0 8, .rampDownEnd 50 0, .rampDownEnd 0 8,
    .rampUpEnd 50 0, .rampUpEnd 0 8, .errorQueuePop 52, .rowRemap 8 0 0 0,
    .rowRemap 0 136 0 0, .rowRemap 0 0 32 0, .rowRemap 0 0 0 8384, .pageMigration (2 ^ 19),
    .channelCopy 8 0, .channelCopy 0 136, .channelCopyEnd 8 0, .channelCopyEnd 0 136,
    .patrolScrub 8 false, .dataFlit 18 0 (List.replicate 256 0) false, .dataFlit 0 25 (List.replicate 256 0) false,
      .dataFlit 0 0 [] false,
    .idleFlit 18 0 (List.replicate 256 0) false, .idleFlit 0 25 (List.replicate 256 0) false, .idleFlit 0 0 [] false,
      .nak 18 0 0,
    .nak 0 25 0, .nak 0 0 (2 ^ 8), .laneRetire 18 0 0, .laneRetire 0 25 0,
    .laneRetire 0 0 (2 ^ 8), .laneJoin 18 0, .laneJoin 0 25, .down 18 0,
    .down 0 (2 ^ 8), .spareLaneTrained 18, .beacon 18 (List.replicate 240 0), .beacon 0 []] : List Instr).all (fun i
      => !i.wf) = true := by
  decide +kernel
theorem test_wf_refuses_5 : ([.beaconPeriod 18, .replayTimeout 18 0, .replayTimeout 0 (2 ^ 16), .lossOfSignal 18,
    .linkNoFlit 18, .laneLossOfLock 18 0, .laneLossOfLock 0 25, .laneErrorSecond 18 [],
    .laneErrorSecond 0 [(25, 0, 0)], .laneNoFlit 18 0, .laneNoFlit 0 25, .linkHoldExpiry 18 false,
    .linkTrainingDone 18 0, .linkTrainingDone 0 (2 ^ 25), .linkTrainingTimeout 18, .alignDone 18 0,
    .alignDone 0 (2 ^ 25), .alignTimeout 18, .mwrite { pk0 with vc := 4 }, .rreq { pk0 with vc := 4 },
    .token { pk0 with vc := 4 }, .streamAcknowledgement { sf0 with vc := 4 }, .gapRequest { sf0 with vc := 4 },
      .readyMessage 72 0 0 0 0 0,
    .readyMessage 0 1024 0 0 0 0, .readyMessage 0 0 (2 ^ 16) 0 0 0, .readyMessage 0 0 0 (2 ^ 8) 0 0, .readyMessage 0 0
      0 0 (2 ^ 16) 0,
    .voteMessage { vo0 with slot := 72 }, .agreementMessage { ag0 with slot := 72 }, .contextMessage 72 0 0 [],
      .contextMessage 0 (2 ^ 32) 0 [],
    .contextMessage 0 0 (2 ^ 32) [], .contextMessage 0 0 0 (List.replicate 8193 0), .portUpMessage 72 0,
      .portUpMessage 0 (2 ^ 18),
    .noRoute 72 sf0, .noRoute 0 { sf0 with vc := 4 }, .mwriteRejection 72 0 0, .mwriteRejection 0 1024 0] : List
      Instr).all (fun i => !i.wf) = true := by
  decide +kernel
theorem test_wf_refuses_6 : ([.mwriteRejection 0 0 (2 ^ 16), .linkReset .host (256 ^ 1), .laneMode .host (256 ^ 1),
    .vestibuleRead 2 vm1 0 4,
    .vestibuleRead 0 { vm1 with op := 256 } 0 4, .vestibuleRead 0 { vm1 with tag := 4096 } 0 4, .vestibuleRead 0 vm1
      (2 ^ 64) 4, .vestibuleRead 0 vm1 0 4097, .vestibuleRead 0 vm1 0 0, .windowRegisterWrite 2 0 [],
    .windowRegisterWrite 0 (2 ^ 64) [], .windowRegisterWrite 0 0 (List.replicate 4097 0), .vstRetryCntRead 2 0,
      .vstPoisonCntRead 2 0,
    .apertureRead 2 0 0 4 0, .apertureRead 0 0 (2 ^ 64) 4 0, .apertureRead 0 0 0 4097 0, .apertureRead 0 0 0 0 0,
    .apertureWrite 2 0 0 [] [], .apertureWrite 0 (2 ^ 64) 0 [] [], .apertureWrite 0 0 0 (List.replicate 4097 0) [],
      .apertureWrite 0 0 0 [0] [],
    .programDoorbell 2 0 0, .programDoorbell 0 62 0, .programDoorbell 0 0 (2 ^ 32), .collectiveDoorbellAnchor 2 0,
    .collectiveDoorbellAnchor 0 (2 ^ 32), .collectiveDoorbellSums 2 0, .collectiveDoorbellSums 0 (2 ^ 32),
      .vestibuleLinkDown 2,
    .vestibuleLinkUp 2, .objectRead { rq0 with port := 2 } 0 0 0 0, .objectRead rq0 (2 ^ 16) 0 0 0, .objectRead rq0 0
      (2 ^ 8) 0 0,
    .objectRead rq0 0 0 (2 ^ 32) 0, .objectRead rq0 0 0 0 (2 ^ 32), .objectWrite { rq0 with port := 2 } 0 0 0 [],
      .objectWrite rq0 (2 ^ 16) 0 0 [],
    .objectWrite rq0 0 (2 ^ 8) 0 [], .objectWrite rq0 0 0 (2 ^ 32) [], .objectWrite rq0 0 0 0 (List.replicate 4089 0),
      .digestQuery { rq0 with port := 2 }] : List Instr).all (fun i => !i.wf) = true := by
  decide +kernel
theorem test_wf_refuses_7 : ([.programLoad { rq0 with port := 2 } 0 0, .programLoad rq0 (2 ^ 64) 0, .programLoad rq0 0
    (2 ^ 32), .start { rq0 with port := 2 },
    .replayStart { rq0 with port := 2 }, .park { rq0 with port := 2 }, .resume { rq0 with port := 2 }, .save { rq0
      with port := 2 } 0,
    .save rq0 (2 ^ 64), .restore { rq0 with port := 2 } 0 0, .restore rq0 (2 ^ 64) 0, .restore rq0 0 (2 ^ 32),
    .takeoverSlices { rq0 with port := 2 } 0, .takeoverSlices rq0 (2 ^ 8), .takeoverTwin { rq0 with port := 2 } 0,
      .takeoverTwin rq0 (2 ^ 8),
    .reMirror { rq0 with port := 2 }, .warmReset { rq0 with port := 2 }, .powerRequestDormant { rq0 with port := 2 },
      .powerRequestStandby { rq0 with port := 2 },
    .powerRequestReady { rq0 with port := 2 }, .attestationReport { rq0 with port := 2 } (List.replicate 64 0),
      .attestationReport rq0 [], .debugToken { rq0 with port := 2 } (List.replicate 196 0),
    .debugToken rq0 [], .firmwareStage { rq0 with port := 2 } 0 0 0, .firmwareStage rq0 (2 ^ 8) 0 0, .firmwareStage
      rq0 0 (2 ^ 64) 0,
    .firmwareStage rq0 0 0 (2 ^ 32), .firmwareActivate { rq0 with port := 2 }, .firmwareAbandon { rq0 with port := 2
      }, .porticoRead { fr0 with len := 2 ^ 16 },
    .porticoWrite { fr0 with len := 2 ^ 16 }, .segmentStart { fr0 with len := 2 ^ 16 }, .segment { fr0 with len := 2 ^
      16 }, .segmentEnd { fr0 with len := 2 ^ 16 },
    .segmentAbort { fr0 with len := 2 ^ 16 }, .segmentTimeout (2 ^ 32), .porticoDigestQuery { fr0 with len := 2 ^ 16
      }, .restoreDefaults .host (256 ^ 1)] : List Instr).all (fun i => !i.wf) = true := by
  decide +kernel
theorem test_wf_refuses_8 : ([.clearPoisoned .host (256 ^ 4), .removeGuardBand .host (256 ^ 1), .clearFloorMap .host
    (256 ^ 1), .galleryReset .host (256 ^ 1),
    .clearLatchedBits .host (256 ^ 1), .generateIdentityKey .host (256 ^ 1), .installCertificateChain .host
      (List.replicate 16385 0), .injectionArm .host (256 ^ 2),
    .dbgobj (List.replicate 4129 0), .dbgmemRead (2 ^ 48), .dbgmemWrite (2 ^ 48) 0, .dbgmemWrite 0 (2 ^ 64),
    .tapToken [], .corectlHalt 53, .corectlStep 53, .corectlResume 53,
    .coldBoot (2 ^ 7), .eJunction 50 0, .sensorPoll { se0 with temps := [] }, .processorWatchdog 53,
    .lockstepMismatch 53, .processorRestartDone 53 false, .gccHoldExpiry 50, .targetedSentinel 50 none 0 [],
    .targetedSentinel 0 (some .array) 0 [16], .targetedSentinel 0 (some .array) 1056 [], .targetedSentinel 0 (some
      .landing) 1056 [],
    .targetedSentinel 0 (some .banister) 8 [], .sweepPoint (.columns 0 132 []), .sweepPoint (.landing 0 132),
      .sweepPoint (.vector 4), .linkSignalDetect 18, .adapterRetry 2] : List Instr).all (fun i => !i.wf) = true := by
  decide +kernel

/-! ## States for the witnesses -/

/-- Reset, with logical gallery 0 bound to gallery 0 and every gallery clock running. -/
def on0 : State := { State.reset with
  bind := { State.reset.bind with gal := [(0, 1)] }, gals := { State.reset.gals with clocks := [] } }
/-- As `on0`, with gallery 0's clock stopped. -/
def stopped0 : State := { on0 with
  gals := { on0.gals with clocks := [(0, { running := false, restarting := false, wakeAlcoves := 0, wakeVe := false })] } }
def zFreeze (k : HoldKind) (bundle : Bool) : Freeze :=
  { kind := k, bundle, held := [], gals := [0], ctr := 0, value := 0 }
def frozen0 (k : HoldKind) : State := { on0 with freeze := some (zFreeze k false) }
/-- Reset in another power state. -/
def inState (c : Nat) : State := { State.reset with toBlock := setPstate c State.reset.toBlock }
/-- A link 0 in a state of R276 with lanes 0 and 1 active. -/
def linkIn (c : Nat) : State := { State.reset with
  arc := { State.reset.arc with links := [(0, { linkZero with state := c, active := 3 })] } }
/-- Vestibule A in L0. -/
def portUp : State := { State.reset with portA := { State.reset.portA with link := 2 } }
/-- A program that issues. -/
def issuing0 : State := { on0 with prog := { on0.prog with loaded := true, started := true, issuing := true } }

theorem on0_reaches : reaches on0.toBlock x0 0 := by unfold reaches; decide

/-! ## Witnesses: the machine and slots -/

theorem witness_StepTakesTheFrontCommand : ({ State.reset with pending := [.sbound] } : State).pending = .sbound :: [] := rfl
theorem witness_EmptyQueueIdles : State.reset.pending = [] ∧
    ((inState 0).pending = [] ∧ halls (inState 0).toBlock = false ∧ (inState 0).recov.job = none ∧
      injects (inState 0).toBlock 0x04 (procLoc 2) = false ∧ injects (inState 0).toBlock 0x05 (procLoc 0) = false ∧
      (inState 0).portico.queue = [] ∧ (num (inState 0).toBlock 0x720100).testBit 7 = false) ∧
    ((inState 1).pending = [] ∧ halls (inState 1).toBlock = false ∧ (inState 1).recov.job = none) := by decide +kernel
theorem witness_EveryCommandGoesOnOrNamesAMissingUnit : unitThere (.linkNoFlit 17) = true ∧ unitThere (.linkNoFlit 18) = false ∧
    unitThere (.errorQueuePop 51) = true ∧ unitThere (.errorQueuePop 52) = false := by decide
theorem witness_EveryStepKeepsTheMemoryCanonical : Memory.wf State.reset.mem.bytes = true ∧ ∃ t, step State.reset = .next t :=
  ⟨by decide, _, rfl⟩
theorem witness_OtherCommandsKeepEveryByteOfMemory : mayStore .sbound = false ∧ ∃ t, exec .sbound State.reset = .next t :=
  ⟨by decide, _, rfl⟩
theorem witness_ASlotThatWaitsOrIsLost :
    (anySlot (.vadd x0 v0) = some x0 ∧ (frozen0 HoldKind.stall).freeze = some (zFreeze HoldKind.stall false)) ∧
    (anySlot (.dget x0 ds0) = some x0 ∧ State.reset.freeze = none ∧ physOf State.reset.toBlock 0 = none) ∧
    (clockSlot (.side x0 1 0 0) = some x0 ∧ clockSlot (.dget x0 ds0) = some x0 ∧ stopped0.freeze = none ∧ physOf stopped0.toBlock 0 = some 0 ∧
      (gclk stopped0.toBlock 0).running = false) := by decide

/-! ## Witnesses: the vector engine -/

def job0 (i : Instr) : VJob :=
  { instr := i, gal := 0, ctx := x0, order := 0, issue := 0, stop := none, mask := 2 ^ 256 - 1, maskBad := false, pairing := false, lvl := 0,
    data := [], lanes := [] }
/-- A port that is still occupied by an earlier job. -/
def busy0 : State := { on0 with vec := { on0.vec with jobs := [job0 (.vadd x0 v0)], portFree := [(0, 5)] } }
theorem witness_AVSlotTakesTheIssuePortOver :
    (vSlot (.vadd x0 v0) = some x0 ∧ reaches on0.toBlock x0 0 ∧ mapGet 0 on0.vec.portFree 0 ≤ cyc on0.toBlock) ∧
    (reaches busy0.toBlock x0 0 ∧ cyc busy0.toBlock < mapGet 0 busy0.vec.portFree 0 ∧
      ∀ j ∈ busy0.vec.jobs, j.gal = 0 ∧ j.stop = none) :=
  ⟨⟨rfl, on0_reaches, by decide⟩, by unfold reaches; decide, by decide, by decide⟩
theorem witness_AVSlotChangesOnlyTheVectorEngine : vSlot (.vadd x0 v0) = some x0 ∧ ∃ t, exec (.vadd x0 v0) on0 = .next t :=
  ⟨rfl, _, rfl⟩
theorem witness_MaskRegistersAndK0 : 1 ≤ 1 ∧ 7 ≤ 7 ∧ ((0 : Nat), (0 : Nat)) ≠ (0, 7) ∧ 255 < 256 := by decide
theorem witness_BitwiseResultsAreTheBitwiseFunctions :
    (job0 (.vmov x0 v0)).pairing = false ∧ (job0 (.vmov x0 v0)).maskBad = false ∧ 255 < 256 ∧
    (operand on0.toBlock 0 v0.a 0)[255]? = some elemZero ∧ elemZero.poison = false ∧
    (job0 (.vmov x0 v0)).instr = .vmov x0 v0 ∧
    (operand on0.toBlock 0 v0.b 0)[255]? = some elemZero ∧ (job0 (.vand x0 v0)).instr = .vand x0 v0 ∧
    (job0 (.vor x0 v0)).instr = .vor x0 v0 ∧ (job0 (.vxor x0 v0)).instr = .vxor x0 v0 ∧
    (job0 (.vmov x0 v0)).mask.testBit 255 = true ∧
    ({ job0 (.vmov x0 v0) with mask := 0 } : VJob).mask.testBit 255 = false := by decide +kernel
def vi : VecF := { v0 with fmt := 0x03 }
theorem witness_IntegerAddAndSubtractWrap :
    (job0 (.vadd x0 vi)).pairing = false ∧ (job0 (.vadd x0 vi)).maskBad = false ∧ (job0 (.vadd x0 vi)).mask.testBit 0 = true ∧
    vi.fmt = 0x03 ∧ vi.sat % 2 = 0 ∧ (operand on0.toBlock 0 vi.a 15)[0]? = some elemZero ∧
    (operand on0.toBlock 0 vi.b 15)[0]? = some elemZero ∧ (job0 (.vadd x0 vi)).instr = .vadd x0 vi ∧
    (job0 (.vsub x0 vi)).instr = .vsub x0 vi := by decide +kernel
def write0 : VWrite := { due := 0, gal := 0, rank := 2, order := 1, reg := 63, elems := [some elemZero], part := false }
def due0 : Block := { on0.toBlock with vec := { on0.vec with writes := [write0] } }
theorem witness_ADueWriteReachesItsRegister : due0.vec.writes = [write0] ∧ due0.vec.mwrites = [] ∧ due0.vec.zwrites = [] ∧
    write0.due ≤ cyc due0 ∧ injects due0 0x09 (locOf 3 0 0 0 0 0) = false ∧ injects due0 0x0A (locOf 3 0 0 0 0 0) = false ∧
    ((0 : Nat), 0 % 64) ≠ (write0.gal, write0.reg % 64) := by decide
/-- An earlier-issued write of the same rank to the same register, and one of a lower rank. -/
def write1 : VWrite := { write0 with order := 0 }
theorem witness_ADueWriteReachesItsRegister_two :
    ({ due0 with vec := { due0.vec with writes := [write0, write1] } } : Block).vec.writes = [write0, write1] ∧
    write1.due ≤ cyc due0 ∧ write1.gal = write0.gal ∧ write1.reg = write0.reg ∧ write1.order ≠ write0.order ∧
    (write0.rank = write1.rank ∧ write1.order < write0.order) ∧
    ({ write0 with rank := 1 } : VWrite).rank < write1.rank := by decide
theorem witness_VflgCopiesAndClearsTheFlagBytes : (job0 (.vflg x0 v0)).instr = .vflg x0 v0 ∧
    (job0 (.vflg x0 v0)).maskBad = false ∧ (job0 (.vflg x0 v0)).pairing = false ∧
    injects on0.toBlock 0x11 (locOf 2 0 0 0 0 3) = false ∧ (laneFlags on0.toBlock 0 (flagBank 0) 3)[255]? = some 0 ∧
    (job0 (.vflg x0 v0)).mask.testBit 255 = true ∧ ({ job0 (.vflg x0 v0) with mask := 1 } : VJob).mask.testBit 255 = false := by
  decide +kernel

/-! ## Witnesses: arrays and landings -/

theorem witness_LoadsStreamsAndGroupsStart : reaches on0.toBlock x0 0 ∧ on0.arr.contribs = [] ∧ on0.arr.held = [] ∧
    (slotArrays on0.toBlock x0 0 7 0 255).Nodup ∧ (namedArrays on0.toBlock 0 0 7 0 255)[127]? = some (arrKey 0 7 127) ∧
    pairAlcove on0.toBlock x0 7 = false :=
  ⟨on0_reaches, by decide, by decide, by decide +kernel, by decide +kernel, by decide⟩
/-- Alcove pairing in force. -/
def paired0 : State := { on0 with gals := { on0.gals with alcPair := true } }
theorem witness_LoadsStreamsAndGroupsStart_pair : reaches paired0.toBlock x0 0 ∧ pairAlcove paired0.toBlock x0 6 = true ∧
    (slotArrays paired0.toBlock x0 0 6 0 0).Nodup := ⟨by unfold reaches; decide, by decide, by decide⟩
/-- A contribution on its way to array 0, and an MOPEN held behind it. -/
def landing0 : State := { on0 with arr := { on0.arr with contribs := [default] } }
def sh7F : MshiftF := { sh0 with ksrc := 0x7F }
def held0 : HeldOp := { op := .mopen x0 op0, gal := 0, alc := 0, pair := false, issue := 0, order := 0, arrays := [0], ks := [] }
theorem witness_LandingOperationsActOrWait :
    (reaches landing0.toBlock x0 0 ∧ sh7F.ksrc % 128 = 0x7F ∧
      (∃ c ∈ landing0.arr.contribs, c.lastBeat ≤ cyc landing0.toBlock ∧ c.arr ∈ slotArrays landing0.toBlock x0 0 0 0 0) ∧
      opWaits landing0.toBlock held0 = true ∧ shares held0.arrays (slotArrays landing0.toBlock x0 0 0 0 0) = true) ∧
    (64 ≤ 64 % 128 ∧ 126 % 128 ≤ 126) := ⟨⟨by unfold reaches; decide, by decide⟩, by decide⟩
def group0 : Group := { (default : Group) with s := 1 }
/-- Array 0 holds an open group 0 of one row. -/
def grouped0 : State := { on0 with arr := { on0.arr with groups := [(0, some group0)] } }
theorem witness_LandingOperationsActOrWait_acts : reaches grouped0.toBlock x0 0 ∧ grouped0.arr.contribs = [] ∧
    grouped0.arr.held = [] ∧ grouped0.gals.alcPair = false ∧
    (∃ arr ∈ namedArrays grouped0.toBlock 0 0 0 0 0, (openGroup grouped0.toBlock arr 0).isSome = true) ∧
    conv grouped0.toBlock 0 0 = convIdle ∧ (namedArrays grouped0.toBlock 0 0 0 0 0).Nodup ∧
    openGroup grouped0.toBlock 0 0 = some group0 ∧ slotEnd group0 ≤ 64 ∧
    residueBad (lrow grouped0.toBlock 0 (slotUnit group0 0)) = [] ∧
    (sh7F.ksrc % 128 = 0x7F ∧ 0 % 128 < 64 ∧ (treg grouped0.toBlock 0 0)[63]? = some elemZero ∧ elemZero.poison = false) :=
  ⟨by unfold reaches; decide, by decide +kernel⟩

/-! ## Witnesses: synchronisation and issue -/

theorem witness_SsignalAddsItsValue : on0.freeze = none ∧ physOf on0.toBlock x0.gal = some 0 ∧ ctrOk x0.tag 239 = true ∧
    physOf on0.toBlock 0 = some 0 ∧ (47 < 48 ∧ 48 ≠ 0x3F ∧ 62 < 64 ∧ 62 ≠ 0x3F ∧ 0x3F < 64) := by decide
theorem witness_SwaitSubtractsOrStalls : on0.freeze = none ∧ physOf on0.toBlock x0.gal = some 0 ∧
    (gclk on0.toBlock 0).running = true ∧ x0.tag = 0 ∧
    0 ≤ tokVisible on0.toBlock 0 239 ∧ tokVisible on0.toBlock 0 239 < 1 := by decide +kernel
/-- `on0` in the rebuild of a takeover. -/
def rebuilding0 : State := { on0 with recov := { on0.recov with job := some { (default : TakeJob) with rebuild := true } } }
def steady7 : State := { on0 with gals := { on0.gals with keepers := [(7, { (default : Keeper) with phase := .steady })] } }
theorem witness_CheckedAndCwakeSetModesAndRamps : (on0.freeze = none ∧ x0.tag = 0 ∧ rebuilding on0.toBlock = false) ∧
    (rebuilding0.freeze = none ∧ rebuilding rebuilding0.toBlock = true) ∧ (keeper steady7.toBlock 0 7).phase = .steady ∧
    ({ on0.toBlock with gals := { on0.gals with nextPair := some (true, false) } } : Block).gals.nextPair = some (true, false) ∧
    on0.gals.nextPair = none ∧ (physOf on0.toBlock x0.gal = some 0 ∧ (gclk on0.toBlock 0).running = true ∧
      (keeper on0.toBlock 0 7).phase = .gated) ∧
    (stopped0.freeze = none ∧ physOf stopped0.toBlock x0.gal = some 0 ∧ (gclk stopped0.toBlock 0).running = false) := by
  decide +kernel
def win0 : SideWin :=
  { hall := 0, start := 0, stop := 10, gals := [0], alcoves := 0, ve := false, slice := none, due := 0, examine := true, sliceEnd := 0 }
def slice0 : SideSlice := { tag := 1, len := 10, conds := [], bundles := [] }
def side0 : State := { on0 with side := [win0], sideA := [slice0] }
theorem witness_SideWindowsTakeTheFirstFittingSlice :
    (reaches on0.toBlock x0 0 ∧ 0 < 50 ∧ x0.tag = 0 ∧ rebuilding on0.toBlock = false ∧ 65535 < 65536) ∧
    (halls side0.toBlock = true ∧ side0.freeze = none ∧
      side0.side.filter (fun w => w.hall == 0 && placeDue (cyc side0.toBlock) w) = [win0] ∧
      (sideQueue side0.toBlock 0).find? (sliceFits side0.toBlock win0) = some slice0 ∧ ∀ c ∈ slice0.conds, c.1 < 256) ∧
    (sideQueue ({ side0 with sideA := [] } : State).toBlock 0).find? (sliceFits side0.toBlock win0) = none :=
  ⟨⟨on0_reaches, by decide⟩, by decide +kernel, by decide +kernel⟩
/-- Bytes from offset `o` on. -/
def bytesAt (o : Nat) (l : Bytes) : SMap Byte := (List.range l.length).zip l |>.map (fun e => (o + e.1, e.2))
/-- A program that issues bundles of one segment; the bytes at offset 0 are `l`. -/
def bundle0 (l : Bytes) : State := { issuing0 with prog := { issuing0.prog with runList := [0], bufA := bytesAt 0 l, size := 65536 } }
/-- A one-word bundle for gallery 0, a bundle of a wrong LEN, and a two-word bundle whose S slot is an SWAIT for `v` on counter 5. -/
def emptyBundle : Bytes := leBytes 8 1
def wrongBundle : Bytes := leBytes 8 2
def waitBundle (v : Nat) : Bytes := leBytes 8 (2 + 2 ^ (8 + 5)) ++ leBytes 8 (1 + 5 * 2 ^ 8 + v * 2 ^ 16)
/-- The hypotheses on a bundle that may issue, with the bytes `l` at the program's offset. -/
def issues (l : Bytes) : Prop :=
  let s := (bundle0 l).toBlock
  mayIssue s = true ∧ s.clk.nextIssue ≤ cyc s ∧ s.prog.runList ≠ [] ∧ s.gals.nextPair = none ∧
    injects s 0x09 (domLoc 10) = false ∧ injects s 0x0A (domLoc 10) = false ∧ injects s 0x0F (domLoc 8) = false ∧
    s.prog.badA = [] ∧ s.prog.badB = []
def galsOf (l : Bytes) : List Nat :=
  let s := (bundle0 l).toBlock
  (bundleCtxs s 0 0 0 (leNat (bufBytes s 0 8))).filterMap (fun x => physOf s x.gal)
def slotsOf (l : Bytes) : List (Nat × Nat) :=
  let s := (bundle0 l).toBlock
  let h := leNat (bufBytes s 0 8)
  rawSlots (fld h 8 7) (bufBytes s 0 (8 * max 1 (fld h 0 8)))
theorem witness_BundlesIssueUntilSbound :
    (issuing0.freeze = none ∧ rebuilding issuing0.toBlock = false ∧ issuing0.prog.issuing = true) ∧
    (issues wrongBundle ∧ bundleBad (leNat (bufBytes (bundle0 wrongBundle).toBlock 0 8)) = true) ∧
    (issues emptyBundle ∧ bundleBad (leNat (bufBytes (bundle0 emptyBundle).toBlock 0 8)) = false ∧
      galsOf emptyBundle = [0] ∧ bundleWait (slotsOf emptyBundle) = none) ∧
    (issues (waitBundle 0) ∧ bundleBad (leNat (bufBytes (bundle0 (waitBundle 0)).toBlock 0 8)) = false ∧
      galsOf (waitBundle 0) = [0] ∧ bundleWait (slotsOf (waitBundle 0)) = some (5, 0) ∧
      (gclk (bundle0 (waitBundle 0)).toBlock 0).running = true ∧ 0 ≤ tokVisible (bundle0 (waitBundle 0)).toBlock 0 5) ∧
    (issues (waitBundle 1) ∧ galsOf (waitBundle 1) = [0] ∧ bundleWait (slotsOf (waitBundle 1)) = some (5, 1) ∧
      tokVisible (bundle0 (waitBundle 1)).toBlock 0 5 < 1) := by
  unfold issues; decide +kernel
theorem witness_BundlesIssueUntilSbound_slot : slotOf on0.toBlock x0 (5, 1 + 5 * 2 ^ 8) = some (.swait x0 5 0) ∧
    slotOf on0.toBlock x0 (2, 1) ≠ none ∧ reaches on0.toBlock x0 0 ∧ rebuilding on0.toBlock = false ∧ ctrOk x0.tag 5 = true :=
  ⟨by decide +kernel, by decide +kernel, on0_reaches, by decide +kernel, by decide⟩

/-! ## Witnesses: events, descriptors, boundaries -/

theorem witness_AnEventComesWithItsCycle : halls on0.toBlock = true ∧
    ({ on0 with arr := { on0.arr with contribs := [default] } } : State).arr.contribs ≠ [] ∧
    (0 < 50 ∧ 7 < 8 ∧ inPhase .steady 49 7 ({ on0 with
      gals := { on0.gals with keepers := [(49 * 8 + 7, { (default : Keeper) with phase := .steady })] } } : State).toBlock = true ∧
      procRuns on0.toBlock 1 = true) ∧
    inPhase .rampDown 0 0 ({ on0 with
      gals := { on0.gals with keepers := [(0, { (default : Keeper) with phase := .rampDown })] } } : State).toBlock = true ∧
    inPhase .rampUp 0 0 ({ on0 with
      gals := { on0.gals with keepers := [(0, { (default : Keeper) with phase := .rampUp })] } } : State).toBlock = true := by
  decide +kernel
/-- A ramp up with one cycle to come. -/
def ramp0 : State := { on0 with
  gals := { on0.gals with keepers := [(0, { (default : Keeper) with phase := .rampUp, ramp := 1 })] } }
def idle0 : State := { on0 with
  gals := { on0.gals with keepers := (List.range 8).map (fun a => (a, { (default : Keeper) with phase := .gated })) } }
theorem witness_AnEventComesWithItsCycle_first : inPhase .rampUp 0 0 ramp0.toBlock = true ∧ 1 ≤ 17001 ∧
    inPhase .steady 0 0 (iter autoCycle 1 ramp0.toBlock) = true ∧ inPhase .steady 0 0 (iter autoCycle 0 ramp0.toBlock) = false := by
  decide +kernel
/-- A suite's beats on alcove 0, and a keeper that holds a level. -/
def beats0 : State := { on0 with rel := { on0.rel with sentinels := [{ (default : Sentinel) with stop := 10 }] } }
def steady0 : State := { on0 with
  gals := { on0.gals with keepers := [(0, { (default : Keeper) with phase := .steady, hist := List.replicate 1024 3 })] } }
theorem witness_KeeperCyclesAndGalleryClocks : (halls on0.toBlock = true ∧ on0.freeze = none ∧ rampDue on0.toBlock = [] ∧
      (frozen0 .stall).freeze ≠ none) ∧
    (0 < alcoveBeats beats0.toBlock 0 0 ∧ alcoveBeats on0.toBlock 0 0 = 0 ∧ (keeper steady0.toBlock 0 0).phase = .steady ∧
      (keeper steady0.toBlock 0 0).gap + 1 < 3400) ∧
    (49 < 50 ∧ (gclk idle0.toBlock 0).running = true ∧ alcovesGated idle0.toBlock 0 = true ∧ veIdle idle0.toBlock 0 = true ∧
      (∀ d ∈ idle0.queues.descs, d.gal ≠ 0) ∧ (gclk idle0.toBlock 0).wakeAlcoves = 0 ∧ (gclk idle0.toBlock 0).wakeVe = false) ∧
    (gclk ({ on0 with gals := { on0.gals with clocks := [(49, { clkRuns with running := false, restarting := true })] } } : State).toBlock
      49).restarting = true := by decide +kernel
/-- A frozen program that waits at a bundle with the bytes `l`. -/
def waits0 (k : HoldKind) (l : Bytes) : State := { bundle0 l with freeze := some (zFreeze k true) }
theorem witness_FreezesEndWithTheirSlots :
    (let s := frozen0 .stall
     s.freeze = some (zFreeze .stall false) ∧ freezeMet s.toBlock (zFreeze .stall false) = true) ∧
    freezeMet (frozen0 .queueHold).toBlock (zFreeze .queueHold false) = true ∧
    freezeMet (frozen0 .wakeHold).toBlock (zFreeze .wakeHold false) = true ∧
    freezeMet ({ frozen0 .rampHold with
      gals := { on0.gals with keepers := [(0, { (default : Keeper) with phase := .steady })] } } : State).toBlock
      (zFreeze .rampHold false) = true ∧
    anySlot (.vadd x0 v0) = some x0 ∧
    (∀ k ∈ [HoldKind.stall, HoldKind.fetchHold], let s := waits0 k emptyBundle
      s.freeze = some (zFreeze k true) ∧ (zFreeze k true).held = [] ∧ s.prog.issuing = true ∧
      injects s.toBlock 0x0F (domLoc 8) = false ∧ bundleBad (leNat (bufBytes s.toBlock 0 8)) = false ∧
      bundleCtxs s.toBlock 0 0 0 (leNat (bufBytes s.toBlock 0 8)) ≠ [] ∧
      (∀ g ∈ (zFreeze k true).gals, 0 ≤ tokVisible s.toBlock g 0) ∧
      bundleWait (rawSlots 0 (bufBytes s.toBlock 0 8)) = none) := by
  decide +kernel
def desc0 (op : Nat) : Desc := { (default : Desc) with id := 7, op, gals := [0], slot := ds0 }
def fullQ : State := { on0 with queues := { on0.queues with descs := List.replicate 64 (desc0 1) } }
theorem witness_DSlotsQueueTheirDescriptors : (reaches on0.toBlock x0 0 ∧ ctrOk x0.tag ds0.token = true ∧
      queuedD on0.toBlock 0 < 64) ∧ reaches fullQ.toBlock x0 0 ∧ 64 ≤ queuedD fullQ.toBlock 0 ∧
    ctrOk ({ x0 with tag := 1 } : SlotCtx).tag ({ ds0 with token := 240 } : DslotF).token = true :=
  ⟨⟨on0_reaches, by decide, by decide⟩, by unfold reaches; decide, by decide +kernel, by decide⟩
/-- `on0` with an image whose transfer-descriptor table has `n` bytes and holds `l` from `o` on. -/
def image0 (n o : Nat) (l : Bytes) : State := { on0 with prog := { on0.prog with
  bufA := bytesAt 104 (leBytes 4 1024 ++ leBytes 4 n) ++ bytesAt (1024 + o) l } }
/-- `image0` with `d` as collective descriptor 0. -/
def collOn (d : Nat) : State := image0 65600 65536 (leBytes 64 d)
def noRank : State := { on0 with store := { on0.store with forceD := [(0x312000, List.replicate 64 127)] } }
def fullA : State := { on0 with queues := { on0.queues with descs := List.replicate 256 (desc0 11) } }
def cached0 : State := { on0 with colls := { on0.colls with
  cache := [(0, some { cid := 0, step := 0, attempt := 0, epoch := 0, first := 0, pages := 0 })] } }
theorem witness_AnASlotStartsItsCollective : reaches on0.toBlock x0 0 ∧ ctrOk x0.tag as0.token = true ∧
    queuedA on0.toBlock (galHall 0) < 256 ∧ rankSlot on0.toBlock (cdGroup (collDesc on0.toBlock 0) % 64) ≠ 127 :=
  ⟨on0_reaches, by decide +kernel⟩
theorem witness_AnASlotStartsItsCollective_send : (reaches (collOn (2 ^ 210)).toBlock x0 0 ∧ 0 < cdCount (collDesc (collOn (2 ^ 210)).toBlock 0) ∧
      queuedA (collOn (2 ^ 210)).toBlock 0 < 256) ∧
    (reaches noRank.toBlock x0 0 ∧ rankSlot noRank.toBlock (cdGroup (collDesc noRank.toBlock 0) % 64) = 127 ∧
      queuedA noRank.toBlock 0 < 256) := by unfold reaches; decide +kernel
theorem witness_AnASlotStartsItsCollective_form :
    (reaches (collOn (4 + 2 ^ 5 + 2 ^ 14)).toBlock x0 0 ∧
      groupOk (collDesc (collOn (4 + 2 ^ 5 + 2 ^ 14)).toBlock 0) (aColl 12 0 as0 (collOn (4 + 2 ^ 5 + 2 ^ 14)).toBlock) = false) ∧
    groupOk (collDesc on0.toBlock 0) (aColl 12 0 as0 on0.toBlock) = true ∧
    (reaches (collOn (255 * 2 ^ 294)).toBlock x0 0 ∧ slotEnabled (collOn (255 * 2 ^ 294)).toBlock (collDesc (collOn (255 * 2 ^ 294)).toBlock 0) = false ∧
      groupOk (collDesc (collOn (255 * 2 ^ 294)).toBlock 0) (aColl 13 1 as0 (collOn (255 * 2 ^ 294)).toBlock) = true) ∧
    (slotEnabled on0.toBlock (collDesc on0.toBlock 0) = true ∧ tagMatches on0.toBlock 0 (collDesc on0.toBlock 0) = false) ∧
    (reaches cached0.toBlock x0 0 ∧ slotEnabled cached0.toBlock (collDesc cached0.toBlock 0) = true ∧
      tagMatches cached0.toBlock 0 (collDesc cached0.toBlock 0) = true) ∧
    (reaches fullA.toBlock x0 0 ∧ 256 ≤ queuedA fullA.toBlock (galHall 0) ∧
      ctrOk ({ x0 with tag := 1 } : SlotCtx).tag ({ as0 with token := 240 } : AslotF).token = true) := by
  unfold reaches; decide +kernel
def inFlight : State := { on0 with queues := { on0.queues with descs := [desc0 1] } }
theorem witness_ADescriptorCompletesWithItsToken : inFlight.queues.descs.find? (fun d => d.id == 7) = some (desc0 1) ∧
    (desc0 1).op ≤ 3 ∧ (desc0 1).gals = [0] := by decide
def coll0 : Coll := { (default : Coll) with desc := 7, cid := 1023, op := 12, anchorSet := true }
def withColl : State := { on0 with colls := { on0.colls with colls := [coll0] } }
theorem witness_CollectivesTakeTheirMessages :
    withColl.colls.colls.find? (fun c => c.cid == 1023 && c.op == 12 && c.phase == 0 && c.anchorSet && allReady c) = some coll0 ∧
    1 % 65536 ≠ epochNo on0.toBlock % 65536 ∧
    (0 % 65536 = epochNo on0.toBlock % 65536 ∧ stepOrder on0.toBlock (32767 % 65536) (0 % 256) = .gt ∧
      stepOrder on0.toBlock (32768 % 65536) (0 % 256) = .lt ∧ stepOrder on0.toBlock (0 % 65536) (127 % 256) = .gt ∧
      stepOrder on0.toBlock (0 % 65536) (128 % 256) = .lt ∧ stepOrder on0.toBlock (0 % 65536) (0 % 256) = .eq) ∧
    withColl.colls.colls.find? (fun c => c.cid == 1023) = some coll0 ∧
    on0.colls.colls.find? (fun c => c.cid == 1023) = none := by decide +kernel
def bndIn (p : BPhase) (w : BWait) : State := { issuing0 with bnd := { issuing0.bnd with phase := p, wait := w } }
theorem witness_BoundariesEndTheStep :
    ((frozen0 .stall).freeze.isSome = true ∧ issuing0.prog.started = true ∧ rebuilding issuing0.toBlock = false) ∧
    ((bndIn .draining .nothing).bnd.phase = .draining ∧ (bndIn .draining .nothing).prog.started = true ∧
      unitsQuiet (drainUnits (drainLoop (bndIn .draining .nothing).toBlock)) = true ∧
      (drainUnits (drainLoop (bndIn .draining .nothing).toBlock)).queues.descs = []) ∧
    (let s := { bndIn .draining .nothing with queues := { on0.queues with descs := [desc0 1] } }
     s.bnd.phase = .draining ∧ s.queues.descs ≠ [] ∧ (drainUnits (drainLoop s.toBlock)).queues.descs ≠ []) ∧
    (∃ e ∈ grouped0.arr.groups, ∃ v, e.2 = some v ∧ v.closeAt = none) ∧
    (let s := { bndIn .actions .nothing with bnd := { (bndIn .actions .nothing).bnd with next := 12 } }
     procRuns s.toBlock 2 = true ∧ s.recov.replay = false ∧ s.recov.parkPending = false ∧ s.bnd.bits.testBit 10 = false ∧
       s.bnd.bits.testBit 17 = false ∧ s.bnd.bits.testBit 18 = false ∧
       satN 16 (num s.toBlock 0x600005 + 1) < numS s.toBlock 0x602100) ∧
    (procRuns (bndIn .actions .vote1).toBlock 2 = true ∧ (bndIn .actions .vote1).bnd.phase = .actions ∧
      (bndIn .actions .vote2).bnd.wait = .vote2 ∧ (bndIn .actions .agreement).bnd.wait = .agreement) := by
  decide +kernel
/-- Every link UP, and an under-connected module that waits. -/
def linked0 : State := { issuing0 with
  bnd := { issuing0.bnd with underConnWait := true }
  arc := { issuing0.arc with links := (List.range 18).map (fun l => (l, { linkZero with state := 5, active := 3 })) } }
theorem witness_BoundariesEndTheStep_retry : linked0.bnd.underConnWait = true ∧ procRuns linked0.toBlock 2 = true ∧
    bit (num (routeBuild linked0.bnd.planChanged linked0.toBlock) 0x332000) 15 = false ∧
    (routeBuild linked0.bnd.planChanged linked0.toBlock).recov.parkPending = false := by decide +kernel
theorem witness_BoundariesEndTheStep_group :
    let s := { issuing0 with bnd := { issuing0.bnd with phase := .actions, wait := .agreement, snapN := [(0x1F1003, 1), (0x1F1004, 3)] } }
    agreeGroup s.toBlock = true ∧ ∃ m ∈ agreePeers s.toBlock, agreeBy s.toBlock m = none := by decide +kernel

/-! ## Witnesses: the update and the stacks' operations -/

def mo1 : MemOpF := { mo0 with data := zeros 32 }
def gone0 : DescF := { d0 with ctx := { x0 with tag := 1 } }
/-- A pass of one row of eight FP32 elements at address 0, from transfer descriptor 0, with update block 1 where `e` is its
word 225 (EARLY); the sector there is poisoned or not. -/
def passOn (e : Nat) (bad : Bool) : State :=
  let s := image0 64 0 (leBytes 32 (32 * 2 ^ 64 + 2 ^ 167) ++ leBytes 32 (e * 2 ^ 225))
  { s with mem := { s.mem with poison := if bad then [sectorOf on0.toBlock 0] else [] } }
def runOf (e : Nat) : PassRun := (passOf x0 0 0 (passOn e false).toBlock).1.getD default
theorem witness_UpdatePassesAndMemorySideOperations : mo1.mtype ≤ 4 ∧ mo1.data.length = 32 ∧ plainSector State.reset.toBlock mo1.addr ∧
    passOf gone0.ctx (dXdesc gone0) gone0.slot.loff on0.toBlock = (none, stepBit 3 on0.toBlock) ∧ gone0.ctx.tag ≠ 0 := by
  unfold plainSector; decide +kernel
theorem witness_UpdatePassesAndMemorySideOperations_runs :
    (∀ e ∈ [0, 1], ∀ bad, passOf d0.ctx (dXdesc d0) d0.slot.loff (passOn e bad).toBlock = (some (runOf e), (passOn e bad).toBlock)) ∧
    (runOf 0).els = 8 ∧ ubEarly (runOf 0).blk = false ∧ ubEarly (runOf 1).blk = true := by decide +kernel
theorem witness_UpdatePassesAndMemorySideOperations_pass1 :
    let r := fun (bad : Bool) => (List.range (runOf 0).rows).foldl (pass1Row (runOf 0))
      ({ acc := 0, nf := false, bad := false, flags := 0 }, logName (runOf 0) (passOn 0 bad).toBlock)
    (r false).1.bad = false ∧ (r true).1.bad = true := by decide +kernel
theorem witness_UpdatePassesAndMemorySideOperations_pass2 :
    clipFactor none 0 = none ∧ (clipFactor (some (List.replicate 6 0)) 0x3F800000).isSome = true ∧
    (anyPoison (engineRead (runOf 0) (ubNorm (runOf 0).blk) 48 (passOn 0 true).toBlock).1 = true ∧
      anyPoison (engineRead (runOf 0) (ubNorm (runOf 0).blk) 48 (passOn 0 false).toBlock).1 = false) := by decide +kernel
theorem witness_UpdatePassesAndMemorySideOperations_elements : armed on0.toBlock = false ∧
    nth [(true, false), (false, false)] 0 (false, false) = (true, false) ∧
    nth [(true, false), (false, false)] 1 (false, false) = (false, false) ∧
    (let v := gradF32 0 0 0x3F800000
     f32Bad v.1 = false ∧ (f32Dy v.1).1 * 2 ^ ((f32Dy v.1).2 + 149).toNat < 2 ^ 193) ∧
    anyPoison ((leBytes 4 0x3F800000).map (fun b => (b, false))) = false := by decide +kernel

/-! ## Witnesses: reliability and firmware -/

def err0 : ErrEntry :=
  { detector := 1, loc := 0, injected := false, tag := 0, addr := 0, step := 0, tick := 0, extra := [], sev := 2, recorded := false }
def queue51 (e : ErrEntry) : State := { State.reset with logs := { State.reset.logs with queues := [(51, [e])] } }
theorem witness_ErrorQueuesAndRecords :
    (∀ e ∈ [err0, { err0 with injected := true }, { err0 with recorded := true }],
      51 < 52 ∧ mapGet [] (queue51 e).logs.queues 51 = e :: [] ∧ canPop (queue51 e).toBlock 51 = true) ∧
    ([0x01, 0x0A, 0x10, 0x11, 0x13, 0x14, 0x15].contains err0.detector = true ∧ fld err0.loc 60 4 ≤ 2) ∧
    (State.reset.logs.cper.length ≤ 4096 ∧ procRuns State.reset.toBlock 0 = true ∧
      procRuns ({ State.reset with fw := { State.reset.fw with procs := [(0, { procOk with running := false })] } } :
        State).toBlock 0 = false) ∧
    (mapGet [] State.reset.logs.queues (queueOf 0)).length < 256 ∧
    256 ≤ (mapGet [] ({ State.reset with logs := { State.reset.logs with queues := [(queueOf 0, List.replicate 256 err0)] } } :
      State).logs.queues (queueOf 0)).length := by decide +kernel
def withFix (f : MemFix) : State := { State.reset with mem := { State.reset.mem with fix := f } }
def fixed0 : State := withFix { State.reset.mem.fix with migrate := [7], standIn := [(7 * 136 + 127, 128)] }
/-- The page that the map puts on frame 7. -/
def page7 : Nat := (pagesOfFrame fixed0.toBlock 7).headD 0
theorem witness_MemoryRepairs_page : page7 < 524288 ∧ fixed0.bnd.phase ≠ .actions ∧ procRuns fixed0.toBlock 2 = true ∧
    waitingFrame fixed0.toBlock page7 = some 7 ∧ (∃ nk, reservePick fixed0.toBlock (7 / 8320) = some nk) ∧
    peHere (pmapEntry fixed0.toBlock page7) = 7 :=
  ⟨by decide +kernel, by decide +kernel, by decide +kernel, by decide +kernel,
    ⟨(reservePick fixed0.toBlock 0).getD 0, by decide +kernel⟩, by decide +kernel⟩
theorem witness_MemoryRepairs :
    (7 < 8 ∧ 135 < 136 ∧ 31 < 32 ∧ 8383 < 8384 ∧ servedRow State.reset.toBlock (bankKey 7 135 31) 8319 = some 8319 ∧
      mapGet 0 State.reset.mem.fix.spareUsed (bankKey 7 135 31) < 64 ∧ (num State.reset.toBlock 0x502000).testBit 7 = false) ∧
    fixed0.mem.fix.standIn.find? (fun c => c.1 == 7 * 136 + 127) = some (7 * 136 + 127, 128) ∧
    ((withFix { State.reset.mem.fix with copies := [(7 * 136 + 127, 128)] }).mem.fix.copies.find?
      (fun c => c.1 == 7 * 136 + 127) = some (7 * 136 + 127, 128) ∧ logicalChan State.reset.toBlock 7 127 = some 127) := by
  decide +kernel
/-- A targeted sentinel for array 0 of gallery 49, whose alcove 0 a window frees. -/
def target0 : Target := { gal := 49, alcs := [0], quads := [], detector := 1, loc := locOf 0 49 0 0 0 0, age := 0 }
def targeted (pend : List Nat) : State := { on0 with
  side := [{ win0 with gals := [49], alcoves := 1 }], rel := { on0.rel with targets := [target0], pendingFences := pend } }
def sweep0 (k : Nat) : Sweep :=
  { gal := 49, point := k, failed := 0, reduced := false, railMv := 0, clockKhz := 850000, junction := 0 }
def swept (k : Nat) : State := { State.reset with rel := { State.reset.rel with sweep := some (sweep0 k) } }
/-- A sweep that comes to a bound gallery, whose hall has others or none. -/
def sweepBound (full : Bool) : State := { on0 with rel := { on0.rel with
  floorMap := if full then (range' 1 24).map (fun g => (locOf 3 g 0 0 0 0, 3 <<< 56)) else [] } }
theorem witness_SentinelsAndSweepsClassify :
    (∀ r ∈ [SuiteResult.of none 0 [], SuiteResult.of (some .array) 0 [15]],
      49 < 50 ∧ armed (targeted []).toBlock = false ∧
      (targeted []).rel.targets.find? (fun t => t.gal == 49 && sentinelMay (targeted []).toBlock t && runsOn t r) = some target0) ∧
    (fencePends (targeted [target0.loc]).toBlock target0.loc = true ∧
      (suiteEvent 49 (.columns 0 0 [15])).isSome = true) ∧
    (numF State.reset.toBlock 0x522001 ≠ 0 ∧ State.reset.rel.sweep = none ∧ procRuns State.reset.toBlock 2 = true ∧
      procRuns State.reset.toBlock 1 = true ∧ pstate State.reset.toBlock ≠ 4 ∧ halls State.reset.toBlock = true ∧
      State.reset.rel.sweepUnfit = [] ∧ sweepPick State.reset.toBlock = some 0) ∧
    (∀ full, numF (sweepBound full).toBlock 0x522001 ≠ 0 ∧ (sweepBound full).rel.sweep = none ∧ (sweepBound full).rel.sweepUnfit = [] ∧
      (sweepOrder (sweepBound full).toBlock).find? (fun g => galHall g == 0 && (boundPhys (sweepBound full).toBlock).contains g) = some 0 ∧
      hallFree (sweepBound full).toBlock 0 = !full ∧ sweepPick (sweepBound full).toBlock = some 1) ∧
    sweepPick ({ on0 with bind := { on0.bind with gal := (List.range 50).map (fun g => (g, g + 1)) } } : State).toBlock = none ∧
    (∀ k ∈ [0, 2], injects (swept k).toBlock 0x16 (locOf 3 49 0 0 0 0) = false ∧ procRuns (swept k).toBlock 1 = true ∧
      k < 3 ∧
      (swept k).rel.sweep = some (sweep0 k)) := by decide +kernel
theorem witness_TheSecurityCoreWritesFlash :
    (({ State.reset with rel := { State.reset.rel with floorWait := [(1, 2)] } } : State).rel.floorWait = (1, 2) :: [] ∧
      procRuns State.reset.toBlock 0 = true) ∧
    (({ State.reset with store := { State.reset.store with unwritten := [0x310000] } } : State).store.unwritten = 0x310000 :: [] ∧
      pstate State.reset.toBlock ≠ 0 ∧ 0x310000 ≠ 0x1F0002 ∧ ((objFind 0x310000).map (fun o => typSize o.typ)) = some 0 ∧
      ((objFind 0x410002).map (fun o => typSize o.typ)) = some 1 ∧ 0x410002 ≠ 0x1F0002) ∧
    ({ State.reset with store := { State.reset.store with unwritten := [0x1F0002] } } : State).store.unwritten = 0x1F0002 :: [] ∧
    ({ State.reset with recov := { State.reset.recov with signWait := [0] } } : State).recov.signWait = 0 :: [] ∧
    ({ State.reset with logs := { State.reset.logs with cperDue := true } } : State).logs.cperDue = true := by decide +kernel
theorem witness_BridgeAndAdapterErrors : (mapGet [] State.reset.logs.queues (queueOf (domLoc 8))).length < 256 ∧ 1 < 2 ∧
    2 ≤ fld (port portUp.toBlock 0).link 0 2 ∧ (mapGet [] portUp.logs.queues (50 + 0)).length < 256 ∧
    halls portUp.toBlock = true := by decide +kernel
theorem witness_ProcessorsRestartOnAWatchdogOrAMismatch : 52 < 53 ∧ (proc State.reset.toBlock 52).running = true ∧
    (proc State.reset.toBlock 52).held = false ∧ pstate State.reset.toBlock ≠ 0 ∧
    (proc State.reset.toBlock 0).running = true ∧ (proc State.reset.toBlock 2).running = true := by decide +kernel
def restarting (n f : Nat) (h act : Bool) : State := { State.reset with fw := { State.reset.fw with
  procs := [(n, { running := false, held := false, halted := false, fails := f, hold100 := h, staged := true })]
  order := [n], activating := act } }
/-- An activation that is taken back: the security core restarts, and then those of `rest`. -/
def reverting0 (rest : List Nat) : State := { restarting 0 0 false true with
  fw := { (restarting 0 0 false true).fw with order := [], reverting := 0 :: rest } }
theorem witness_RestartsAndActivationsEnd :
    (∀ n ∈ [0, 1, 2], ∀ f ∈ [0, 1, 2], n < 3 ∧ procRestarts (restarting n f false false).toBlock n = true ∧
      (proc (restarting n f false false).toBlock n).fails = f ∧ (restarting n f false false).fw.activating = false ∧
      (restarting n f false false).fw.reverting = []) ∧
    (∀ f ∈ [1, 2], 49 < 50 ∧ procRestarts (restarting 52 f false false).toBlock (3 + 49) = true ∧
      (proc (restarting 52 f false false).toBlock (3 + 49)).fails = f ∧
      injects (restarting 52 f false false).toBlock 0x17 (locOf 3 49 0 0 0 0) = false ∧
      (mapGet [] (restarting 52 f false false).logs.queues 49).length < 256) ∧
    (∀ rest ∈ [[], [1]], let s := reverting0 rest
      2 ≠ 0 ∧ s.fw.activating = true ∧ s.fw.order = [] ∧ s.fw.reverting = 0 :: rest) ∧
    ((proc (restarting 52 0 true false).toBlock (3 + 49)).hold100 = true ∧
      (proc (restarting 52 0 true false).toBlock (3 + 49)).held = false) ∧
    ((restarting 2 0 false true).fw.order = 2 :: [] ∧ (restarting 2 0 false true).fw.activating = true ∧
      procRestarts (restarting 2 0 false true).toBlock 2 = true ∧ (proc (restarting 2 0 false true).toBlock 2).staged = true) := by
  decide +kernel

/-! ## Witnesses: links and packets -/

def withLink (k : Link) : State := { State.reset with arc := { State.reset.arc with links := [(0, k)] } }
def aligning0 : Link := { linkZero with state := 2, active := 2 ^ 24 - 1 }
def noSlot (s : State) : State := { s with arc := { s.arc with slot := 127 } }
theorem witness_LinksTrainAndComeBack : (halls (linkIn 1).toBlock = true ∧ 17 < 18 ∧ (link (linkIn 1).toBlock 0).active &&& 1 ≠ 0 ∧
      (link (linkIn 1).toBlock 0).state = 1) ∧
    (∀ s ∈ [withLink aligning0, noSlot (withLink aligning0)], (link s.toBlock 0).state = 2 ∧
      numF s.toBlock 0x320003 ≤ popBelow 25 (link (keepLocked 0 (2 ^ 24 - 1) s.toBlock) 0).active) ∧
    ((withLink aligning0).arc.slot < 72 ∧ 72 ≤ (noSlot (withLink aligning0)).arc.slot) ∧
    (link (linkIn 7).toBlock 0).state = 7 ∧ (link (linkIn 0).toBlock 0).state = 0 ∧
    (link (withLink { linkZero with state := 0, holdOver := true }).toBlock 0).holdOver = true ∧
    (link (linkIn 7).toBlock 0).state ≠ 0 := by decide +kernel
theorem witness_ALinkFailsWithItsReason : halls (linkIn 1).toBlock = true ∧ (linkIn 1).arc.slot < 72 ∧
    (link (linkIn 1).toBlock 0).state = 1 ∧ (link (linkIn 2).toBlock 0).state = 2 ∧
    carries (link (linkIn 6).toBlock 0).state = true ∧ (link (linkIn 5).toBlock 0).state = 5 := by decide +kernel
/-- A link in UP with all 24 lanes and lane 24 as spare. -/
def wide : State := withLink { linkZero with state := 5, active := 2 ^ 24 - 1, spareTraining := true }
theorem witness_LanesRetireAndJoin : (24 < 25 ∧ halls wide.toBlock = true ∧ (link wide.toBlock 0).state = 5 ∧ wide.arc.slot < 72 ∧
      (link wide.toBlock 0).active.testBit 24 = false) ∧
    ((link wide.toBlock 0).active.testBit 0 = true ∧ popBelow 25 (link wide.toBlock 0).active ≠ 1 ∧
      numF wide.toBlock 0x320003 ≤ popBelow 25 (putBit (link wide.toBlock 0).active 0 false)) ∧
    (let s := linkIn 5
     (link s.toBlock 0).active.testBit 0 = true ∧ popBelow 25 (link s.toBlock 0).active ≠ 1 ∧
       popBelow 25 (putBit (link s.toBlock 0).active 0 false) < numF s.toBlock 0x320003 ∧ carries (link s.toBlock 0).state = true) ∧
    (let s := withLink { linkZero with state := 5, active := 1 }
     (link s.toBlock 0).active.testBit 0 = true ∧ popBelow 25 (link s.toBlock 0).active = 1 ∧ carries (link s.toBlock 0).state = true) ∧
    (carries (link wide.toBlock 0).state = true ∧ (link wide.toBlock 0).failed.testBit 24 = false ∧
      (link wide.toBlock 0).spareTraining = true) ∧
    (0 ≤ numF wide.toBlock 0x320008 ∧ 0 ≤ numF wide.toBlock 0x320009 ∧ numF wide.toBlock 0x320008 < 1000000 ∧
      numF wide.toBlock 0x320009 < 2 ^ 40) := by decide +kernel
theorem witness_LanesRetireAndJoin_two : ∃ t, exec (.laneErrorSecond 0 [(0, 0, 0)]) wide = .next t ∧ halls t.toBlock = true :=
  ⟨_, rfl, by decide +kernel⟩
def tx0 (n : Nat) : TxFlit := { (default : TxFlit) with lane := 1, laneCount := 255, resends := n }
def sending (n : Nat) : State := withLink { linkZero with state := 5, active := 3, sent := [tx0 n] }
theorem witness_AFlitIsResent : (halls (sending 0).toBlock = true ∧ 1 < 25 ∧
      (link (sending 0).toBlock 0).sent.find? (fun t => t.lane == 1 && t.laneCount == 255) = some (tx0 0) ∧
      (link (sending 0).toBlock 0).sent.find? (fun t => t.flit.lseq == 0) = some (tx0 0) ∧
      activeLanes (link (sending 0).toBlock 0) ≠ []) ∧
    (tx0 0).resends < numF (sending 0).toBlock 0x320007 ∧ numF (sending 65535).toBlock 0x320007 ≤ (tx0 65535).resends ∧
    carries (link (sending 65535).toBlock 0).state = true ∧ (sending 65535).arc.slot < 72 := by
  decide +kernel
/-- A link in READY whose peer is known. -/
def known : State := withLink { linkZero with state := 4, active := 3, peerSlot := 71, beacon := zeros 240, heard := true }
/-- A link in PROBE, on a module whose wiring plan gives link 0 to link 7 of slot 1, and the beacon of that link. -/
def planned0 : State := { linkIn 3 with store := { State.reset.store with forceD := [(0x310000, zeros 16 ++ leBytes 2 39)] } }
def pay0 : Bytes := zeros 16 ++ [1, 7] ++ zeros 14 ++ planDigest planned0.toBlock ++ zeros 144
theorem witness_BeaconsGoBothWays : halls (linkIn 3).toBlock = true ∧ carries (link (linkIn 3).toBlock 0).state = true ∧
    (link (linkIn 3).toBlock 0).active ≠ 0 ∧ (link (linkIn 3).toBlock 0).state = 3 ∧
    planCheck (linkIn 3).toBlock 0 (slice (zeros 240) 0 240) ≠ 0 ∧
    (link (linkIn 4).toBlock 0).state = 4 ∧ (link (linkIn 5).toBlock 0).state = 5 ∧
    (link known.toBlock 0).heard = true ∧ (link known.toBlock 0).state = 4 ∧ known.arc.slot < 72 ∧
    bcSerial (link known.toBlock 0).beacon ≠ bcSerial (slice (List.replicate 240 1) 0 240) ∧
    bcSerial (link known.toBlock 0).beacon = bcSerial (slice (zeros 240) 0 240) := by decide +kernel
theorem witness_BeaconsGoBothWays_ready : (link planned0.toBlock 0).state = 3 ∧
    (let b := slice pay0 0 240
     planCheck (setLink 0 { link planned0.toBlock 0 with beacon := b, heard := true, peerSlot := bcSlot b % 128, peerLink := bcLink b % 32 }
       planned0.toBlock) 0 b = 0) := by decide +kernel
/-- A flit of a kind with a right CRC. -/
def flitOf (k : Nat) : Bytes :=
  let b := zeros 11 ++ leBytes 1 (16 * k) ++ zeros 240
  b ++ leBytes 4 (crc32 b)
theorem witness_FlitsAreCheckedAndTaken : halls (linkIn 5).toBlock = true ∧ carries (link (linkIn 5).toBlock 0).state = true ∧
    (link (linkIn 5).toBlock 0).active.testBit 1 = true ∧ injects (linkIn 5).toBlock 0x0C (laneLoc 0 1) = false ∧
    injects (linkIn 5).toBlock 0x0D (laneLoc 0 1) = false ∧ injects (linkIn 5).toBlock 0x0E (laneLoc 0 0) = false ∧
    (mapGet [] (linkIn 5).logs.queues (queueOf (laneLoc 0 1))).length < 256 ∧
    flitCrcOk (zeros 256) = false ∧ flitCrcOk (flitOf 0) = true ∧ (parseFlit (flitOf 0)).kind = 0 ∧
    flitCrcOk (flitOf 1) = true ∧ (parseFlit (flitOf 1)).kind = 1 ∧ flitCrcOk (flitOf 2) = true ∧
    (parseFlit (flitOf 2)).kind = 2 ∧ flitCrcOk (flitOf 3) = true ∧ (parseFlit (flitOf 3)).kind = 3 := by decide +kernel
/-- A packet for slot 0 with a header. -/
def pkt0 (h : Nat) : Packet := { pk0 with header := h }
def rx0 : Nat := mapGet 0 on0.arc.rxSeq (rxKey 0 0 0)
theorem witness_PacketsTakeEffectOnceAndInOrder :
    (∀ e ∈ [(1, 1), (2, 2), (3, 3), (1, 1 + 2 ^ 66), (3, 3 + 2 ^ 120)], phOp (pkt0 e.2).header = e.1 ∧ (pkt0 e.2).dst = on0.arc.slot ∧
      stalePacket on0.toBlock (pkt0 e.2) = false ∧ phPseq (pkt0 e.2).header = rx0) ∧
    (phMop 1 = 0 ∧ phTgt (1 + 2 ^ 66) = 1 ∧ physOf on0.toBlock (fld (phAddr (1 + 2 ^ 66)) 23 6) = some 0) ∧
    (phTgt 1 = 0 ∧ epochOk on0.toBlock (phAddr 1) (packetSpan 1 (min (phLen 1 + 1) (pkt0 1).data.length)) (phLepoch 1) = true) ∧
    (on0.recov.job = none ∧ on0.arc.loop = [] ∧ physOf on0.toBlock (phTgal (3 + 2 ^ 120)) = some 0 ∧ phTval (3 + 2 ^ 120) ≠ 0) ∧
    (∀ h ∈ [2 + 32769 * 2 ^ 20, 2 + 2 ^ 20], phOp h = 2 ∧ stalePacket on0.toBlock (pkt0 h) = false ∧ phPseq h ≠ rx0) := by
  decide +kernel
def kept0 : Kept := { (default : Kept) with p := { pk0 with header := 0 } }
def retaining0 : State := { State.reset with arc := { State.reset.arc with retain := [kept0] } }
theorem witness_StreamsAreRetainedAndAcknowledged :
    (let mine := fun (s : State) (r : Kept) => packetKey s.toBlock r.p == streamKey s.toBlock 0 0 0 0
     (State.reset.arc.retain.filter (mine State.reset)).any (fun r => phPseq r.p.header == 0) = false ∧
     (retaining0.arc.retain.filter (mine retaining0)).any (fun r => phPseq r.p.header == 0) = true ∧
     State.reset.arc.retain.filter (fun r => mine State.reset r && phPseq r.p.header == 0) = [] ∧
     retaining0.arc.retain.filter (fun r => mine retaining0 r && phPseq r.p.header == 0) ≠ []) ∧
    State.reset.arc.rxNew = [] ∧ ({ State.reset with arc := { State.reset.arc with rxNew := [8] } } : State).arc.rxNew = [8] := by
  decide +kernel
/-- A module in step 5. -/
def step5 : State := { State.reset with toBlock := setNum 0x600001 5 State.reset.toBlock }
theorem witness_BoundaryMessagesAndContextsAreKept :
    (∀ n ∈ [5, 6], stepNo step5.toBlock ≤ n ∧ n < stepNo step5.toBlock + 2 ∧ vo0.epoch = epochNo step5.toBlock ∧
      step5.bnd.phase ≠ .actions) ∧
    (4 < stepNo step5.toBlock ∧ stepNo step5.toBlock + 2 ≤ 7 ∧ 1 ≠ epochNo step5.toBlock) ∧
    (earlier step5.toBlock 4 0 = true ∧ earlier step5.toBlock 5 0 = false ∧ earlier step5.toBlock 6 0 = false ∧
      (∀ c ∈ step5.bnd.agrees, ¬ (c.slot = ag0.slot ∧ c.step = ag0.step ∧ c.attempt = ag0.attempt)) ∧
      ∃ c ∈ ({ step5 with bnd := { step5.bnd with agrees := [ag0] } } : State).bnd.agrees,
        c.slot = ag0.slot ∧ c.step = ag0.step ∧ c.attempt = ag0.attempt) ∧
    ((([(0, zeros 4)] : List (Nat × Bytes)).map (fun p => p.2.length)).foldl (· + ·) 0 < 5 ∧
      4 ≤ (([(0, zeros 4)] : List (Nat × Bytes)).map (fun p => p.2.length)).foldl (· + ·) 0 ∧ ctxValid (zeros 4) = false) := by
  decide +kernel

/-! A whole valid context: SHA-512 gives 64 bytes, and the hash of `ctx0` stands in it. -/

theorem shaRound_length (v : List Nat) (k : Nat) (h : v.length = 8) : (shaRound v k).length = 8 := by
  unfold shaRound; split <;> simp_all
theorem shaRounds_length (l : List Nat) : ∀ v : List Nat, v.length = 8 → (l.foldl shaRound v).length = 8 := by
  induction l with
  | nil => exact fun v h => h
  | cons k l ih => exact fun v h => ih _ (shaRound_length v k h)
theorem shaBlock_length (h : List Nat) (b : Bytes) (hh : h.length = 8) : (shaBlock h b).length = 8 := by
  simp [shaBlock, List.length_zipWith, shaRounds_length _ h hh, hh]
theorem shaBlocks_length (n : Nat) : ∀ (b : Bytes) (h : List Nat), h.length = 8 → (shaBlocks n b h).length = 8 := by
  induction n with
  | zero => exact fun _ _ h => h
  | succ n ih => exact fun _ _ h => ih _ _ (shaBlock_length _ _ h)
theorem sha512_length (b : Bytes) : (sha512 b).length = 64 := by
  have h : ∀ l : List Nat, (l.flatMap (beBytes 8)).length = 8 * l.length := by
    intro l
    induction l with
    | nil => rfl
    | cons a l ih => simp only [List.flatMap_cons, List.length_append, ih, List.length_cons]; simp only [beBytes, List.length_reverse, show ∀ n x, (leBytes n x).length = n from fun n => by induction n with
      | zero => exact fun _ => rfl
      | succ n ih => exact fun x => by simp [leBytes, ih]]; omega
  simp only [sha512, h, shaBlocks_length _ _ sha512H rfl]

/-- The smallest context: its first 192 bytes, and its hash over everything else. -/
def ctxHead : Bytes := zeros 4 ++ leBytes 4 119040 ++ zeros 184
def ctxBody : Bytes := List.replicate 118784 0
def ctx0 : Bytes := ctxHead ++ (sha512 (ctxHead ++ ctxBody) ++ ctxBody)
theorem ctxHead_length : ctxHead.length = 192 := by decide +kernel
theorem ctx0_length : ctx0.length = 119040 := by
  rw [ctx0, List.length_append, List.length_append, ctxHead_length, sha512_length, ctxBody, List.length_replicate]
theorem ctx0_at (o n : Nat) (h : o + n ≤ 192) : leAt ctx0 o n = leAt ctxHead o n := by
  have e : (ctx0.drop o).take n = (ctxHead.drop o).take n := by
    rw [ctx0, List.drop_append_of_le_length (by rw [ctxHead_length]; omega),
      List.take_append_of_le_length (by rw [List.length_drop, ctxHead_length]; omega)]
  simp only [leAt, slice, e]
theorem ctx0_valid : ctxValid ctx0 = true := by
  have h1 : ctxSize ctx0 = 119040 := (ctx0_at 4 4 (by omega)).trans (by decide +kernel)
  have h2 : ctxLanes ctx0 = 0 := (ctx0_at 24 4 (by omega)).trans (by decide +kernel)
  have h3 : ctx0.drop 192 = sha512 (ctxHead ++ ctxBody) ++ ctxBody := by
    rw [ctx0, ← ctxHead_length, List.drop_left]
  have h4 : (ctx0.drop 192).take 64 = sha512 (ctxHead ++ ctxBody) := by
    rw [h3, ← sha512_length (ctxHead ++ ctxBody), List.take_left]
  have h5 : ctxHash ctx0 = sha512 (ctxHead ++ ctxBody) := by
    simp only [ctxHash, slice, h4, sha512_length]; simp
  have h6 : ctx0.take 192 = ctxHead := by rw [ctx0, ← ctxHead_length, List.take_left]
  have h7 : ctx0.drop 256 = ctxBody := by
    rw [show 256 = 192 + 64 from rfl, ← List.drop_drop, h3, ← sha512_length (ctxHead ++ ctxBody), List.drop_left]
  unfold ctxValid
  rw [ctx0_length, h1, h2, h5, h6, h7]
  simp
theorem spliced_whole (c : Bytes) (n : Nat) (h : c.length = n) :
    (([(0, c)] : List (Nat × Bytes)).foldl (fun b p => splice b p.1 p.2) []).take n = c := by
  simp [splice, slice, ← h]
theorem witness_BoundaryMessagesAndContextsAreKept_context :
    119040 ≤ (([(0, ctx0)] : List (Nat × Bytes)).map (fun p => p.2.length)).foldl (· + ·) 0 ∧ (0 = step5.arc.slot ∨
      ((mapSet [] step5.recov.contexts 71 ctx0).filter (fun e => e.1 != step5.arc.slot)).length ≤ 8) ∧ 71 ≠ step5.arc.slot ∧
      ((mapSet [] step5.recov.contexts 71 ctx0).filter (fun e => e.1 != step5.arc.slot)).length ≤ 8 ∧
    ctxValid ((([(0, ctx0)] : List (Nat × Bytes)).foldl (fun b p => splice b p.1 p.2) []).take 119040) = true := by
  refine ⟨by rw [List.map_cons, ctx0_length]; decide, .inl rfl, by decide, ?_, ?_⟩
  · have h : step5.recov.contexts = [] := rfl
    rw [h, mapSet]; split <;> exact Nat.le_trans (List.length_filter_le _ _) (by simp)
  rw [spliced_whole _ _ ctx0_length]
  exact ctx0_valid

/-! ## Witnesses: the host's plane -/

/-- Vestibule A in L0 while a wipe is in progress. -/
def wiping0 : State := { portUp with toBlock := setNum 0x720100 (putBit (num portUp.toBlock 0x720100) 7 true) portUp.toBlock }
theorem witness_TheVestibuleWindowAndAperture : (1 < 2 ∧ alive portUp.toBlock = true ∧ (port portUp.toBlock 0).link = 2 ∧
      65532 % 4 = 0 ∧ 65532 + 4 ≤ 65536 ∧ 2 ^ 32 - 1 < 2 ^ 32 ∧ injects portUp.toBlock 0x19 (domLoc 9) = false) ∧
    (halls State.reset.toBlock = true ∧ (port State.reset.toBlock 0).link < 2) ∧
    (let h : VHead := { op := 255, space := 1, cls := 3, tag := 4095, len := 4095, addr := 2 ^ 39 - 1, cst := 7 }
     h.op < 256 ∧ h.space < 2 ∧ h.cls < 4 ∧ h.tag < 4096 ∧ h.len < 4096 ∧ h.addr < 2 ^ 39 ∧ h.cst < 8) ∧
    (1 ≤ 4096 ∧ 2 ≤ 2 ∧ 4 ≤ 4 ∧ (0 = 0 ∨ 4 < 0) ∧ 4 < 5) ∧
    (let s := wiping0
     alive s.toBlock = true ∧ (port s.toBlock 0).link = 2 ∧ injects s.toBlock 0x19 (domLoc 9) = false ∧
       (num s.toBlock 0x720100).testBit 7 = true ∧ (num portUp.toBlock 0x720100).testBit 7 = false) ∧
    (2 ^ 39 - 1 < 2 ^ 39 ∧ (2 ^ 39 - 1) / 4096 = (2 ^ 39 - 1 + 1 - 1) / 4096 ∧ 0 / 4096 = (0 + 4096 - 1) / 4096) ∧
    (let s := { portUp with toBlock := setPstate 1 portUp.toBlock }
     alive s.toBlock = true ∧ (port s.toBlock 0).link = 2 ∧ injects s.toBlock 0x19 (domLoc 9) = false ∧ halls s.toBlock = false) ∧
    ((unitMask (memRead 0 0 1 portUp.toBlock).1).filter id).length = 0 := by decide +kernel
theorem witness_TheVestibuleWindowAndAperture_sector : plainSector portUp.toBlock 4064 ∧ 4064 / 4096 = (4064 + 32 - 1) / 4096 ∧
    (zeros 32).length = 32 ∧ portUp.mem.poison.contains (sectorOf portUp.toBlock 4064) = false := by
  unfold plainSector; decide +kernel
def mapped : State := { on0 with portA := { on0.portA with link := 2, dbmap := [(61, 2 ^ 31 + 239)] } }
theorem witness_DoorbellsCountAndAct : (alive mapped.toBlock = true ∧ (port mapped.toBlock 0).link = 2 ∧ 61 < 62 ∧
      injects mapped.toBlock 0x19 (domLoc 9) = false ∧
      bit (mapGet 0 (port mapped.toBlock 0).dbmap 61) 31 = true ∧ 65535 % 65536 ≠ 0 ∧
      physOf mapped.toBlock (min (fld (mapGet 0 (port mapped.toBlock 0).dbmap 61) 8 6) 47) = some 0) ∧
    (bit (mapGet 0 (port mapped.toBlock 0).dbmap 0) 31 = false ∧ 65536 % 65536 = 0) ∧
    (fld 0 12 8 = mapped.bnd.attempt % 256 ∧ (∀ e ∈ mapped.colls.heldBells, e.1 ≠ (0, 1, 0)) ∧
      mapped.colls.doneBells.contains (0, 1, 0) = false ∧ bellPassed mapped.toBlock (fld 0 0 10) 1 = false) ∧
    fld 4096 12 8 ≠ mapped.bnd.attempt % 256 ∧
    bellPassed ({ mapped with colls := { mapped.colls with doneReds := [0] } } : State).toBlock (fld 0 0 10) 1 = true := by decide +kernel
/-- The block with a request's ring counted and the request in service. -/
def served (typ : Nat) (r : ReqF) (s : State) : Block :=
  modPort r.port (fun v => { v with service := some (r.seq % 2 ^ 32, typ), mbState := 1 }) (countRing r.port s.toBlock)
def loadedIn (started : Bool) (p : BPhase) : State := { portUp with
  prog := { portUp.prog with loaded := true, started }, bnd := { portUp.bnd with phase := p } }
theorem witness_ARequestIsTakenOnce : (reqHead (.start rq0) = some (0x11, rq0) ∧ alive portUp.toBlock = true ∧
      (port portUp.toBlock 0).link = 2 ∧ injects portUp.toBlock 0x19 (domLoc 9) = false) ∧
    ({ portUp.portA with service := some (0, 0x11) } : Vport).service = some (0, 0x11) ∧
    ({ portUp.portA with heldSeq := 1 } : Vport).heldSeq = 0 % 2 ^ 32 + 1 ∧
    ((port portUp.toBlock 0).service = none ∧ (port portUp.toBlock 0).heldSeq ≠ 0 % 2 ^ 32 + 1 ∧
      gate 0x03 (served 0x03 rq0 portUp) = none ∧ reqWaits 0x03 (served 0x03 rq0 portUp) = false) ∧
    (∃ st, gate 0x40 (served 0x40 rq0 { portUp with toBlock := setPstate 1 portUp.toBlock }) = some st) ∧
    (let s : State := { portUp with fw := { portUp.fw with procs := [(2, { procOk with running := false })] } }
     gate 0x12 (served 0x12 rq0 s) = none ∧ reqWaits 0x12 (served 0x12 rq0 s) = true ∧ procRuns (served 0x12 rq0 s) 0 = true) ∧
    (let s : State := { portUp with fw := { portUp.fw with procs := [(0, { procOk with running := false })] } }
     reqHead (.attestationReport rq0 (zeros 64)) = some (0x30, rq0) ∧ (zeros 64).length = 64 ∧
       gate 0x30 (served 0x30 rq0 s) = none ∧ reqWaits 0x30 (served 0x30 rq0 s) = true ∧ procRuns (served 0x30 rq0 s) 0 = false) :=
  ⟨by decide +kernel, rfl, rfl, by decide +kernel, ⟨7, by decide +kernel⟩, by decide +kernel, by decide +kernel⟩
theorem taken0 (i : Instr) (typ : Nat) (s : State) (h : reqHead i = some (typ, rq0)) (h1 : alive s.toBlock = true)
    (h2 : (port s.toBlock 0).link = 2 ∧ injects s.toBlock 0x19 (domLoc 9) = false ∧ (port s.toBlock 0).service = none ∧ (port s.toBlock 0).heldSeq = 0)
    (h3 : gate typ (served typ rq0 s) = none) (h4 : reqWaits typ (served typ rq0 s) = false) :
    taken i rq0 s (served typ rq0 s) :=
  ⟨typ, h, by decide, h1, h2.1, h2.2.1, h2.2.2.1, by rw [show rq0.port = 0 from rfl, h2.2.2.2]; omega, rfl, h3, h4⟩
theorem witness_RequestsAboutTheProgram :
    (taken (.objectRead rq0 0 0 0 0) rq0 portUp (served 0x01 rq0 portUp) ∧
      taken (.objectWrite rq0 0 0 0 []) rq0 portUp (served 0x02 rq0 portUp) ∧
      taken (.digestQuery rq0) rq0 portUp (served 0x03 rq0 portUp) ∧
      taken (.programLoad rq0 0 0) rq0 portUp (served 0x10 rq0 portUp)) ∧
    (let s := loadedIn false .none
     taken (.start rq0) rq0 s (served 0x11 rq0 s) ∧ (pstate (served 0x11 rq0 s) ≠ 1 ∧ (served 0x11 rq0 s).pwr.trans = none ∧ (served 0x11 rq0 s).prog.loaded = true ∧
       (served 0x11 rq0 s).prog.started = false ∧ (served 0x11 rq0 s).bnd.phase ≠ .actions ∧ (served 0x11 rq0 s).recov.job = none) ∧
       taken (.replayStart rq0) rq0 s (served 0x11 rq0 s) ∧ stepRunning (served 0x11 rq0 s) = false) ∧
    (let s := loadedIn true .none
     taken (.programLoad rq0 0 512) rq0 s (served 0x10 rq0 s) ∧ stepRunning (served 0x10 rq0 s) = true ∧
       stepRunning (served 0x10 rq0 portUp) = false ∧ taken (.park rq0) rq0 s (served 0x12 rq0 s) ∧ (served 0x12 rq0 s).prog.loaded = true ∧
       (served 0x12 rq0 s).prog.started = true ∧ isParked (served 0x12 rq0 s) = false) ∧
    (let s := { loadedIn true .stopped with recov := { portUp.recov with contexts := [(0, [1])] } }
     taken (.resume rq0) rq0 s (served 0x13 rq0 s) ∧ (isParked (served 0x13 rq0 s) = true ∧ (served 0x13 rq0 s).prog.loaded = true ∧
         stepRunning (served 0x13 rq0 s) = false ∧ (served 0x13 rq0 s).bnd.phase ≠ .actions ∧ (served 0x13 rq0 s).pwr.trans = none) ∧
       taken (.save rq0 (2 ^ 39 - 2 ^ 20)) rq0 s (served 0x14 rq0 s) ∧ (2 ^ 39 - 2 ^ 20) % 2 ^ 20 = 0 ∧
       mapGet [] (served 0x14 rq0 s).recov.contexts (served 0x14 rq0 s).arc.slot ≠ [] ∧
       taken (.restore rq0 0 0) rq0 s (served 0x15 rq0 s) ∧ stepRunning (served 0x15 rq0 s) = false ∧
       taken (.takeoverSlices rq0 0) rq0 s (served 0x16 rq0 s) ∧ taken (.takeoverTwin rq0 0) rq0 s (served 0x16 rq0 s) ∧
       taken (.reMirror rq0) rq0 s (served 0x17 rq0 s)) := by
  refine ⟨⟨?_, ?_, ?_, ?_⟩, ⟨?_, ?_, ?_, ?_⟩, ⟨?_, ?_, ?_, ?_, ?_, ?_, ?_⟩,
    ⟨?_, ?_, ?_, ?_, ?_, ?_, ?_, ?_, ?_, ?_⟩⟩ <;>
    first
      | exact taken0 _ _ _ rfl (by decide +kernel) (by decide +kernel) (by decide +kernel) (by decide +kernel)
      | decide +kernel
theorem witness_RequestsAboutTheModule :
    (taken (.warmReset rq0) rq0 portUp (served 0x20 rq0 portUp) ∧
      taken (.powerRequestDormant rq0) rq0 portUp (served 0x21 rq0 portUp) ∧ powerMay 0 (served 0x21 rq0 portUp) = true ∧
      taken (.powerRequestStandby rq0) rq0 portUp (served 0x21 rq0 portUp) ∧
      taken (.powerRequestReady rq0) rq0 portUp (served 0x21 rq0 portUp) ∧
      powerMay 0 (served 0x21 rq0 (loadedIn true .none)) = false) ∧
    (taken (.attestationReport rq0 (zeros 64)) rq0 portUp (served 0x30 rq0 portUp) ∧ (zeros 64).length = 64 ∧
      taken (.debugToken rq0 []) rq0 portUp (served 0x31 rq0 portUp)) ∧
    (taken (.firmwareStage rq0 3 0 512) rq0 portUp (served 0x40 rq0 portUp) ∧ (served 0x40 rq0 portUp).fw.activating = false ∧
      512 ≤ 512 + imgLimit 3) ∧
    (let s := { portUp with fw := { portUp.fw with staged := true } }
     taken (.firmwareActivate rq0) rq0 s (served 0x40 rq0 s) ∧ (served 0x40 rq0 s).fw.staged = true ∧
       pstate (served 0x40 rq0 s) ≠ 4 ∧ emergencies (served 0x40 rq0 s) = 0 ∧
       taken (.firmwareAbandon rq0) rq0 s (served 0x40 rq0 s)) ∧
    (let s := { portUp with toBlock := setNum 0x402000 4 { portUp.toBlock with fw := { portUp.fw with staged := true } } }
     taken (.firmwareActivate rq0) rq0 s (served 0x40 rq0 s) ∧ (served 0x40 rq0 s).fw.staged = true ∧
       (served 0x40 rq0 s).fw.activating = false ∧ emergencies (served 0x40 rq0 s) ≠ 0) := by
  refine ⟨⟨?_, ?_, ?_, ?_, ?_, ?_⟩, ⟨?_, ?_, ?_⟩, ⟨?_, ?_, ?_⟩, ⟨?_, ?_, ?_, ?_, ?_⟩,
    ⟨?_, ?_, ?_, ?_⟩⟩ <;>
    first
      | exact taken0 _ _ _ rfl (by decide +kernel) (by decide +kernel) (by decide +kernel) (by decide +kernel)
      | decide +kernel

/-! ## Witnesses: objects, the portico, debug and power -/

theorem witness_ObjectWritesAreClampedAndReadBack :
    (objFind 0x999900 = none ∧ objHighest (0x999900 / 256) = 0) ∧
    (∃ o, objFind 0x110005 = some o ∧ (o.acc = .const ∨ o.acc = .ro)) ∧
    (∃ o, objFind 0x410002 = some o ∧ o.acc = .rw ∧ planeMay State.reset.toBlock .host (0x410002 / 256) = true ∧
      0 < typSize o.typ ∧ ([] : Bytes).length ≠ typSize o.typ ∧ o.typ ≠ 1 ∧ o.typ ≠ 10 ∧ o.digest = false ∧
      0x410002 ≠ 0x321000 ∧ 255 < 256 ^ typSize o.typ ∧ 39 < o.lo ∧ o.hi < 66 ∧ o.persist = true) ∧
    (∃ x, objValue State.reset.toBlock 0x410002 = some x ∧ 1 ≤ x.length ∧ smallObj 0x410002 = true) ∧
    (∃ o, objFind 0x340006 = some o ∧ o.acc = .rw ∧ planeMay State.reset.toBlock .host (0x340006 / 256) = true ∧ typSize o.typ = 0 ∧
      o.hi ≤ 8 ∧ 1 ≤ o.hi ∧ smallObj 0x310000 = false) :=
  ⟨by decide +kernel, ⟨(objFind 0x110005).getD default, by decide +kernel⟩, ⟨(objFind 0x410002).getD default, by decide +kernel⟩,
    ⟨[65], by decide +kernel⟩, ⟨(objFind 0x340006).getD default, by decide +kernel⟩⟩
theorem witness_CommandObjectsActOnAWrite :
    (planeUp State.reset.toBlock .host = true ∧ planeMay State.reset.toBlock .host 0x3212 = true ∧
      planeMay State.reset.toBlock .host 0x3210 = true ∧ planeMay State.reset.toBlock .portico 0x1F20 = true ∧
      planeMay State.reset.toBlock .host 0x5122 = true ∧ planeMay State.reset.toBlock .host 0x5232 = true ∧
      planeMay State.reset.toBlock .host 0x5301 = true ∧ planeMay State.reset.toBlock .host 0x6075 = true ∧
      planeMay State.reset.toBlock .host 0x4021 = true ∧ planeMay State.reset.toBlock .host 0x7120 = true ∧
      planeMay State.reset.toBlock .host 0xA100 = true ∧ planeMay State.reset.toBlock .portico 0x7120 = false) ∧
    (17 < 18 ∧ 4 < 5 ∧ 524287 < 524288 ∧ 49 < 50 ∧ 1024 ≤ 1024 ∧ halls State.reset.toBlock = true ∧
      lifeMay State.reset.toBlock = true ∧ procRuns State.reset.toBlock 0 = true) ∧
    procRuns ({ State.reset with fw := { State.reset.fw with procs := [(0, { procOk with running := false })] } } : State).toBlock 0 =
      false ∧
    ((link State.reset.toBlock 17).state < 8 ∧ State.reset.arc.slot < 72) ∧
    (let s := { on0 with bnd := { on0.bnd with phase := .stopped } }
     planeMay on0.toBlock .host 0x6075 = true ∧ halls on0.toBlock = true ∧ 0 ∈ boundPhys on0.toBlock ∧ isParked on0.toBlock = false ∧
       0 ∈ boundPhys s.toBlock ∧ isParked s.toBlock = true ∧ s.recov.job = none) ∧
    (∃ c, canArm (setNum 0xA10001 c State.reset.toBlock) (num (setNum 0xA10001 c State.reset.toBlock) 0xA10001) = true) :=
  ⟨by decide +kernel, by decide +kernel, by decide +kernel, by decide +kernel, by decide +kernel, ⟨1, by decide +kernel⟩⟩
theorem witness_LifecycleRecordsTakeEffect : pstate State.reset.toBlock ≠ 0 ∧ secWaits State.reset.toBlock = false ∧
    secWaits ({ State.reset with fw := { State.reset.fw with procs := [(0, { procOk with running := false })] } } : State).toBlock =
      true ∧
    (num wiping0.toBlock 0x720100).testBit 7 = true ∧
    (alive State.reset.toBlock = true ∧ procRuns State.reset.toBlock 0 = true ∧ planeMay State.reset.toBlock .host 0x7121 = true ∧ (zeros 8192).length ≤ 8192 ∧
      lifeMay State.reset.toBlock = true ∧ ({ State.reset with sec := { State.reset.sec with identity := 1 } } : State).sec.identity ≠ 0) := by
  decide +kernel
def xfer0 (down live : Bool) (total next : Nat) : Xfer :=
  { (default : Xfer) with id := 0, src := 0, download := down, total, next, data := zeros next, live }
/-- An address that is neither the module's, whatever that is, nor broadcast. -/
theorem otherAddress : ∃ d, d ≠ Config.macAddress ∧ d ≠ 2 ^ 48 - 1 :=
  ⟨if Config.macAddress = 0 then 1 else 0, by split <;> omega, by split <;> omega⟩
theorem witness_APorticoFrameIsServedOnceAndTransfersStage :
    (alive State.reset.toBlock = true ∧ alive ({ State.reset with pwr := { State.reset.pwr with inReset := true } } : State).toBlock = false) ∧
    (fr0.etherType = 0x88B5 ∧ fr0.tagged = false ∧ fr0.fcsOk = true ∧ fr0.dst = 2 ^ 48 - 1 ∧ fr0.waits = false ∧ fr0.svc = 0 ∧
      (∀ f ∈ [{ fr0 with etherType := 0x0800 }, { fr0 with tagged := true }, { fr0 with fcsOk := false }],
        f.etherType ≠ 0x88B5 ∨ f.tagged = true ∨ f.fcsOk = false) ∧
      (∃ d, d ≠ Config.macAddress ∧ d ≠ 2 ^ 48 - 1) ∧ ({ fr0 with svc := 7 } : FrameF).svc = 7 ∧ 9 ≤ ({ fr0 with svc := 9 } : FrameF).svc ∧
      (∀ n, n ≤ 16 → (List.replicate n fr0).length = n) ∧ 16 ≤ 16 ∧ 15 < 16) ∧
    (State.reset.portico.queue = [] ∧ State.reset.pwr.plcaOk = false ∧
      ({ State.reset with pwr := { State.reset.pwr with plcaOk := true } } : State).pwr.plcaOk = true) ∧
    (let b := bumpNum 0x340101 32 1 State.reset.toBlock
     kept b 0 0 = none ∧ porticoAnswers b 0x1000 = true ∧
       porticoAnswers (setNum 0x801000 256 b) 0x1F00 = false ∧ porticoAnswers (setNum 0x801000 256 b) 0x8010 = true ∧
       ∃ o, kept (keepFrame 0 0 (respFrame 1 fr0 (servedStatus 0 fr0)) b) 0 0 = some o) ∧
    (let f := { fr0 with len := 4, data := zeros 4, index := 0x1000 }
     State.reset.portico.xfers = [] ∧ f.len = 4 ∧ 4 ≤ f.data.length ∧
       (objValue State.reset.toBlock (f.index * 256 + f.sub)).isSome = true) ∧
    ((xfer0 true false 4 0).id = fr0.xfer ∧ (xfer0 true false 4 0).src = fr0.src ∧ fr0.offset = (xfer0 true false 4 0).next ∧
      fr0.len ≤ fr0.data.length ∧ (xfer0 true false 4 0).next + fr0.len ≤ (xfer0 true false 4 0).total ∧
      (xfer0 false false 4 0).download = false ∧ (xfer0 false false 4 0).live = false ∧
      (xfer0 true false 4 4).next = (xfer0 true false 4 4).total) :=
  ⟨by decide +kernel, ⟨rfl, rfl, rfl, rfl, rfl, rfl, by decide, otherAddress, rfl, by decide, fun _ _ => List.length_replicate, by decide⟩,
    by decide +kernel, ⟨by decide +kernel, by decide +kernel, by decide +kernel, by decide +kernel,
    Option.isSome_iff_exists.mp (by decide +kernel)⟩, by decide +kernel, by decide +kernel⟩
theorem witness_RestoringWritesEveryDefaultOfTheDigestSet : planeUp State.reset.toBlock .portico = true ∧
    planeMay State.reset.toBlock .portico 0x1F20 = true ∧ inDigest 0x231002 = true ∧ inDigest 0x410002 = false := by decide +kernel
/-- Reset at a debug level. -/
def atLevel (n : Nat) : State := { State.reset with
  toBlock := setNum 0x720100 (setFld (num State.reset.toBlock 0x720100) 2 2 n) State.reset.toBlock }
theorem witness_TheDebugPortServesItsLevel : alive State.reset.toBlock = true ∧ debugLevel State.reset.toBlock < 2 ∧
    pstate (inState 0).toBlock = 0 ∧ debugLevel (atLevel 1).toBlock < 2 ∧
    (pstate (atLevel 2).toBlock ≠ 0 ∧ debugLevel (atLevel 2).toBlock = 2 ∧ secWaits (atLevel 2).toBlock = false ∧
      2 ≤ pstate (atLevel 2).toBlock ∧ (dbgAddr 0).isSome = true ∧ dbgAddr (50 * 2 ^ 42) = none ∧
      coreThere (atLevel 2).toBlock 52 = true) ∧
    ((proc ({ atLevel 2 with fw := { (atLevel 2).fw with procs := [(52, { procOk with halted := true })] } } : State).toBlock 52).halted =
      true ∧ (atLevel 2).fw.waiting = []) := by decide +kernel
theorem witness_ResetsAndFaultsOfPower : (1000 ≤ 1000 ∧ 1000 < 1001 ∧ State.reset.pwr.aon = true) ∧
    (let s := { State.reset with pwr := { State.reset.pwr with inReset := true } }
     s.pwr.aon = true ∧ s.pwr.inReset = true ∧ s.pwr.inputOk = true) ∧
    (let s := { inState 1 with fw := { State.reset.fw with procs := [(1, { procOk with running := false })] } }
     1000 ≤ 1000 ∧ alive s.toBlock = true ∧ powerWaits s.toBlock = true ∧ powerWaits (inState 1).toBlock = false ∧
       powerWaits (inState 0).toBlock = false ∧ (inState 1).pwr.trans = none) ∧
    ({ inState 0 with pwr := { State.reset.pwr with trans := some (0, 2) } } : State).pwr.trans.isSome = true ∧
    (999 < 1000 ∧ alive (inState 0).toBlock = true ∧ (inState 0).pwr.trans = none ∧ pstate (inState 0).toBlock = 0 ∧
      wakeOk (inState 0).toBlock = true ∧ pstate (inState 1).toBlock = 1) ∧
    (63999 < 64000 ∧ pstate State.reset.toBlock ≠ 0 ∧ (1150 : Int) < 1151 ∧ (750 : Int) < 751 ∧ (1150 : Int) ≤ 1150 ∧
      (750 : Int) ≤ 750) ∧
    (({ State.reset with pwr := { State.reset.pwr with hostRails := true } } : State).pwr.hostRails = true ∧
      alive State.reset.toBlock = true) := by decide +kernel
/-- Curbed at a clock step. -/
def curbed (n : Nat) : State := { State.reset with
  toBlock := setNum 0x401000 (setFld (setFld (num State.reset.toBlock 0x401000) 3 2 n) 0 3 4) State.reset.toBlock }
theorem witness_EmergenciesClockStepsAndTransitions :
    (State.reset.pwr.trans ≠ some (1, 2) ∧ clockStep State.reset.toBlock < 2 ∧ (num State.reset.toBlock 0x402000).testBit 2 = false ∧
      (num State.reset.toBlock 0x402000).testBit 4 = false) ∧
    (∀ t ∈ [0, 1, 2], ({ State.reset with pwr := { State.reset.pwr with trans := some (if t = 2 then 1 else 2, t) } } : State).pwr.trans =
        some (if t = 2 then 1 else 2, t) ∧ State.reset.fw.waiting = [] ∧ State.reset.pwr.wakeAfter = false ∧
        State.reset.pwr.startAfter = none ∧ ({ State.reset.pwr with startAfter := some (.start rq0) } : Power).startAfter ≠ none) ∧
    (600 ≤ 600 ∧ 1100 ≤ 1100 ∧ 600 % 5 = 0) ∧
    (halls State.reset.toBlock = true ∧ num State.reset.toBlock 0x410002 < 66 ∧ 65 ≤ num State.reset.toBlock 0x410002 ∧
      10 * (num State.reset.toBlock 0x410003 : Int) < 1001 ∧ (1000 : Int) ≤ 10 * (num State.reset.toBlock 0x410003 : Int)) ∧
    (pstate State.reset.toBlock ≠ 0 ∧ procRuns State.reset.toBlock 1 = true ∧
      injects State.reset.toBlock 0x18 (domLoc 10) = false ∧ State.reset.pwr.offsetPolls = 0) ∧
    (let s := setNum 0x402000 4 (curbed 1).toBlock
     pstate s = 4 ∧ emergencies s ≠ 0 ∧ clockStep s < 2) ∧
    (let s : State := { curbed 1 with pwr := { (curbed 1).pwr with readings := { se0 with inputMv := 60000 } } }
     pstate s.toBlock = 4 ∧ clockStep s.toBlock ≠ 0 ∧ procRuns s.toBlock 1 = true ∧ marginsClear s.toBlock = true ∧
       s.fw.deferred = false) ∧
    ({ State.reset with pwr := { State.reset.pwr with trans := some (2, 0) } } : State).pwr.trans = some (2, 0) := by decide +kernel

/-! ## Small checks against the spec's own examples -/

/-- A condition on the next state. -/
def afterwards (o : Host.Outcome State Fault Refusal) (f : State → Bool) : Bool :=
  match o with
  | .next t => f t
  | _ => false

/-- R406's example record: 0x2310.02 at its default of 200. -/
theorem test_digestRecord : (objFind 0x231002).map (fun o => digestRec o o.dflt []) =
    some [0x10, 0x23, 0x02, 0x03, 0x02, 0x00, 0x00, 0x00, 0xC8, 0x00] := by decide +kernel
/-- The worked address of 10_memory.md: bank 21 and channel 85 of frame RBASE 0x812 in group 37. -/
theorem test_sectorPlace : secBank 0xAB5E0 = 21 ∧ secChan State.reset.toBlock (37 * 8320 + 0x812) 0xAB5E0 = 85 ∧
    frameStack (37 * 8320 + 0x812) = 4 := by decide +kernel
/-- The G64 examples of 02_number_formats.md, at anchor -40 and headroom 8. -/
theorem test_g64Exact : g64OfVal (wfVal .fp32 0x3A800000) (-40) 8 = (0x40000000, 0) := by decide +kernel
theorem test_g64Inexact : g64OfVal (wfVal .fp32 0x2A400000) (-40) 8 = (0, fINX) := by decide +kernel
/-- The worked update of 13_parameter_update.md: a late pass 2 of one element, and an early one. -/
def hyper3 : List Nat := [0x3F600000, 0x3F700000, 0x3D800000, 0x3F800000, 0x3E000000, 0x3D800000]
theorem test_pass2Late : (pass2Arith hyper3 0x3F000000 0x3A800000 0x3F400000 0x3FC00000 0x3E80).1 = 0x3FBFDD00 ∧
    (pass2Arith hyper3 0x3F000000 0x3A800000 0x3F400000 0x3FC00000 0x3E80).2.1 = 0x3E84 := by decide +kernel
theorem test_pass2Early : (pass2Arith hyper3 0x3F800000 0x3A800000 0x3F400000 0x3FC00000 0x3E80).2.1 = 0x3E90 := by decide +kernel
/-- R50: integer sums wrap unless they saturate. -/
theorem test_laneAdd_wraps : laneAdd true 0 0x7FFFFFFF 1 = (0x80000000, 0) := by decide +kernel
/-- R49: the canonical NaN. -/
theorem test_rcp_nan : (f32Rcp 0x7F800001).1 = 0x7FC00000 := by decide +kernel
/-- R164: exp2 of 0 is 1. -/
theorem test_exp2_zero : (f32Exp2 0).1 = 0x3F800000 := by decide +kernel
/-- R454: IDCODE's low bit is 1, as IEEE 1149.1 requires of every identification register. -/
theorem test_idcode : afterwards (exec .idcode State.reset) (fun t => t.sec.tapIr == 0x01) = true := by decide +kernel
/-- R483: PRST_N holds the module in reset. -/
theorem test_prst : afterwards (exec (.prstN 1001) State.reset) (fun t => t.pwr.inReset && pstate t.toBlock == 0) = true := by decide +kernel
/-- R478: current above its limit steps the clock down and enters Curbed. -/
theorem test_eCurrent : afterwards (exec (.eCurrent 66) State.reset) (fun t => pstate t.toBlock == 4 && clockStep t.toBlock == 1) = true := by decide +kernel
/-- R208: SSIGNAL saturates its counter. -/
theorem test_ssignal : afterwards (exec (.ssignal x0 0 (2 ^ 32 - 1) 0x3F) on0) (fun s =>
    afterwards (exec (.ssignal x0 0 1 0x3F) s) (fun t => tokVal t.toBlock 0 0 == 2 ^ 32 - 1)) = true := by decide +kernel
/-- R383: VST_VER reads window version 1.0 and mailbox version 1.0; the completion that carries it. -/
theorem test_vstVersion : afterwards (exec (.vestibuleRead 0 { op := 1, tag := 5 } 4 4) portUp) (fun t => t.portA.out == [.completion 5 0 0 4 [0x00, 0x01, 0x00, 0x01] (cleanMask 4)]) = true := by decide +kernel
/-- R276: a trained link aligns, and a retired lane is gone. -/
theorem test_linkTrains : afterwards (exec (.linkTrainingDone 0 3) (linkIn 1)) (fun t => (link t.toBlock 0).state == 2) = true := by decide +kernel
/-- R395: an object that does not exist. -/
theorem test_noObject : (objRead State.reset.toBlock 0x999900 0 4).1 = 6 := by decide +kernel
/-- A command for a unit that the module lacks. -/
theorem test_noSuchLink : exec (.linkNoFlit 18) State.reset = .fault .noSuchUnit := rfl

end Sys2Proof.Tests
end

section
/-! SUPPORT. Token counters (R206): what a recorded increment makes of its counter and of every other; what SSIGNAL
(R208) does once its slot has reached its gallery; and the statement about SSIGNAL. -/

namespace Sys2Proof.Machine

/-! ## Token counters -/

theorem satN_eq_min (w x : Nat) : satN w x = min (2 ^ w - 1) x := by
  have : 0 < 2 ^ w := Nat.two_pow_pos w
  unfold satN
  split <;> omega

/-- Adding to a saturated value and saturating again loses nothing against saturating the whole sum. -/
theorem satN_add (w x n : Nat) : satN w (x + n) = min (2 ^ w - 1) (satN w x + n) := by
  simp only [satN_eq_min]
  omega

/-- The keys of two counters differ when their galleries or their numbers do. -/
theorem tokKey_ne {g c h d : Nat} (hc : c < 256) (hd : d < 256) (hne : (h, d) ≠ (g, c)) : tokKey h d ≠ tokKey g c := by
  unfold tokKey
  intro hkey
  exact hne (Prod.ext (by dsimp only; omega) (by dsimp only; omega))

@[simp] theorem tokSum_tokAdd_same (g c n : Nat) (s : Block) : tokSum (tokAdd g c n s) g c = tokSum s g c + n := by
  unfold tokAdd
  split
  · next h => rw [h, Nat.add_zero]
  · exact mapGet_mapSet_same ..

theorem tokSum_tokAdd_ne {g c h d : Nat} (n : Nat) (s : Block) (hkey : tokKey h d ≠ tokKey g c) :
    tokSum (tokAdd g c n s) h d = tokSum s h d := by
  unfold tokAdd
  split
  · rfl
  · exact mapGet_mapSet_ne _ _ _ _ _ hkey

/-- An increment raises its counter, which stays at 2^32 - 1 (R206). -/
theorem tokVal_tokAdd_same (g c n : Nat) (s : Block) :
    tokVal (tokAdd g c n s) g c = min (2 ^ 32 - 1) (tokVal s g c + n) := by
  unfold tokVal
  rw [tokSum_tokAdd_same, satN_add]

/-- An increment leaves every other counter as it is. -/
theorem tokVal_tokAdd_ne {g c h d : Nat} (n : Nat) (s : Block) (hc : c < 256) (hd : d < 256) (hne : (h, d) ≠ (g, c)) :
    tokVal (tokAdd g c n s) h d = tokVal s h d := by
  unfold tokVal
  rw [tokSum_tokAdd_ne n s (tokKey_ne hc hd hne)]

/-! ## SSIGNAL (R208) -/

section Ssignal
variable {x : SlotCtx} {ctr value target g0 : Nat} {s : Block}

/-- A slot that reaches its gallery and names a counter of its program takes its target: a number that is no logical
gallery's is a program fault, and a gallery that is not bound is one too. -/
theorem doSsignal_reaches (hreach : reaches s x g0) (hctr : ctrOk x.tag ctr = true) :
    doSsignal x ctr value target s =
      if target % 64 ≠ 0x3F ∧ 47 < target % 64 then slotFault .program g0 x 0x208 s
      else (physOf s (if target % 64 = 0x3F then x.gal else target % 64)).elim (slotFault .program g0 x 0x208 s)
        (tokAdd · (ctr % 256) (value % 2 ^ 32) s) := by
  obtain ⟨hfreeze, hgal, hruns⟩ := hreach
  unfold doSsignal
  rw [withSlot_runs hfreeze hgal hruns]
  simp only [hctr, Bool.not_true, Bool.false_eq_true, if_false]
  cases physOf s (if target % 64 = 0x3F then x.gal else target % 64) <;> rfl

/-- TARGET 0x3F: the increment goes to the gallery of the slot. -/
theorem doSsignal_own (hreach : reaches s x g0) (hctr : ctrOk x.tag ctr = true) :
    doSsignal x ctr value 0x3F s = tokAdd g0 (ctr % 256) (value % 2 ^ 32) s := by
  have ⟨_, hgal, _⟩ := hreach
  rw [doSsignal_reaches hreach hctr, if_neg (by decide), if_pos (by decide), hgal]
  rfl

/-- TARGET up to 47: the increment goes to the physical gallery that logical gallery TARGET is bound to. -/
theorem doSsignal_logical {g : Nat} (hreach : reaches s x g0) (hctr : ctrOk x.tag ctr = true) (htarget : target ≤ 47)
    (hbound : physOf s target = some g) :
    doSsignal x ctr value target s = tokAdd g (ctr % 256) (value % 2 ^ 32) s := by
  have hmod : target % 64 = target := Nat.mod_eq_of_lt (by omega)
  rw [doSsignal_reaches hreach hctr, hmod, if_neg (by omega), if_neg (by omega : target ≠ 0x3F), hbound]
  rfl

/-- TARGET 48 to 62 names no gallery: a program fault, and nothing else. -/
theorem doSsignal_noTarget (hreach : reaches s x g0) (hctr : ctrOk x.tag ctr = true) (hlow : 47 < target)
    (hhigh : target < 0x3F) : doSsignal x ctr value target s = slotFault .program g0 x 0x208 s := by
  have hmod : target % 64 = target := Nat.mod_eq_of_lt (by omega)
  rw [doSsignal_reaches hreach hctr, hmod, if_pos ⟨by omega, hlow⟩]

end Ssignal

/-- Settles O18: both targets that name a gallery come down to one recorded increment, which `tokVal_tokAdd_same` and
`tokVal_tokAdd_ne` describe. -/
theorem ssignalAddsItsValue : Obligations.SsignalAddsItsValue := by
  unfold Obligations.SsignalAddsItsValue
  intro x ctr value target s g0 hreach hctr hc hv ht
  constructor
  · intro g htarget
    have hadd : doSsignal x ctr value target s.toBlock = tokAdd g ctr value s.toBlock := by
      have hfields : tokAdd g (ctr % 256) (value % 2 ^ 32) s.toBlock = tokAdd g ctr value s.toBlock := by
        rw [Nat.mod_eq_of_lt hc, Nat.mod_eq_of_lt hv]
      rw [← hfields]
      obtain ⟨rfl, rfl⟩ | ⟨hlow, hbound⟩ := htarget
      · exact doSsignal_own hreach hctr
      · exact doSsignal_logical hreach hctr hlow hbound
    refine ⟨_, effect_eq (doSsignal x ctr value target) s, rfl, ?_⟩
    dsimp only
    rw [hadd]
    exact ⟨tokVal_tokAdd_same .., fun h c hc' hne => tokVal_tokAdd_ne value _ hc hc' hne⟩
  · intro hlow hne
    calc exec (.ssignal x ctr value target) s
        = .next { s with toBlock := doSsignal x ctr value target s.toBlock } := effect_eq ..
      _ = .next { s with toBlock := logFault .program g0 x.bundle 0x208 x.tag s.toBlock } := by
          rw [doSsignal_noTarget hreach hctr hlow (by omega)]
          rfl

end Sys2Proof.Machine
end

section
/-! SUPPORT. The digest set (R405): what clearing its entries leaves of the store; the reporting objects, the only ones
that an adoption (R408, R412) may change; a plane's write to a write-only number; and the statement about restoring the
defaults (R403). -/

namespace Sys2Proof.Machine

/-! ## Clearing the entries of the digest set -/

/-- A filtered table reads as before at the keys it keeps, and as the default at the others. -/
theorem mapGet_mapFilter {α : Type _} (d : α) (p : Nat → Bool) (m : SMap α) (k : Nat) :
    mapGet d (mapFilter p m) k = if p k then mapGet d m k else d := by
  induction m with
  | nil => exact (ite_self _).symm
  | cons e r ih =>
    obtain ⟨k', v⟩ := e
    unfold mapFilter at ih ⊢
    by_cases hk : k' = k
    · subst hk
      cases hp : p k' <;> simp [hp, mapGet, ih]
    · cases hp : p k' <;> simp [hp, mapGet, hk, ih]

/-- The store without its entries of the digest set, whose objects then read as their defaults. -/
def clearDigestSet (s : Block) : Block :=
  { s with store := { s.store with
      nums := mapFilter (fun k => !inDigest k) s.store.nums, doms := mapFilter (fun k => !inDigest k) s.store.doms } }

theorem num_clearDigestSet (s : Block) (k : Nat) :
    num (clearDigestSet s) k = if inDigest k then numDflt s.arc.slot k else num s k := by
  unfold num clearDigestSet
  rw [mapGet_mapFilter]
  cases inDigest k <;> rfl

theorem dom_clearDigestSet (s : Block) (k : Nat) :
    dom (clearDigestSet s) k = if inDigest k then domDflt k else dom s k := by
  unfold dom clearDigestSet
  rw [mapGet_mapFilter]
  cases inDigest k <;> rfl

theorem stageDefaults_eq (s : Block) :
    stageDefaults s = stagedWrite (forEach (changedKeys s) markUnwritten (clearDigestSet s)) := rfl

/-! ## Updates that change only reporting objects -/

/-- The objects by which the module reports an adoption: the epoch, the declaration and recovery status, and the portico's
counters of what it sent. -/
def reportKeys : List Nat := [0x1F0002, 0x1F1005, 0x607000, 0x340102, 0x340105]

theorem reportKeys_not_inDigest : ∀ k ∈ reportKeys, inDigest k = false := by decide +kernel

/-- Storing a number keeps every byte string. -/
theorem setNum_doms (k v : Nat) (s : Block) : (setNum k v s).store.doms = s.store.doms := by
  unfold setNum noteMirror
  dsimp only
  repeat' split
  all_goals rfl

theorem dom_setNum (k j v : Nat) (s : Block) : dom (setNum k v s) j = dom s j := by
  unfold dom
  rw [setNum_doms]

/-- Only reporting objects differ between two states of a module. -/
structure OnlyReports (s t : Block) : Prop where
  slot : t.arc.slot = s.arc.slot
  num : ∀ k, k ∉ reportKeys → num t k = num s k
  dom : ∀ k, dom t k = dom s k

namespace OnlyReports
variable {b s : Block}

theorem refl (s : Block) : OnlyReports s s := ⟨rfl, fun _ _ => rfl, fun _ => rfl⟩

/-- An update that keeps the slot and both tables of values. -/
theorem of_tables {t : Block} (h : OnlyReports b s) (hslot : t.arc.slot = s.arc.slot) (hnums : t.store.nums = s.store.nums)
    (hdoms : t.store.doms = s.store.doms) : OnlyReports b t where
  slot := hslot.trans h.slot
  num k hk := by
    rw [← h.num k hk]
    unfold Machine.num
    rw [hslot, hnums]
  dom k := by
    rw [← h.dom k]
    unfold Machine.dom
    rw [hdoms]

theorem setNum {key : Nat} (h : OnlyReports b s) (hkey : key ∈ reportKeys) (v : Nat) :
    OnlyReports b (setNum key v s) where
  slot := by rw [setNum_keeps_arc, h.slot]
  num k hk := by rw [num_setNum_ne key k v s (fun e => hk (e ▸ hkey)), h.num k hk]
  dom k := by rw [dom_setNum, h.dom k]

theorem alert (h : OnlyReports b s) (code word : Nat) : OnlyReports b (alert code word s) := h.of_tables rfl rfl rfl

theorem bumpNum {key : Nat} (h : OnlyReports b s) (hkey : key ∈ reportKeys) (w n : Nat) :
    OnlyReports b (bumpNum key w n s) := h.setNum hkey _

theorem notifyNum (h : OnlyReports b s) (key : Nat) : OnlyReports b (notifyNum key s) := by
  unfold Machine.notifyNum notify
  refine .bumpNum (.bumpNum (h.of_tables ?_ ?_ ?_) (by decide) ..) (by decide) .. <;> rfl

theorem setStatus {key : Nat} (h : OnlyReports b s) (hkey : key ∈ reportKeys) (v notes alerts code : Nat) :
    OnlyReports b (setStatus key v notes alerts code s) := by
  have hset := h.setNum hkey v
  unfold Machine.setStatus
  dsimp only
  split
  case isTrue =>
    refine .alert ?_ ..
    split
    · exact hset.notifyNum key
    · exact hset
  case isFalse =>
    split
    · exact hset.notifyNum key
    · exact hset

theorem setDecl (h : OnlyReports b s) (v : Nat) : OnlyReports b (setDecl v s) := h.setStatus (by decide) ..

theorem setRecov (h : OnlyReports b s) (n : Nat) (v : Bool) : OnlyReports b (setRecov n v s) := h.setStatus (by decide) ..

theorem pendingBit (h : OnlyReports b s) : OnlyReports b (pendingBit s) := h.setNum (by decide) _

theorem markUnwritten (h : OnlyReports b s) (key : Nat) : OnlyReports b (markUnwritten key s) := h.of_tables rfl rfl rfl

theorem forEach_markUnwritten (keys : List Nat) (h : OnlyReports b s) :
    OnlyReports b (forEach keys Machine.markUnwritten s) := by
  induction keys generalizing s with
  | nil => exact h
  | cons key keys ih => exact ih (h.markUnwritten key)

theorem setEpoch (h : OnlyReports b s) (e : Nat) : OnlyReports b (setEpoch e s) := (h.setNum (by decide) _).markUnwritten _

theorem adoptNow (h : OnlyReports b s) : OnlyReports b (adoptNow s) := h.of_tables rfl rfl rfl

/-- Adoption copies the staged values into force and leaves them as they are (R407, R412). -/
theorem adoptOwn (h : OnlyReports b s) : OnlyReports b (adoptOwn s).2 := by
  unfold Machine.adoptOwn
  dsimp only
  split
  case isTrue =>
    split
    · exact ((h.adoptNow.setEpoch _).setDecl _).pendingBit
    · exact h
  case isFalse =>
    split
    · split
      · exact ((h.adoptNow.setEpoch _).setDecl _).pendingBit
      · exact (h.setDecl _).pendingBit
    · exact (h.setDecl _).pendingBit

theorem adoptMarks (h : OnlyReports b s) : OnlyReports b (adoptMarks s) := (h.setRecov _ _).setRecov _ _

theorem stagedWrite (h : OnlyReports b s) : OnlyReports b (stagedWrite s) := by
  unfold Machine.stagedWrite
  split
  · exact h.pendingBit
  · exact h.adoptOwn.pendingBit.adoptMarks

end OnlyReports

/-- Restoring the defaults clears the digest set; all that comes after the clearing changes reporting objects alone. -/
theorem stageDefaults_onlyReports (s : Block) : OnlyReports (clearDigestSet s) (stageDefaults s) := by
  rw [stageDefaults_eq]
  exact ((OnlyReports.refl _).forEach_markUnwritten _).stagedWrite

theorem num_stageDefaults {s : Block} {k : Nat} (hk : k ∉ reportKeys) :
    num (stageDefaults s) k = if inDigest k then numDflt s.arc.slot k else num s k :=
  ((stageDefaults_onlyReports s).num k hk).trans (num_clearDigestSet s k)

theorem dom_stageDefaults (s : Block) (k : Nat) :
    dom (stageDefaults s) k = if inDigest k then domDflt k else dom s k :=
  ((stageDefaults_onlyReports s).dom k).trans (dom_clearDigestSet s k)

/-! ## A write to a write-only number (R397) -/

@[simp] theorem length_leBytes (n x : Nat) : (leBytes n x).length = n := by
  induction n generalizing x with
  | zero => rfl
  | succ n ih => exact congrArg Nat.succ (ih _)

theorem leNat_leBytes {n x : Nat} (h : x < 256 ^ n) : leNat (leBytes n x) = x := by
  induction n generalizing x with
  | zero => rw [Nat.pow_zero] at h; exact (Nat.lt_one_iff.mp h).symm
  | succ n ih =>
    have hdiv : x / 256 < 256 ^ n := Nat.div_lt_of_lt_mul (by rwa [Nat.pow_succ'] at h)
    unfold leBytes leNat
    rw [ih hdiv, BitVec.toNat_ofNat]
    exact Nat.mod_add_div x 256

/-- A write that its plane may make, of a value in the object's range, is the object's action and nothing else. -/
theorem writeRow_action {pl : Plane} {o : ObjDef} {v : Nat} {s : Block} (hfind : objFind o.key = some o)
    (hacc : o.acc = .wo) (hsize : typSize o.typ ≠ 0) (hup : planeUp s pl = true)
    (hmay : planeMay s pl (o.key / 256) = true) (hfits : v < 256 ^ typSize o.typ) (hrange : clampNum o v = v) :
    writeRow pl o.key (typSize o.typ) v s = actNum o.key v s := by
  have hallowed : writeRefused s pl o.key = none := by simp [writeRefused, hfind, hacc, hmay]
  simp [writeRow, hup, hfits, objWrite, hallowed, hfind, hsize, leNat_leBytes hfits, writeNum, hrange, hacc]

/-! ## Restoring the defaults (R403) -/

/-- The row of 0x1F20 in the directory. -/
def restoreObj : ObjDef := ob 0x1F2000 2 .wo 0 0 1 false false

theorem objFind_restoreObj : objFind restoreObj.key = some restoreObj := by decide +kernel

theorem writeRow_restore {pl : Plane} {v : Nat} {s : Block} (hup : planeUp s pl = true)
    (hmay : planeMay s pl 0x1F20 = true) (hv : v ≤ 1) :
    writeRow pl 0x1F2000 1 v s = if v = 1 then stageDefaults s else s := by
  have hrange : clampNum restoreObj v = v := by
    have hhigh : ¬ 1 < v := by omega
    simp [clampNum, restoreObj, ob, hhigh]
  exact writeRow_action objFind_restoreObj rfl (by decide) hup hmay (show v < 256 by omega) hrange

/-- Settles O57: once the digest set is cleared, the change is one whose every update is to a reporting object, none of
which lies in the digest set. -/
theorem restoringWritesEveryDefaultOfTheDigestSet : Obligations.RestoringWritesEveryDefaultOfTheDigestSet := by
  unfold Obligations.RestoringWritesEveryDefaultOfTheDigestSet
  intro s pl hup hmay
  have hexec : ∀ v ≤ 1, exec (.restoreDefaults pl v) s =
      .next { s with toBlock := if v = 1 then stageDefaults s.toBlock else s.toBlock } := fun v hv =>
    (effect_eq ..).trans (by rw [writeRow_restore hup hmay hv])
  refine ⟨⟨_, hexec 1 (Nat.le_refl 1), rfl, ?_, ?_⟩, hexec 0 (Nat.zero_le 1)⟩
  · intro k hk
    have hreport : k ∉ reportKeys := fun h => by simp [reportKeys_not_inDigest k h] at hk
    exact ⟨by simp [num_stageDefaults hreport, hk], by simp [dom_stageDefaults, hk]⟩
  · intro k hk h1F00 h1F10 h6070 h3401
    have hreport : k ∉ reportKeys := by
      intro h
      simp only [reportKeys, List.mem_cons, List.not_mem_nil, or_false] at h
      omega
    exact ⟨by simp [num_stageDefaults hreport, hk], by simp [dom_stageDefaults, hk]⟩

end Sys2Proof.Machine
end

section
/-! SUPPORT. What a command does, said once for all 222: where the units it names exist, it is an effect on the block that
keeps the canonical form of memory, and keeps every byte unless the command may store; where they do not, it is the fault
noSuchUnit. The statements about every command and every step follow. -/

namespace Sys2Proof.Machine

/-- An effect leaves every byte of memory as it is. -/
def KeepsBytes (f : Block → Block) : Prop := ∀ b, (f b).mem.bytes = b.mem.bytes

/-- An effect keeps the canonical form of memory. -/
def KeepsForm (f : Block → Block) : Prop := ∀ b, mapWf 0 b.mem.bytes = true → mapWf 0 (f b).mem.bytes = true

/-- What a command does where its units exist, and to memory. -/
structure Meaning (c : Instr) (f : Block → Block) : Prop where
  exec_eq : ∀ s, exec c s = if unitThere c then effect f s else .fault .noSuchUnit
  form : KeepsForm f
  bytes : mayStore c = false → KeepsBytes f

namespace Meaning
variable {c : Instr} {f : Block → Block}

theorem keeps (hexec : ∀ s, exec c s = if unitThere c then effect f s else .fault .noSuchUnit) (hf : KeepsBytes f) :
    Meaning c f :=
  ⟨hexec, fun b hb => (hf b).symm ▸ hb, fun _ => hf⟩

theorem stores (hexec : ∀ s, exec c s = if unitThere c then effect f s else .fault .noSuchUnit) (hmay : mayStore c = true)
    (hf : KeepsForm f) : Meaning c f :=
  ⟨hexec, hf, fun h => absurd (hmay.symm.trans h) (by decide)⟩

end Meaning

/-! ## Commands that name a unit -/

/-- An effect while the halls run. -/
def inHalls (f : Block → Block) (b : Block) : Block := if halls b then f b else b

/-- The effect of a message that reaches a port. -/
def atPort (p : Nat) (f : Block → Block) (b : Block) : Block :=
  if alive b && decide (2 ≤ (port b p).link) then f (vestibuleFlit p (modPort p portWake b)) else b

theorem fault_or_effect {c d : Prop} [Decidable c] [Decidable d] (h : c ↔ ¬ d) (f : Block → Block) (s : State) :
    (if c then .fault .noSuchUnit else effect f s) = if d then effect f s else .fault .noSuchUnit := by
  by_cases hd : d
  · rw [if_neg (fun hc => h.mp hc hd), if_pos hd]
  · rw [if_pos (h.mpr hd), if_neg hd]

theorem onLink_eq (l : Nat) (f : Block → Block) (s : State) :
    onLink l f s = if linkWf l then effect (inHalls f) s else .fault .noSuchUnit :=
  fault_or_effect (by simp [linkWf, below]) ..

theorem onLane_eq (l lane : Nat) (f : Block → Block) (s : State) :
    onLane l lane f s = if linkWf l && laneWf lane then effect (inHalls f) s else .fault .noSuchUnit :=
  fault_or_effect (by simp [linkWf, laneWf, below]; omega) ..

theorem onAlcove_eq (g a : Nat) (f : Block → Block) (s : State) :
    onAlcove g a f s = if galWf g && below 8 a then effect f s else .fault .noSuchUnit :=
  fault_or_effect (by simp [galWf, below]; omega) ..

theorem onGallery_eq (g : Nat) (f : Block → Block) (s : State) :
    onGallery g f s = if galWf g then effect f s else .fault .noSuchUnit :=
  fault_or_effect (by simp [galWf, below]) ..

theorem onProc_eq (n : Nat) (f : Block → Block) (s : State) :
    onProc n f s = if procWf n then effect f s else .fault .noSuchUnit :=
  fault_or_effect (by simp [procWf, below]) ..

theorem onPort_eq (p : Nat) (f : Block → Block) (s : State) :
    onPort p f s = if portWf p then effect (atPort p f) s else .fault .noSuchUnit :=
  fault_or_effect (by simp only [portWf, below, decide_eq_true_eq]; omega) ..

section
variable {f : Block → Block}

theorem inHalls_keepsBytes (h : KeepsBytes f) : KeepsBytes (inHalls f) := fun b => ite_mem (h b) rfl

theorem inHalls_keepsForm (h : KeepsForm f) : KeepsForm (inHalls f) := fun b hb => ite_wf (h b hb) hb

theorem atPort_keepsBytes (p : Nat) (h : KeepsBytes f) : KeepsBytes (atPort p f) := fun b =>
  ite_mem ((h _).trans (by simp)) rfl

theorem atPort_keepsForm (p : Nat) (h : KeepsForm f) : KeepsForm (atPort p f) := fun b hb =>
  ite_wf (h _ (by simpa using hb)) hb

end

theorem tapAt_keepsForm {level last : Nat} {f : Block → Block} (h : KeepsForm f) : KeepsForm (tapAt level last f) :=
  fun b hb => ite_wf (ite_wf (wf_eq (asBypass_mem ..) hb) (h b hb)) hb

/-- Performing a request taken from the mailbox keeps the canonical form. -/
theorem request_keepsForm (p seq typ : Nat) (i : Instr) : KeepsForm (atPort p (ringMailbox p seq typ (serve i))) :=
  atPort_keepsForm p fun _ hb => ringMailbox_wf (fun _ h => serve_wf h) hb

/-- A warm reset is a request, or the reset alone where the port's link is not active. -/
theorem warmReset_keepsForm (r : ReqF) : KeepsForm fun b =>
    if (port b r.port).link ≠ 2 then (if alive b && decide (pstate b ≠ 0) then warmReset b else b)
    else atPort r.port (ringMailbox r.port r.seq 0x20 (serve (.warmReset r))) b := fun b hb =>
  ite_wf (ite_wf (warmReset_wf hb) hb) (request_keepsForm _ _ _ _ b hb)

theorem execWarmReset_eq (r : ReqF) (s : State) : execWarmReset r s =
    if portWf r.port then effect (fun b =>
      if (port b r.port).link ≠ 2 then (if alive b && decide (pstate b ≠ 0) then warmReset b else b)
      else atPort r.port (ringMailbox r.port r.seq 0x20 (serve (.warmReset r))) b) s
    else .fault .noSuchUnit := by
  have hport : (2 ≤ r.port) ↔ ¬ portWf r.port = true := by
    simp only [portWf, below, decide_eq_true_eq]
    omega
  unfold execWarmReset mailboxIn
  by_cases hp : portWf r.port = true
  · rw [if_neg (fun h => hport.mp h hp), if_pos hp]
    dsimp only [reqHead]
    rw [onPort_eq, if_pos hp]
    simp only [effect_eq]
    split <;> rfl
  · rw [if_pos (hport.mpr hp), if_neg hp]

/-! ## Every command -/

theorem exec_meaning (c : Instr) : ∃ f, Meaning c f := by
  cases c with
  | mopen | mclose | mdrain | mshift | mloadW | mstream | vadd | vsub | vmul | vfma | vmax | vmin | vabs | vneg | vsel | vmov
  | vtrn | vand | vor | vxor | vshl | vshr | vexp2 | vlog2 | vrcp | vrsq | vscale | vred | vsmax | vcmp | vmset | vmlog | vcvt
  | vqnt | vdqn | vrnd | vld | vst | vflg | vsolve | streamAcknowledgement | gapRequest | noRoute | portUpMessage
  | streamAckPeriod | mwriteRejection | marginSweep | sweepPoint | floorMapRecordWrite | cperNotify | hallBridgeCrcError
  | connectivityRetry | sbound | watchdogAbort | swait | ssignal | checked | cwake | side | currentKeeperCycle
  | contextMessage | eCurrent | eJunction | sensorPoll | curbedStepTimer | clockStepUp | hostFault | crystalRunsAgain | wakeN
  | hostSitePowerRequest | coordinatorBeaconLoss | ownerEnrolment | lifecycleToReturned | lifecycleToProvisioned
  | persistFlashWrite | manifestSignature | installCertificateChain | bypass | idcode | extest | samplePreload | dbgobj
  | tapToken | dbgmemRead | dbgmemWrite | porticoRead | porticoWrite | porticoDigestQuery | segmentStart | segment
  | segmentEnd | segmentAbort | segmentTimeout | linkReset | laneMode | restoreDefaults | clearPoisoned | removeGuardBand
  | clearFloorMap | galleryReset | clearLatchedBits | generateIdentityKey | injectionArm =>
    refine ⟨_, .keeps (fun _ => rfl) fun b => ?_⟩
    simp
  | add | max | xor => exact ⟨_, .stores (fun _ => rfl) rfl fun _ => doMemOp_wf⟩
  | updatePass1 | updatePass2 => exact ⟨_, .stores (fun _ => rfl) rfl fun _ => doPass_wf⟩
  | dget => exact ⟨_, .stores (fun _ => rfl) rfl fun _ => doDget_wf⟩
  | dput => exact ⟨_, .stores (fun _ => rfl) rfl fun _ => doDput_wf⟩
  | dmov => exact ⟨_, .stores (fun _ => rfl) rfl fun _ => doDmov_wf⟩
  | asendData | asendTokenOnly | aredReduceScatter | aredAllReduce | agathPush | agathReuse =>
    exact ⟨_, .stores (fun _ => rfl) rfl fun _ => doA_wf⟩
  | aredPhase2 => exact ⟨_, .stores (fun _ => rfl) rfl fun _ => doPhase2_wf⟩
  | readyMessage => exact ⟨_, .stores (fun _ => rfl) rfl fun _ => doReady_wf⟩
  | descriptorCompletion => exact ⟨_, .stores (fun _ => rfl) rfl fun _ => doCompletion_wf⟩
  | voteTimeout => exact ⟨_, .stores (fun _ => rfl) rfl fun _ => doVoteTimeout_wf⟩
  | agreementTimeout => exact ⟨_, .stores (fun _ => rfl) rfl fun _ => doAgreeTimeout_wf⟩
  | boundaryActions => exact ⟨_, .stores (fun _ => rfl) rfl fun _ => doBoundary_wf⟩
  | bundleIssue => exact ⟨_, .stores (fun _ => rfl) rfl fun _ => doBundleIssue_wf⟩
  | landingWrite => exact ⟨_, .stores (fun _ => rfl) rfl fun _ => doLandingWrite_wf⟩
  | landingOpRelease => exact ⟨_, .stores (fun _ => rfl) rfl fun _ => doLandingRelease_wf⟩
  | drainStart => exact ⟨_, .stores (fun _ => rfl) rfl fun _ => doDrainStart_wf⟩
  | rampHoldEnd => exact ⟨_, .stores (fun _ => rfl) rfl fun _ => doRampHoldEnd_wf⟩
  | stallRelease | queueHoldEnd | wakeHoldEnd => exact ⟨_, .stores (fun _ => rfl) rfl fun _ => releaseKind_wf⟩
  | fetchHoldEnd => exact ⟨_, .stores (fun _ => rfl) rfl fun _ => doFetchHoldEnd_wf⟩
  | voteMessage => exact ⟨_, .stores (fun _ => rfl) rfl fun _ => doVote_wf⟩
  | agreementMessage => exact ⟨_, .stores (fun _ => rfl) rfl fun _ => doAgree_wf⟩
  | mwrite | rreq | token => exact ⟨_, .stores (fun _ => rfl) rfl fun _ => onPacket_wf⟩
  | brownout => exact ⟨_, .stores (fun _ => rfl) rfl fun _ => doBrownout_wf⟩
  | railFault => exact ⟨_, .stores (fun _ => rfl) rfl fun _ => doRailFault_wf⟩
  | clockFault => exact ⟨_, .stores (fun _ => rfl) rfl fun _ => doClockFault_wf⟩
  | thermalTrip => exact ⟨_, .stores (fun _ => rfl) rfl fun _ => doTrip_wf⟩
  | prstN => exact ⟨_, .stores (fun _ => rfl) rfl fun _ => doPrst_wf⟩
  | inputApplied => exact ⟨_, .stores (fun _ => rfl) rfl fun _ => doInput_wf⟩
  | coldBoot => exact ⟨_, .stores (fun _ => rfl) rfl fun _ => doColdBoot_wf⟩
  | hallBridgeVoteFail => exact ⟨_, .stores (fun _ => rfl) rfl fun _ => doVoteFail_wf⟩
  | activationNextRestart => exact ⟨_, .stores (fun _ => rfl) rfl fun _ => doActivationNext_wf⟩
  | powerTransitionDone => exact ⟨_, .stores (fun _ => rfl) rfl fun _ => doTransDone_wf⟩
  | pageMigration =>
    exact ⟨_, .stores (fun _ => fault_or_effect (by simp [unitThere, below]) ..) rfl fun _ => doPageMigration_wf⟩
  | sideSlicePlace =>
    exact ⟨_, .stores (fun _ => fault_or_effect (by simp only [unitThere, below, decide_eq_true_eq]; omega) ..) rfl fun _ => doSlicePlace_wf⟩
  | rowRemap | channelCopy | channelCopyEnd | patrolScrub | errorQueuePop | targetedSentinel | adapterRetry
  | vestibuleLinkDown | vestibuleLinkUp =>
    refine ⟨_, .keeps (fun _ => fault_or_effect ?_ ..) fun b => ?_⟩
    · simp [unitThere, galWf, portWf, below] <;> omega
    · simp
  | spareLaneTrained | down | lossOfSignal | linkNoFlit | laneErrorSecond | replayTimeout | linkHoldExpiry
  | linkSignalDetect | linkTrainingDone | linkTrainingTimeout | alignDone | alignTimeout | beacon | beaconPeriod =>
    refine ⟨_, .keeps (fun _ => onLink_eq ..) (inHalls_keepsBytes fun b => ?_)⟩
    simp
  | nak | laneRetire | laneJoin | laneLossOfLock | laneNoFlit =>
    refine ⟨_, .keeps (fun _ => onLane_eq ..) (inHalls_keepsBytes fun b => ?_)⟩
    simp
  | dataFlit | idleFlit => exact ⟨_, .stores (fun _ => onLane_eq ..) rfl (inHalls_keepsForm fun _ => flitIn_wf)⟩
  | rampDownStart => exact ⟨_, .stores (fun _ => onAlcove_eq ..) rfl fun _ => doRampDown_wf⟩
  | rampDownEnd => exact ⟨_, .stores (fun _ => onAlcove_eq ..) rfl fun _ => doRampDownEnd_wf⟩
  | rampUpEnd => exact ⟨_, .stores (fun _ => onAlcove_eq ..) rfl fun _ => doRampUpEnd_wf⟩
  | galleryClockStop | galleryClockRestart | gccHoldExpiry =>
    refine ⟨_, .keeps (fun _ => onGallery_eq ..) fun b => ?_⟩
    simp
  | processorWatchdog | lockstepMismatch | corectlHalt | corectlStep =>
    refine ⟨_, .keeps (fun _ => onProc_eq ..) fun b => ?_⟩
    simp
  | corectlResume => exact ⟨_, .stores (fun _ => onProc_eq ..) rfl (tapAt_keepsForm fun _ => resumeProc_wf)⟩
  | processorRestartDone => exact ⟨_, .stores (fun _ => onProc_eq ..) rfl fun _ => doRestartDone_wf⟩
  | vestibuleRead | vstRetryCntRead | vstPoisonCntRead | programDoorbell =>
    refine ⟨_, .keeps (fun _ => onPort_eq ..) (atPort_keepsBytes _ fun b => ?_)⟩
    simp
  | collectiveDoorbellAnchor | collectiveDoorbellSums =>
    exact ⟨_, .stores (fun _ => onPort_eq ..) rfl (atPort_keepsForm _ fun _ => ringColl_wf)⟩
  | windowRegisterWrite => exact ⟨_, .stores (fun _ => onPort_eq ..) rfl (atPort_keepsForm _ fun _ => doWindowWrite_wf)⟩
  | apertureRead =>
    refine ⟨_, .stores (fun _ => onPort_eq ..) rfl (atPort_keepsForm _ fun b hb => ?_)⟩
    split
    · exact hb
    · exact apRead_wf hb
  | apertureWrite =>
    refine ⟨_, .stores (fun _ => onPort_eq ..) rfl (atPort_keepsForm _ fun b hb => ?_)⟩
    split
    · exact hb
    · exact apWrite_wf hb
  | objectRead | objectWrite | digestQuery | programLoad | start | replayStart | park | resume | save | restore
  | takeoverSlices | takeoverTwin | reMirror | powerRequestDormant | powerRequestStandby | powerRequestReady
  | attestationReport | debugToken | firmwareStage | firmwareActivate | firmwareAbandon =>
    exact ⟨_, .stores (fun _ => onPort_eq ..) rfl (request_keepsForm _ _ _ _)⟩
  | warmReset r => exact ⟨_, .stores (execWarmReset_eq r) rfl (warmReset_keepsForm r)⟩

/-- An operand that the spec admits names a unit that exists. -/
theorem unitThere_of_wf {c : Instr} (h : c.wf = true) : unitThere c = true := by
  cases c with
  | pageMigration page => exact h
  | _ =>
    simp only [Instr.wf, ReqF.wf, portWf, galWf, linkWf, laneWf, procWf, fits, below, Bool.and_eq_true,
      decide_eq_true_eq] at h
    simp [unitThere, portWf, galWf, linkWf, laneWf, procWf, below, h]

/-! ## The statements -/

/-- Settles O1. -/
theorem stepTakesTheFrontCommand : Obligations.StepTakesTheFrontCommand := by
  unfold Obligations.StepTakesTheFrontCommand
  intro s c rest hqueue
  unfold step
  rw [hqueue]

/-- Settles O3: a command whose units exist is an effect, which keeps the queue. -/
theorem everyCommandGoesOnOrNamesAMissingUnit : Obligations.EveryCommandGoesOnOrNamesAMissingUnit := by
  unfold Obligations.EveryCommandGoesOnOrNamesAMissingUnit
  intro c s
  obtain ⟨f, hexec, -, -⟩ := exec_meaning c
  constructor
  · intro hthere
    refine ⟨{ s with toBlock := f s.toBlock }, ?_, rfl⟩
    rw [hexec, if_pos hthere, effect_eq]
  · intro hnone
    constructor
    · rw [hexec, if_neg (by rw [hnone]; decide)]
    · exact Bool.eq_false_iff.mpr fun hwf => Bool.eq_false_iff.mp hnone (unitThere_of_wf hwf)

/-- Settles O4: no byte is listed after reset. -/
theorem resetMemoryIsCanonical : Obligations.ResetMemoryIsCanonical := by
  unfold Obligations.ResetMemoryIsCanonical
  rfl

/-- A command that answers keeps the canonical form. -/
theorem exec_keepsForm {c : Instr} {s t : State} (hexec : exec c s = .next t) (hs : mapWf 0 s.mem.bytes = true) :
    mapWf 0 t.mem.bytes = true := by
  obtain ⟨f, heq, hform, -⟩ := exec_meaning c
  rw [heq] at hexec
  split at hexec
  · obtain ⟨hblock, -⟩ := effect_next.mp hexec
    rw [hblock]
    exact hform _ hs
  · cases hexec

/-- Settles O5: an idle step keeps the form by `idle_wf`, a command by `exec_keepsForm`. -/
theorem everyStepKeepsTheMemoryCanonical : Obligations.EveryStepKeepsTheMemoryCanonical := by
  unfold Obligations.EveryStepKeepsTheMemoryCanonical Memory.wf
  intro s t hs hstep
  unfold step at hstep
  split at hstep
  · obtain ⟨hblock, -⟩ := effect_next.mp hstep
    rw [hblock]
    exact idle_wf hs
  · exact exec_keepsForm hstep hs

/-- Settles O6: the effect of a command outside `mayStore` keeps the list of bytes itself. -/
theorem otherCommandsKeepEveryByteOfMemory : Obligations.OtherCommandsKeepEveryByteOfMemory := by
  unfold Obligations.OtherCommandsKeepEveryByteOfMemory
  intro c s t hmay hexec a
  obtain ⟨f, heq, -, hbytes⟩ := exec_meaning c
  rw [heq] at hexec
  split at hexec
  · obtain ⟨hblock, -⟩ := effect_next.mp hexec
    rw [hblock, hbytes hmay]
  · cases hexec

end Sys2Proof.Machine
end

section
/-! SUPPORT. Bit fields, bit by bit: what a field, a bit and their replacement read. -/

namespace Sys2Proof.Machine

theorem bit_eq_testBit (x n : Nat) : bit x n = x.testBit n := by
  rw [Nat.testBit_eq_decide_div_mod_eq, bit, Nat.shiftRight_eq_div_pow]
  rfl

theorem testBit_fld (x lo w i : Nat) : (fld x lo w).testBit i = (decide (i < w) && x.testBit (lo + i)) := by
  rw [fld, Nat.testBit_mod_two_pow, Nat.testBit_shiftRight]

theorem testBit_setFld (x lo w v i : Nat) : (setFld x lo w v).testBit i =
    if i < lo then x.testBit i else if i < lo + w then v.testBit (i - lo) else x.testBit i := by
  have hlow : x % 2 ^ lo < 2 ^ lo := Nat.mod_lt _ (Nat.two_pow_pos _)
  have hmid : (v % 2 ^ w) <<< lo + x % 2 ^ lo < 2 ^ (lo + w) := by
    have hv : v % 2 ^ w < 2 ^ w := Nat.mod_lt _ (Nat.two_pow_pos _)
    calc (v % 2 ^ w) <<< lo + x % 2 ^ lo
        < 2 ^ lo * (v % 2 ^ w) + 2 ^ lo := by rw [Nat.shiftLeft_eq, Nat.mul_comm]; omega
      _ = 2 ^ lo * (v % 2 ^ w + 1) := (Nat.mul_succ ..).symm
      _ ≤ 2 ^ lo * 2 ^ w := Nat.mul_le_mul_left _ hv
      _ = 2 ^ (lo + w) := (Nat.pow_add ..).symm
  unfold setFld
  rw [Nat.add_assoc, Nat.shiftLeft_eq, Nat.mul_comm, Nat.testBit_two_pow_mul_add _ hmid, Nat.shiftLeft_eq, Nat.mul_comm,
    Nat.testBit_two_pow_mul_add _ hlow]
  by_cases hbelow : i < lo
  · rw [if_pos (show i < lo + w by omega), if_pos hbelow, if_pos hbelow, Nat.testBit_mod_two_pow, decide_eq_true hbelow, Bool.true_and]
  · by_cases hwithin : i < lo + w
    · rw [if_pos hwithin, if_neg hbelow, if_neg hbelow, if_pos hwithin, Nat.testBit_mod_two_pow,
        decide_eq_true (show i - lo < w by omega), Bool.true_and]
    · rw [if_neg hwithin, if_neg hbelow, if_neg hwithin, Nat.testBit_shiftRight, show lo + w + (i - (lo + w)) = i by omega]

theorem fld_setFld_same (x lo w v : Nat) : fld (setFld x lo w v) lo w = v % 2 ^ w := by
  refine Nat.eq_of_testBit_eq fun i => ?_
  rw [testBit_fld, testBit_setFld, Nat.testBit_mod_two_pow]
  by_cases hi : i < w
  · rw [if_neg (by omega), if_pos (by omega), Nat.add_sub_cancel_left]
  · rw [decide_eq_false hi, Bool.false_and, Bool.false_and]

/-- A field apart from the one replaced reads as before. -/
theorem fld_setFld_ne {x lo w v l u : Nat} (h : l + u ≤ lo ∨ lo + w ≤ l) : fld (setFld x lo w v) l u = fld x l u := by
  refine Nat.eq_of_testBit_eq fun i => ?_
  rw [testBit_fld, testBit_fld, testBit_setFld]
  by_cases hi : i < u
  · by_cases hlow : l + i < lo
    · rw [if_pos hlow]
    · rw [if_neg hlow, if_neg (by omega)]
  · rw [decide_eq_false hi, Bool.false_and, Bool.false_and]

@[simp] theorem testBit_putBit_same (x n : Nat) (b : Bool) : (putBit x n b).testBit n = b := by
  unfold putBit
  rw [testBit_setFld]
  cases b <;> simp

theorem testBit_putBit_ne {x n i : Nat} (b : Bool) (h : i ≠ n) : (putBit x n b).testBit i = x.testBit i := by
  unfold putBit
  rw [testBit_setFld]
  by_cases hlow : i < n
  · exact if_pos hlow
  · rw [if_neg hlow, if_neg (by omega)]

end Sys2Proof.Machine
end

section
/-! SUPPORT. An idle step while the halls' clocks stand; the state after reset; the mask registers. -/

namespace Sys2Proof.Machine

/-! ## Idling (logs 1, 56 and 99) -/

section
variable {s : Block}

theorem lockstepCycle_unarmed (h4 : injects s 0x04 (procLoc 2) = false) (h5 : injects s 0x05 (procLoc 0) = false) :
    lockstepCycle s = s := by
  simp [lockstepCycle, h4, h5]

theorem jobGo_none (h : s.recov.job = none) : jobGo s = s := by
  unfold jobGo
  rw [h]

theorem firstBuild_dark (h : halls s = false) : firstBuild s = s := by
  simp [firstBuild, h]

theorem serveQueue_nil (h : s.portico.queue = []) : serveQueue s = s := by
  unfold serveQueue
  rw [h]
  change { s with portico := { s.portico with queue := [] } } = s
  rw [← h]

theorem wipeEnd_none (h : (num s 0x720100).testBit 7 = false) : wipeEnd s = s := by
  have hbit : bit (num s 0x720100) 7 = false := (bit_eq_testBit ..).trans h
  simp [wipeEnd, hbit]

theorem passTime_eq (units : Nat) (s : Block) : passTime units s = { s with clk := { s.clk with
    tick := (s.clk.tick + (s.clk.phase + units) / 38760) % 2 ^ 64, phase := (s.clk.phase + units) % 38760 } } := rfl

/-- While the halls stand, a cycle is one local tick. -/
theorem autoCycle_dark (hdark : halls s = false) (h4 : injects s 0x04 (procLoc 2) = false)
    (h5 : injects s 0x05 (procLoc 0) = false) : autoCycle s = passTime 38760 s := by
  unfold autoCycle
  rw [lockstepCycle_unarmed h4 h5]
  simp [hdark]

/-- A dark block with nothing to do lets one local tick pass. -/
theorem idle_dark (hdark : halls s = false) (h4 : injects s 0x04 (procLoc 2) = false)
    (h5 : injects s 0x05 (procLoc 0) = false) (hjob : s.recov.job = none) (hportico : s.portico.queue = [])
    (hwipe : (num s 0x720100).testBit 7 = false) : idle s = passTime 38760 s := by
  obtain ⟨c, hc⟩ : ∃ c, passTime 38760 s = { s with clk := c } := ⟨_, passTime_eq 38760 s⟩
  unfold idle
  rw [autoCycle_dark hdark h4 h5, hc, jobGo_none (s := { s with clk := c }) hjob,
    firstBuild_dark (s := { s with clk := c }) hdark, serveQueue_nil (s := { s with clk := c }) hportico,
    wipeEnd_none (s := { s with clk := c }) hwipe]

end

theorem step_idle {s : State} (h : s.pending = []) : step s = .next { s with toBlock := idle s.toBlock } := by
  unfold step
  split
  · exact effect_eq ..
  · next hcons => exact absurd (h.symm.trans hcons) (by simp)

/-- Settles O2: each part of an idle step but the passing of time asks for work that the hypotheses exclude. -/
theorem emptyQueueIdles : Obligations.EmptyQueueIdles := by
  unfold Obligations.EmptyQueueIdles
  intro s hqueue
  refine ⟨step_idle hqueue, fun hdark hjob h4 h5 hportico hwipe => ?_⟩
  rw [step_idle hqueue, idle_dark hdark h4 h5 hjob hportico hwipe, passTime_eq]

/-! ## Reset (log 26) -/

/-- Every gallery's clock is stopped after reset. -/
theorem gclk_reset : ∀ g < 50, (gclk Block.reset g).running = false := by decide +kernel

/-- Settles O7: what reset does not list reads as the default of its table. -/
theorem resetStateIsReady : Obligations.ResetStateIsReady := by
  unfold Obligations.ResetStateIsReady
  refine ⟨by decide +kernel, rfl, rfl, gclk_reset, fun _ _ => rfl, fun g k hk => ?_, fun _ _ => rfl, fun _ _ => rfl,
    fun _ => rfl, fun p => ?_, fun _ => rfl, rfl, rfl, rfl⟩
  · exact if_neg hk
  · change (if p = 0 then portReset else portReset).link = 0
    rw [ite_self]
    rfl

/-! ## Mask registers (R157) -/

@[simp] theorem maskReg_zero (s : Block) (g : Nat) : maskReg s g 0 = 2 ^ 256 - 1 := rfl

theorem setMask_zero (s : Block) (g v : Nat) : setMask g 0 v s = s := rfl

section
variable {k : Nat}

theorem maskReg_of_pos (hpos : 1 ≤ k) (hmax : k ≤ 7) (s : Block) (g : Nat) :
    maskReg s g k = mapGet 0 s.vec.masks (g * 8 + k) := by
  unfold maskReg
  rw [Nat.mod_eq_of_lt (by omega), if_neg (by omega)]

theorem setMask_masks (hpos : 1 ≤ k) (hmax : k ≤ 7) (s : Block) (g v : Nat) :
    (setMask g k v s).vec.masks = mapSet 0 s.vec.masks (g * 8 + k) (v % 2 ^ 256) := by
  unfold setMask
  rw [Nat.mod_eq_of_lt (by omega), if_neg (by omega)]

theorem maskReg_setMask_same (hpos : 1 ≤ k) (hmax : k ≤ 7) (s : Block) (g v : Nat) :
    maskReg (setMask g k v s) g k = v % 2 ^ 256 := by
  rw [maskReg_of_pos hpos hmax, setMask_masks hpos hmax, mapGet_mapSet_same]

theorem maskReg_setMask_ne {h j : Nat} (hpos : 1 ≤ k) (hmax : k ≤ 7) (hj : j ≤ 7) (s : Block) {g : Nat} (v : Nat)
    (hne : (h, j) ≠ (g, k)) : maskReg (setMask g k v s) h j = maskReg s h j := by
  by_cases hj0 : j = 0
  · subst hj0
    rfl
  · rw [maskReg_of_pos (by omega) hj, maskReg_of_pos (by omega) hj, setMask_masks hpos hmax]
    refine mapGet_mapSet_ne _ _ _ _ _ fun hkey => hne (Prod.ext ?_ ?_)
    all_goals dsimp only; omega

end

theorem getElem?_maskList (m : Nat) {l : Nat} (hl : l < 256) : (maskList m)[l]? = some (m.testBit l) := by
  unfold maskList
  rw [List.getElem?_map, List.getElem?_range hl]
  exact congrArg some (bit_eq_testBit m l)

/-- Settles O11. -/
theorem maskRegistersAndK0 : Obligations.MaskRegistersAndK0 := by
  unfold Obligations.MaskRegistersAndK0
  intro s g v
  exact ⟨maskReg_zero s g, setMask_zero s g v, fun _ hpos hmax => maskReg_setMask_same hpos hmax s g v,
    fun _ _ _ hpos hmax hj hne => maskReg_setMask_ne hpos hmax hj s v hne, fun m _ hl => getElem?_maskList m hl⟩

end Sys2Proof.Machine
end

section
/-! SUPPORT. Slots on their way to their galleries: each command of a slot is one of few forms, a frozen module, an unbound
gallery and a stopped clock treat each form alike, and a V slot that arrives takes the issue port (R155, R209, R218). -/

namespace Sys2Proof.Machine

/-! ## The forms of a slot -/

theorem unitSlot_withSlot {i : Instr} {x : SlotCtx} (h : unitSlot i = some x) :
    ∃ f, ∀ s, exec i s = effect (withSlot i x f) s := by
  cases i with
  | mloadW | mstream | mopen | mclose | mdrain | mshift | dget | dput | dmov | asendData | asendTokenOnly | aredReduceScatter
  | aredAllReduce | agathPush | agathReuse | vadd | vsub | vmul | vfma | vmax | vmin | vabs | vneg | vsel | vmov | vtrn | vand
  | vor | vxor | vshl | vshr | vexp2 | vlog2 | vrcp | vrsq | vscale | vred | vsmax | vcmp | vmset | vmlog | vcvt | vqnt | vdqn
  | vrnd | vld | vst | vflg | vsolve =>
    obtain rfl := Option.some.inj h
    exact ⟨_, fun _ => rfl⟩
  | _ => exact absurd h (by simp [unitSlot, vSlot])

/-- A slot that needs its gallery's clock takes effect through `withSlot` and is held as it is, or is a SIDE. -/
theorem clockSlot_cases {i : Instr} {x : SlotCtx} (h : clockSlot i = some x) :
    ((∃ f, ∀ s, exec i s = effect (withSlot i x f) s) ∧ ∀ s, heldForm s i = .slot i []) ∨
      ∃ length mask ve, i = .side x length mask ve := by
  cases i with
  | side => exact .inr ⟨_, _, _, by rw [Option.some.inj h]⟩
  | swait | ssignal =>
    obtain rfl := Option.some.inj h
    exact .inl ⟨⟨_, fun _ => rfl⟩, fun _ => rfl⟩
  | _ => exact .inl ⟨unitSlot_withSlot h, fun _ => rfl⟩

theorem anySlot_cases {i : Instr} {x : SlotCtx} (h : anySlot i = some x) :
    clockSlot i = some x ∨ (∃ alcoves quads, i = .checked x alcoves quads) ∨ ∃ mask ve, i = .cwake x mask ve := by
  cases i with
  | checked => exact .inr (.inl ⟨_, _, by rw [Option.some.inj h]⟩)
  | cwake => exact .inr (.inr ⟨_, _, by rw [Option.some.inj h]⟩)
  | _ => exact .inl h

/-! ## SIDE on its way to its gallery -/

section
variable {x : SlotCtx} {length mask ve : Nat} {s : Block}

theorem doSide_frozen {z : Freeze} (hz : s.freeze = some z) :
    doSide x length mask ve s = holdSlot (heldForm s (.side x length mask ve)) z s := by
  unfold doSide sideOn reach
  rw [hz]
  rfl

theorem doSide_unbound (hz : s.freeze = none) (hgal : physOf s x.gal = none) :
    doSide x length mask ve s = logFault .program 255 x.bundle 0x194 x.tag s := by
  unfold doSide sideOn reach
  simp only [hz, hgal, Option.toList_none, if_true]

theorem doSide_stopped {g : Nat} (hz : s.freeze = none) (hgal : physOf s x.gal = some g)
    (hstop : (gclk s g).running = false) :
    doSide x length mask ve s = wakeFreeze false [heldForm s (.side x length mask ve)] [g] s := by
  have hstopped : stoppedGals s [g] = [g] := by simp [stoppedGals, hstop]
  unfold doSide sideOn reach heldForm
  simp only [hz, hgal, Option.toList_some, hstopped, List.cons_ne_nil, if_false]

end

/-! ## Frozen, unbound and stopped -/

section
variable {i : Instr} {x : SlotCtx} {s : State}

/-- A frozen module keeps every slot (R209). -/
theorem exec_slot_frozen {z : Freeze} (h : anySlot i = some x) (hz : s.freeze = some z) :
    exec i s = .next { s with toBlock := holdSlot (heldForm s.toBlock i) z s.toBlock } := by
  obtain hclock | ⟨a, q, rfl⟩ | ⟨m, v, rfl⟩ := anySlot_cases h
  · obtain ⟨⟨f, hexec⟩, hheld⟩ | ⟨l, m, v, rfl⟩ := clockSlot_cases hclock
    · rw [hexec, hheld, effect_eq]
      unfold withSlot
      rw [withHeld_frozen hz]
    · change effect (doSide x l m v) s = _
      rw [effect_eq, doSide_frozen hz]
  · change effect (doChecked x a q) s = _
    rw [effect_eq]
    unfold doChecked
    rw [hz]
    rfl
  · change effect (doCwake x m v) s = _
    rw [effect_eq]
    unfold doCwake
    rw [hz]
    rfl

/-- A slot of an unbound gallery is lost with a program fault (log 63). -/
theorem exec_slot_unbound (h : anySlot i = some x) (hchecked : ∀ y a q, i ≠ .checked y a q) (hz : s.freeze = none)
    (hgal : physOf s.toBlock x.gal = none) :
    exec i s = .next { s with toBlock := logFault .program 255 x.bundle 0x194 x.tag s.toBlock } := by
  obtain hclock | ⟨a, q, rfl⟩ | ⟨m, v, rfl⟩ := anySlot_cases h
  · obtain ⟨⟨f, hexec⟩, hheld⟩ | ⟨l, m, v, rfl⟩ := clockSlot_cases hclock
    · rw [hexec, effect_eq]
      unfold withSlot
      rw [withHeld_unbound hz hgal]
    · change effect (doSide x l m v) s = _
      rw [effect_eq, doSide_unbound hz hgal]
  · exact absurd rfl (hchecked x a q)
  · change effect (doCwake x m v) s = _
    rw [effect_eq]
    unfold doCwake
    simp only [hz, hgal]

/-- A stopped clock restarts, and a wake hold keeps the slot (R218). -/
theorem exec_slot_stopped {g : Nat} (h : clockSlot i = some x) (hz : s.freeze = none)
    (hgal : physOf s.toBlock x.gal = some g) (hstop : (gclk s.toBlock g).running = false) :
    exec i s = .next { s with toBlock := wakeFreeze false [heldForm s.toBlock i] [g] s.toBlock } := by
  obtain ⟨⟨f, hexec⟩, hheld⟩ | ⟨l, m, v, rfl⟩ := clockSlot_cases h
  · rw [hexec, hheld, effect_eq]
    unfold withSlot
    rw [withHeld_stopped hz hgal hstop]
  · change effect (doSide x l m v) s = _
    rw [effect_eq, doSide_stopped hz hgal hstop]

end

/-- Settles O8: `holdSlot` and `wakeFreeze` are the updates that the statement writes out. -/
theorem aSlotThatWaitsOrIsLost : Obligations.ASlotThatWaitsOrIsLost := by
  unfold Obligations.ASlotThatWaitsOrIsLost
  exact ⟨fun _ _ _ _ h hz => exec_slot_frozen h hz, fun _ _ _ h hchecked hz hgal => exec_slot_unbound h hchecked hz hgal,
    fun _ _ _ _ h hz hgal hstop => exec_slot_stopped h hz hgal hstop⟩

/-! ## The checks of a V slot at issue -/

/-- An update of the fault log and the step status. -/
structure OnlyFaults (f : Block → Block) : Prop where
  eq : ∀ s, f s = { s with logs := (f s).logs, bnd := (f s).bnd }

theorem onlyFaults_id : OnlyFaults id := ⟨fun _ => rfl⟩

section
variable (g : Nat) (x : SlotCtx)

theorem onlyFaults_slotFaultIf (b : Bool) (k : LogKind) (d : Nat) : OnlyFaults (slotFaultIf b k g x d) :=
  ⟨fun _ => slotFaultIf_eq ..⟩

theorem onlyFaults_vFmtCheck (f : VecF) : OnlyFaults (vFmtCheck f g x) := ⟨fun _ => slotFaultIf_eq ..⟩

theorem onlyFaults_vConvertCheck (f : VecF) : OnlyFaults (vConvertCheck f g x) := by
  refine ⟨fun s => ?_⟩
  unfold vConvertCheck
  dsimp only
  rw [slotFaultIf_eq, slotFaultIf_eq, slotFaultIf_eq]

theorem onlyFaults_vqntCheck (f : VqntF) : OnlyFaults (vqntCheck f g x) := by
  refine ⟨fun s => ?_⟩
  unfold vqntCheck
  dsimp only
  rw [slotFaultIf_eq, slotFaultIf_eq, slotFaultIf_eq, slotFaultIf_eq]

theorem onlyFaults_vdqnCheck (f : VdqnF) : OnlyFaults (vdqnCheck f g x) := by
  refine ⟨fun s => ?_⟩
  unfold vdqnCheck
  dsimp only
  rw [slotFaultIf_eq, slotFaultIf_eq, slotFaultIf_eq]

end

/-- A V slot that reaches its gallery takes the port, after checks that only log faults. -/
theorem vSlot_withSlot {i : Instr} {x : SlotCtx} (h : vSlot i = some x) :
    ∃ check : Nat → Block → Block, (∀ g, OnlyFaults (check g)) ∧
      ∀ s, exec i s = effect (withSlot i x fun g s => vIssueOn i x g (check g s)) s := by
  cases i with
  | vadd | vsub | vmul | vfma | vmax | vmin | vabs | vneg | vred | vcmp =>
    obtain rfl := Option.some.inj h
    exact ⟨fun g => vFmtCheck _ g _, fun g => onlyFaults_vFmtCheck g _ _, fun _ => rfl⟩
  | vsel | vmov | vtrn | vand | vor | vxor | vshl | vshr | vexp2 | vlog2 | vrcp | vrsq | vscale | vsmax | vmlog | vflg
  | vsolve =>
    obtain rfl := Option.some.inj h
    exact ⟨fun _ => id, fun _ => onlyFaults_id, fun _ => rfl⟩
  | vmset | vrnd | vld | vst =>
    obtain rfl := Option.some.inj h
    exact ⟨fun g => slotFaultIf _ _ g _ _, fun g => onlyFaults_slotFaultIf g _ _ _ _, fun _ => rfl⟩
  | vcvt =>
    obtain rfl := Option.some.inj h
    exact ⟨fun g => vConvertCheck _ g _, fun g => onlyFaults_vConvertCheck g _ _, fun _ => rfl⟩
  | vqnt =>
    obtain rfl := Option.some.inj h
    exact ⟨fun g => vqntCheck _ g _, fun g => onlyFaults_vqntCheck g _ _, fun _ => rfl⟩
  | vdqn =>
    obtain rfl := Option.some.inj h
    exact ⟨fun g => vdqnCheck _ g _, fun g => onlyFaults_vdqnCheck g _ _, fun _ => rfl⟩
  | _ => exact absurd h (by simp [vSlot])

/-! ## Issue (R155) -/

/-- The jobs of an engine whose port is taken over in cycle `c`. -/
def stopJobs (g c : Nat) (jobs : List VJob) : List VJob :=
  jobs.map (fun j => if j.gal = g ∧ j.stop = none then { j with stop := some c } else j)

/-- What taking the issue port leaves: one job more, the earlier ones stopped where the port was occupied, and the fault. -/
structure Issued (i : Instr) (x : SlotCtx) (g : Nat) (s t : Block) : Prop where
  jobs : ∃ (j : VJob) (earlier : List VJob), t.vec.jobs = earlier ++ [j] ∧ j.instr = i ∧ j.gal = g ∧ j.ctx = x ∧
    j.order = s.vec.issueOrder ∧ j.issue = cyc s ∧ j.stop = none ∧ j.mask = maskReg s g (vMaskOf i).1 ∧
    j.pairing = (s.gals.quadPair && x.tag == 0) ∧
    (cyc s < mapGet 0 s.vec.portFree g → earlier = stopJobs g (cyc s) s.vec.jobs) ∧
    (¬ cyc s < mapGet 0 s.vec.portFree g → earlier = s.vec.jobs)
  order : t.vec.issueOrder = s.vec.issueOrder + 1
  portFree : t.vec.portFree = mapSet 0 s.vec.portFree g (cyc s + vPortCycles i (s.gals.quadPair && x.tag == 0))
  fault : cyc s < mapGet 0 s.vec.portFree g →
    { kind := .program, gal := g, place := x.bundle, detail := 0x155, tag := x.tag } ∈ t.logs.log
  frame : t = { s with logs := t.logs, bnd := t.bnd
                       vec := { s.vec with jobs := t.vec.jobs, portFree := t.vec.portFree, issueOrder := t.vec.issueOrder } }

theorem vIssueOn_issued (i : Instr) (x : SlotCtx) (g : Nat) (s : Block) : Issued i x g s (vIssueOn i x g s) := by
  have heq := vIssueOn.eq_def i x g s
  by_cases hover : cyc s < mapGet 0 s.vec.portFree g
  · simp only [hover, decide_true, if_true, slotFault] at heq
    rw [logFault_eq, logFault_log] at heq
    rw [heq]
    constructor
    case jobs => exact ⟨_, _, rfl, rfl, rfl, rfl, rfl, rfl, rfl, rfl, rfl, fun _ => rfl, fun h => absurd hover h⟩
    case fault => exact fun _ => List.mem_append_right _ (List.mem_singleton_self _)
    all_goals rfl
  · simp only [hover, decide_false, Bool.false_eq_true, if_false] at heq
    rw [heq]
    constructor
    case jobs => exact ⟨_, _, rfl, rfl, rfl, rfl, rfl, rfl, rfl, rfl, rfl, fun h => absurd h hover, fun _ => rfl⟩
    case fault => exact fun h => absurd h hover
    all_goals rfl

theorem Issued.of_faults {i : Instr} {x : SlotCtx} {g : Nat} {s t : Block} {check : Block → Block}
    (hcheck : OnlyFaults check) (h : Issued i x g (check s) t) : Issued i x g s t := by
  rw [hcheck.eq s] at h
  exact ⟨h.jobs, h.order, h.portFree, h.fault, h.frame⟩

theorem exec_vSlot_runs {i : Instr} {x : SlotCtx} {g : Nat} {s : State} (h : vSlot i = some x)
    (hreach : reaches s.toBlock x g) : ∃ b, exec i s = .next { s with toBlock := b } ∧ Issued i x g s.toBlock b := by
  obtain ⟨check, hcheck, hexec⟩ := vSlot_withSlot h
  obtain ⟨hz, hgal, hruns⟩ := hreach
  refine ⟨_, ?_, (vIssueOn_issued i x g (check g s.toBlock)).of_faults (hcheck g)⟩
  rw [hexec, effect_eq, withSlot_runs hz hgal hruns]

/-- Settles O9. -/
theorem aVSlotTakesTheIssuePortOver : Obligations.AVSlotTakesTheIssuePortOver := by
  unfold Obligations.AVSlotTakesTheIssuePortOver
  constructor
  · intro i x s g h hreach
    obtain ⟨b, hexec, hissued⟩ := exec_vSlot_runs h hreach
    obtain ⟨j, earlier, hjobs, hinstr, hgal, hctx, horder, hissue, hstop, hmask, hpair, -, -⟩ := hissued.jobs
    have hframe := hissued.frame
    refine ⟨_, hexec, rfl, ⟨j, ?_, hinstr, hgal, hctx, horder, hissue, hstop, hmask, hpair⟩, hissued.order, ?_, ?_, ?_⟩
    · rw [hjobs]
      exact List.mem_append_right _ (List.mem_singleton_self j)
    · rw [hissued.portFree, mapGet_mapSet_same]
    · rw [hframe]
    · rw [hframe]
  · intro i x s g h hreach
    obtain ⟨b, hexec, hissued⟩ := exec_vSlot_runs h hreach
    obtain ⟨j, earlier, hjobs, -, -, -, -, -, -, -, -, hoccupied, hfreed⟩ := hissued.jobs
    refine ⟨_, hexec, rfl, fun hfree k hk => ?_, fun hover => ⟨fun k hk hgal hstop => ?_, _, hissued.fault hover, rfl⟩⟩
    · rw [hjobs, hfreed (by omega)]
      exact List.mem_append_left _ hk
    · rw [hjobs, hoccupied hover]
      refine List.mem_append_left _ (List.mem_map.mpr ⟨k, hk, ?_⟩)
      rw [if_pos ⟨hgal, hstop⟩]

/-- Settles O10: by the three ways a slot may fail to reach its gallery, and the frame of the issue. -/
theorem aVSlotChangesOnlyTheVectorEngine : Obligations.AVSlotChangesOnlyTheVectorEngine := by
  unfold Obligations.AVSlotChangesOnlyTheVectorEngine
  intro i x s t h hexec
  have hany : anySlot i = some x ∧ clockSlot i = some x ∧ ∀ y a q, i ≠ .checked y a q := by
    cases i with
    | swait | ssignal | side | checked | cwake => exact absurd h (by simp [vSlot])
    | mloadW | mstream | mopen | mclose | mdrain | mshift | dget | dput | dmov | asendData | asendTokenOnly
    | aredReduceScatter | aredAllReduce | agathPush | agathReuse => exact absurd h (by simp [vSlot])
    | _ => exact ⟨h, h, fun _ _ _ => by simp⟩
  obtain ⟨hany, hclock, hchecked⟩ := hany
  cases hz : s.freeze with
  | some z =>
    rw [exec_slot_frozen hany hz] at hexec
    cases hexec
    rfl
  | none =>
    cases hgal : physOf s.toBlock x.gal with
    | none =>
      rw [exec_slot_unbound hany hchecked hz hgal, logFault_eq] at hexec
      cases hexec
      rfl
    | some g =>
      cases hruns : (gclk s.toBlock g).running with
      | false =>
        rw [exec_slot_stopped hclock hz hgal hruns] at hexec
        cases hexec
        rfl
      | true =>
        obtain ⟨b, hexec', hissued⟩ := exec_vSlot_runs h ⟨hz, hgal, hruns⟩
        rw [hexec', hissued.frame] at hexec
        cases hexec
        rfl

end Sys2Proof.Machine
end

section
/-! SUPPORT. A tile in its processing cycle: what an elementwise instruction sends on its way, element by element, for the
copies, the bitwise functions and the integer sums (R50, R157, R159), and what VFLG copies (R171). -/

namespace Sys2Proof.Machine

/-! ## Elements of a tile -/

theorem getElem?_tileOp {mzero canon : Nat} {bad : Bool} {f : Nat → Nat → Nat → Nat × Nat} {ms : List Bool}
    {as bs cs : List TElem} {l : Nat} {m : Bool} {a b c : TElem} (hm : ms[l]? = some m) (ha : as[l]? = some a)
    (hb : bs[l]? = some b) (hc : cs[l]? = some c) :
    (tileOp mzero canon bad f ms as bs cs)[l]? = some (laneOp mzero canon bad f m a b c) := by
  induction l generalizing ms as bs cs with
  | zero =>
    obtain ⟨_, rfl⟩ := List.head?_eq_some_iff.mp ((List.head?_eq_getElem? ..).trans hm)
    obtain ⟨_, rfl⟩ := List.head?_eq_some_iff.mp ((List.head?_eq_getElem? ..).trans ha)
    obtain ⟨_, rfl⟩ := List.head?_eq_some_iff.mp ((List.head?_eq_getElem? ..).trans hb)
    obtain ⟨_, rfl⟩ := List.head?_eq_some_iff.mp ((List.head?_eq_getElem? ..).trans hc)
    rfl
  | succ l ih =>
    cases ms with
    | nil => cases hm
    | cons => cases as with
      | nil => cases ha
      | cons => cases bs with
        | nil => cases hb
        | cons => cases cs with
          | nil => cases hc
          | cons => exact ih hm ha hb hc

theorem getElem?_noTile {l : Nat} (hl : l < 256) : noTile[l]? = some elemZero := List.getElem?_replicate_of_lt hl

section
variable {mzero canon : Nat} {f : Nat → Nat → Nat → Nat × Nat} {a b c : TElem}

theorem laneOp_clean (ha : a.poison = false) (hb : b.poison = false) (hc : c.poison = false) :
    laneOp mzero canon false f true a b c = cleanOut (f a.bits.toNat b.bits.toNat c.bits.toNat) := by
  simp [laneOp, ha, hb, hc]

theorem laneOp_masked : laneOp mzero canon false f false a b c = maskedOut mzero := rfl

end

/-! ## What a tile sends on its way -/

theorem orFlags_eq (g tag quad : Nat) (fl : List Nat) (s : Block) :
    orFlags g tag quad fl s = { s with vec := { s.vec with flags := (orFlags g tag quad fl s).vec.flags } } := by
  unfold orFlags
  split <;> rfl

theorem runReg_mod (base code unit t : Nat) : runReg base code unit t % 64 = runReg base code unit t := Nat.mod_mod ..

/-- Without quad pairing nothing is compared. -/
theorem pairCheck_unpaired {j : VJob} (h : j.pairing = false) (t row v : Nat) (s : Block) :
    pairCheck j t row v s = (false, s) := by
  simp [pairCheck, pairHit, h]

/-- An elementwise tile sends one write on its way, whose elements are what each lane's operands give. -/
structure Sends (j : VJob) (f : VecF) (t lat : Nat) (s r : Block) (w : VWrite) : Prop where
  writes : r.vec.writes = s.vec.writes ++ [w]
  due : w.due = cyc s + lat
  gal : w.gal = j.gal
  order : w.order = j.order
  reg : w.reg = runReg f.dst f.dstride 1 t
  tregs : r.vec.tregs = s.vec.tregs

theorem vElemwise_sends {j : VJob} (hpair : j.pairing = false) (hmask : j.maskBad = false) (f : VecF) (t lat : Nat)
    (useB useC : Bool) (fn : Nat → Nat → Nat → Nat × Nat) (s : Block) :
    ∃ w, Sends j f t lat s (vElemwise j f t lat useB useC fn s) w ∧
      ∀ (l : Nat) (a b c : TElem), l < 256 → (operand s j.gal f.a t)[l]? = some a →
        (if useB then operand s j.gal f.b t else noTile)[l]? = some b →
        (if useC then operand s j.gal f.c t else noTile)[l]? = some c →
        w.elems[l]? = some (laneOp f.mzero 0x7FC00000 false fn (j.mask.testBit l) a b c).1 := by
  unfold vElemwise vEmit
  dsimp only
  rw [pairCheck_unpaired hpair, hmask]
  dsimp only
  rw [orFlags_eq]
  refine ⟨_, ⟨rfl, rfl, rfl, rfl, runReg_mod .., rfl⟩, fun l a b c hl ha hb hc => ?_⟩
  simp only [Bool.false_eq_true, if_false, List.getElem?_map]
  rw [getElem?_tileOp (getElem?_maskList _ hl) ha hb hc]
  rfl

/-! ## Copies and bitwise functions -/

/-- The result of the copy and of the bitwise functions. -/
theorem ofNat_toNat_and (a b : BitVec 32) : BitVec.ofNat 32 (a.toNat &&& b.toNat) = a &&& b := by
  rw [← BitVec.toNat_and, BitVec.ofNat_toNat, BitVec.setWidth_eq]

theorem ofNat_toNat_or (a b : BitVec 32) : BitVec.ofNat 32 (a.toNat ||| b.toNat) = a ||| b := by
  rw [← BitVec.toNat_or, BitVec.ofNat_toNat, BitVec.setWidth_eq]

theorem ofNat_toNat_xor (a b : BitVec 32) : BitVec.ofNat 32 (a.toNat ^^^ b.toNat) = a ^^^ b := by
  rw [← BitVec.toNat_xor, BitVec.ofNat_toNat, BitVec.setWidth_eq]

/-- What a lane writes whose function gives the bits `r` of clean operands. -/
theorem laneOp_bits {mzero : Nat} {fn : Nat → Nat → Nat → Nat × Nat} {a b c : TElem} {r : BitVec 32}
    (ha : a.poison = false) (hb : b.poison = false) (hc : c.poison = false)
    (hr : BitVec.ofNat 32 (fn a.bits.toNat b.bits.toNat c.bits.toNat).1 = r) (m : Bool) :
    (m = true → some (laneOp mzero 0x7FC00000 false fn m a b c).1 = some (some { bits := r, poison := false })) ∧
      (m = false → some (laneOp mzero 0x7FC00000 false fn m a b c).1 =
        some (if mzero % 2 = 1 then some elemZero else none)) := by
  refine ⟨fun hm => ?_, fun hm => ?_⟩
  · rw [hm, laneOp_clean ha hb hc, cleanOut, hr]
  · rw [hm, laneOp_masked, maskedOut]

/-- Settles O12: each instruction is an elementwise tile of one or two operands whose function is the copy or the bitwise
function. -/
theorem bitwiseResultsAreTheBitwiseFunctions : Obligations.BitwiseResultsAreTheBitwiseFunctions := by
  unfold Obligations.BitwiseResultsAreTheBitwiseFunctions
  intro j x f t l s hpair hmask hl ea eb ha hpa r hcase
  have hzero := getElem?_noTile hl
  obtain ⟨hinstr, rfl⟩ | ⟨hb, hpb, ⟨hinstr, rfl⟩ | ⟨hinstr, rfl⟩ | ⟨hinstr, rfl⟩⟩ := hcase
  all_goals unfold vTile; rw [hinstr]; dsimp only
  · obtain ⟨w, hsends, helem⟩ := vElemwise_sends hpair hmask f t 2 false false (fun a _ _ => (a, 0)) s
    refine ⟨w, hsends.writes, hsends.due, hsends.gal, hsends.order, hsends.reg, hsends.tregs, ?_⟩
    rw [helem l ea elemZero elemZero hl ha hzero hzero]
    exact laneOp_bits hpa rfl rfl (by rw [BitVec.ofNat_toNat, BitVec.setWidth_eq]) _
  · obtain ⟨w, hsends, helem⟩ := vElemwise_sends hpair hmask f t 2 true false (fun a b _ => (a &&& b, 0)) s
    refine ⟨w, hsends.writes, hsends.due, hsends.gal, hsends.order, hsends.reg, hsends.tregs, ?_⟩
    rw [helem l ea eb elemZero hl ha hb hzero]
    exact laneOp_bits hpa hpb rfl (ofNat_toNat_and ..) _
  · obtain ⟨w, hsends, helem⟩ := vElemwise_sends hpair hmask f t 2 true false (fun a b _ => (a ||| b, 0)) s
    refine ⟨w, hsends.writes, hsends.due, hsends.gal, hsends.order, hsends.reg, hsends.tregs, ?_⟩
    rw [helem l ea eb elemZero hl ha hb hzero]
    exact laneOp_bits hpa hpb rfl (ofNat_toNat_or ..) _
  · obtain ⟨w, hsends, helem⟩ := vElemwise_sends hpair hmask f t 2 true false (fun a b _ => (a ^^^ b, 0)) s
    refine ⟨w, hsends.writes, hsends.due, hsends.gal, hsends.order, hsends.reg, hsends.tregs, ?_⟩
    rw [helem l ea eb elemZero hl ha hb hzero]
    exact laneOp_bits hpa hpb rfl (ofNat_toNat_xor ..) _

/-! ## Integer sums and differences (R50) -/

theorem signed_toNat (a : BitVec 32) : signed 32 a.toNat = a.toInt := by
  unfold signed
  rw [BitVec.toInt_eq_toNat_cond, Nat.mod_eq_of_lt a.isLt]
  dsimp only
  by_cases hlow : 2 * a.toNat < 2 ^ 32
  · rw [if_pos (by omega), if_pos hlow]
  · rw [if_neg (by omega), if_neg hlow]

theorem ofNat_unsigned (x : Int) : BitVec.ofNat 32 (unsigned 32 x) = BitVec.ofInt 32 x := by
  refine BitVec.eq_of_toNat_eq ?_
  rw [BitVec.toNat_ofNat, BitVec.toNat_ofInt]
  unfold unsigned
  exact Nat.mod_eq_of_lt (by omega)

theorem intResult_wraps {sat : Nat} (h : sat % 2 = 0) (x : Int) : (intResult sat x).1 = unsigned 32 x := by
  unfold intResult
  simp [h]

theorem laneAdd_int {sat : Nat} (h : sat % 2 = 0) (a b : BitVec 32) :
    BitVec.ofNat 32 (laneAdd true sat a.toNat b.toNat).1 = a + b := by
  unfold laneAdd
  rw [if_pos rfl, intResult_wraps h, ofNat_unsigned, signed_toNat, signed_toNat, BitVec.ofInt_add, BitVec.ofInt_toInt,
    BitVec.ofInt_toInt]

theorem laneSub_int {sat : Nat} (h : sat % 2 = 0) (a b : BitVec 32) :
    BitVec.ofNat 32 (laneSub true sat a.toNat b.toNat).1 = a - b := by
  unfold laneSub
  rw [if_pos rfl, intResult_wraps h, ofNat_unsigned, signed_toNat, signed_toNat, Int.sub_eq_add_neg, BitVec.ofInt_add,
    BitVec.ofInt_neg, BitVec.ofInt_toInt, BitVec.ofInt_toInt, BitVec.sub_eq_add_neg]

/-- Settles O13. -/
theorem integerAddAndSubtractWrap : Obligations.IntegerAddAndSubtractWrap := by
  unfold Obligations.IntegerAddAndSubtractWrap
  intro j x f t l s hpair hmask hl hbit hfmt hsat ea eb ha hb hpa hpb r hcase
  have hint : vIsInt f = true := by rw [vIsInt, hfmt]; rfl
  have hzero := getElem?_noTile hl
  obtain ⟨hinstr, rfl⟩ | ⟨hinstr, rfl⟩ := hcase
  all_goals unfold vTile; rw [hinstr]; dsimp only; rw [hint]
  · obtain ⟨w, hsends, helem⟩ := vElemwise_sends hpair hmask f t 4 true false (fun a b _ => laneAdd true f.sat a b) s
    refine ⟨w, hsends.writes, hsends.due, hsends.gal, hsends.reg, ?_⟩
    rw [helem l ea eb elemZero hl ha hb hzero]
    exact (laneOp_bits hpa hpb rfl (laneAdd_int hsat ..) _).1 hbit
  · obtain ⟨w, hsends, helem⟩ := vElemwise_sends hpair hmask f t 4 true false (fun a b _ => laneSub true f.sat a b) s
    refine ⟨w, hsends.writes, hsends.due, hsends.gal, hsends.reg, ?_⟩
    rw [helem l ea eb elemZero hl ha hb hzero]
    exact (laneOp_bits hpa hpb rfl (laneSub_int hsat ..) _).1 hbit

/-! ## VFLG (R171) -/

section
variable (j : VJob) (f : VecF)

/-- The copy that VFLG sends of a quad's flag bytes. -/
def flagWrite (s : Block) (q : Nat) : VWrite :=
  { part := false, due := cyc s + 2, gal := j.gal, rank := 2, order := j.order, reg := (f.dst + q) % 64
    elems := (List.zipWith (fun (m : Bool) v => if m then cleanOut (v, 0) else maskedOut f.mzero) (maskList j.mask)
      (laneFlags s j.gal (flagBank j.ctx.tag) q)).map (·.1) }

/-- The flag bytes of a quad after VFLG. -/
def flagsLeft (s : Block) (q : Nat) : List Nat :=
  if bit f.aux 0 then
    List.zipWith (fun (m : Bool) v => if m then 0 else v) (maskList j.mask) (laneFlags s j.gal (flagBank j.ctx.tag) q)
  else laneFlags s j.gal (flagBank j.ctx.tag) q

/-- VFLG on one quad. -/
def flagQuad (q : Nat) (s : Block) : Block :=
  { s with vec := { s.vec with
      writes := s.vec.writes ++ [flagWrite j f s q]
      flags := if bit f.aux 0 then
          mapSet flagZero s.vec.flags ((j.gal * 2 + flagBank j.ctx.tag) * 4 + q) (flagsLeft j f s q)
        else s.vec.flags } }

theorem laneFlags_flagQuad_same (q : Nat) (s : Block) :
    laneFlags (flagQuad j f q s) j.gal (flagBank j.ctx.tag) q = flagsLeft j f s q := by
  unfold laneFlags flagQuad
  dsimp only
  split
  · exact mapGet_mapSet_same ..
  · next h => exact (if_neg h).symm

theorem laneFlags_flagQuad_ne {q p : Nat} (h : p ≠ q) (s : Block) :
    laneFlags (flagQuad j f q s) j.gal (flagBank j.ctx.tag) p = laneFlags s j.gal (flagBank j.ctx.tag) p := by
  unfold laneFlags flagQuad
  dsimp only
  split
  · exact mapGet_mapSet_ne _ _ _ _ _ (by omega)
  · rfl

/-- Each quad of the list is copied and left as it was before any of them. -/
theorem forEach_flagQuad {qs : List Nat} (hqs : qs.Nodup) (s : Block) :
    (forEach qs (flagQuad j f) s).vec.writes = s.vec.writes ++ qs.map (flagWrite j f s) ∧
      ∀ p, laneFlags (forEach qs (flagQuad j f) s) j.gal (flagBank j.ctx.tag) p =
        if p ∈ qs then flagsLeft j f s p else laneFlags s j.gal (flagBank j.ctx.tag) p := by
  induction qs generalizing s with
  | nil => exact ⟨(List.append_nil _).symm, fun _ => rfl⟩
  | cons q qs ih =>
    obtain ⟨hq, hqs⟩ := List.nodup_cons.mp hqs
    obtain ⟨hwrites, hflags⟩ := ih hqs (flagQuad j f q s)
    have hother : ∀ p ∈ qs, laneFlags (flagQuad j f q s) j.gal (flagBank j.ctx.tag) p =
        laneFlags s j.gal (flagBank j.ctx.tag) p := fun p hp =>
      laneFlags_flagQuad_ne j f (fun h : p = q => hq (h ▸ hp)) s
    constructor
    · have hmap : qs.map (flagWrite j f (flagQuad j f q s)) = qs.map (flagWrite j f s) :=
        List.map_congr_left fun p hp => by unfold flagWrite; rw [hother p hp]; rfl
      change (forEach qs (flagQuad j f) (flagQuad j f q s)).vec.writes = _
      rw [hwrites, hmap, List.map_cons, ← List.singleton_append, ← List.append_assoc]
      rfl
    · intro p
      change laneFlags (forEach qs (flagQuad j f) (flagQuad j f q s)) _ _ p = _
      rw [hflags]
      by_cases hp : p ∈ qs
      · rw [if_pos hp, if_pos (List.mem_cons_of_mem q hp)]
        unfold flagsLeft
        rw [hother p hp]
      · rw [if_neg hp]
        by_cases hpq : p = q
        · rw [hpq, if_pos List.mem_cons_self, laneFlags_flagQuad_same]
        · rw [if_neg (by simp [hp, hpq]), laneFlags_flagQuad_ne j f hpq]

end

/-- Without a mismatch and with a clean mask VFLG is the copy of the four quads. -/
theorem vFlagCopy_eq {j : VJob} (f : VecF) {s : Block} (hmask : j.maskBad = false)
    (hpair : j.pairing = false ∨ ∀ q, injects s 0x11 (locOf 2 j.gal 0 0 0 q) = false) :
    vFlagCopy j f s = forEach (List.range 4) (flagQuad j f) s := by
  have hcheck : ∀ v, pairCheck j 0 0 v s = (false, s) := by
    intro v
    obtain h | h := hpair
    · exact pairCheck_unpaired h ..
    · cases hp : j.pairing <;> simp [pairCheck, pairHit, inject, hp, h]
  unfold vFlagCopy
  dsimp only
  rw [hcheck, hmask]
  refine congrArg (fun g => forEach (List.range 4) g s) (funext fun q => funext fun s => ?_)
  cases hclear : bit f.aux 0 <;> simp [flagQuad, flagWrite, flagsLeft, vWriteAt, hclear]

/-- Settles O17. -/
theorem vflgCopiesAndClearsTheFlagBytes : Obligations.VflgCopiesAndClearsTheFlagBytes := by
  unfold Obligations.VflgCopiesAndClearsTheFlagBytes
  intro j x f t s hinstr hmask hpair
  have htile : vTile j t s = forEach (List.range 4) (flagQuad j f) s := by
    rw [← vFlagCopy_eq f hmask hpair]
    unfold vTile
    rw [hinstr]
  obtain ⟨hwrites, hflags⟩ := forEach_flagQuad j f List.nodup_range s
  rw [htile]
  refine ⟨_, hwrites, by simp, fun q l v hq hl hv => ?_⟩
  have hlane := getElem?_maskList j.mask hl
  rw [hflags q, if_pos (List.mem_range.mpr hq)]
  constructor
  · intro hbit
    rw [hbit] at hlane
    refine ⟨⟨flagWrite j f s q, by simp [hq], rfl, rfl, rfl, rfl, ?_⟩, ?_⟩
    · simp [flagWrite, List.getElem?_zipWith, hlane, hv, cleanOut]
    · rw [flagsLeft, bit_eq_testBit]
      cases f.aux.testBit 0 <;> simp [List.getElem?_zipWith, hlane, hv]
  · intro hbit
    rw [hbit] at hlane
    rw [flagsLeft]
    cases bit f.aux 0 <;> simp [List.getElem?_zipWith, hlane, hv]

end Sys2Proof.Machine
end

section
/-! SUPPORT. Register writes that are due: one that is alone, and two that meet in one register (R154 to R156). -/

namespace Sys2Proof.Machine

/-! ## SRAM events -/

/-- Where no injection is armed for a gallery, its SRAM has no event. -/
theorem sramEventAt_unarmed {s : Block} {g : Nat} (h9 : injects s 0x09 (locOf 3 g 0 0 0 0) = false)
    (hA : injects s 0x0A (locOf 3 g 0 0 0 0) = false) (word : Nat) : sramEventAt g word s = (false, s) := by
  simp [sramEventAt, inject, h9, hA]

theorem treg_setTreg_same (g r : Nat) (v : List TElem) (s : Block) : treg (setTreg g r v s) g r = v := mapGet_mapSet_same ..

theorem treg_setTreg_ne {g r h q : Nat} (v : List TElem) (s : Block) (hne : (h, q % 64) ≠ (g, r % 64)) :
    treg (setTreg g r v s) h q = treg s h q := by
  refine mapGet_mapSet_ne _ _ _ _ _ fun hkey => hne (Prod.ext ?_ ?_)
  all_goals dsimp only; omega

/-! ## The writes of one register -/

section
variable {s : Block} {w : VWrite}

theorem tregWrite_unarmed (h9 : injects s 0x09 (locOf 3 w.gal 0 0 0 0) = false)
    (hA : injects s 0x0A (locOf 3 w.gal 0 0 0 0) = false) :
    tregWrite w s = setTreg w.gal w.reg (mergeTile (treg s w.gal w.reg) w.elems) s := by
  unfold tregWrite
  dsimp only
  rw [sramEventAt_unarmed h9 hA]
  rfl

theorem writeBeats_self (w : VWrite) : writeBeats w w = false := by simp [writeBeats]

/-- A write that is alone takes effect. -/
theorem vWriteReg_one (w : VWrite) (s : Block) : vWriteReg [w] (w.gal * 64 + w.reg) s = tregWrite w s := by
  simp [vWriteReg, pickWrite, writeBeats_self, forEach]

/-- Of two writes the one that the other does not beat takes effect; the other is a program fault. -/
theorem vWriteReg_two {v : VWrite} {ws : List VWrite} (hws : ws = [w, v] ∨ ws = [v, w]) (hgal : v.gal = w.gal)
    (hreg : v.reg = w.reg) (horder : v.order ≠ w.order) (hwin : writeBeats w v = true) (hlose : writeBeats v w = false)
    (s : Block) :
    vWriteReg ws (w.gal * 64 + w.reg) s = logFault .program v.gal v.reg 0x155 0 (tregWrite w s) := by
  have hne : v ≠ w := fun h => horder (h ▸ rfl)
  have hpart : samePart w v = false := by simp [samePart, horder.symm]
  obtain rfl | rfl := hws
  · simp [vWriteReg, pickWrite, writeBeats_self, hgal, hreg, hwin, hlose, hpart, forEach]
  · simp [vWriteReg, pickWrite, writeBeats_self, hgal, hreg, hwin, hlose, hpart, hne, forEach]

/-- Where every write is due and meets in one register, the commit is that register's. -/
theorem vCommit_oneReg {key : Nat} (hm : s.vec.mwrites = []) (hz : s.vec.zwrites = []) (hsome : s.vec.writes ≠ [])
    (hdue : ∀ v ∈ s.vec.writes, v.due ≤ cyc s) (hkey : ∀ v ∈ s.vec.writes, v.gal * 64 + v.reg = key) :
    vCommit s = vWriteReg s.vec.writes key { s with vec := { s.vec with writes := [] } } := by
  have hall : s.vec.writes.filter (fun w => decide (w.due ≤ cyc s)) = s.vec.writes :=
    List.filter_eq_self.mpr fun v hv => decide_eq_true (hdue v hv)
  have hnone : s.vec.writes.filter (fun w => decide (cyc s < w.due)) = [] :=
    List.filter_eq_nil_iff.mpr fun v hv => by simpa using hdue v hv
  have hkeys : (s.vec.writes.map (fun v => v.gal * 64 + v.reg)).foldl setAdd [] = [key] := by
    rw [List.map_congr_left hkey, List.map_const']
    obtain ⟨n, hn⟩ := Nat.exists_eq_succ_of_ne_zero (fun hzero => hsome (List.length_eq_zero_iff.mp hzero))
    rw [hn, List.replicate_succ, List.foldl_cons]
    exact List.foldlRecOn _ _ (motive := fun l => l = [key]) rfl fun l hl a ha => by
      rw [hl, List.eq_of_mem_replicate ha]
      exact if_pos rfl
  have hvec : { s.vec with writes := [], mwrites := [], zwrites := [] } = { s.vec with writes := [] } := by
    rw [← hm, ← hz]
  unfold vCommit
  dsimp only
  rw [hall, hnone, hkeys, hm, hz]
  dsimp only [List.filter_nil]
  rw [hvec]
  rfl

end

/-- Settles O14. -/
theorem aDueWriteReachesItsRegister : Obligations.ADueWriteReachesItsRegister := by
  unfold Obligations.ADueWriteReachesItsRegister
  intro s w hm hz hdue h9 hA
  have hwrite : tregWrite w { s with vec := { s.vec with writes := [] } } =
      setTreg w.gal w.reg (mergeTile (treg s w.gal w.reg) w.elems) { s with vec := { s.vec with writes := [] } } :=
    tregWrite_unarmed h9 hA
  constructor
  · intro hone
    have hcommit : vCommit s = setTreg w.gal w.reg (mergeTile (treg s w.gal w.reg) w.elems)
        { s with vec := { s.vec with writes := [] } } := by
      rw [vCommit_oneReg (key := w.gal * 64 + w.reg) hm hz (by simp [hone]) (by simpa [hone] using hdue) (by simp [hone]),
        hone, vWriteReg_one, hwrite]
    rw [hcommit]
    exact ⟨treg_setTreg_same .., rfl, fun g r hne => treg_setTreg_ne _ _ hne⟩
  · intro v hboth hduev hgal hreg horder hrank
    have hwin : writeBeats w v = true := by simpa [writeBeats] using hrank
    have hlose : writeBeats v w = false := by
      simp only [writeBeats, Bool.or_eq_false_iff, decide_eq_false_iff_not, Bool.and_eq_false_iff, beq_eq_false_iff_ne]
      omega
    have hmem : ∀ u ∈ s.vec.writes, u = w ∨ u = v := by
      obtain h | h := hboth <;> simp [h, or_comm]
    have hcommit : vCommit s = logFault .program v.gal v.reg 0x155 0
        (setTreg w.gal w.reg (mergeTile (treg s w.gal w.reg) w.elems) { s with vec := { s.vec with writes := [] } }) := by
      rw [vCommit_oneReg (key := w.gal * 64 + w.reg) hm hz, vWriteReg_two hboth hgal hreg horder hwin hlose, hwrite]
      · obtain h | h := hboth <;> simp [h]
      · intro u hu
        obtain rfl | rfl := hmem u hu
        · exact hdue
        · exact hduev
      · intro u hu
        obtain rfl | rfl := hmem u hu
        · rfl
        · rw [hgal, hreg]
    rw [hcommit]
    refine ⟨?_, ⟨{ kind := .program, gal := v.gal, place := v.reg, detail := 0x155, tag := 0 }, ?_, rfl, hgal, rfl⟩, fun g r hne => ?_⟩
    · rw [logFault_eq]
      exact treg_setTreg_same ..
    · rw [logFault_log]
      exact List.mem_append_right _ (List.mem_singleton_self _)
    · rw [logFault_eq]
      exact treg_setTreg_ne (s := { s with vec := { s.vec with writes := [] } }) _ hne

end Sys2Proof.Machine
end

section
/-! SUPPORT. Folds over a list of updates; the token counters and SWAIT (R206, R207); CHECKED, CWAKE and the keepers that they
name (R91, R217, R218); side windows and the slices placed in them (R214, R215). -/

namespace Sys2Proof.Machine

/-! ## Folds -/

section
variable {α σ β : Type _}

theorem forEach_cons (a : α) (l : List α) (f : α → σ → σ) (s : σ) : forEach (a :: l) f s = forEach l f (f a s) := rfl

theorem forEach_append (l m : List α) (f : α → σ → σ) (s : σ) : forEach (l ++ m) f s = forEach m f (forEach l f s) :=
  List.foldl_append

/-- What every update of the list keeps, the fold keeps. -/
theorem forEach_proj {l : List α} {f : α → σ → σ} (p : σ → β) (h : ∀ a ∈ l, ∀ s, p (f a s) = p s) (s : σ) :
    p (forEach l f s) = p s := by
  induction l generalizing s with
  | nil => rfl
  | cons a l ih =>
    rw [forEach_cons, ih (fun b hb => h b (List.mem_cons_of_mem a hb)), h a List.mem_cons_self]

/-- A property that every update of the list keeps holds after the fold. -/
theorem forEach_induction {l : List α} {f : α → σ → σ} {P : σ → Prop} (h : ∀ a ∈ l, ∀ s, P s → P (f a s)) {s : σ}
    (hs : P s) : P (forEach l f s) := by
  induction l generalizing s with
  | nil => exact hs
  | cons a l ih => exact ih (fun b hb => h b (List.mem_cons_of_mem a hb)) (h a List.mem_cons_self s hs)

/-- Updates that agree on every state with some property, which they keep, fold alike. -/
theorem forEach_congr {l : List α} {f g : α → σ → σ} {P : σ → Prop} (hP : ∀ a ∈ l, ∀ s, P s → P (g a s))
    (h : ∀ a ∈ l, ∀ s, P s → f a s = g a s) {s : σ} (hs : P s) : forEach l f s = forEach l g s := by
  induction l generalizing s with
  | nil => rfl
  | cons a l ih =>
    rw [forEach_cons, forEach_cons, h a List.mem_cons_self s hs]
    exact ih (fun b hb => hP b (List.mem_cons_of_mem a hb)) (fun b hb => h b (List.mem_cons_of_mem a hb))
      (hP a List.mem_cons_self s hs)

end

theorem mem_maskBits {n m i : Nat} : i ∈ maskBits n m ↔ i < n ∧ m.testBit i = true := by
  rw [maskBits, List.mem_filter, List.mem_range, bit_eq_testBit]

theorem nodup_maskBits (n m : Nat) : (maskBits n m).Nodup := List.nodup_range.filter _

/-! ## Token counters and SWAIT -/

theorem tokVal_eq_min (s : Block) (g c : Nat) : tokVal s g c = min (2 ^ 32 - 1) (tokSum s g c) := satN_eq_min ..

theorem tokSum_tokSub_same (g c n : Nat) (s : Block) : tokSum (tokSub g c n s) g c = tokSum s g c - n := mapGet_mapSet_same ..

theorem tokSum_tokSub_ne {g c h d : Nat} (n : Nat) (s : Block) (hkey : tokKey h d ≠ tokKey g c) :
    tokSum (tokSub g c n s) h d = tokSum s h d := mapGet_mapSet_ne _ _ _ _ _ hkey

/-- A consumption in galleries that are named once each. -/
theorem tokSum_waitTake {gals : List Nat} (hnodup : gals.Nodup) {ctr : Nat} (hctr : ctr < 256) (n : Nat) (s : Block) (g : Nat)
    {c : Nat} (hc : c < 256) :
    tokSum (waitTake gals ctr n s) g c = if g ∈ gals ∧ c = ctr then tokSum s g c - n else tokSum s g c := by
  induction gals generalizing s with
  | nil => simp [waitTake, forEach]
  | cons a gals ih =>
    obtain ⟨ha, hnodup⟩ := List.nodup_cons.mp hnodup
    change tokSum (waitTake gals ctr n (tokSub a ctr n s)) g c = _
    rw [ih hnodup]
    by_cases hkey : g = a ∧ c = ctr
    · obtain ⟨rfl, rfl⟩ := hkey
      rw [if_neg (fun h => ha h.1), if_pos ⟨List.mem_cons_self, rfl⟩, tokSum_tokSub_same]
    · have hne : tokKey g c ≠ tokKey a ctr := tokKey_ne hctr hc (fun h => hkey (Prod.ext_iff.mp h))
      have hiff : g ∈ gals ∧ c = ctr ↔ g ∈ a :: gals ∧ c = ctr :=
        ⟨fun ⟨hg, hc⟩ => ⟨List.mem_cons_of_mem a hg, hc⟩,
          fun ⟨hg, hc⟩ => ⟨(List.mem_cons.mp hg).resolve_left fun hga => hkey ⟨hga, hc⟩, hc⟩⟩
      rw [tokSum_tokSub_ne _ _ hne]
      simp only [hiff]

theorem waitTake_eq (gals : List Nat) (ctr n : Nat) (s : Block) :
    waitTake gals ctr n s = { s with tok := { s.tok with vals := (waitTake gals ctr n s).tok.vals } } := by
  unfold waitTake
  exact forEach_induction (P := fun t : Block => t = { s with tok := { s.tok with vals := t.tok.vals } })
    (fun g _ t ht => by rw [ht]; rfl) rfl

section
variable {x : SlotCtx} {ctr value : Nat} {s : Block} {g : Nat}

/-- An SWAIT of the main program that reaches its gallery. -/
theorem doSwait_reaches (hreach : reaches s x g) (htag : x.tag = 0) (hctr : ctr < 240) (hvalue : value < 2 ^ 32) :
    doSwait x ctr value s = if value ≤ tokVisible s g ctr then waitTake [g] ctr value s
      else { s with freeze := some { kind := .stall, bundle := false, held := [], gals := [g], ctr, value } } := by
  obtain ⟨hz, hgal, hruns⟩ := hreach
  have hc : ctr % 256 = ctr := Nat.mod_eq_of_lt (by omega)
  have hv : value % 2 ^ 32 = value := Nat.mod_eq_of_lt hvalue
  have hok : ctrOk x.tag ctr = true := by simp [ctrOk, htag, hc, hctr]
  unfold doSwait
  rw [withSlot_runs hz hgal hruns, hc, hv]
  simp only [htag, ne_eq, not_true_eq_false, htag ▸ hok, Bool.not_true, Bool.false_eq_true, or_self, if_false, waitMet,
    List.all_cons, List.all_nil, Bool.and_true, decide_eq_true_eq]
  rfl

end

/-- Settles O19. -/
theorem swaitSubtractsOrStalls : Obligations.SwaitSubtractsOrStalls := by
  unfold Obligations.SwaitSubtractsOrStalls
  intro x ctr value s g hreach htag hctr hvalue
  have hexec : exec (.swait x ctr value) s = .next { s with toBlock := doSwait x ctr value s.toBlock } := effect_eq ..
  rw [doSwait_reaches hreach htag hctr hvalue] at hexec
  have hfreeze : (waitTake [g] ctr value s.toBlock).freeze = none := by
    rw [waitTake_eq]
    exact hreach.1
  have hsum : tokSum (waitTake [g] ctr value s.toBlock) g ctr = tokSum s.toBlock g ctr - value := by
    rw [tokSum_waitTake (List.pairwise_singleton _ g) (by omega) _ _ _ (by omega), if_pos ⟨List.mem_singleton_self g, rfl⟩]
  refine ⟨fun hmet => ?_, fun hlow => ?_, fun hzero => ?_⟩
  · rw [if_pos hmet] at hexec
    refine ⟨_, hexec, rfl, hsum, ?_, hfreeze, fun h c hc hne => ?_⟩
    · rw [tokVal_eq_min, hsum]
    · rw [tokVal_eq_min, tokVal_eq_min, tokSum_waitTake (List.pairwise_singleton _ g) (by omega) _ _ _ hc, if_neg]
      rintro ⟨hh, rfl⟩
      exact hne (by rw [List.mem_singleton.mp hh])
  · rw [if_neg (by omega)] at hexec
    exact hexec
  · rw [if_pos (by omega)] at hexec
    refine ⟨_, hexec, rfl, hfreeze, ?_⟩
    rw [hsum, hzero, Nat.sub_zero]

/-! ## CHECKED and CWAKE -/

theorem keeper_setKeeper_same (g a : Nat) (k : Keeper) (s : Block) : keeper (setKeeper g a k s) g a = k := mapGet_mapSet_same ..

theorem keeper_setKeeper_ne {g a h b : Nat} (ha : a < 8) (hb : b < 8) (hne : (h, b) ≠ (g, a)) (k : Keeper) (s : Block) :
    keeper (setKeeper g a k s) h b = keeper s h b := by
  refine mapGet_mapSet_ne _ _ _ _ _ fun hkey => hne (Prod.ext ?_ ?_)
  all_goals dsimp only; omega

/-- Waking alcoves that are named once each. -/
theorem keeper_forEach_keeperUp {g : Nat} {as : List Nat} (hnodup : as.Nodup) (has : ∀ a ∈ as, a < 8) (s : Block) (h : Nat)
    {b : Nat} (hb : b < 8) :
    keeper (forEach as (fun a s => setKeeper g a (keeperUp (keeper s g a)) s) s) h b =
      if h = g ∧ b ∈ as then keeperUp (keeper s h b) else keeper s h b := by
  induction as generalizing s with
  | nil => simp [forEach]
  | cons a as ih =>
    obtain ⟨ha, hnodup⟩ := List.nodup_cons.mp hnodup
    have ha8 : a < 8 := has a List.mem_cons_self
    rw [forEach_cons, ih hnodup fun c hc => has c (List.mem_cons_of_mem a hc)]
    by_cases hkey : h = g ∧ b = a
    · obtain ⟨rfl, rfl⟩ := hkey
      rw [if_neg (fun hc => ha hc.2), if_pos ⟨rfl, List.mem_cons_self⟩, keeper_setKeeper_same]
    · have hne : (h, b) ≠ (g, a) := fun hc => hkey (Prod.ext_iff.mp hc)
      have hiff : h = g ∧ b ∈ as ↔ h = g ∧ b ∈ a :: as :=
        ⟨fun ⟨hh, hb⟩ => ⟨hh, List.mem_cons_of_mem a hb⟩,
          fun ⟨hh, hb⟩ => ⟨hh, (List.mem_cons.mp hb).resolve_left fun hba => hkey ⟨hh, hba⟩⟩⟩
      rw [keeper_setKeeper_ne ha8 hb hne]
      simp only [hiff]

/-- Waking a running gallery. -/
theorem keeper_wakeGal {g mask ve : Nat} {s : Block} (hruns : (gclk s g).running = true) (h : Nat) {b : Nat} (hb : b < 8) :
    keeper (wakeGal g mask ve s) h b =
      if h = g ∧ mask.testBit b = true then keeperUp (keeper s h b) else keeper s h b := by
  unfold wakeGal
  rw [if_pos hruns, keeper_forEach_keeperUp (nodup_maskBits 8 mask) (fun a ha => (mem_maskBits.mp ha).1) s h hb]
  simp only [mem_maskBits, hb, true_and]

theorem wakeGal_stopped {g mask ve : Nat} {s : Block} (hstop : (gclk s g).running = false) :
    wakeGal g mask ve s = setGclk g { gclk s g with
      restarting := true, wakeAlcoves := (gclk s g).wakeAlcoves ||| mask % 256
      wakeVe := (gclk s g).wakeVe || ve % 2 == 1 } s := by
  unfold wakeGal
  dsimp only
  rw [if_neg (by rw [hstop]; decide)]

theorem gclk_setGclk_same (g : Nat) (c : GClk) (s : Block) : gclk (setGclk g c s) g = c := mapGet_mapSet_same ..

theorem gclk_setGclk_ne {g h : Nat} (hne : h ≠ g) (c : GClk) (s : Block) : gclk (setGclk g c s) h = gclk s h :=
  mapGet_mapSet_ne _ _ _ _ _ hne

theorem keeperUp_resting {k : Keeper} (h : k.phase = .gated ∨ k.phase = .rampDown) :
    keeperUp k = if k.frozen = 0 then { k with phase := .steady, gap := 0, ramp := 0 } else { k with phase := .rampUp } := by
  unfold keeperUp
  obtain h | h := h <;> rw [h]

theorem keeperUp_steady {k : Keeper} (h : k.phase = .steady) : keeperUp k = { k with gap := 0 } := by
  unfold keeperUp
  rw [h]

theorem keeperUp_rampUp {k : Keeper} (h : k.phase = .rampUp) : keeperUp k = k := by
  unfold keeperUp
  rw [h]

theorem takePairing_none {b : Block} (h : b.gals.nextPair = none) : takePairing b = b := by
  unfold takePairing
  rw [h]

theorem takePairing_some {b : Block} {a q : Bool} (h : b.gals.nextPair = some (a, q)) :
    (takePairing b).gals.alcPair = a ∧ (takePairing b).gals.quadPair = q ∧ (takePairing b).gals.nextPair = none := by
  unfold takePairing
  rw [h]
  exact ⟨rfl, rfl, rfl⟩

/-- Settles O20. -/
theorem checkedAndCwakeSetModesAndRamps : Obligations.CheckedAndCwakeSetModesAndRamps := by
  unfold Obligations.CheckedAndCwakeSetModesAndRamps
  refine ⟨⟨fun x a q s hz htag => ?_, fun b a q h => takePairing_some h, fun b h => takePairing_none h⟩,
    fun x mask ve s g hz hgal => ?_⟩
  · have hexec : exec (.checked x a q) s = .next { s with toBlock := doChecked x a q s.toBlock } := effect_eq ..
    constructor
    · intro hbuild
      rw [hexec]
      simp only [doChecked, hz, htag, ne_eq, not_true_eq_false, if_false, hbuild, Bool.false_eq_true]
    · intro hbuild
      rw [hexec]
      simp only [doChecked, hz, htag, ne_eq, not_true_eq_false, if_false, hbuild, if_true, slotFault]
  · have hexec : exec (.cwake x mask ve) s = .next { s with toBlock := wakeGal g mask ve s.toBlock } := by
      change effect (doCwake x mask ve) s = _
      rw [effect_eq]
      simp only [doCwake, hz, hgal]
    constructor
    · intro hruns
      refine ⟨_, hexec, rfl, fun h a ha => ?_⟩
      dsimp only
      rw [keeper_wakeGal hruns h ha]
      refine ⟨fun hh hbit hphase => ?_, fun hh hbit hphase => ?_, fun hother => ?_⟩
      · rw [if_pos ⟨hh, hbit⟩, keeperUp_resting hphase]
      · rw [if_pos ⟨hh, hbit⟩, keeperUp_steady hphase]
      · split
        · next hnamed =>
          obtain ⟨hh, hbit⟩ := hnamed
          obtain hne | hoff | hphase := hother
          · exact absurd hh hne
          · exact absurd (hbit.symm.trans hoff) (by decide)
          · exact keeperUp_rampUp hphase
        · rfl
    · intro hstop
      rw [wakeGal_stopped hstop] at hexec
      refine ⟨_, hexec, rfl, ?_⟩
      dsimp only
      rw [gclk_setGclk_same]
      exact ⟨rfl, rfl, rfl, rfl⟩

/-! ## Opening a side window (R214) -/

section
variable {x : SlotCtx} {length mask ve g : Nat} {s : Block}

/-- SIDE of the main program on a running gallery opens its window. -/
theorem doSide_reaches (hreach : reaches s x g) (htag : x.tag = 0) (hbuild : rebuilding s = false) (hlen : length < 65536) :
    doSide x length mask ve s = openSide [g] length mask ve s := by
  obtain ⟨hz, hgal, hruns⟩ := hreach
  have hstopped : stoppedGals s [g] = [] := by simp [stoppedGals, hruns]
  unfold doSide sideOn reach
  simp only [hz, hgal, Option.toList_some, List.cons_ne_nil, if_false, hstopped, if_true, htag, ne_eq, not_true_eq_false,
    hbuild, Bool.false_eq_true, Nat.mod_eq_of_lt hlen]

/-- A gallery lies in one hall. -/
theorem hallsOf_gallery (hg : g < 50) : [0, 1].filter (fun h => [g].any (fun g => galHall g == h)) = [galHall g] := by
  have hhall : galHall g = 0 ∨ galHall g = 1 := by
    unfold galHall
    omega
  obtain h | h := hhall <;> simp [h]

theorem openSide_gallery (hg : g < 50) (hpos : 0 < length) :
    openSide [g] length mask ve s = { s with
      side := s.side ++ [{ hall := galHall g, start := cyc s + 1, stop := cyc s + 1 + length, gals := [g], alcoves := mask % 256
                           ve := ve % 2 == 1, examine := true, slice := none, due := 0, sliceEnd := 0 }]
      clk := { s.clk with nextIssue := max s.clk.nextIssue (cyc s + 1 + length) } } := by
  unfold openSide
  rw [if_neg (by simp; omega), hallsOf_gallery hg]
  rfl

end

/-! ## Placing a slice (R215) -/

/-- The galleries that a slice's bundles name are listed once each. -/
theorem sorted_setAdd {l : List Nat} (h : l.Pairwise (· < ·)) (n : Nat) : (setAdd l n).Pairwise (· < ·) ∧
    ∀ m, m ∈ setAdd l n ↔ m = n ∨ m ∈ l := by
  induction l with
  | nil => simp [setAdd]
  | cons a l ih =>
    obtain ⟨ha, hl⟩ := List.pairwise_cons.mp h
    obtain ⟨hsorted, hmem⟩ := ih hl
    unfold setAdd
    split
    · next heq => exact ⟨h, fun m => by rw [← heq, List.mem_cons]; exact or_self_left.symm⟩
    · next hne =>
      split
      · next hlt =>
        refine ⟨List.pairwise_cons.mpr ⟨fun m hm => ?_, h⟩, fun m => List.mem_cons⟩
        obtain rfl | hm := List.mem_cons.mp hm
        · exact hlt
        · exact Nat.lt_trans hlt (ha m hm)
      · next hge =>
        refine ⟨List.pairwise_cons.mpr ⟨fun m hm => ?_, hsorted⟩, fun m => ?_⟩
        · obtain rfl | hm := (hmem m).mp hm
          · omega
          · exact ha m hm
        · rw [List.mem_cons, List.mem_cons, hmem]
          exact or_left_comm

theorem sorted_foldl_setAdd {l : List Nat} (h : l.Pairwise (· < ·)) (m : List Nat) : (m.foldl setAdd l).Pairwise (· < ·) := by
  induction m generalizing l with
  | nil => exact h
  | cons a m ih => exact ih (sorted_setAdd h a).1

theorem nodup_sliceGals (s : Block) (n : Nat) (b : Bytes) : (sliceGals s n b).Nodup := by
  suffices (sliceGals s n b).Pairwise (· < ·) from this.imp (fun h => Nat.ne_of_lt h)
  induction n generalizing b with
  | zero => exact List.Pairwise.nil
  | succ n ih =>
    unfold sliceGals
    split
    · exact List.Pairwise.nil
    · exact sorted_foldl_setAdd (ih _) _

/-- The galleries that bundles name follow from the image and the binding alone. -/
theorem sliceGals_tok (s : Block) (tok : Tokens) (n : Nat) (b : Bytes) :
    sliceGals { s with tok } n b = sliceGals s n b := by
  induction n generalizing b with
  | zero => rfl
  | succ n ih =>
    unfold sliceGals
    split
    · rfl
    · dsimp only
      rw [ih]
      rfl

/-- Taking the entry conditions of a slice. -/
def takeConds (q : SideSlice) (s : Block) : Block :=
  forEach q.conds (fun c s => waitTake (sliceGals s q.bundles.length q.bundles) c.1 c.2 s) s

theorem takeConds_eq (q : SideSlice) (s : Block) :
    takeConds q s = { s with tok := { s.tok with vals := (takeConds q s).tok.vals } } := by
  unfold takeConds
  exact forEach_induction (P := fun t : Block => t = { s with tok := { s.tok with vals := t.tok.vals } })
    (fun c _ t ht => by rw [waitTake_eq, ht]) rfl

theorem tokSum_takeConds {q : SideSlice} (hconds : ∀ c ∈ q.conds, c.1 < 256) (s : Block) (g : Nat) {ctr : Nat}
    (hctr : ctr < 256) : tokSum (takeConds q s) g ctr =
      if g ∈ sliceGals s q.bundles.length q.bundles
        then tokSum s g ctr - ((q.conds.filter (fun c => c.1 == ctr)).map (·.2)).sum else tokSum s g ctr := by
  unfold takeConds
  generalize q.conds = conds at hconds ⊢
  induction conds generalizing s with
  | nil => simp [forEach]
  | cons c conds ih =>
    have hc : c.1 < 256 := hconds c List.mem_cons_self
    have hgals : sliceGals (waitTake (sliceGals s q.bundles.length q.bundles) c.1 c.2 s) q.bundles.length q.bundles =
        sliceGals s q.bundles.length q.bundles := by
      rw [waitTake_eq, sliceGals_tok]
    rw [forEach_cons, ih _ (fun d hd => hconds d (List.mem_cons_of_mem c hd)), hgals,
      tokSum_waitTake (nodup_sliceGals ..) hc _ _ _ hctr]
    by_cases hg : g ∈ sliceGals s q.bundles.length q.bundles
    · by_cases heq : ctr = c.1
      · simp [hg, heq, Nat.sub_sub]
      · simp [hg, heq, show (c.1 == ctr) = false from beq_eq_false_iff_ne.mpr (Ne.symm heq)]
    · simp [hg]

section
variable {w : SideWin} {s : Block}

theorem placeSlice_none (h : (sideQueue s w.hall).find? (sliceFits s w) = none) :
    placeSlice w s = ({ w with slice := none, examine := false }, s) := by
  have h' : (sideQueue s w.hall).find? (sliceFits s { w with slice := none, examine := false }) = none := h
  unfold placeSlice
  dsimp only
  rw [h']

theorem placeSlice_some {q : SideSlice} (h : (sideQueue s w.hall).find? (sliceFits s w) = some q) :
    placeSlice w s = ({ w with slice := some q, examine := false, due := cyc s, sliceEnd := cyc s + q.len },
      setSideQueue w.hall ((sideQueue s w.hall).erase q) (takeConds q s)) := by
  have h' : (sideQueue s w.hall).find? (sliceFits s { w with slice := none, examine := false }) = some q := h
  have hcyc : cyc (takeConds q s) = cyc s := by rw [takeConds_eq]; rfl
  have hqueue : sideQueue (takeConds q s) w.hall = sideQueue s w.hall := by rw [takeConds_eq]; rfl
  unfold placeSlice
  dsimp only
  rw [h']
  change ({ w with slice := some q, examine := false, due := cyc (takeConds q s), sliceEnd := cyc (takeConds q s) + q.len },
    setSideQueue w.hall ((sideQueue (takeConds q s) w.hall).erase q) (takeConds q s)) = _
  rw [hcyc, hqueue]

theorem cyc_placeSlice (w : SideWin) (s : Block) : cyc (placeSlice w s).2 = cyc s := by
  cases h : (sideQueue s w.hall).find? (sliceFits s w) with
  | none => rw [placeSlice_none h]
  | some q =>
    rw [placeSlice_some h, takeConds_eq]
    unfold setSideQueue
    split <;> rfl

variable {hall : Nat}

/-- Where no window of the hall is due, none is served. -/
theorem placeAll_none {ws : List SideWin} (h : ∀ v ∈ ws, ¬ (v.hall = hall ∧ placeDue (cyc s) v = true)) :
    placeAll hall ws s = (ws, s) := by
  induction ws with
  | nil => rfl
  | cons v ws ih =>
    unfold placeAll
    rw [if_neg (h v List.mem_cons_self)]
    dsimp only
    rw [ih fun u hu => h u (List.mem_cons_of_mem v hu)]

/-- Where one window of the hall is due, it is served. -/
theorem placeAll_one {ws : List SideWin} (h : ws.filter (fun v => v.hall == hall && placeDue (cyc s) v) = [w]) :
    (placeAll hall ws s).2 = (placeSlice w s).2 ∧ (placeSlice w s).1 ∈ (placeAll hall ws s).1 := by
  induction ws with
  | nil => cases h
  | cons v ws ih =>
    unfold placeAll
    by_cases hv : v.hall = hall ∧ placeDue (cyc s) v = true
    · rw [List.filter_cons_of_pos (by simpa using hv)] at h
      obtain ⟨rfl, hrest⟩ := List.cons.inj h
      have hnone : placeAll hall ws (placeSlice v s).2 = (ws, (placeSlice v s).2) := placeAll_none fun u hu hdue => by
        rw [cyc_placeSlice] at hdue
        exact List.filter_eq_nil_iff.mp hrest u hu (by simpa using hdue)
      rw [if_pos hv]
      dsimp only
      rw [hnone]
      exact ⟨rfl, List.mem_cons_self⟩
    · rw [List.filter_cons_of_neg (by simpa using hv)] at h
      obtain ⟨hblock, hmem⟩ := ih h
      rw [if_neg hv]
      exact ⟨hblock, List.mem_cons_of_mem v hmem⟩

/-- A hall's queue that is due for examination is examined in this cycle. -/
theorem doSlicePlace_due (hhalls : halls s = true) (hz : s.freeze = none)
    (h : s.side.filter (fun v => v.hall == hall && placeDue (cyc s) v) = [w]) :
    doSlicePlace hall s = { (placeSlice w s).2 with side := (placeAll hall s.side s).1 } := by
  have hw : w ∈ s.side.filter (fun v => v.hall == hall && placeDue (cyc s) v) := h ▸ List.mem_singleton_self w
  obtain ⟨hmem, hdue⟩ := List.mem_filter.mp hw
  have hany : s.side.any (fun v => v.hall == hall && placeDue (cyc s) v) = true := List.any_eq_true.mpr ⟨w, hmem, hdue⟩
  have hhall : s.side.any (·.hall == hall) = true := List.any_eq_true.mpr ⟨w, hmem, (Bool.and_eq_true_iff.mp hdue).1⟩
  have hrun : runUntil (fun t => t.side.any (fun v => v.hall == hall && placeDue (cyc t) v)) 65536 s = s := by
    unfold runUntil
    rw [hhalls, runGoal_at _ _ 0 65536 s (Nat.zero_le _) hany (fun k hk => absurd hk (Nat.not_lt_zero k))]
    rfl
  unfold doSlicePlace
  rw [hz, hhall, hrun, ← (placeAll_one h).1]
  rfl

end

/-- Settles O21. -/
theorem sideWindowsTakeTheFirstFittingSlice : Obligations.SideWindowsTakeTheFirstFittingSlice := by
  unfold Obligations.SideWindowsTakeTheFirstFittingSlice
  constructor
  · intro x length mask ve s g hreach hg htag hbuild hlen
    have hexec : exec (.side x length mask ve) s = .next { s with toBlock := openSide [g] length mask ve s.toBlock } := by
      change effect (doSide x length mask ve) s = _
      rw [effect_eq, doSide_reaches hreach htag hbuild hlen]
    constructor
    · intro hzero
      rw [hexec, openSide, if_pos (.inl hzero)]
    · intro hpos
      rw [openSide_gallery hg hpos] at hexec
      exact ⟨_, hexec, rfl, ⟨_, rfl, rfl, rfl, rfl, rfl, rfl, rfl, rfl, rfl⟩, rfl⟩
  · intro hall s w hhall hhalls hz hdue
    have hw : w.hall = hall := by
      have hmem := (List.mem_filter.mp (hdue ▸ List.mem_singleton_self w)).2
      simpa using (Bool.and_eq_true_iff.mp hmem).1
    have hexec : exec (.sideSlicePlace hall) s = .next { s with toBlock := doSlicePlace hall s.toBlock } :=
      (if_neg (by omega)).trans (effect_eq ..)
    rw [doSlicePlace_due hhalls hz hdue] at hexec
    have hplaced := (placeAll_one (s := s.toBlock) hdue).2
    constructor
    · intro q hq hconds
      rw [← hw] at hq
      rw [placeSlice_some hq] at hexec hplaced
      refine ⟨_, hexec, rfl, ?_, hplaced, fun g ctr hctr => ?_⟩
      · rw [← hw]
        unfold sideQueue setSideQueue
        by_cases hzero : w.hall = 0 <;> simp [hzero]
      · rw [← tokSum_takeConds hconds s.toBlock g hctr]
        unfold setSideQueue
        split <;> rfl
    · intro hnone
      rw [← hw] at hnone
      rw [placeSlice_none hnone] at hexec hplaced
      exact ⟨_, hexec, rfl, rfl, hplaced, rfl⟩

end Sys2Proof.Machine
end

section
/-! SUPPORT. Running to an event (log 2); the current keepers in a cycle, and the gallery clocks (R89 to R91, R218). -/

namespace Sys2Proof.Machine

/-! ## Running to an event -/

theorem runUntil_at {p : Block → Bool} {n m : Nat} {s : Block} (hhalls : halls s = true) (h : n ≤ m)
    (hp : p (iter autoCycle n s) = true) (hn : ∀ k, k < n → p (iter autoCycle k s) = false) :
    runUntil p m s = iter autoCycle n s := by
  unfold runUntil
  rw [hhalls, runGoal_at autoCycle p n m s h hp hn]
  rfl

/-- A command that runs the clock to an event. -/
theorem effect_runUntil_at {f : Block → Block} {p : Block → Bool} {n m : Nat} {s : State} (hf : f s.toBlock = runUntil p m s.toBlock)
    (hhalls : halls s.toBlock = true) (h : n ≤ m) (hp : p (iter autoCycle n s.toBlock) = true)
    (hn : ∀ k, k < n → p (iter autoCycle k s.toBlock) = false) :
    effect f s = .next { s with toBlock := iter autoCycle n s.toBlock } := by
  rw [effect_eq, hf, runUntil_at hhalls h hp hn]

/-- Settles O23: where its event is to come, each command is a run to it. -/
theorem anEventComesWithItsCycle : Obligations.AnEventComesWithItsCycle := by
  unfold Obligations.AnEventComesWithItsCycle
  intro i s goal limit n hhalls hcase hlimit hp hn
  obtain ⟨rfl, rfl, hsome, rfl⟩ | ⟨rfl, rfl, hsome, rfl⟩ | ⟨rfl, rfl, hsome, rfl⟩ | ⟨g, a, hg, ha, rfl, rfl, hphase, hruns, rfl⟩ |
    ⟨g, a, hg, ha, rfl, rfl, hphase, rfl⟩ | ⟨g, a, hg, ha, rfl, rfl, hphase, rfl⟩ := hcase
  · exact effect_runUntil_at (f := doLandingWrite) (if_neg (by simpa using hsome)) hhalls hlimit hp hn
  · exact effect_runUntil_at (f := doLandingRelease) (if_neg (by simpa using hsome)) hhalls hlimit hp hn
  · exact effect_runUntil_at (f := doDrainStart) (if_neg (by rw [List.isEmpty_iff]; exact hsome)) hhalls hlimit hp hn
  · refine (onAlcove_there hg ha ..).trans (effect_runUntil_at (if_pos ?_) hhalls hlimit hp hn)
    rw [hphase, hruns]
    rfl
  · exact (onAlcove_there hg ha ..).trans (effect_runUntil_at (if_pos hphase) hhalls hlimit hp hn)
  · exact (onAlcove_there hg ha ..).trans (effect_runUntil_at (if_pos hphase) hhalls hlimit hp hn)

/-! ## Keepers in a cycle (R89, R90) -/

/-- What the keepers may change. -/
def KeeperFrame (s t : Block) : Prop :=
  t = { s with gals := { s.gals with keepers := t.gals.keepers, dummyBeats := t.gals.dummyBeats }
               arr := { s.arr with keeperSink := t.arr.keeperSink } }

theorem keeperStep_frame (beats : Bool) (key : Nat) (s : Block) : KeeperFrame s (keeperStep beats key s) := by
  unfold KeeperFrame keeperStep
  dsimp only
  generalize keeperCycle _ _ _ = k
  split <;> rfl

theorem KeeperFrame.trans {s t u : Block} (h : KeeperFrame s t) (h' : KeeperFrame t u) : KeeperFrame s u := by
  unfold KeeperFrame at h h' ⊢
  rw [h', h]

theorem keepersCycle_frame (beats : Bool) (s : Block) : KeeperFrame s (keepersCycle beats s) :=
  forEach_induction (P := KeeperFrame s) (fun key _ t h => h.trans (keeperStep_frame beats key t)) rfl

theorem keeper_keeperStep (beats : Bool) (key : Nat) (s : Block) :
    keeper (keeperStep beats key s) (key / 8) (key % 8) =
      keeperCycle (!(procRuns s 1)) (if beats then alcoveBeats s (key / 8) (key % 8) else 0) (keeper s (key / 8) (key % 8)) := by
  unfold keeperStep
  dsimp only
  generalize keeperCycle _ _ _ = k
  split <;> exact keeper_setKeeper_same ..

/-- In a cycle with real beats the floor is the mean of the last 1,024 counts. -/
theorem keeperCycle_beats {n : Nat} (hn : 0 < n) (hold : Bool) (k : Keeper) :
    let mean := k.hist.foldl (· + ·) 0 / 1024
    let r := keeperCycle hold n k
    r.floor = mean ∧ r.frozen = mean ∧ r.gap = 0 ∧ r.phase = .steady ∧ r.dummies = mean - n := by
  unfold keeperCycle
  dsimp only
  rw [if_pos hn]
  exact ⟨rfl, rfl, rfl, rfl, rfl⟩

/-- Without a real beat, before cycle 3,400 of the gap, the frozen floor is held. -/
theorem keeperCycle_gap {k : Keeper} (hphase : k.phase = .steady) (hgap : k.gap + 1 < 3400) (hold : Bool) :
    let r := keeperCycle hold 0 k
    r.floor = k.frozen ∧ r.frozen = k.frozen ∧ r.gap = k.gap + 1 ∧ r.phase = .steady ∧ r.dummies = k.frozen := by
  unfold keeperCycle
  dsimp only
  rw [if_neg (Nat.lt_irrefl 0), hphase]
  dsimp only
  rw [if_pos (.inl hgap)]
  exact ⟨rfl, rfl, rfl, rfl, rfl⟩

/-! ## A cycle (R209) -/

theorem cycleCount_frame (s : Block) : cycleCount s = { s with
    clk := (cycleCount s).clk, tok := (cycleCount s).tok, logs := (cycleCount s).logs, bnd := (cycleCount s).bnd } := by
  have hcap : tokCap s = { s with tok := (tokCap s).tok, logs := (tokCap s).logs, bnd := (tokCap s).bnd } := by
    unfold tokCap
    refine forEach_induction (P := fun t : Block => t = { s with tok := t.tok, logs := t.logs, bnd := t.bnd })
      (fun key _ t ht => ?_) rfl
    unfold tokCapOne
    dsimp only
    split
    · exact ht
    · rw [logFault_eq, ht]
  unfold cycleCount tokAge
  rw [hcap]
  rfl

theorem cycleCount_clk (s : Block) : (cycleCount s).clk.cycle = s.clk.cycle + 1 ∧ (cycleCount s).clk.fcyc = s.clk.fcyc ∧
    (cycleCount s).clk.heldCycles = s.clk.heldCycles := by
  have hcap : (tokCap s).clk = s.clk := by
    refine forEach_proj (·.clk) (fun key _ t => ?_) s
    unfold tokCapOne
    dsimp only
    split
    · rfl
    · rw [logFault_eq]
  unfold cycleCount tokAge passTime
  dsimp only
  rw [hcap]
  exact ⟨rfl, rfl, rfl⟩

/-! ## Gallery clocks (R218) -/

theorem doClockStop_quiet {s : Block} {g : Nat} (hruns : (gclk s g).running = true) (hgated : alcovesGated s g = true)
    (hidle : veIdle s g = true) (hdescs : ∀ d ∈ s.queues.descs, d.gal ≠ g) (hwake : (gclk s g).wakeAlcoves = 0)
    (hve : (gclk s g).wakeVe = false) : doClockStop g s = setGclk g { gclk s g with running := false } s := by
  have hnone : s.queues.descs.any (fun d => d.gal == g) = false :=
    List.any_eq_false.mpr fun d hd => by simpa using hdescs d hd
  unfold doClockStop
  dsimp only
  rw [if_pos (by simp [hruns, hgated, hidle, hnone, hwake, hve])]

theorem doClockRestart_restarting {s : Block} {g : Nat} (h : (gclk s g).restarting = true) (hhalls : halls s = true) :
    doClockRestart g s = wakeGal g (gclk s g).wakeAlcoves 0 (setGclk g clkRuns s) := by
  unfold doClockRestart
  dsimp only
  rw [if_pos (by rw [h, hhalls]; rfl)]

/-- Waking the alcoves of a running gallery changes no clock. -/
theorem gclk_wakeGal {g mask ve : Nat} {s : Block} (hruns : (gclk s g).running = true) :
    gclk (wakeGal g mask ve s) g = gclk s g := by
  unfold wakeGal
  dsimp only
  rw [if_pos hruns]
  exact forEach_proj (gclk · g) (f := fun a s => setKeeper g a (keeperUp (keeper s g a)) s) (fun _ _ _ => rfl) s

/-- Settles O24. -/
theorem keeperCyclesAndGalleryClocks : Obligations.KeeperCyclesAndGalleryClocks := by
  unfold Obligations.KeeperCyclesAndGalleryClocks
  refine ⟨⟨fun s hhalls => ?_, fun beats key s => ?_, fun beats s => keepersCycle_frame beats s⟩, fun s g hg => ?_⟩
  · have hexec : exec .currentKeeperCycle s = .next { s with toBlock := clockCycle s.toBlock } := by
      change effect doKeeperCycle s = _
      rw [effect_eq, doKeeperCycle, if_pos hhalls]
    constructor
    · intro hz hdue
      rw [hexec, clockCycle, hz, if_neg (by decide), hdue]
    · intro hz
      have hfrozen : clockCycle s.toBlock = cycleFrozen s.toBlock := if_pos (Option.isSome_iff_ne_none.mpr hz)
      rw [hfrozen] at hexec
      refine ⟨_, hexec, rfl, ?_⟩
      have hkeep := keepersCycle_frame false s.toBlock
      dsimp only
      unfold cycleFrozen
      generalize keepersCycle false s.toBlock = k at hkeep ⊢
      dsimp only
      obtain ⟨hcycle, hfcyc, hheld⟩ := cycleCount_clk { k with clk := { k.clk with heldCycles := k.clk.heldCycles + 1 } }
      rw [hcycle, hfcyc, hheld, cycleCount_frame]
      rw [hkeep]
      exact ⟨rfl, rfl, rfl, rfl, rfl, rfl, rfl, rfl, rfl⟩
  · dsimp only
    rw [keeper_keeperStep]
    constructor
    · intro hn
      obtain ⟨hfloor, hfrozen, hgap, hphase, hdummies⟩ := keeperCycle_beats hn (!(procRuns s 1)) (keeper s (key / 8) (key % 8))
      refine ⟨hfloor, hfrozen, hgap, hphase, ?_⟩
      rw [hdummies]
      omega
    · intro hn hphase hgap
      rw [hn]
      exact keeperCycle_gap hphase hgap _
  · constructor
    · intro hruns hgated hidle hdescs hwake hve
      have hexec : exec (.galleryClockStop g) s = _ := (onGallery_there hg ..).trans (effect_eq ..)
      rw [doClockStop_quiet hruns hgated hidle hdescs hwake hve] at hexec
      refine ⟨_, hexec, rfl, ?_, fun h hne => gclk_setGclk_ne hne _ _⟩
      dsimp only
      rw [gclk_setGclk_same]
    · intro hrestart hhalls
      have hexec : exec (.galleryClockRestart g) s = _ := (onGallery_there hg ..).trans (effect_eq ..)
      have hruns : gclk (setGclk g clkRuns s.toBlock) g = clkRuns := gclk_setGclk_same ..
      rw [doClockRestart_restarting hrestart hhalls] at hexec
      refine ⟨_, hexec, rfl, ?_, fun a ha => ?_⟩
      · dsimp only
        rw [gclk_wakeGal (by rw [hruns]; rfl), hruns]
      · dsimp only
        rw [keeper_wakeGal (by rw [hruns]; rfl) g ha]
        simp only [true_and]
        rfl

end Sys2Proof.Machine
end

section
/-! SUPPORT. The slots of a bundle and its issue (R193 to R196, R207, R211), and the ends of freezes (R209, R335). -/

namespace Sys2Proof.Machine

theorem effect_of_eq {f : Block → Block} {s : State} {t : Block} (h : f s.toBlock = t) :
    effect f s = .next { s with toBlock := t } := by
  rw [effect_eq, h]

/-! ## Slots of a word -/

section
variable {x : SlotCtx} {w : Nat} {i : Instr}

theorem anySlot_of_slotM (h : slotM x w = some i) : anySlot i = some x := by
  unfold slotM at h
  dsimp only at h
  iterate 6
    split at h
    · rw [← Option.some.inj h]
      rfl
  exact absurd h nofun

theorem anySlot_of_slotV (h : slotV x w = some i) : anySlot i = some x := by
  unfold slotV at h
  dsimp only at h
  split at h <;> cases h <;> rfl

theorem anySlot_of_slotD (h : slotD x w = some i) : anySlot i = some x := by
  unfold slotD at h
  dsimp only at h
  split at h <;> cases h <;> rfl

theorem anySlot_of_slotA {s : Block} (h : slotA s x w = some i) : anySlot i = some x := by
  unfold slotA at h
  dsimp only at h
  generalize (modeOf (collDesc s (fld w 8 10)) == 1) = one at h
  split at h <;> cases h <;> cases one <;> rfl

theorem anySlot_of_slotS (h : slotS x w = some i) : anySlot i = some x ∨ i = .sbound := by
  unfold slotS at h
  split at h
  · exact .inl (by rw [← Option.some.inj h]; rfl)
  · exact .inl (by rw [← Option.some.inj h]; rfl)
  · exact .inr (Option.some.inj h).symm
  · exact absurd h nofun

theorem anySlot_of_slotC (h : slotC x w = some i) : anySlot i = some x := by
  unfold slotC at h
  split at h <;> cases h <;> rfl

end

/-- The slot of a word is a command of the word's context, or SBOUND. -/
theorem anySlot_of_slotOf {s : Block} {x : SlotCtx} {c : Nat × Nat} {i : Instr} (h : slotOf s x c = some i) :
    anySlot i = some x ∨ i = .sbound := by
  unfold slotOf at h
  split at h
  · exact .inl (anySlot_of_slotM h)
  split at h
  · exact .inl (anySlot_of_slotV h)
  split at h
  · exact .inl (anySlot_of_slotD h)
  split at h
  · exact .inl (anySlot_of_slotA h)
  split at h
  · exact anySlot_of_slotS h
  · exact .inl (anySlot_of_slotC h)

/-! ## What a slot does -/

/-- The command of a slot is the slot on its own. -/
theorem exec_slot {i : Instr} {x : SlotCtx} (s : State) (h : anySlot i = some x) :
    exec i s = .next { s with toBlock := doSlot [] i s.toBlock } := by
  refine Eq.trans ?_ (effect_eq (doSlot [] i) s)
  obtain hclock | ⟨a, q, rfl⟩ | ⟨m, v, rfl⟩ := anySlot_cases h
  · cases i with
    | swait | ssignal | side
    | mloadW | mstream | mopen | mclose | mdrain | mshift | dget | dput | dmov | asendData | asendTokenOnly | aredReduceScatter
    | aredAllReduce | agathPush | agathReuse | vadd | vsub | vmul | vfma | vmax | vmin | vabs | vneg | vsel | vmov | vtrn | vand
    | vor | vxor | vshl | vshr | vexp2 | vlog2 | vrcp | vrsq | vscale | vred | vsmax | vcmp | vmset | vmlog | vcvt | vqnt | vdqn
    | vrnd | vld | vst | vflg | vsolve => rfl
    | _ => exact absurd hclock nofun
  · rfl
  · rfl

theorem exec_sbound (s : State) : exec .sbound s = .next { s with toBlock := doSbound s.toBlock } := effect_eq doSbound s

/-- A collective that starts from one gallery counts for that gallery. -/
theorem doSlotA_reaches {s : Block} {x : SlotCtx} {g : Nat} (h : reaches s x g) (op mode : Nat) (i : Instr) (f : AslotF) :
    doSlotA op mode i [g] x f s = doSlotA op mode i [] x f s := by
  obtain ⟨hz, hgal, hruns⟩ := h
  unfold doSlotA
  rw [withHeld_runs hz hgal hruns, withHeld_runs hz hgal hruns]
  rfl

/-- A slot that acts once for its bundle does the same for a bundle of one gallery as on its own. -/
theorem doSlot_once {s : Block} {x : SlotCtx} {g : Nat} {i : Instr} (h : reaches s x g) (hx : anySlot i = some x) (hi : onceSlot i = true) :
    doSlot [g] i s = doSlot [] i s := by
  cases i with
  | asendData | asendTokenOnly | aredReduceScatter | aredAllReduce | agathPush | agathReuse =>
    obtain rfl := Option.some.inj hx
    exact doSlotA_reaches h ..
  | checked | ssignal => rfl
  | sbound => exact absurd hx nofun
  | _ => exact absurd hi nofun

/-- SIDE on the one gallery it reaches. -/
theorem sideOn_reaches {s : Block} {x : SlotCtx} {g : Nat} (h : reaches s x g) (l m v : Nat) :
    sideOn ([x].filterMap (fun x => physOf s x.gal)) x l m v s = doSide x l m v s := by
  have hgal : [x].filterMap (fun x => physOf s x.gal) = (physOf s x.gal).toList := by
    rw [h.2.1]
    simp [h.2.1]
  rw [hgal]
  rfl

/-- A slot of a bundle, on a gallery that it reaches, is the command of its opcode. -/
theorem exec_runSlot {s : State} {x : SlotCtx} {c : Nat × Nat} {i : Instr} {g : Nat} (hslot : slotOf s.toBlock x c = some i)
    (h : reaches s.toBlock x g) (hwait : ∀ ctr v, i ≠ .swait x ctr v) :
    exec i s = .next { s with toBlock := runSlot [x] c s.toBlock } := by
  have hgals : [x].filterMap (fun x => physOf s.toBlock x.gal) = [g] := by simp [h.2.1]
  unfold runSlot
  dsimp only
  rw [hslot]
  obtain hx | rfl := anySlot_of_slotOf hslot
  · rw [exec_slot s hx]
    split
    · next heq => exact absurd heq nofun
    · next heq =>
      obtain rfl := Option.some.inj heq
      obtain rfl := Option.some.inj hx
      rw [sideOn_reaches h]
      rfl
    · next heq =>
      obtain rfl := Option.some.inj heq
      obtain rfl := Option.some.inj hx
      exact absurd rfl (hwait _ _)
    · next j _ _ heq =>
      obtain rfl := Option.some.inj heq
      split
      · next honce => rw [hgals, doSlot_once h hx honce]
      · rw [forEach_cons]
        dsimp only
        rw [hslot]
        rfl
  · rw [exec_sbound]
    rfl

/-- The SWAIT of a bundle has done its work when the bundle issues. -/
theorem runSlot_swait {s : Block} {x : SlotCtx} {c : Nat × Nat} {ctr v : Nat} (hslot : slotOf s x c = some (.swait x ctr v))
    (hctr : ctrOk x.tag ctr = true) : runSlot [x] c s = s := by
  unfold runSlot
  dsimp only
  rw [hslot]
  exact if_pos hctr

/-! ## The issue of a bundle (R193, R196) -/

theorem nextSeg_eq (s : Block) : nextSeg s = { s with prog := { s.prog with
    runList := (nextSeg s).prog.runList, segDone := (nextSeg s).prog.segDone
    offset := (nextSeg s).prog.offset, lastBank := (nextSeg s).prog.lastBank } } := by
  unfold nextSeg
  split
  · rfl
  · split <;> rfl

theorem skipSegs_eq (s : Block) : skipSegs s = { s with prog := { s.prog with
    runList := (skipSegs s).prog.runList, segDone := (skipSegs s).prog.segDone
    offset := (skipSegs s).prog.offset, lastBank := (skipSegs s).prog.lastBank } } := by
  unfold skipSegs
  generalize s.prog.runList.length = n
  induction n generalizing s with
  | zero => rfl
  | succ n ih =>
    have hstep : iter nextSeg (n + 1) s = iter nextSeg n (nextSeg s) := rfl
    rw [hstep, ih, nextSeg_eq]

/-- What the advance to the next bundle changes. -/
theorem advanceBundle_eq (h : Nat) (s : Block) : advanceBundle h s = { s with
    prog := { s.prog with
      runList := (advanceBundle h s).prog.runList, segDone := (advanceBundle h s).prog.segDone
      offset := (advanceBundle h s).prog.offset, lastBank := (advanceBundle h s).prog.lastBank }
    clk := { s.clk with nextIssue := cyc s + 1 + fld h 24 16, issued := s.clk.issued + 1 } } :=
  skipSegs_eq _

theorem injects_advanceBundle (h code loc : Nat) (s : Block) : injects (advanceBundle h s) code loc = injects s code loc := by
  rw [advanceBundle_eq]
  rfl

/-- The galleries of a bundle come from the program's set tables. -/
theorem bundleCtxs_congr {s t : Block} (h : t.prog.bufA = s.prog.bufA) (tag off bank w : Nat) :
    bundleCtxs t tag off bank w = bundleCtxs s tag off bank w := by
  have hnum : ∀ o n, imgNum t o n = imgNum s o n := fun o n => by unfold imgNum; rw [h]
  unfold bundleCtxs setMaskOf setRec partCount partSize partOff
  simp only [hnum]

theorem bufBytes_congr {s t : Block} (h : t.prog.bufA = s.prog.bufA) (off n : Nat) : bufBytes t off n = bufBytes s off n := by
  unfold bufBytes
  rw [h]

/-- The galleries of a bundle do not depend on its place. -/
theorem bundleCtxs_gals (s : Block) (tag off bank w : Nat) :
    (bundleCtxs s 0 0 0 w).filterMap (fun x => physOf s x.gal) = (bundleCtxs s tag off bank w).filterMap (fun x => physOf s x.gal) := by
  unfold bundleCtxs
  split
  · simp only [List.filterMap_map, Function.comp_def]
  · rfl

theorem bridgeFlit_unarmed {s : Block} (h : injects s 0x0F (domLoc 8) = false) : bridgeFlit s = s := by
  unfold bridgeFlit inject
  rw [h]
  rfl

theorem issueSlots_bad {s : Block} {h : Nat} (b : Bytes) (hbad : bundleBad h = true) (hinj : injects s 0x0F (domLoc 8) = false) :
    issueSlots h b s = logFault .program 255 s.prog.offset 0x194 0 (advanceBundle h s) := by
  unfold issueSlots
  dsimp only
  rw [bridgeFlit_unarmed (by rw [injects_advanceBundle, hinj]), if_pos hbad]

theorem issueSlots_good {s : Block} {h : Nat} (b : Bytes) (hbad : bundleBad h = false) (hinj : injects s 0x0F (domLoc 8) = false)
    (hxs : bundleCtxs s 0 s.prog.offset s.prog.lastBank h ≠ []) :
    issueSlots h b s = forEach (rawSlots (fld h 8 7) b) (runSlot (bundleCtxs s 0 s.prog.offset s.prog.lastBank h)) (advanceBundle h s) := by
  have hctx : bundleCtxs (advanceBundle h s) 0 s.prog.offset s.prog.lastBank h = bundleCtxs s 0 s.prog.offset s.prog.lastBank h :=
    bundleCtxs_congr (by rw [advanceBundle_eq]) ..
  unfold issueSlots
  dsimp only
  rw [bridgeFlit_unarmed (by rw [injects_advanceBundle, hinj]), if_neg (by rw [hbad]; decide), hctx, if_neg hxs]

theorem waitTake_keeps_prog (gals : List Nat) (ctr v : Nat) (s : Block) : (waitTake gals ctr v s).prog = s.prog := by
  rw [waitTake_eq]

/-- The issue of a bundle on a state with the same program. -/
theorem issueSlots_congr {s t : Block} {h : Nat} (b : Bytes) (hbuf : t.prog.bufA = s.prog.bufA) (hoff : t.prog.offset = s.prog.offset)
    (hbank : t.prog.lastBank = s.prog.lastBank) (hbad : bundleBad h = false) (hinj : injects t 0x0F (domLoc 8) = false)
    (hxs : bundleCtxs s 0 s.prog.offset s.prog.lastBank h ≠ []) :
    issueSlots h b t = forEach (rawSlots (fld h 8 7) b) (runSlot (bundleCtxs s 0 s.prog.offset s.prog.lastBank h)) (advanceBundle h t) := by
  have hctx : bundleCtxs t 0 s.prog.offset s.prog.lastBank h = bundleCtxs s 0 s.prog.offset s.prog.lastBank h := bundleCtxs_congr hbuf ..
  rw [issueSlots_good b hbad hinj (by rw [hoff, hbank, hctx]; exact hxs), hoff, hbank, hctx]

theorem injects_waitTake (gals : List Nat) (ctr v code loc : Nat) (s : Block) :
    injects (waitTake gals ctr v s) code loc = injects s code loc := by
  rw [waitTake_eq]
  rfl

/-! ## The fetch -/

theorem fetchHit_unarmed {s : Block} (h9 : injects s 0x09 (domLoc 10) = false) (hA : injects s 0x0A (domLoc 10) = false) :
    fetchHit s = s := by
  unfold fetchHit inject
  simp [h9, hA]

theorem takeBundle_fetched {s : Block} (hpair : s.gals.nextPair = none) (h9 : injects s 0x09 (domLoc 10) = false)
    (hA : injects s 0x0A (domLoc 10) = false)
    (hwords : ∀ w ∈ range' (s.prog.offset / 8) (max 1 (fld (leNat (bufBytes s s.prog.offset 8)) 0 8)), w ∉ s.prog.badA ∧ w ∉ s.prog.badB) :
    takeBundle s = gateBundle s := by
  unfold takeBundle
  dsimp only
  rw [takePairing_none hpair, fetchHit_unarmed h9 hA, if_neg, if_neg]
  · rw [List.any_eq_true]
    rintro ⟨w, hw, hbad⟩
    obtain ⟨ha, hb⟩ := hwords w hw
    simp [ha, hb] at hbad
  · rw [List.any_eq_true]
    rintro ⟨w, hw, hbad⟩
    simp [(hwords w hw).1] at hbad

/-- A bundle that is due issues in this cycle. -/
theorem doBundleIssue_due {s : Block} (hmay : mayIssue s = true) (hdue : s.clk.nextIssue ≤ cyc s)
    (hrun : s.prog.runList ≠ []) : doBundleIssue s = takeBundle s := by
  have hempty : s.prog.runList.isEmpty = false := by simpa using hrun
  have hnext : issueNext s = takeBundle s := by
    unfold issueNext
    rw [hempty, Bool.and_false, if_neg Bool.false_ne_true, if_neg Bool.false_ne_true]
  unfold doBundleIssue
  rw [hmay, if_neg (by decide), Nat.sub_eq_zero_of_le hdue]
  unfold iter
  dsimp only
  rw [if_pos hmay, hnext]

theorem gateBundle_none {s : Block} (hwait : bundleWait (rawSlots (fld (leNat (bufBytes s s.prog.offset 8)) 8 7)
      (bufBytes s s.prog.offset (8 * max 1 (fld (leNat (bufBytes s s.prog.offset 8)) 0 8)))) = none) :
    gateBundle s = issueSlots (leNat (bufBytes s s.prog.offset 8))
      (bufBytes s s.prog.offset (8 * max 1 (fld (leNat (bufBytes s s.prog.offset 8)) 0 8))) s := by
  unfold gateBundle
  dsimp only
  rw [hwait]
  simp only [ite_self]

theorem gateBundle_bad {s : Block} (hbad : bundleBad (leNat (bufBytes s s.prog.offset 8)) = true) :
    gateBundle s = issueSlots (leNat (bufBytes s s.prog.offset 8))
      (bufBytes s s.prog.offset (8 * max 1 (fld (leNat (bufBytes s s.prog.offset 8)) 0 8))) s := by
  unfold gateBundle
  dsimp only
  rw [if_pos hbad]

theorem stoppedGals_running {s : Block} {gals : List Nat} (h : ∀ g ∈ gals, (gclk s g).running = true) : stoppedGals s gals = [] :=
  List.filter_eq_nil_iff.mpr fun g hg => by simp [h g hg]

theorem waitMet_iff {s : Block} {gals : List Nat} {ctr v : Nat} :
    waitMet s gals ctr v = true ↔ ∀ g ∈ gals, v ≤ tokVisible s g ctr := by
  simp [waitMet]

/-- A bundle with an SWAIT, on running galleries. -/
theorem gateBundle_some {s : Block} {ctr v : Nat} (tag off bank : Nat) (hbad : bundleBad (leNat (bufBytes s s.prog.offset 8)) = false)
    (hwait : bundleWait (rawSlots (fld (leNat (bufBytes s s.prog.offset 8)) 8 7)
      (bufBytes s s.prog.offset (8 * max 1 (fld (leNat (bufBytes s s.prog.offset 8)) 0 8)))) = some (ctr, v))
    (hruns : ∀ g ∈ (bundleCtxs s tag off bank (leNat (bufBytes s s.prog.offset 8))).filterMap (fun x => physOf s x.gal),
      (gclk s g).running = true) :
    gateBundle s =
      if waitMet s ((bundleCtxs s tag off bank (leNat (bufBytes s s.prog.offset 8))).filterMap (fun x => physOf s x.gal)) ctr v then
        issueSlots (leNat (bufBytes s s.prog.offset 8))
          (bufBytes s s.prog.offset (8 * max 1 (fld (leNat (bufBytes s s.prog.offset 8)) 0 8)))
          (waitTake ((bundleCtxs s tag off bank (leNat (bufBytes s s.prog.offset 8))).filterMap (fun x => physOf s x.gal)) ctr v s)
      else freezeFor .stall true []
        ((bundleCtxs s tag off bank (leNat (bufBytes s s.prog.offset 8))).filterMap (fun x => physOf s x.gal)) ctr v s := by
  unfold gateBundle
  dsimp only
  rw [hbad, hwait, bundleCtxs_gals s tag off bank, stoppedGals_running hruns]
  exact if_neg (by simp)

/-- Settles O22. -/
theorem bundlesIssueUntilSbound : Obligations.BundlesIssueUntilSbound := by
  unfold Obligations.BundlesIssueUntilSbound
  refine ⟨fun s hz hbuild hissue => ?_, fun s hmay hdue hrun hpair h9 hA hF => ?_, fun s x c i g hslot hreach hbuild => ?_⟩
  · rw [exec_sbound]
    unfold doSbound
    rw [hz, hbuild, hissue]
    rfl
  · dsimp only
    intro hwords
    have hexec : exec .bundleIssue s = _ := effect_eq doBundleIssue s
    rw [doBundleIssue_due hmay hdue hrun, takeBundle_fetched hpair h9 hA hwords] at hexec
    refine ⟨fun b => by rw [advanceBundle_eq]; exact ⟨rfl, rfl⟩, fun hbad => ?_, fun hbad hxs => ⟨fun hwait => ?_, fun ctr v hwait hruns => ?_⟩⟩
    · rw [hexec, gateBundle_bad hbad, issueSlots_bad _ hbad hF]
    · rw [hexec, gateBundle_none hwait, issueSlots_good _ hbad hF hxs]
    · rw [hexec, gateBundle_some 0 s.prog.offset s.prog.lastBank hbad hwait hruns]
      refine ⟨fun hmet => ?_, fun ⟨g, hg, hlow⟩ => ?_⟩
      · rw [if_pos (waitMet_iff.mpr hmet), issueSlots_congr (s := s.toBlock) _ (by rw [waitTake_keeps_prog]) (by rw [waitTake_keeps_prog])
          (by rw [waitTake_keeps_prog]) hbad (by rw [injects_waitTake, hF]) hxs]
      · rw [if_neg (by rw [waitMet_iff]; exact fun h => absurd (h g hg) (by omega))]
        rfl
  · exact ⟨exec_runSlot hslot hreach, fun ctr v hi hctr => runSlot_swait (hi ▸ hslot) hctr⟩

/-! ## The end of a freeze (R209) -/

theorem endFreeze_slots {s : Block} {z : Freeze} (hz : s.freeze = some z) (hb : z.bundle = false) :
    endFreeze s = forEach z.held doHeld { s with freeze := none } := by
  unfold endFreeze
  rw [hz]
  dsimp only
  rw [hb]
  rfl

theorem releaseKind_met {s : Block} {z : Freeze} {k : HoldKind} (hz : s.freeze = some z) (hk : z.kind = k)
    (hmet : freezeMet s z = true) : releaseKind k s = if k = .stall then stallTake z s else endFreeze s := by
  unfold releaseKind
  rw [hz]
  exact if_pos ⟨hk, hmet⟩

theorem waitTake_keeps_freeze (gals : List Nat) (ctr v : Nat) (s : Block) : (waitTake gals ctr v s).freeze = s.freeze := by
  rw [waitTake_eq]

theorem stallTake_slots {s : Block} {z : Freeze} (hz : s.freeze = some z) (hb : z.bundle = false) :
    stallTake z s = forEach z.held doHeld { waitTake z.gals z.ctr z.value s with freeze := none } := by
  unfold stallTake
  dsimp only
  rw [waitTake_keeps_freeze, hz]
  dsimp only
  rw [hb]
  rfl

/-- A ramp hold whose ramps have ended is over in this cycle. -/
theorem doRampHoldEnd_met {s : Block} {z : Freeze} (hz : s.freeze = some z) (hk : z.kind = .rampHold)
    (hmet : freezeMet s z = true) : doRampHoldEnd s = releaseKind .rampHold s := by
  have hby : frozenBy .rampHold s = true := by
    unfold frozenBy
    rw [hz]
    exact beq_iff_eq.mpr hk
  unfold doRampHoldEnd
  dsimp only
  rw [hby, if_neg (by decide), runGoal_at clockCycle _ 0 17002 s (Nat.zero_le _) (by change (match s.freeze with | some z => _ | none => _) = true; rw [hz]; exact hmet)
    (fun k hk => absurd hk (Nat.not_lt_zero k))]
  rfl

/-- A bundle that an SWAIT stalled issues. -/
theorem stallTake_bundle {s : Block} {z : Freeze} (hz : s.freeze = some z) (hb : z.bundle = true) (hheld : z.held = [])
    (hissue : s.prog.issuing = true) :
    stallTake z s = issueSlots (leNat (bufBytes s s.prog.offset 8))
      (bufBytes s s.prog.offset (8 * max 1 (fld (leNat (bufBytes s s.prog.offset 8)) 0 8)))
      { waitTake z.gals z.ctr z.value s with freeze := none } := by
  unfold stallTake
  dsimp only
  generalize ht : waitTake z.gals z.ctr z.value s = t
  have hprog : t.prog = s.prog := ht ▸ waitTake_keeps_prog ..
  have hfreeze : t.freeze = some z := ht ▸ (waitTake_keeps_freeze ..).trans hz
  rw [hfreeze]
  dsimp only
  rw [hheld, hb]
  unfold forEach
  dsimp only [List.foldl_nil]
  simp only [hprog, hissue, Option.isNone_none, Bool.and_self, if_true]
  rfl

theorem endFreeze_bundle {s : Block} {z : Freeze} (hz : s.freeze = some z) (hb : z.bundle = true) (hheld : z.held = [])
    (hissue : s.prog.issuing = true) : endFreeze s = gateBundle { s with freeze := none } := by
  unfold endFreeze
  rw [hz]
  dsimp only
  rw [hheld, hb]
  unfold forEach
  dsimp only [List.foldl_nil]
  simp only [hissue, Option.isNone_none, Bool.and_self, if_true]

theorem releaseKind_fetchHold {s : Block} {z : Freeze} (hz : s.freeze = some z) (hk : z.kind = .fetchHold) (hb : z.bundle = true)
    (hheld : z.held = []) (hissue : s.prog.issuing = true) :
    releaseKind .fetchHold s = gateBundle { s with freeze := none } := by
  rw [releaseKind_met hz hk (by unfold freezeMet; rw [hk]), if_neg (by decide), endFreeze_bundle hz hb hheld hissue]

/-- The words of the bundle come from the other hall's copy, and the bundle is gated again (R335). -/
theorem doFetchHoldEnd_bundle {s : Block} {z : Freeze} (hz : s.freeze = some z) (hk : z.kind = .fetchHold) (hb : z.bundle = true)
    (hheld : z.held = []) (hissue : s.prog.issuing = true) :
    doFetchHoldEnd s = gateBundle { s with
      freeze := none
      prog := { s.prog with badA := s.prog.badA.filter (fun w => !((range' (s.prog.offset / 8)
        (max 1 (fld (leNat (bufBytes s s.prog.offset 8)) 0 8))).contains w)) } } := by
  have hby : frozenBy .fetchHold s = true := by
    unfold frozenBy
    rw [hz]
    exact beq_iff_eq.mpr hk
  unfold doFetchHoldEnd
  dsimp only
  rw [hby, if_neg (by decide)]
  exact releaseKind_fetchHold hz hk hb hheld hissue

/-- Settles O25. -/
theorem freezesEndWithTheirSlots : Obligations.FreezesEndWithTheirSlots := by
  unfold Obligations.FreezesEndWithTheirSlots
  refine ⟨fun s z hz hb hmet => ⟨fun hk => ?_, fun i hi => ?_⟩, fun i x s h => exec_slot s h, fun s z hz hb hheld hissue hF => ?_⟩
  · refine (effect_eq (releaseKind .stall) s).trans ?_
    rw [releaseKind_met hz hk hmet, if_pos rfl, stallTake_slots hz hb]
  · obtain ⟨hk, rfl⟩ | ⟨hk, rfl⟩ | ⟨hk, rfl⟩ := hi
    · refine (effect_eq (releaseKind .queueHold) s).trans ?_
      rw [releaseKind_met hz hk hmet, if_neg (by decide), endFreeze_slots hz hb]
    · refine (effect_eq (releaseKind .wakeHold) s).trans ?_
      rw [releaseKind_met hz hk hmet, if_neg (by decide), endFreeze_slots hz hb]
    · refine (effect_eq doRampHoldEnd s).trans ?_
      rw [doRampHoldEnd_met hz hk hmet, releaseKind_met hz hk hmet, if_neg (by decide), endFreeze_slots hz hb]
  · dsimp only
    intro hbad hxs
    refine ⟨fun hk hmet => ?_, fun hk hwait => ?_⟩
    · have hprog : ∀ t : Block, t = { waitTake z.gals z.ctr z.value s.toBlock with freeze := none } → t.prog = s.prog := by
        rintro t rfl
        exact waitTake_keeps_prog ..
      refine effect_of_eq (f := releaseKind .stall) ?_
      rw [releaseKind_met hz hk (by unfold freezeMet; rw [hk]; exact waitMet_iff.mpr hmet), if_pos rfl,
        stallTake_bundle hz hb hheld hissue]
      exact issueSlots_congr (s := s.toBlock) _ (by rw [hprog _ rfl]) (by rw [hprog _ rfl]) (by rw [hprog _ rfl]) hbad
        ((injects_waitTake ..).trans hF) hxs
    · refine effect_of_eq (f := doFetchHoldEnd) ?_
      rw [doFetchHoldEnd_bundle hz hk hb hheld hissue]
      refine Eq.trans (gateBundle_none hwait) ?_
      exact issueSlots_congr (s := s.toBlock) _ rfl rfl rfl hbad hF hxs

end Sys2Proof.Machine
end

section
/-! SUPPORT. Descriptors: the queue of a gallery, what an issue logs, and completion (R199, R204,
R205). -/

namespace Sys2Proof.Machine

/-! ## The issue of a D slot (R199, R204) -/

theorem onlyFaults_descFaults (g : Nat) (x : SlotCtx) (op xd : Nat) : OnlyFaults (descFaults g x op xd) := by
  refine ⟨fun s => ?_⟩
  unfold descFaults
  dsimp only
  rw [slotFaultIf_eq, slotFaultIf_eq, slotFaultIf_eq]

section
variable {x : SlotCtx} {f : DslotF} {g op : Nat} {i : Instr} {s : Block}

theorem issueD_room (hctr : ctrOk x.tag f.token = true) (hroom : queuedD s g < 64) :
    let d : Desc := { id := s.queues.nextId, op, gal := g, gals := [g], ctx := x, slot := f, adesc := 0, token := f.token,
                      performed := false, failed := false }
    let b := descFaults g x op (xferDesc s ((f.xdesc + x.xoff) % 4096)) s
    issueD op i x f g s = moveUnits d true { b with
      queues := { s.queues with descs := s.queues.descs ++ [d], nextId := s.queues.nextId + 1 } } := by
  unfold issueD pushDesc
  dsimp only
  rw [hctr, if_neg (by decide), if_neg (by omega), (onlyFaults_descFaults g x op _).eq s]

theorem issueD_full (hctr : ctrOk x.tag f.token = true) (hfull : 64 ≤ queuedD s g) :
    issueD op i x f g s = if x.tag = 0 then freezeFor .queueHold false [.slot i []] [g] 0 0 s else discardSlot g x 0x204 s := by
  unfold issueD
  dsimp only
  rw [hctr, if_neg (by decide), if_pos hfull]

end

/-- A D slot that reaches its gallery issues. -/
theorem exec_dslot {x : SlotCtx} {f : DslotF} {s : State} {g : Nat} {i : Instr} (h : reaches s.toBlock x g)
    (hi : i = .dget x f ∨ i = .dput x f ∨ i = .dmov x f) :
    ∃ op, ((i = .dget x f → op = 1) ∧ (i = .dput x f → op = 2) ∧ (i = .dmov x f → op = 3)) ∧
      exec i s = .next { s with toBlock := issueD op i x f g s.toBlock } := by
  obtain ⟨hz, hgal, hruns⟩ := h
  obtain rfl | rfl | rfl := hi
  · exact ⟨1, ⟨fun _ => rfl, nofun, nofun⟩, effect_of_eq (f := doDget x f) (withSlot_runs hz hgal hruns)⟩
  · exact ⟨2, ⟨nofun, fun _ => rfl, nofun⟩, effect_of_eq (f := doDput x f) (withSlot_runs hz hgal hruns)⟩
  · exact ⟨3, ⟨nofun, nofun, fun _ => rfl⟩, effect_of_eq (f := doDmov x f) (withSlot_runs hz hgal hruns)⟩

theorem discardSlot_side {x : SlotCtx} (h : x.tag ≠ 0) (g detail : Nat) (s : Block) :
    discardSlot g x detail s = logFault .side g x.bundle detail x.tag s := by
  unfold discardSlot slotFault
  rw [if_neg h]

/-- Settles O26. -/
theorem dSlotsQueueTheirDescriptors : Obligations.DSlotsQueueTheirDescriptors := by
  unfold Obligations.DSlotsQueueTheirDescriptors
  refine ⟨fun x f s g op i hreach hctr hroom hi => ?_, fun x f s g i hreach hctr hfull hi => ?_⟩
  · dsimp only
    obtain ⟨op', ⟨h1, h2, h3⟩, hexec⟩ := exec_dslot (i := i) (f := f) hreach (by
      obtain ⟨-, h⟩ | ⟨-, h⟩ | ⟨-, h⟩ := hi
      · exact .inl h
      · exact .inr (.inl h)
      · exact .inr (.inr h))
    have hop : op' = op := by
      obtain ⟨rfl, h⟩ | ⟨rfl, h⟩ | ⟨rfl, h⟩ := hi
      · exact h1 h
      · exact h2 h
      · exact h3 h
    rw [hexec, issueD_room hctr hroom, hop]
  · obtain ⟨op, -, hexec⟩ := exec_dslot hreach hi
    rw [issueD_full hctr hfull] at hexec
    refine ⟨fun htag => ?_, fun htag => ?_⟩
    · rw [hexec, if_pos htag]
      rfl
    · rw [hexec, if_neg htag, discardSlot_side htag]

/-! ## Completion (R205) -/

theorem descFail_eq (s : Block) : descFail s = { s with bnd := { s.bnd with bits := putBit (putBit s.bnd.bits 5 true) 16 true } } := rfl

theorem testBit_descFail (s : Block) : (descFail s).bnd.bits.testBit 5 = true := by
  rw [descFail_eq]
  exact (testBit_putBit_ne true (by decide)).trans (testBit_putBit_same ..)

theorem testBit_stepBit (n : Nat) (s : Block) : (stepBit n s).bnd.bits.testBit n = true := testBit_putBit_same ..

theorem tokAdd_eq (g ctr n : Nat) (s : Block) : tokAdd g ctr n s = { s with tok := (tokAdd g ctr n s).tok } := by
  unfold tokAdd
  split <;> rfl

/-- What a descriptor that failed changes when it completes. -/
theorem finishDesc_failed (d : Desc) (s : Block) : ∃ bits, finishDesc d true s =
    { forEach d.gals (fun g s => tokAdd g d.token 1 s) (dropDesc d.id s) with
      bnd := { (forEach d.gals (fun g s => tokAdd g d.token 1 s) (dropDesc d.id s)).bnd with bits } } ∧ bits.testBit 5 = true := by
  unfold finishDesc
  dsimp only
  rw [if_neg (by decide)]
  split
  · exact ⟨_, rfl, testBit_stepBit 5 _⟩
  · exact ⟨_, rfl, testBit_descFail _⟩

/-- Settles O28. -/
theorem aDescriptorCompletesWithItsToken : Obligations.ADescriptorCompletesWithItsToken := by
  unfold Obligations.ADescriptorCompletesWithItsToken
  intro s id d hfind hop
  have hid : d.id = id := by simpa using List.find?_some hfind
  have hdo : ∀ ok, doCompletion id ok s.toBlock = completeD d ok s.toBlock := fun ok => by
    unfold doCompletion
    rw [hfind]
    exact if_pos hop
  refine ⟨effect_of_eq (f := doCompletion id true) (hdo true), fun g hg => ?_⟩
  obtain ⟨bits, hfinish, hbit⟩ := finishDesc_failed d s.toBlock
  rw [hg] at hfinish
  refine ⟨_, effect_of_eq (f := doCompletion id false) ((hdo false).trans hfinish), rfl, ?_⟩
  change (tokAdd g d.token 1 (dropDesc d.id s.toBlock)).queues.descs = _ ∧
    tokVal (tokAdd g d.token 1 (dropDesc d.id s.toBlock)) g d.token = _ ∧ bits.testBit 5 = true ∧
    (tokAdd g d.token 1 (dropDesc d.id s.toBlock)).mem = _ ∧ (tokAdd g d.token 1 (dropDesc d.id s.toBlock)).mezz = _
  rw [tokVal_tokAdd_same, tokAdd_eq, hid]
  exact ⟨rfl, rfl, hbit, rfl, rfl⟩

end Sys2Proof.Machine
end

section
/-! SUPPORT. Frames: what reports, and what the operations on memory, can change. -/

namespace Sys2Proof.Machine

/-! ## Reports: objects, notifies, alerts, error queues -/

/-- What a report may change. -/
def ReportFrame (s t : Block) : Prop :=
  t = { s with store := t.store, portico := t.portico, portA := t.portA, portB := t.portB, logs := t.logs }

theorem ReportFrame.refl (s : Block) : ReportFrame s s := rfl

section
variable {s t : Block} (h : ReportFrame s t)
include h

theorem ReportFrame.eq :
    t = { s with store := t.store, portico := t.portico, portA := t.portA, portB := t.portB, logs := t.logs } := h

theorem ReportFrame.arc : t.arc = s.arc := by rw [h.eq]
theorem ReportFrame.mem : t.mem = s.mem := by rw [h.eq]
theorem ReportFrame.mezz : t.mezz = s.mezz := by rw [h.eq]
theorem ReportFrame.tok : t.tok = s.tok := by rw [h.eq]
theorem ReportFrame.queues : t.queues = s.queues := by rw [h.eq]
theorem ReportFrame.prog : t.prog = s.prog := by rw [h.eq]
theorem ReportFrame.bnd : t.bnd = s.bnd := by rw [h.eq]
theorem ReportFrame.colls : t.colls = s.colls := by rw [h.eq]
theorem ReportFrame.recov : t.recov = s.recov := by rw [h.eq]
theorem ReportFrame.rel : t.rel = s.rel := by rw [h.eq]
theorem ReportFrame.pwr : t.pwr = s.pwr := by rw [h.eq]
theorem ReportFrame.fw : t.fw = s.fw := by rw [h.eq]
theorem ReportFrame.sec : t.sec = s.sec := by rw [h.eq]
theorem ReportFrame.clk : t.clk = s.clk := by rw [h.eq]
theorem ReportFrame.freeze : t.freeze = s.freeze := by rw [h.eq]
theorem ReportFrame.arr : t.arr = s.arr := by rw [h.eq]
theorem ReportFrame.vec : t.vec = s.vec := by rw [h.eq]
theorem ReportFrame.gals : t.gals = s.gals := by rw [h.eq]
theorem ReportFrame.bind : t.bind = s.bind := by rw [h.eq]
theorem ReportFrame.freeCtr : t.freeCtr = s.freeCtr := by rw [h.eq]

theorem ReportFrame.trans {u : Block} (h' : ReportFrame t u) : ReportFrame s u := by
  unfold ReportFrame at h h' ⊢
  rw [h', h]

theorem ReportFrame.setNum (key v : Nat) : ReportFrame s (setNum key v t) :=
  h.trans (by unfold ReportFrame; rw [setNum_eq])

theorem ReportFrame.bumpNum (key w n : Nat) : ReportFrame s (bumpNum key w n t) := h.setNum ..

theorem ReportFrame.withPortico (p : Portico) : ReportFrame s { t with portico := p } := h.trans rfl

theorem ReportFrame.notify (key : Nat) (v : Bytes) : ReportFrame s (notify key v t) := by
  unfold Machine.notify
  dsimp only
  exact ((h.withPortico _).bumpNum ..).bumpNum ..

theorem ReportFrame.alert (code word : Nat) : ReportFrame s (alert code word t) := h.trans rfl

theorem ReportFrame.setStatus (key v notes alerts code : Nat) : ReportFrame s (setStatus key v notes alerts code t) := by
  have hset := h.setNum key v
  unfold Machine.setStatus notifyNum
  dsimp only
  split
  · refine ReportFrame.alert ?_ ..
    split
    · exact hset.notify ..
    · exact hset
  · split
    · exact hset.notify ..
    · exact hset

theorem ReportFrame.putEvent (q code sev loc : Nat) (inj rec : Bool) (tag addr : Nat) (extra : Bytes) :
    ReportFrame s (putEvent q code sev loc inj rec tag addr extra t) := by
  unfold Machine.putEvent
  dsimp only
  split
  · exact h.bumpNum ..
  · exact h.trans rfl

theorem ReportFrame.detect (code loc : Nat) (inj : Bool) (tag addr : Nat) (extra : Bytes) :
    ReportFrame s (detect code loc inj tag addr extra t) := h.putEvent ..

end

/-! ## Error records -/

/-- What an error record may change. -/
def RecordFrame (s t : Block) : Prop :=
  t = { s with
    store := t.store, portico := t.portico, portA := t.portA, portB := t.portB, logs := t.logs
    recov := { s.recov with signWait := t.recov.signWait } }

theorem RecordFrame.refl (s : Block) : RecordFrame s s := rfl

theorem ReportFrame.toRecord {s t : Block} (h : ReportFrame s t) : RecordFrame s t := by
  unfold RecordFrame
  rw [h.eq]

section
variable {s t : Block} (h : RecordFrame s t)
include h

theorem RecordFrame.eq : t = { s with
    store := t.store, portico := t.portico, portA := t.portA, portB := t.portB, logs := t.logs
    recov := { s.recov with signWait := t.recov.signWait } } := h

theorem RecordFrame.arr : t.arr = s.arr := by rw [h.eq]
theorem RecordFrame.rel : t.rel = s.rel := by rw [h.eq]
theorem RecordFrame.fw : t.fw = s.fw := by rw [h.eq]
theorem RecordFrame.clk : t.clk = s.clk := by rw [h.eq]
theorem RecordFrame.bnd : t.bnd = s.bnd := by rw [h.eq]

theorem RecordFrame.trans {u : Block} (h' : RecordFrame t u) : RecordFrame s u := by
  unfold RecordFrame at h h' ⊢
  rw [h', h]

theorem RecordFrame.ite {u : Block} (h' : RecordFrame s u) {c : Prop} {_ : Decidable c} : RecordFrame s (if c then t else u) := by
  split
  · exact h
  · exact h'

theorem RecordFrame.withLogs (l : Logs) : RecordFrame s { t with logs := l } := h.trans rfl

theorem RecordFrame.bumpNum (key w n : Nat) : RecordFrame s (bumpNum key w n t) := h.trans (ReportFrame.bumpNum (.refl t) ..).toRecord

theorem RecordFrame.setStatus (key v notes alerts code : Nat) : RecordFrame s (setStatus key v notes alerts code t) :=
  h.trans (ReportFrame.setStatus (.refl t) ..).toRecord

theorem RecordFrame.putEvent (q code sev loc : Nat) (inj rec : Bool) (tag addr : Nat) (extra : Bytes) :
    RecordFrame s (putEvent q code sev loc inj rec tag addr extra t) := h.trans (ReportFrame.putEvent (.refl t) ..).toRecord

theorem RecordFrame.withSignWait (l : List Nat) : RecordFrame s { t with recov := { t.recov with signWait := l } } := h.trans rfl

theorem RecordFrame.setFwBit (n : Nat) (b : Bool) : RecordFrame s (setFwBit n b t) := by
  unfold Machine.setFwBit
  dsimp only
  split
  · exact (h.setStatus ..).trans (ReportFrame.alert (.refl _) ..).toRecord
  · exact h.setStatus ..

theorem RecordFrame.dropSignature : RecordFrame s (dropSignature t) := by
  unfold Machine.dropSignature
  split
  · exact h
  split
  · exact h
  · split
    · exact h.withSignWait _
    · exact ((h.withSignWait _).bumpNum ..).setFwBit ..

theorem RecordFrame.trimBuffer : RecordFrame s (trimBuffer t) := by
  unfold Machine.trimBuffer
  refine h.ite ?_
  generalize t.recov.signWait.length = n
  induction n generalizing t with
  | zero => exact h
  | succ n ih => exact ih h.dropSignature

theorem RecordFrame.makeCper (code sev flags tag kind loc addr step tick : Nat) (extra : Bytes) :
    RecordFrame s (makeCper code sev flags tag kind loc addr step tick extra t) := by
  unfold Machine.makeCper
  refine RecordFrame.ite (.bumpNum (.bumpNum ?_ ..) ..) (.bumpNum ?_ ..)
  all_goals exact (h.withLogs _).ite (((h.withLogs _).withLogs _).ite ((h.withLogs _).withLogs _).trimBuffer)

theorem RecordFrame.cperNow (code sev flags tag kind loc addr : Nat) (extra : Bytes) :
    RecordFrame s (cperNow code sev flags tag kind loc addr extra t) := h.makeCper ..

theorem RecordFrame.detectFatal (code loc : Nat) (inj : Bool) : RecordFrame s (detectFatal code loc inj t) :=
  (h.cperNow ..).putEvent ..

end

/-! ## Operations on memory -/

/-- What an operation on memory may change. -/
def MemFrame (s t : Block) : Prop :=
  t = { s with
    mem := t.mem, store := t.store, portico := t.portico, portA := t.portA, portB := t.portB, logs := t.logs, rel := t.rel
    bnd := { s.bnd with bits := t.bnd.bits }, colls := t.colls, freeCtr := t.freeCtr }

theorem MemFrame.refl (s : Block) : MemFrame s s := rfl

theorem ReportFrame.toMem {s t : Block} (h : ReportFrame s t) : MemFrame s t := by
  unfold MemFrame
  rw [h.eq]

section
variable {s t : Block} (h : MemFrame s t)
include h

theorem MemFrame.eq : t = { s with
    mem := t.mem, store := t.store, portico := t.portico, portA := t.portA, portB := t.portB, logs := t.logs, rel := t.rel
    bnd := { s.bnd with bits := t.bnd.bits }, colls := t.colls, freeCtr := t.freeCtr } := h

theorem MemFrame.arc : t.arc = s.arc := by rw [h.eq]
theorem MemFrame.mezz : t.mezz = s.mezz := by rw [h.eq]
theorem MemFrame.tok : t.tok = s.tok := by rw [h.eq]
theorem MemFrame.queues : t.queues = s.queues := by rw [h.eq]
theorem MemFrame.prog : t.prog = s.prog := by rw [h.eq]
theorem MemFrame.recov : t.recov = s.recov := by rw [h.eq]
theorem MemFrame.pwr : t.pwr = s.pwr := by rw [h.eq]
theorem MemFrame.fw : t.fw = s.fw := by rw [h.eq]
theorem MemFrame.sec : t.sec = s.sec := by rw [h.eq]
theorem MemFrame.clk : t.clk = s.clk := by rw [h.eq]
theorem MemFrame.freeze : t.freeze = s.freeze := by rw [h.eq]
theorem MemFrame.arr : t.arr = s.arr := by rw [h.eq]
theorem MemFrame.vec : t.vec = s.vec := by rw [h.eq]
theorem MemFrame.gals : t.gals = s.gals := by rw [h.eq]
theorem MemFrame.bind : t.bind = s.bind := by rw [h.eq]

theorem MemFrame.trans {u : Block} (h' : MemFrame t u) : MemFrame s u := by
  unfold MemFrame at h h' ⊢
  rw [h', h]

theorem MemFrame.report {u : Block} (h' : ReportFrame t u) : MemFrame s u := h.trans h'.toMem

theorem MemFrame.ite {u : Block} (h' : MemFrame s u) {c : Prop} {_ : Decidable c} : MemFrame s (if c then t else u) := by
  split
  · exact h
  · exact h'

theorem MemFrame.withMem (m : Mem) : MemFrame s { t with mem := m } := h.trans rfl

theorem MemFrame.withColls (c : Colls) : MemFrame s { t with colls := c } := h.trans rfl

theorem MemFrame.withRel (r : Rel) : MemFrame s { t with rel := r } := h.trans rfl

theorem MemFrame.detect (code loc : Nat) (inj : Bool) (tag addr : Nat) (extra : Bytes) :
    MemFrame s (detect code loc inj tag addr extra t) := h.report (.detect (.refl t) ..)

theorem MemFrame.setMemBit (n : Nat) (b : Bool) : MemFrame s (setMemBit n b t) := h.report (.setStatus (.refl t) ..)

theorem MemFrame.inject (code loc : Nat) : MemFrame s (inject code loc t).2 := by
  unfold Machine.inject
  split
  · exact (h.withRel _).report (.setNum (.refl _) ..)
  · exact h

theorem MemFrame.logFault (k : LogKind) (g p d tag : Nat) : MemFrame s (logFault k g p d tag t) := by
  refine h.trans ?_
  unfold Machine.logFault stepBit
  dsimp only
  split <;> split <;> rfl

theorem MemFrame.setPoison (k : Nat) (b : Bool) : MemFrame s (setPoison k b t) := h.trans rfl

theorem MemFrame.rowFails (k : Nat) : MemFrame s (rowFails k t) := h.trans rfl

theorem MemFrame.rowEvent (uncorr : Bool) (k : Nat) : MemFrame s (rowEvent uncorr k t) := by
  have hbump : ∀ key, MemFrame s (Machine.bumpNum key 64 1 t) := fun key => h.report (.bumpNum (.refl t) ..)
  unfold Machine.rowEvent
  dsimp only
  split
  · exact (hbump _).rowFails _
  · split
    · exact ((hbump _).withMem _).rowFails _
    · exact (hbump _).withMem _

theorem MemFrame.translate (hall page : Nat) : MemFrame s (translate hall page t).2 := by
  unfold Machine.translate
  dsimp only
  split
  · exact h
  · exact MemFrame.withMem (MemFrame.ite (((h.inject ..).detect ..).setMemBit ..) (h.inject ..)) _

theorem MemFrame.decodeSec (fk off addr : Nat) : MemFrame s (decodeSec fk off addr t).2 := by
  unfold Machine.decodeSec
  dsimp only
  split
  · exact h
  split
  · exact h.withMem _
  · refine MemFrame.ite (.setPoison (.detect ?_ ..) ..) (.detect ?_ ..)
    all_goals exact (h.withMem _).ite (.rowEvent (h.withMem _) ..)

theorem MemFrame.readSecAt (fk off addr : Nat) : MemFrame s (readSecAt fk off addr t).2.2.2 := h.decodeSec ..

theorem MemFrame.writeSecAt (fk off addr : Nat) (new : List (Option Byte)) (pois : Bool) :
    MemFrame s (writeSecAt fk off addr new pois t) := by
  unfold Machine.writeSecAt
  dsimp only
  exact ((((h.ite (h.decodeSec ..)).inject ..).inject ..).withMem _).setPoison ..

theorem MemFrame.readSec (e page off : Nat) : MemFrame s (readSec e page off t).2.2 := by
  unfold Machine.readSec
  have hfirst := h.readSecAt (peHere e) off (page * 2 ^ 20 + off)
  dsimp only
  generalize Machine.readSecAt (peHere e) off (page * 2 ^ 20 + off) t = r at hfirst ⊢
  obtain ⟨d, p, bad, u⟩ := r
  have hsecond := hfirst.readSecAt (peThere e) off (page * 2 ^ 20 + off)
  dsimp only at hfirst hsecond ⊢
  generalize Machine.readSecAt (peThere e) off (page * 2 ^ 20 + off) u = r at hsecond ⊢
  obtain ⟨d2, p2, bad2, v⟩ := r
  dsimp only at hsecond ⊢
  split
  · exact hfirst
  split
  · split
    · exact hsecond.writeSecAt ..
    · split
      · exact hsecond.inject ..
      · refine .detect (.setPoison (.setPoison (.ite (hsecond.inject ..) (.rowEvent (.rowEvent (hsecond.inject ..) ..) ..)) ..) ..) ..
  · split
    · split
      · exact hsecond
      · exact hsecond.writeSecAt ..
    · exact hfirst

end

/-- A fold whose accumulator carries the state. -/
theorem memFrame_foldl {α β : Type} {f : β × Block → α → β × Block} (hf : ∀ acc a, MemFrame acc.2 (f acc a).2) (l : List α)
    (acc : β × Block) : MemFrame acc.2 (l.foldl f acc).2 := by
  induction l generalizing acc with
  | nil => exact .refl _
  | cons a l ih => exact (hf acc a).trans (ih _)

theorem memFrame_forEach {α : Type} {f : α → Block → Block} (hf : ∀ a b, MemFrame b (f a b)) (l : List α) (s : Block) :
    MemFrame s (forEach l f s) :=
  forEach_induction (P := MemFrame s) (fun a _ b h => h.trans (hf a b)) (.refl s)

section
variable {s t : Block} (h : MemFrame s t)
include h

theorem MemFrame.pageFaults (e page : Nat) : MemFrame s (pageFaults e page t) := by
  unfold Machine.pageFaults
  exact (h.logFault ..).ite ((h.logFault ..).ite h)

theorem MemFrame.readPiece (hall : Nat) (l : List (Byte × Bool)) (pc : Nat × Nat × Nat × Nat) :
    MemFrame s (readPiece hall (l, t) pc).2 := by
  obtain ⟨page, off, len, done⟩ := pc
  have hfold : ∀ e acc o, MemFrame acc.2 (readFold e page acc o).2 := fun e acc o => .readSec (.refl _) ..
  have hlost : ∀ acc o, MemFrame acc.2 (lostFold acc o).2 := fun acc o => rfl
  unfold Machine.readPiece
  dsimp only
  refine MemFrame.trans ((h.translate hall page).pageFaults (Machine.translate hall page t).1 page) ?_
  split
  · exact memFrame_foldl (hfold _) ..
  · exact memFrame_foldl hlost ..

theorem MemFrame.memRead (hall a n : Nat) : MemFrame s (memRead hall a n t).2 :=
  h.trans (memFrame_foldl (fun acc pc => MemFrame.readPiece (.refl _) hall acc.1 pc) ..)

theorem MemFrame.dropTags (page : Nat) : MemFrame s (dropTags page t) := by
  unfold Machine.dropTags
  exact MemFrame.ite (h.withColls _) h

theorem MemFrame.writePiece (hall : Nat) (shadow : Bool) (data : List (Byte × Bool)) (b : Bool) (pc : Nat × Nat × Nat × Nat) :
    MemFrame s (writePiece hall shadow data (b, t) pc).2 := by
  obtain ⟨page, off, len, done⟩ := pc
  have hpage := (h.translate hall page).pageFaults (Machine.translate hall page t).1 page
  unfold Machine.writePiece
  dsimp only
  split
  · exact hpage
  · exact (hpage.ite (hpage.dropTags page)).trans
      (memFrame_forEach (fun _ b => memFrame_forEach (fun _ b => .writeSecAt (.refl b) ..) _ b) ..)

theorem MemFrame.memWrite (hall : Nat) (shadow : Bool) (a : Nat) (data : List (Byte × Bool)) :
    MemFrame s (memWrite hall shadow a data t).2 :=
  h.trans (memFrame_foldl (fun acc pc => MemFrame.writePiece (.refl _) hall shadow data acc.1 pc) ..)

theorem MemFrame.memFlags (tag fl : Nat) : MemFrame s (memFlags tag fl t) := by
  unfold Machine.memFlags
  exact MemFrame.ite (h.withMem _) (h.withMem _)

theorem MemFrame.adderInject (ty : Nat) (l : List (Byte × Bool)) (pc : Nat × Nat × Nat × Nat) :
    MemFrame s (adderInject ty (l, t) pc).2 := by
  obtain ⟨page, off, len, done⟩ := pc
  unfold Machine.adderInject
  dsimp only
  split
  · exact h
  · refine h.trans (memFrame_foldl (fun acc so => ?_) ..)
    split
    · exact .detect (.inject (.refl _) ..) ..
    · exact .inject (.refl _) ..

theorem MemFrame.memRmw (hall tag mop ty a : Nat) (src : List (Byte × Bool)) : MemFrame s (memRmw hall tag mop ty a src t) := by
  unfold Machine.memRmw
  dsimp only
  refine .memFlags (.memWrite (.trans ?_ (memFrame_foldl (fun acc pc => MemFrame.adderInject (.refl _) _ acc.1 pc) ..)) ..) ..
  exact (h.memRead ..).trans rfl

end

end Sys2Proof.Machine
end

section
/-! SUPPORT. How many bytes a read of memory gives (R227). -/

namespace Sys2Proof.Machine

@[simp] theorem length_secBytes (s : Block) (k : Nat) : (secBytes s k).length = 32 := by simp [secBytes]

theorem length_readSec (e page off : Nat) (s : Block) : (readSec e page off s).1.length = 32 := by
  unfold readSec
  have hat : ∀ fk o a b, (readSecAt fk o a b).1.length = 32 := fun fk o a b => length_secBytes ..
  dsimp only
  have hfirst := hat (peHere e) off (page * 2 ^ 20 + off) s
  generalize readSecAt (peHere e) off (page * 2 ^ 20 + off) s = r at hfirst ⊢
  obtain ⟨d, p, bad, u⟩ := r
  dsimp only at hfirst ⊢
  have hsecond := hat (peThere e) off (page * 2 ^ 20 + off) u
  generalize readSecAt (peThere e) off (page * 2 ^ 20 + off) u = r at hsecond ⊢
  obtain ⟨d2, p2, bad2, v⟩ := r
  dsimp only at hsecond ⊢
  split
  · exact hfirst
  split
  · split
    · exact hsecond
    · split <;> exact hfirst
  · split
    · split
      · exact hfirst
      · exact hsecond
    · exact hfirst

/-- A fold that appends 32 bytes for each element. -/
theorem length_foldl_sectors {f : List (Byte × Bool) × Block → Nat → List (Byte × Bool) × Block}
    (hf : ∀ acc o, (f acc o).1.length = acc.1.length + 32) (l : List Nat) (acc : List (Byte × Bool) × Block) :
    (l.foldl f acc).1.length = acc.1.length + 32 * l.length := by
  induction l generalizing acc with
  | nil => rfl
  | cons o l ih =>
    rw [List.foldl_cons, ih, hf, List.length_cons]
    omega

theorem le_mul_ceilDiv (a : Nat) {b : Nat} (hb : 0 < b) : a ≤ b * ceilDiv a b := by
  unfold ceilDiv
  have h := Nat.div_add_mod (b - 1 + a) b
  have hmod := Nat.mod_lt (b - 1 + a) hb
  omega

theorem length_readPiece (hall : Nat) (acc : List (Byte × Bool) × Block) (page off len done : Nat) :
    (readPiece hall acc (page, off, len, done)).1.length = acc.1.length + len := by
  have hread : ∀ e acc o, (readFold e page acc o).1.length = acc.1.length + 32 := fun e acc o => by
    unfold readFold
    simp [length_readSec]
  have hlost : ∀ acc o, (lostFold acc o).1.length = acc.1.length + 32 := fun acc o => by
    unfold lostFold
    simp
  have hsecs : len + off % 32 ≤ 32 * (pieceSecs off len).length := by
    unfold pieceSecs
    rw [List.length_map, List.length_range]
    exact le_mul_ceilDiv _ (by decide)
  unfold readPiece
  dsimp only
  rw [List.length_append, List.length_take, List.length_drop]
  split
  · rw [length_foldl_sectors (hread _)]
    simp only [List.length_nil]
    omega
  · rw [length_foldl_sectors hlost]
    simp only [List.length_nil]
    omega

/-- The bytes that the first pieces of an access cover. -/
theorem length_readPieces (hall a n K : Nat) (s : Block) :
    (((List.range K).map (fun k =>
        let done := if k = 0 then 0 else k * 2 ^ 20 - a % 2 ^ 20
        let off := if k = 0 then a % 2 ^ 20 else 0
        ((a / 2 ^ 20 + k) % 2 ^ 19, off, min (2 ^ 20 - off) (n - done), done))).foldl (readPiece hall) ([], s)).1.length =
      min n (K * 2 ^ 20 - a % 2 ^ 20) := by
  have ho : a % 2 ^ 20 < 2 ^ 20 := Nat.mod_lt _ (by decide)
  induction K with
  | zero => simp
  | succ K ih =>
    rw [List.range_succ, List.map_append, List.foldl_append, List.map_singleton, List.foldl_cons, List.foldl_nil,
      length_readPiece, ih]
    generalize a % 2 ^ 20 = o at ho ⊢
    by_cases hK : K = 0
    · subst hK
      simp only [if_true]
      omega
    · simp only [hK, if_false]
      omega

/-- A read gives the bytes it is asked for. -/
theorem length_memRead (hall a n : Nat) (s : Block) : (memRead hall a n s).1.length = n := by
  unfold memRead pieces
  split
  · next h => exact h.symm
  · refine (length_readPieces hall (a % 2 ^ 39) n _ s).trans ?_
    have h := le_mul_ceilDiv (n + a % 2 ^ 39 % 2 ^ 20) (b := 2 ^ 20) (by decide)
    generalize ceilDiv (n + a % 2 ^ 39 % 2 ^ 20) (2 ^ 20) = K at h ⊢
    generalize a % 2 ^ 39 % 2 ^ 20 = o at h ⊢
    omega

end Sys2Proof.Machine
end

section
/-! SUPPORT. Packets on their way out: header fields, the module's slot, which sending keeps; the issue of collectives (R290 to
R304) and their messages (R294, R297, R307). -/

namespace Sys2Proof.Machine

/-! ## Header fields (R270) -/

section
variable (op mop mtype lepoch len addr tgal tctr tval cid step cepoch extra : Nat)

@[simp] theorem phOp_mkHeader : phOp (mkHeader op mop mtype lepoch len addr tgal tctr tval cid step cepoch extra) = op % 256 := by
  unfold phOp mkHeader fld
  rw [Nat.shiftRight_eq_div_pow]
  omega

@[simp] theorem phMop_mkHeader : phMop (mkHeader op mop mtype lepoch len addr tgal tctr tval cid step cepoch extra) = mop % 16 := by
  unfold phMop mkHeader fld
  rw [Nat.shiftRight_eq_div_pow]
  omega

@[simp] theorem phAddr_mkHeader :
    phAddr (mkHeader op mop mtype lepoch len addr tgal tctr tval cid step cepoch extra) = addr % 2 ^ 39 := by
  unfold phAddr mkHeader fld
  rw [Nat.shiftRight_eq_div_pow]
  omega

@[simp] theorem phTgal_mkHeader : phTgal (mkHeader op mop mtype lepoch len addr tgal tctr tval cid step cepoch extra) = tgal % 64 := by
  unfold phTgal mkHeader fld
  rw [Nat.shiftRight_eq_div_pow]
  omega

@[simp] theorem phTctr_mkHeader : phTctr (mkHeader op mop mtype lepoch len addr tgal tctr tval cid step cepoch extra) = tctr % 256 := by
  unfold phTctr mkHeader fld
  rw [Nat.shiftRight_eq_div_pow]
  omega

@[simp] theorem phTval_mkHeader :
    phTval (mkHeader op mop mtype lepoch len addr tgal tctr tval cid step cepoch extra) = tval % 65536 := by
  unfold phTval mkHeader fld
  rw [Nat.shiftRight_eq_div_pow]
  omega

end

/-! ## The module's slot -/

theorem arc_setRecov (n : Nat) (b : Bool) (s : Block) : (setRecov n b s).arc = s.arc := by
  unfold setRecov
  exact (ReportFrame.setStatus (.refl s) ..).arc

theorem arc_loseDesc (desc : Nat) (s : Block) : (loseDesc desc s).arc = s.arc := by
  unfold loseDesc
  split
  · rfl
  · split <;> rfl

theorem arc_losePacket (desc : Nat) (p : Packet) (s : Block) : (losePacket desc p s).arc = s.arc := by
  unfold losePacket failPull
  dsimp only
  rw [arc_loseDesc]
  split <;> split
  · exact arc_setRecov ..
  · rfl
  · exact arc_setRecov ..
  · rfl

theorem arc_reportArcade (s : Block) : (reportArcade s).arc = s.arc := by
  unfold reportArcade
  exact (ReportFrame.setStatus (.refl s) ..).arc

theorem slot_ite {c : Prop} {_ : Decidable c} {a b : Block} {n : Nat} (ha : a.arc.slot = n) (hb : b.arc.slot = n) :
    (if c then a else b).arc.slot = n := by
  split
  · exact ha
  · exact hb

theorem slot_enqueue (again : Bool) (l desc : Nat) (p : Packet) (s : Block) : (enqueue again l desc p s).arc.slot = s.arc.slot := rfl

@[simp] theorem slot_launch (again : Bool) (desc : Nat) (p : Packet) (s : Block) : (launch again desc p s).arc.slot = s.arc.slot := by
  unfold launch
  split
  · rw [arc_losePacket]
  · dsimp only
    refine slot_ite (slot_ite ?_ ?_) ?_
    all_goals
      refine slot_ite ?_ (slot_ite ?_ ?_)
      · rw [arc_reportArcade]
        exact slot_ite rfl rfl
      · rfl
      · rfl

@[simp] theorem slot_sendPacket (desc : Nat) (p : Packet) (s : Block) : (sendPacket desc p s).arc.slot = s.arc.slot := by
  unfold sendPacket
  exact slot_ite rfl (slot_ite rfl (slot_launch ..))

/-- The source of a packet is the module's own slot. -/
theorem sendPacket_src (desc n : Nat) (p : Packet) (s : Block) : sendPacket desc { p with src := n } s = sendPacket desc p s := rfl

theorem slot_sendChunks (desc shall vc dst chunk tag : Nat) (hdr : Nat → Nat → Nat) (data : List (Byte × Bool)) (s : Block) :
    (sendChunks desc shall vc dst chunk tag hdr data s).arc.slot = s.arc.slot :=
  forEach_proj (fun t : Block => t.arc.slot) (fun _ _ _ => slot_sendPacket ..) s

theorem MemFrame.addG64 {s t : Block} (h : MemFrame s t) (hall tag fmt : Nat) (anchor : Int) (head a : Nat)
    (src : List (Byte × Bool)) : MemFrame s (addG64 hall tag fmt anchor head a src t) := by
  unfold Machine.addG64
  exact .memRmw (.ite (.withColls (h.memFlags ..) _) (h.memFlags ..)) ..

theorem slot_contribute (d : Nat) (c : Coll) (owner fmt j from0 : Nat) (s : Block) :
    (contribute d c owner fmt j from0 s).arc.slot = s.arc.slot := by
  have hread := congrArg (·.slot) (MemFrame.memRead (.refl s) (descHall s c.desc) from0 (shardLen d j * entryBytes fmt)).arc
  unfold contribute
  dsimp only
  refine slot_ite ?_ ?_
  · exact (congrArg (·.slot) (MemFrame.addG64 (.refl _) ..).arc).trans hread
  · exact (slot_sendChunks ..).trans hread

/-! ## Messages of collectives (R294, R297, R307) -/

theorem doReady_order {slot cid step attempt cepoch : Nat} {eloc : Int} {s : Block}
    (hepoch : cepoch % 65536 = epochNo s % 65536) :
    doReady slot cid step attempt cepoch eloc s =
      let r : HeldReady := { slot, cid, step := step % 65536, attempt := attempt % 256, cepoch := cepoch % 65536, eloc }
      match stepOrder s (step % 65536) (attempt % 256) with
      | .lt => s
      | .gt => { s with colls := { s.colls with heldReady := s.colls.heldReady ++ [r] } }
      | .eq => collsGo (takeReady r s) := by
  unfold doReady
  exact if_neg fun h => h hepoch

theorem failDesc_failed {id : Nat} {s : Block} {d : Desc} (h : d ∈ (failDesc (id + 1) s).queues.descs) (hid : d.id = id) :
    d.failed = true := by
  obtain ⟨e, -, rfl⟩ := List.mem_map.mp h
  by_cases hcond : e.id + 1 = id + 1
  · rw [if_pos hcond]
  · rw [if_neg hcond] at hid
    exact absurd (congrArg (· + 1) hid) hcond

section
variable {slot cid : Nat} {s : Block}

theorem doRejection_some {c : Coll} (h : s.colls.colls.find? (fun c => c.cid == cid) = some c) : doRejection slot cid s =
    failDesc (c.desc + 1) (collBit 4 { s with colls := { s.colls with rejects := s.colls.rejects ++ [(c.desc + 1, slot)] } }) := by
  unfold doRejection
  rw [h]

theorem doRejection_none (h : s.colls.colls.find? (fun c => c.cid == cid) = none) : doRejection slot cid s =
    stepBit 5 (collBit 4 { s with colls := { s.colls with rejects := s.colls.rejects ++ [(0, slot)] } }) := by
  unfold doRejection
  rw [h]

end

/-- The second phase of a reduction, shard by shard (R297). -/
theorem phase2_modColl (d : Nat) (c : Coll) (f : Coll → Coll) (s : Block) :
    phase2 d c (modColl c.desc f s) = forEach (List.range (shardCount d)) (fun j b =>
      contribute d c (if cdStair d then stairOwner c (b.arc.slot / 9) j else finalOwner d c b.arc.slot j) (cdSfmt d) j
        (cdSrc d + j * cdShard d * entryBytes (cdSfmt d)) b) (modColl c.desc f s) := by
  unfold phase2
  refine forEach_congr (P := fun t : Block => t.arc.slot = s.arc.slot) (fun j _ t ht => (slot_contribute ..).trans ht) (fun j _ t ht => ?_) rfl
  rw [ht]
  rfl

/-- Settles O29. -/
theorem collectivesTakeTheirMessages : Obligations.CollectivesTakeTheirMessages := by
  unfold Obligations.CollectivesTakeTheirMessages
  refine ⟨fun s cid c hfind => ?_, fun s slot cid step attempt cepoch eloc => ?_, fun s slot cid pseq => ?_⟩
  · dsimp only
    refine effect_of_eq (f := doPhase2 cid) ?_
    unfold doPhase2
    rw [hfind]
    exact congrArg collsGo (phase2_modColl ..)
  · dsimp only
    refine ⟨fun hdrop => ?_, fun hepoch hgt => ?_, fun hepoch heq => ⟨fun hnone => ?_, fun c hsome => ?_⟩⟩
    · refine (effect_of_eq (f := doReady slot cid step attempt cepoch eloc) (t := s.toBlock) ?_).trans rfl
      by_cases hepoch : cepoch % 65536 = epochNo s.toBlock % 65536
      · rw [doReady_order hepoch, hdrop.resolve_left (fun h => h hepoch)]
      · exact if_pos hepoch
    all_goals refine effect_of_eq (f := doReady slot cid step attempt cepoch eloc) ?_
    · rw [doReady_order hepoch, hgt]
    · rw [doReady_order hepoch, heq]
      unfold takeReady
      dsimp only
      rw [hnone]
    · rw [doReady_order hepoch, heq]
      unfold takeReady
      dsimp only
      rw [hsome]
  · refine ⟨fun c hfind => ⟨_, effect_of_eq (f := doRejection slot cid) (doRejection_some hfind), rfl, ?_⟩,
      fun hnone => ⟨_, effect_of_eq (f := doRejection slot cid) (doRejection_none hnone), rfl, ?_⟩⟩
    · exact ⟨rfl, testBit_putBit_same .., fun d hd hid => failDesc_failed hd hid⟩
    · exact ⟨rfl, testBit_putBit_same .., testBit_stepBit 5 _, rfl⟩

end Sys2Proof.Machine
end

section
/-! SUPPORT. The issue of an A slot and the start of its collective (R202, R204, R290 to R304). -/

namespace Sys2Proof.Machine

/-! ## The issue -/

theorem slotFaultIf_bits (b : Bool) (k : LogKind) (g : Nat) (x : SlotCtx) (d : Nat) (s : Block) :
    ∃ logs bits, slotFaultIf b k g x d s = { s with logs, bnd := { s.bnd with bits } } := by
  unfold slotFaultIf slotFault logFault stepBit
  dsimp only
  split
  · split <;> split <;> exact ⟨_, _, rfl⟩
  · exact ⟨_, _, rfl⟩

section
variable (op mode g : Nat) (x : SlotCtx) (f : AslotF) (s : Block)

/-- What the issue of an A slot changes before its collective starts. -/
theorem aIssued_eq : ∃ logs bits, aIssued op mode g x f s = { s with
    logs, bnd := { s.bnd with bits }, queues := (aIssued op mode g x f s).queues, colls := (aIssued op mode g x f s).colls } := by
  unfold aIssued
  dsimp only
  obtain ⟨logs, bits, h⟩ := slotFaultIf_bits (decide (2 ≤ cdMode (collDesc s (f.adesc % 1024)))) .program g x
    (cdMode (collDesc s (f.adesc % 1024))) s
  rw [h]
  obtain ⟨logs', bits', h'⟩ := slotFaultIf_bits (op == 12 && !(isEntryFmt (cdSfmtCode (collDesc s (f.adesc % 1024))))) .format g x
    (cdSfmtCode (collDesc s (f.adesc % 1024))) { s with logs, bnd := { s.bnd with bits } }
  rw [h']
  exact ⟨logs', bits', rfl⟩

theorem slot_aIssued : (aIssued op mode g x f s).arc.slot = s.arc.slot := by
  obtain ⟨logs, bits, h⟩ := aIssued_eq op mode g x f s
  rw [h]

theorem store_aIssued : (aIssued op mode g x f s).store = s.store := by
  obtain ⟨logs, bits, h⟩ := aIssued_eq op mode g x f s
  rw [h]

theorem rankSlot_aIssued (r : Nat) : rankSlot (aIssued op mode g x f s) r = rankSlot s r := by
  unfold rankSlot domF
  rw [store_aIssued]

theorem slotEnabled_aIssued (d : Nat) : slotEnabled (aIssued op mode g x f s) d = slotEnabled s d := by
  unfold slotEnabled numF
  rw [store_aIssued, slot_aIssued]

theorem tagMatches_aIssued (cid d : Nat) : tagMatches (aIssued op mode g x f s) cid d = tagMatches s cid d := by
  have hcache : (aIssued op mode g x f s).colls.cache = s.colls.cache := rfl
  have hattempt : (aIssued op mode g x f s).bnd.attempt = s.bnd.attempt := by
    obtain ⟨logs, bits, h⟩ := aIssued_eq op mode g x f s
    rw [h]
  unfold tagMatches stepNo lepochNo num
  rw [hcache, hattempt, store_aIssued, slot_aIssued]

end

section
variable {op mode g : Nat} {i : Instr} {x : SlotCtx} {f : AslotF} {s : Block}

theorem issueA_room (hctr : ctrOk x.tag f.token = true) (hroom : queuedA s (galHall g) < 256) :
    issueA op mode i [g] x f g s = startColl (collDesc s (f.adesc % 1024)) (aColl op mode f s) (aIssued op mode g x f s) := by
  unfold issueA aIssued pushDesc
  dsimp only
  rw [hctr, if_neg (by decide), if_neg (by omega)]
  obtain ⟨logs, bits, h⟩ := slotFaultIf_bits (decide (2 ≤ cdMode (collDesc s (f.adesc % 1024)))) .program g x
    (cdMode (collDesc s (f.adesc % 1024))) s
  rw [h]
  obtain ⟨logs', bits', h'⟩ := slotFaultIf_bits (op == 12 && !(isEntryFmt (cdSfmtCode (collDesc s (f.adesc % 1024))))) .format g x
    (cdSfmtCode (collDesc s (f.adesc % 1024))) { s with logs, bnd := { s.bnd with bits } }
  rw [h']
  rfl

theorem issueA_full (hctr : ctrOk x.tag f.token = true) (hfull : 256 ≤ queuedA s (galHall g)) (gals : List Nat) :
    issueA op mode i gals x f g s =
      if x.tag = 0 then freezeFor .queueHold false [.slot i gals] [g] 0 0 s else discardSlot g x 0x204 s := by
  unfold issueA
  dsimp only
  rw [hctr, if_neg (by decide), if_pos hfull]

end

/-- An A slot that reaches its gallery issues. -/
theorem exec_aslot {x : SlotCtx} {s : State} {g : Nat} (op mode : Nat) (i : Instr) (f : AslotF) (h : reaches s.toBlock x g) :
    effect (doA op mode i x f) s = .next { s with toBlock := issueA op mode i [g] x f g s.toBlock } :=
  effect_of_eq (withSlot_runs h.1 h.2.1 h.2.2)

/-! ## ASEND (R304) -/

/-- One packet of bytes that are sent in chunks. -/
def chunkPacket (shall vc dst chunk tag : Nat) (hdr : Nat → Nat → Nat) (data : List (Byte × Bool)) (i : Nat) : Packet :=
  let part := (data.drop (i * chunk)).take chunk
  { src := 0, shall, dst, vc, detour := false, hop := 0, header := setFld (hdr (i * chunk) part.length) 8 4 tag
    data := plain part, poison := (List.range (ceilDiv part.length 16)).map (fun u => anyPoison ((part.drop (16 * u)).take 16)) }

theorem sendChunks_eq (desc shall vc dst chunk tag : Nat) (hdr : Nat → Nat → Nat) (data : List (Byte × Bool)) (s : Block) :
    sendChunks desc shall vc dst chunk tag hdr data s = forEach (List.range (ceilDiv data.length chunk))
      (fun i b => sendPacket (desc + 1) (chunkPacket shall vc dst chunk tag hdr data i) b) s := rfl

/-- The header of a packet of an ASEND. -/
def sendHeader (s : Block) (c : Coll) (d addr len tval : Nat) : Nat := collHeader s c 0 0 addr len (cdTgal d) (cdTctr d) tval 0

section
variable (s : Block) (c : Coll) (d addr len tval tag : Nat)

theorem cdTgal_lt : cdTgal d < 64 := Nat.mod_lt _ (by decide)

theorem cdTctr_lt : cdTctr d < 256 := Nat.mod_lt _ (by decide)

theorem sendHeader_fields :
    let h := setFld (sendHeader s c d addr len tval) 8 4 tag
    phOp h = 1 ∧ phMop h = 0 ∧ phAddr h = addr % 2 ^ 39 ∧ phTgal h = cdTgal d ∧ phTctr h = cdTctr d ∧ phTval h = tval % 65536 := by
  have hne : ∀ lo w, lo + w ≤ 8 ∨ 12 ≤ lo → fld (setFld (sendHeader s c d addr len tval) 8 4 tag) lo w =
      fld (sendHeader s c d addr len tval) lo w := fun lo w h => fld_setFld_ne h
  unfold phOp phMop phAddr phTgal phTctr phTval
  dsimp only
  rw [hne _ _ (by decide), hne _ _ (by decide), hne _ _ (by decide), hne _ _ (by decide), hne _ _ (by decide), hne _ _ (by decide)]
  refine ⟨phOp_mkHeader .., phMop_mkHeader .., ?_, ?_, ?_, phTval_mkHeader ..⟩
  · exact (phAddr_mkHeader ..).trans (Nat.mod_mod ..)
  · exact (phTgal_mkHeader ..).trans (Nat.mod_eq_of_lt (cdTgal_lt d))
  · exact (phTctr_mkHeader ..).trans (Nat.mod_eq_of_lt (cdTctr_lt d))

/-- The header of a token: the operation alone differs. -/
theorem tokenHeader_fields :
    let h := setFld (setFld (sendHeader s c d addr len tval) 0 8 3) 8 4 tag
    phOp h = 3 ∧ phTgal h = cdTgal d ∧ phTctr h = cdTctr d ∧ phTval h = tval % 65536 := by
  have hne : ∀ lo w, 12 ≤ lo → fld (setFld (setFld (sendHeader s c d addr len tval) 0 8 3) 8 4 tag) lo w =
      fld (sendHeader s c d addr len tval) lo w := fun lo w h => by
    rw [fld_setFld_ne (.inr (by omega)), fld_setFld_ne (.inr (by omega))]
  unfold phOp phTgal phTctr phTval
  dsimp only
  rw [hne 106 6 (by decide), hne 112 8 (by decide), hne 120 16 (by decide)]
  refine ⟨?_, ?_, ?_, phTval_mkHeader ..⟩
  · exact (fld_setFld_ne (.inl (by decide))).trans (fld_setFld_same ..)
  · exact (phTgal_mkHeader ..).trans (Nat.mod_eq_of_lt (cdTgal_lt d))
  · exact (phTctr_mkHeader ..).trans (Nat.mod_eq_of_lt (cdTctr_lt d))

end

section
variable {d : Nat} {c : Coll} {s : Block}

/-- The state on which an ASEND sends. -/
def sendStart (c : Coll) (s : Block) : Block := modColl c.desc (fun c => { c with phase := 5 }) s

/-- The token of an ASEND. -/
def tokenPacket (s : Block) (c : Coll) (d shall dst tag : Nat) : Packet :=
  { src := s.arc.slot, shall, dst, vc := cdVc d, detour := false, hop := 0
    header := setFld (setFld (sendHeader s c d 0 1 1) 0 8 3) 8 4 tag, data := [], poison := [] }

theorem startSend_noRank (h : rankSlot s (cdGroup d % 64) = 127) : startSend d c s = failDesc (c.desc + 1) (sendStart c s) := by
  unfold startSend
  exact if_pos h

theorem startSend_token (h : rankSlot s (cdGroup d % 64) ≠ 127) (hmode : c.mode = 1) :
    startSend d c s = sendPacket (c.desc + 1)
      (tokenPacket (sendStart c s) c d (descHall s c.desc) (rankSlot s (cdGroup d % 64)) (descTag s c.desc)) (sendStart c s) := by
  unfold startSend
  dsimp only
  rw [if_neg h, if_pos hmode]
  rfl

theorem startSend_data (h : rankSlot s (cdGroup d % 64) ≠ 127) (hmode : c.mode = 0) (hn : 0 < cdCount d) :
    startSend d c s =
      let k := mapGet 0 s.colls.sendIndex c.cid
      let addr := cdDst d + (if cdQslots d = 0 then 0 else k % cdQslots d * (ceilDiv (cdCount d) 256 * 256))
      let r := memRead (descHall s c.desc) (cdSrc d) (cdCount d) { sendStart c s with
        colls := { (sendStart c s).colls with sendIndex := mapSet 0 s.colls.sendIndex c.cid (k + 1) } }
      forEach (List.range (ceilDiv (cdCount d) 8192)) (fun i b => sendPacket (c.desc + 1)
        (chunkPacket (descHall s c.desc) (cdVc d) (rankSlot s (cdGroup d % 64)) 8192 (descTag s c.desc)
          (fun o k => sendHeader r.2 c d (addr + o) k (b2n (o + k == cdCount d))) r.1 i) b) r.2 := by
  unfold startSend
  dsimp only
  rw [if_neg h, if_neg (by omega), if_neg (by omega), sendChunks_eq, length_memRead]
  rfl

end

/-- The packets of an ASEND: the last one alone carries a token. -/
theorem chunkPacket_send (shall vc dst tag d addr n i : Nat) (s : Block) (c : Coll) (data : List (Byte × Bool)) (hdata : data.length = n)
    (hi : i < ceilDiv n 8192) :
    let p := chunkPacket shall vc dst 8192 tag (fun o k => sendHeader s c d (addr + o) k (b2n (o + k == n))) data i
    p.dst = dst ∧ p.vc = vc ∧ phOp p.header = 1 ∧ phMop p.header = 0 ∧ phAddr p.header = (addr + 8192 * i) % 2 ^ 39 ∧
      p.data = plain ((data.drop (8192 * i)).take 8192) ∧ phTgal p.header = cdTgal d ∧ phTctr p.header = cdTctr d ∧
      phTval p.header = (if 8192 * (i + 1) < n then 0 else 1) := by
  have hlt : 8192 * i < n := by
    unfold ceilDiv at hi
    omega
  unfold chunkPacket
  dsimp only
  obtain ⟨hop, hmop, haddr, htgal, htctr, htval⟩ := sendHeader_fields s c d (addr + i * 8192)
    ((data.drop (i * 8192)).take 8192).length (b2n (i * 8192 + ((data.drop (i * 8192)).take 8192).length == n)) tag
  refine ⟨rfl, rfl, hop, hmop, haddr.trans (by rw [Nat.mul_comm]), by rw [Nat.mul_comm], htgal, htctr, htval.trans ?_⟩
  rw [List.length_take, List.length_drop, hdata]
  split
  · rw [show (i * 8192 + min 8192 (n - i * 8192) == n) = false from beq_eq_false_iff_ne.mpr (by omega)]
    rfl
  · rw [show (i * 8192 + min 8192 (n - i * 8192) == n) = true from beq_iff_eq.mpr (by omega)]
    rfl

/-! ## The ready round and the gathers (R292, R294, R301, R303) -/

section
variable {d : Nat} {c : Coll} {s : Block}

theorem startColl_badGroup (hop : c.op ≠ 11) (h : groupOk d c = false) :
    startColl d c s = logFault .format 255 0 c.cid (descTag s c.desc) (failDesc (c.desc + 1) (sendStart c s)) := by
  unfold startColl
  rw [if_neg hop, if_pos (by rw [h]; rfl)]
  rfl

theorem ite_of_iff {α : Type _} {c d : Prop} [Decidable c] [Decidable d] {a b : α} (h : c ↔ d) :
    (if c then a else b) = if d then a else b := by
  by_cases hd : d
  · rw [if_pos (h.mpr hd), if_pos hd]
  · rw [if_neg (fun hc => hd (h.mp hc)), if_neg hd]

theorem zeroOwned_eq (d : Nat) (c : Coll) (s : Block) : zeroOwned d c s = forEach (List.range (shardCount d)) (fun j b =>
    if stairOwner c (s.arc.slot / 9) j = s.arc.slot ∧ cdStair d = true ∨ finalOwner d c s.arc.slot j = s.arc.slot then
      (memWrite (descHall b c.desc) false (cdDst d + 8 * (j * cdShard d)) (List.replicate (8 * shardLen d j) (0, false)) b).2
    else b) s := by
  unfold zeroOwned
  dsimp only
  congr 1
  funext j b
  exact ite_of_iff (by simp [and_comm])

theorem startColl_reduce (hop : c.op = 12) (h : groupOk d c = true) :
    startColl d c s =
      let z := zeroOwned d c s
      let w := memRead (descHall z c.desc) (cdExp d) 4 z
      collsGo (readyRound c (signed 32 (leNat (plain w.1))) w.2) := by
  unfold startColl
  rw [if_neg (by omega), if_neg (by rw [h]; decide), if_neg (by omega), if_neg (by omega)]
  simp only [hop, if_true]
  rfl

theorem startColl_push (hop : c.op = 13) (h : groupOk d c = true) (hpush : ¬ (c.mode = 1 ∧ slotEnabled s d = true)) :
    startColl d c s = collsGo (readyRound c (-2147483648) s) := by
  unfold startColl
  rw [if_neg (by omega), if_neg (by rw [h]; decide), if_neg (fun hc => hpush ⟨hc.2.1, hc.2.2.1⟩), if_neg (fun hc => hpush hc.2)]
  simp only [hop, if_neg (show ¬ 13 = 12 by decide)]
  rfl

theorem startColl_reuse (hop : c.op = 13) (h : groupOk d c = true) (hmode : c.mode = 1) (henabled : slotEnabled s d = true)
    (htag : tagMatches s c.cid d = true) :
    startColl d c s = sendStart c { s with colls := { s.colls with reuses := satN 32 (s.colls.reuses + 1) } } := by
  unfold startColl
  rw [if_neg (by omega), if_neg (by rw [h]; decide), if_pos ⟨hop, hmode, henabled, htag⟩]
  rfl

theorem startColl_pull (hop : c.op = 13) (h : groupOk d c = true) (hmode : c.mode = 1) (henabled : slotEnabled s d = true)
    (htag : tagMatches s c.cid d = false) :
    startColl d c s = collsGo (pullShards d c (modColl c.desc (fun c => { c with phase := 4 })
      (collBit 2 { s with colls := { s.colls with pulls := satN 32 (s.colls.pulls + 1) } }))) := by
  unfold startColl
  rw [if_neg (by omega), if_neg (by rw [h]; decide), if_neg (fun hc => absurd (htag.symm.trans hc.2.2.2) (by decide)),
    if_pos ⟨hop, hmode, henabled⟩]

end

/-- Settles O27. -/
theorem anASlotStartsItsCollective : Obligations.AnASlotStartsItsCollective := by
  unfold Obligations.AnASlotStartsItsCollective
  intro x f s g hreach hctr
  dsimp only
  have hrank : ∀ op mode r, rankSlot (aIssued op mode g x f s.toBlock) r = rankSlot s.toBlock r := fun op mode r =>
    rankSlot_aIssued ..
  refine ⟨fun hroom => ?_, fun hfull i hi => ?_⟩
  · have hstart : ∀ op mode i, effect (doA op mode i x f) s = .next { s with
        toBlock := startColl (collDesc s.toBlock (f.adesc % 1024)) (aColl op mode f s.toBlock) (aIssued op mode g x f s.toBlock) } :=
      fun op mode i => by rw [exec_aslot op mode i f hreach, issueA_room hctr hroom]
    have hdata : exec (.asendData x f) s = _ := hstart 11 0 (.asendData x f)
    have htoken : exec (.asendTokenOnly x f) s = _ := hstart 11 1 (.asendTokenOnly x f)
    refine ⟨⟨fun hdst => ?_, fun hdst => ⟨?_, fun hn => ?_⟩⟩, fun i op mode hi => ?_⟩
    · have hnone : ∀ mode, startColl (collDesc s.toBlock (f.adesc % 1024)) (aColl 11 mode f s.toBlock)
          (aIssued 11 mode g x f s.toBlock) = _ := fun mode => startSend_noRank ((hrank ..).trans hdst)
      rw [hdata, htoken, hnone, hnone]
      exact ⟨rfl, rfl⟩
    · have hsend : startColl (collDesc s.toBlock (f.adesc % 1024)) (aColl 11 1 f s.toBlock) (aIssued 11 1 g x f s.toBlock) = _ :=
        startSend_token (by rw [hrank]; exact hdst) rfl
      rw [htoken, hsend, hrank]
      obtain ⟨hop, htgal, htctr, htval⟩ := tokenHeader_fields (sendStart (aColl 11 1 f s.toBlock) (aIssued 11 1 g x f s.toBlock))
        (aColl 11 1 f s.toBlock) (collDesc s.toBlock (f.adesc % 1024)) 0 1 1
        (descTag (aIssued 11 1 g x f s.toBlock) (aColl 11 1 f s.toBlock).desc)
      exact ⟨_, rfl, rfl, rfl, rfl, hop, htgal, htctr, htval⟩
    · have hsend : startColl (collDesc s.toBlock (f.adesc % 1024)) (aColl 11 0 f s.toBlock) (aIssued 11 0 g x f s.toBlock) = _ :=
        startSend_data (by rw [hrank]; exact hdst) rfl hn
      rw [hdata, hsend, hrank]
      exact ⟨_, rfl, fun i hi => chunkPacket_send _ _ _ _ _ _ _ i _ _ _ (length_memRead ..) hi⟩
    · have hexec : exec i s = .next { s with
          toBlock := startColl (collDesc s.toBlock (f.adesc % 1024)) (aColl op mode f s.toBlock) (aIssued op mode g x f s.toBlock) } := by
        obtain ⟨rfl, rfl, rfl⟩ | ⟨rfl, rfl, rfl⟩ | ⟨rfl, rfl, rfl⟩ | ⟨rfl, rfl, rfl⟩ := hi <;> exact hstart ..
      have hop : op ≠ 11 := by
        obtain ⟨rfl, -⟩ | ⟨rfl, -⟩ | ⟨rfl, -⟩ | ⟨rfl, -⟩ := hi <;> decide
      refine ⟨fun hbad => ?_, fun hok hred => ?_, fun hok hgath hpush => ?_, fun hok hgath hone henabled => ⟨fun htag => ?_, fun htag => ?_⟩⟩
      · rw [hexec, startColl_badGroup (c := aColl op mode f s.toBlock) hop hbad]
        rfl
      · rw [hexec, startColl_reduce (c := aColl op mode f s.toBlock) hred hok, zeroOwned_eq, slot_aIssued]
        rfl
      · rw [hexec, startColl_push (c := aColl op mode f s.toBlock) hgath hok]
        rw [slotEnabled_aIssued]
        rintro ⟨hone, henabled⟩
        obtain h0 | hoff := hpush
        · exact absurd (hone.symm.trans h0) (by decide)
        · exact absurd (henabled.symm.trans hoff) (by decide)
      · rw [hexec, startColl_reuse (c := aColl op mode f s.toBlock) hgath hok hone ((slotEnabled_aIssued ..).trans henabled)
          ((tagMatches_aIssued ..).trans htag)]
        rfl
      · rw [hexec, startColl_pull (c := aColl op mode f s.toBlock) hgath hok hone ((slotEnabled_aIssued ..).trans henabled)
          ((tagMatches_aIssued ..).trans htag)]
        rfl
  · have hexec : exec i s = .next { s with
        toBlock := if x.tag = 0 then freezeFor .queueHold false [.slot i [g]] [g] 0 0 s.toBlock else discardSlot g x 0x204 s.toBlock } := by
      obtain rfl | rfl | rfl | rfl | rfl | rfl := hi <;>
        exact (exec_aslot _ _ _ f hreach).trans (by rw [issueA_full hctr hfull])
    refine ⟨fun htag => ?_, fun htag => ?_⟩
    · rw [hexec, if_pos htag]
      rfl
    · rw [hexec, if_neg htag, discardSlot_side htag]

end Sys2Proof.Machine
end

section
/-! SUPPORT. The landings: rows and groups after a write, the hand-over of an operation, its release (R103 to R108), and
what each operation leaves (R104, R106, R107). -/

namespace Sys2Proof.Machine

/-! ## Rows and groups -/

section
variable (arr u grp : Nat) (r : LRow) (v : Option Group) (s : Block)

@[simp] theorem lrow_setLrow_same : lrow (setLrow arr u r s) arr u = r := mapGet_mapSet_same ..

@[simp] theorem lgroup_setLgroup_same : lgroup (setLgroup arr grp v s) arr grp = v := mapGet_mapSet_same ..

@[simp] theorem lrow_setLgroup (a w : Nat) : lrow (setLgroup arr grp v s) a w = lrow s a w := rfl

@[simp] theorem lgroup_setLrow (a n : Nat) : lgroup (setLrow arr u r s) a n = lgroup s a n := rfl

theorem lrow_setLrow_ne {a w : Nat} (h : a * 64 + w ≠ arr * 64 + u) : lrow (setLrow arr u r s) a w = lrow s a w :=
  mapGet_mapSet_ne _ _ _ _ _ h

theorem lgroup_setLgroup_ne {a n : Nat} (h : a ≠ arr) : lgroup (setLgroup arr grp v s) a n = lgroup s a n :=
  mapGet_mapSet_ne _ _ _ _ _ (by omega)

end

theorem openGroup_eq_some {s : Block} {arr grp : Nat} {v : Group} :
    openGroup s arr grp = some v ↔ lgroup s arr grp = some v ∧ v.closeAt = none := by
  unfold openGroup
  split
  · next g hg =>
    rw [hg]
    by_cases h : g.closeAt.isNone = true
    · rw [if_pos h]
      refine ⟨fun e => ⟨e, ?_⟩, fun e => e.1⟩
      rw [← Option.some.inj e]
      exact Option.isNone_iff_eq_none.mp h
    · rw [if_neg h]
      refine ⟨nofun, fun e => absurd ?_ h⟩
      rw [Option.some.inj e.1, e.2]
      rfl
  · next hg =>
    rw [hg]
    exact ⟨nofun, fun e => absurd e.1 nofun⟩

theorem openGroup_congr {s t : Block} {arr grp : Nat} (h : lgroup t arr grp = lgroup s arr grp) :
    openGroup t arr grp = openGroup s arr grp := by
  unfold openGroup
  rw [h]

theorem arr_slotFault (k : LogKind) (g : Nat) (x : SlotCtx) (d : Nat) (s : Block) : (slotFault k g x d s).arr = s.arr := by
  rw [slotFault_eq]

theorem forEach_of_not_mem {α σ : Type} {l : List α} {f : α → σ → σ} {P : α → σ → Prop}
    (hne : ∀ a b s, b ≠ a → P a s → P a (f b s)) {a : α} (ha : a ∉ l) {s : σ} (hs : P a s) : P a (forEach l f s) := by
  induction l generalizing s with
  | nil => exact hs
  | cons b l ih =>
    obtain ⟨hb, hl⟩ := not_or.mp fun h => ha (List.mem_cons.mpr h)
    rw [forEach_cons]
    exact ih hl (hne a b s (fun e => hb e.symm) hs)

/-- What the last update of an element establishes, and updates of the others keep, holds at the end. -/
theorem forEach_of_mem {α σ : Type} {l : List α} {f : α → σ → σ} {P : α → σ → Prop} (h : ∀ a s, P a (f a s))
    (hne : ∀ a b s, b ≠ a → P a s → P a (f b s)) {a : α} (ha : a ∈ l) (s : σ) : P a (forEach l f s) := by
  classical
  induction l generalizing s with
  | nil => exact absurd ha List.not_mem_nil
  | cons b l ih =>
    rw [forEach_cons]
    by_cases hlater : a ∈ l
    · exact ih hlater (f b s)
    · have hb : a = b := (List.mem_cons.mp ha).resolve_right hlater
      exact forEach_of_not_mem hne hlater (hb ▸ h a s)

/-! ## MOPEN (R103, R104) -/

/-- The group that an MOPEN opens. -/
def openedGroup (f : MopenF) (id : Nat) : Group :=
  { id, base := (openPlan f).1, s := (openPlan f).2.1, wide := (openPlan f).2.2.1, mode := f.mode % 4
    anchor := signed 10 f.anchor, gsat := false, closeAt := none }

/-- The clear of one slot row. -/
def openRow (arr : Nat) (g : Group) (i : Nat) (s : Block) : Block :=
  if g.wide then setLrow arr (slotUnit g i + 1) lrowReset (setLrow arr (slotUnit g i) (lrowClear true) s)
  else setLrow arr (slotUnit g i) (lrowClear false) (splitWide arr (slotUnit g i) s)

theorem openOn_eq (x : SlotCtx) (f : MopenF) (id arr : Nat) (s : Block) :
    ∃ t : Block, openOn x f id arr s =
      setLgroup arr f.group (some (openedGroup f id)) (forEach (List.range (openedGroup f id).s) (openRow arr (openedGroup f id)) t) ∧
      (∀ a, a ≠ arr → ∀ n, lgroup t a n = lgroup s a n) ∧ t.arr.rows = s.arr.rows ∧ t.arr.contribs = s.arr.contribs := by
  refine ⟨_, rfl, fun a ha n => ?_, ?_, ?_⟩
  · refine forEach_proj (lgroup · a n) (fun e _ b => ?_) s
    unfold lgroup
    rw [arr_slotFault]
    exact lgroup_setLgroup_ne _ _ _ _ ha
  · refine forEach_proj (fun b : Block => b.arr.rows) (fun e _ b => ?_) s
    rw [arr_slotFault]
    rfl
  · refine forEach_proj (fun b : Block => b.arr.contribs) (fun e _ b => ?_) s
    rw [arr_slotFault]
    rfl

/-- An MOPEN takes at least one row, and stays in the 64 units (R104). -/
theorem openedGroup_bounds (f : MopenF) (id : Nat) : 0 < (openedGroup f id).s ∧ slotEnd (openedGroup f id) ≤ 64 := by
  unfold openedGroup slotEnd slotUnit openPlan
  dsimp only
  cases (landFmt f.fmt).1
  · simp only [Bool.false_eq_true, if_false]
    omega
  · simp only [if_true]
    omega

theorem splitWide_eq (arr u : Nat) (s : Block) : splitWide arr u s = s ∨
    ((lrow s arr (u / 2 * 2)).wide = true ∧ ∃ a b, splitWide arr u s = setLrow arr (u / 2 * 2 + 1) a (setLrow arr (u / 2 * 2) b s)) := by
  unfold splitWide
  dsimp only
  split
  · next h => exact .inr ⟨(Bool.and_eq_true_iff.mp h).2, _, _, rfl⟩
  · exact .inl rfl

section
variable {arr : Nat} {g : Group}

/-- The clear of a row keeps the rows of other arrays. -/
theorem lrow_openRow_other {a w : Nat} (ha : a ≠ arr) (hw : w < 64) {i : Nat} (hi : slotUnit g i + (if g.wide then 1 else 0) < 64) (s : Block) :
    lrow (openRow arr g i s) a w = lrow s a w := by
  unfold openRow
  split
  · next hwide =>
    rw [if_pos hwide] at hi
    rw [lrow_setLrow_ne _ _ _ _ (by omega), lrow_setLrow_ne _ _ _ _ (by omega)]
  · next hwide =>
    rw [if_neg hwide] at hi
    rw [lrow_setLrow_ne _ _ _ _ (by omega)]
    obtain h | ⟨-, p, q, h⟩ := splitWide_eq arr (slotUnit g i) s
    · rw [h]
    · rw [h, lrow_setLrow_ne _ _ _ _ (by omega), lrow_setLrow_ne _ _ _ _ (by omega)]

theorem lgroup_openRow (a n i : Nat) (s : Block) : lgroup (openRow arr g i s) a n = lgroup s a n := by
  unfold openRow
  split
  · rfl
  · obtain h | ⟨-, p, q, h⟩ := splitWide_eq arr (slotUnit g i) s <;> rw [h] <;> rfl

theorem lrow_openRow_self (i : Nat) (s : Block) : lrow (openRow arr g i s) arr (slotUnit g i) = lrowClear g.wide := by
  unfold openRow
  split
  · next h =>
    rw [lrow_setLrow_ne _ _ _ _ (by omega), lrow_setLrow_same, h]
  · next h =>
    rw [lrow_setLrow_same]
    simp only [Bool.not_eq_true] at h
    rw [h]

/-- Every row of the slot is clear once the rows have been cleared in turn. -/
theorem lrow_openRows (n : Nat) (s : Block) : ∀ i, i < n →
    lrow (forEach (List.range n) (openRow arr g) s) arr (slotUnit g i) = lrowClear g.wide := by
  induction n with
  | zero => exact fun i hi => absurd hi (Nat.not_lt_zero i)
  | succ n ih =>
    intro i hi
    rw [List.range_succ, forEach_append]
    change lrow (openRow arr g n _) arr (slotUnit g i) = _
    by_cases hin : i = n
    · rw [hin, lrow_openRow_self]
    have hlt : i < n := by omega
    generalize hb : forEach (List.range n) (openRow arr g) s = b at ih ⊢
    rw [← ih i hlt]
    unfold openRow
    split
    · next hwide =>
      unfold slotUnit
      rw [if_pos hwide]
      rw [lrow_setLrow_ne _ _ _ _ (by omega), lrow_setLrow_ne _ _ _ _ (by omega)]
    · next hwide =>
      have hprev : lrow b arr (slotUnit g (n - 1)) = lrowClear g.wide := ih (n - 1) (by omega)
      have hunit : ∀ k, slotUnit g k = g.base + k := fun k => by unfold slotUnit; rw [if_neg hwide, Nat.mul_one]
      rw [lrow_setLrow_ne _ _ _ _ (by rw [hunit, hunit]; omega)]
      obtain h | ⟨hsplit, p, q, h⟩ := splitWide_eq arr (slotUnit g n) b
      · rw [h]
      · rw [h]
        have heven : slotUnit g n / 2 * 2 = slotUnit g n := by
          refine Decidable.byContradiction fun hodd => ?_
          have : slotUnit g n / 2 * 2 = slotUnit g (n - 1) := by rw [hunit, hunit] at *; omega
          rw [this, hprev] at hsplit
          exact hwide hsplit
        rw [heven, lrow_setLrow_ne _ _ _ _ (by rw [hunit, hunit]; omega), lrow_setLrow_ne _ _ _ _ (by rw [hunit, hunit]; omega)]

end

/-- An MOPEN has opened its group in an array. -/
def Opened (f : MopenF) (id arr : Nat) (t : Block) : Prop :=
  openGroup t arr f.group = some (openedGroup f id) ∧
    ∀ i, i < (openedGroup f id).s → lrow t arr (slotUnit (openedGroup f id) i) = lrowClear (openedGroup f id).wide

section
variable (x : SlotCtx) (f : MopenF) (id arr : Nat) (s : Block)

theorem slotUnit_opened_lt {i : Nat} (hi : i < (openedGroup f id).s) :
    slotUnit (openedGroup f id) i + (if (openedGroup f id).wide then 1 else 0) < 64 := by
  have hend := (openedGroup_bounds f id).2
  generalize openedGroup f id = g at hi hend ⊢
  unfold slotEnd slotUnit at hend
  unfold slotUnit
  split
  · next h =>
    rw [if_pos h] at hend
    omega
  · next h =>
    rw [if_neg h] at hend
    omega

theorem opened_openOn : Opened f id arr (openOn x f id arr s) := by
  obtain ⟨t, h, -⟩ := openOn_eq x f id arr s
  rw [h]
  refine ⟨openGroup_eq_some.mpr ⟨lgroup_setLgroup_same .., rfl⟩, fun i hi => ?_⟩
  rw [lrow_setLgroup]
  exact lrow_openRows _ _ i hi

theorem lgroup_openOn_other {a : Nat} (ha : a ≠ arr) (n : Nat) : lgroup (openOn x f id arr s) a n = lgroup s a n := by
  obtain ⟨t, h, hgroup, -⟩ := openOn_eq x f id arr s
  rw [h, lgroup_setLgroup_ne _ _ _ _ ha, forEach_proj (lgroup · a n) (fun i _ b => lgroup_openRow a n i b), hgroup a ha]

theorem lrow_openOn_other {a w : Nat} (ha : a ≠ arr) (hw : w < 64) : lrow (openOn x f id arr s) a w = lrow s a w := by
  obtain ⟨t, h, -, hrows, -⟩ := openOn_eq x f id arr s
  rw [h, lrow_setLgroup, forEach_proj (lrow · a w) (fun i hi b =>
    lrow_openRow_other ha hw (slotUnit_opened_lt f id (List.mem_range.mp hi)) b)]
  unfold lrow
  rw [hrows]

theorem Opened.openOn_other {a : Nat} (ha : arr ≠ a) {s : Block} (h : Opened f id a s) : Opened f id a (openOn x f id arr s) := by
  refine ⟨(openGroup_congr (lgroup_openOn_other x f id arr s ha.symm f.group)).trans h.1, fun i hi => ?_⟩
  rw [lrow_openOn_other x f id arr s ha.symm (by have := slotUnit_opened_lt f id hi; split at this <;> omega)]
  exact h.2 i hi

end

/-! ## Operations on their way (R108) -/

/-- The operation that a landing slot hands over. -/
def landOpOf (i : Instr) (x : SlotCtx) (g alc first count : Nat) (ks : List (Int × Bool)) (s : Block) : HeldOp :=
  { op := i, gal := g, alc := alc % 8, pair := pairAlcove s x (alc % 8), issue := cyc s, order := nextOrder s
    arrays := slotArrays s x g (alc % 8) first count, ks }

/-- What the hand-over of an operation leaves. -/
structure HandedOver (h : HeldOp) (s t : Block) : Prop where
  eq : ∃ logs bnd, t = { s with
    logs, bnd, vec := { s.vec with issueOrder := s.vec.issueOrder + 1 }, arr := { s.arr with held := s.arr.held ++ [h] } }

theorem landOp_handedOver (i : Instr) (x : SlotCtx) (g alc first count : Nat) (ks : List (Int × Bool)) {s t : Block}
    (ht : ∃ logs bnd, t = { s with logs, bnd }) :
    HandedOver (landOpOf i x g alc first count ks s) s (landOp i x g alc first count ks t) := by
  obtain ⟨logs, bnd, rfl⟩ := ht
  unfold landOp rangeFault submitOp bumpOrder
  dsimp only
  rw [slotFaultIf_eq]
  exact ⟨_, _, rfl⟩

theorem iter_slotFault (k : LogKind) (g : Nat) (x : SlotCtx) (d n : Nat) {s t : Block} (h : ∃ logs bnd, t = { s with logs, bnd }) :
    ∃ logs bnd, iter (slotFault k g x d) n t = { s with logs, bnd } := by
  induction n generalizing t with
  | zero => exact h
  | succ n ih =>
    obtain ⟨logs, bnd, rfl⟩ := h
    exact ih ⟨_, _, slotFault_eq ..⟩

section
variable {x : SlotCtx} {s : State} {g : Nat} (h : reaches s.toBlock x g)
include h

theorem exec_mopen (f : MopenF) : ∃ t, exec (.mopen x f) s = .next { s with toBlock := t } ∧
    HandedOver (landOpOf (.mopen x f) x g f.alcove f.first f.count [] s.toBlock) s.toBlock t := by
  refine ⟨_, effect_of_eq (f := doMopen x f) (withSlot_runs h.1 h.2.1 h.2.2), ?_⟩
  exact landOp_handedOver _ _ _ _ _ _ _ (iter_slotFault _ _ _ _ _ (iter_slotFault _ _ _ _ _ ⟨_, _, rfl⟩))

theorem exec_mclose (f : DrainF) : ∃ t, exec (.mclose x f) s = .next { s with toBlock := t } ∧
    HandedOver (landOpOf (.mclose x f) x g f.alcove f.first f.count [] s.toBlock) s.toBlock t :=
  ⟨_, effect_of_eq (f := doMclose x f) (withSlot_runs h.1 h.2.1 h.2.2), landOp_handedOver _ _ _ _ _ _ _ ⟨_, _, rfl⟩⟩

theorem exec_mdrain (f : DrainF) : ∃ t, exec (.mdrain x f) s = .next { s with toBlock := t } ∧
    HandedOver (landOpOf (.mdrain x f) x g f.alcove f.first f.count [] s.toBlock) s.toBlock t :=
  ⟨_, effect_of_eq (f := doMdrain x f) (withSlot_runs h.1 h.2.1 h.2.2), landOp_handedOver _ _ _ _ _ _ _ ⟨_, _, rfl⟩⟩

theorem exec_mshift (f : MshiftF) {ks : List (Int × Bool)} (hks : shiftKs f g s.toBlock = some ks) :
    ∃ t, exec (.mshift x f) s = .next { s with toBlock := t } ∧
      HandedOver (landOpOf (.mshift x f) x g f.alcove f.first f.count ks s.toBlock) s.toBlock t := by
  refine ⟨landOp (.mshift x f) x g f.alcove f.first f.count ks s.toBlock,
    effect_of_eq (f := doMshift x f) ((withSlot_runs h.1 h.2.1 h.2.2).trans ?_),
    landOp_handedOver _ _ _ _ _ _ _ ⟨s.logs, s.bnd, rfl⟩⟩
  rw [hks]

end

/-! ## Release (R108) -/

/-- An operation held back stays held. -/
theorem mem_releaseGo_kept {h : HeldOp} (l : List HeldOp) : ∀ {kept : List HeldOp} {s : Block}, h ∈ kept →
    h ∈ (releaseGo kept l s).1 := by
  induction l with
  | nil => exact fun h => h
  | cons k l ih =>
    intro kept s hmem
    unfold releaseGo
    split
    · exact ih (List.mem_append_left _ hmem)
    · exact ih hmem

theorem releaseOps_alone {t : Block} {h : HeldOp} (hheld : t.arr.held = [h]) (hcontribs : t.arr.contribs = []) :
    releaseOps t = { performOp h t with arr := { (performOp h t).arr with held := [] } } := by
  have hwaits : opWaits t h = false := by
    unfold opWaits
    rw [hcontribs]
    rfl
  unfold releaseOps
  rw [hheld]
  unfold releaseGo
  rw [if_neg (by rw [hwaits]; simp)]
  rfl

end Sys2Proof.Machine
end

section
/-! SUPPORT. Landing operations at the landing (R106 to R108): what they leave on their way, drains, closes, clears and shifts. -/

namespace Sys2Proof.Machine

/-! ## Contributions on their way -/

theorem arr_descFail (s : Block) : (descFail s).arr = s.arr := rfl

theorem arr_stepBit (n : Nat) (s : Block) : (stepBit n s).arr = s.arr := rfl

theorem arr_consume (tag addr : Nat) (s : Block) : (consume tag addr s).arr = s.arr := by
  have hbump : ∀ k w n, (bumpNum k w n (cperNow 0 0 0 tag 0 (domLoc 10) addr [] s)).arr = s.arr := fun k w n =>
    (RecordFrame.bumpNum (.cperNow (.refl s) ..) ..).arr
  unfold consume
  dsimp only
  by_cases htag : tag = 0
  · rw [if_pos htag, arr_descFail, hbump]
  · rw [if_neg htag, arr_stepBit]
    exact hbump ..

/-- Contributions stay on their way. -/
def KeepsContribs (s t : Block) : Prop := t.arr.contribs = s.arr.contribs

section
variable {s t : Block} (h : KeepsContribs s t)
include h

theorem KeepsContribs.of_arr {u : Block} (h' : u.arr = t.arr) : KeepsContribs s u := by
  unfold KeepsContribs
  rw [h', h]

theorem KeepsContribs.trans {u : Block} (h' : KeepsContribs t u) : KeepsContribs s u := Eq.trans h' h

theorem KeepsContribs.forEach {α : Type} {f : α → Block → Block} (hf : ∀ a b, KeepsContribs b (f a b)) (l : List α) :
    KeepsContribs s (forEach l f t) :=
  h.trans (forEach_proj (fun b : Block => b.arr.contribs) (fun a _ b => hf a b) t)

end

theorem keepsContribs_openOn (x : SlotCtx) (f : MopenF) (id arr : Nat) (s : Block) : KeepsContribs s (openOn x f id arr s) := by
  obtain ⟨t, h, -, -, hc⟩ := openOn_eq x f id arr s
  rw [h]
  have hrow : ∀ i b, KeepsContribs b (openRow arr (openedGroup f id) i b) := fun i b => by
    unfold openRow
    split
    · rfl
    · obtain e | ⟨-, p, q, e⟩ := splitWide_eq arr (slotUnit (openedGroup f id) i) b <;> rw [e] <;> rfl
  exact KeepsContribs.forEach hc hrow _

theorem keepsContribs_residueCheck (tag arr u : Nat) (s : Block) : KeepsContribs s (residueCheck tag arr u s) := by
  unfold residueCheck
  dsimp only
  split
  · rfl
  · exact KeepsContribs.of_arr (t := setLrow _ _ _ s) rfl (ReportFrame.detect (.refl _) ..).arr

theorem keepsContribs_collectRows (tag grp : Nat) (arrs : List Nat) (s : Block) : KeepsContribs s (collectRows tag grp arrs s).2 := by
  unfold collectRows
  generalize ([] : List DrainRow) = rows
  induction arrs generalizing rows s with
  | nil => rfl
  | cons arr arrs ih =>
    rw [List.foldl_cons]
    dsimp only
    split
    · exact ih _ _
    · exact KeepsContribs.trans (KeepsContribs.forEach (s := s) rfl (fun i b => keepsContribs_residueCheck ..) _) (ih _ _)

theorem keepsContribs_pairRows (g alc tag : Nat) (w : WFmt) (even odd : List DrainRow) (s : Block) :
    KeepsContribs s (pairRows g alc tag w even odd s).2 := by
  unfold pairRows
  dsimp only
  refine KeepsContribs.forEach (KeepsContribs.of_arr (t := s) rfl (MemFrame.inject (.refl s) ..).arr) (fun r b => ?_) _
  split
  · exact KeepsContribs.of_arr (t := b) rfl (ReportFrame.detect (.refl b) ..).arr
  · rfl

theorem arr_convStart (g q : Nat) (s : Block) : (convStart g q s).arr = s.arr := by
  unfold convStart
  dsimp only
  split
  · rw [if_pos rfl]
    split <;> rfl
  · split
    · split <;> rfl
    · rfl

theorem arr_convPut (j : DrainJob) (s : Block) : (convPut j s).arr = s.arr := arr_convStart ..

theorem keepsContribs_drainOn (x : SlotCtx) (f : DrainF) (isClose : Bool) (g issue order : Nat) (arrs odd : List Nat) (s : Block) :
    KeepsContribs s (drainOn x f isClose g issue order arrs odd s) := by
  have hfault : KeepsContribs s (slotFaultIf (wideFmt [0, 1] f.ofmt).2 .format g x f.ofmt s) := by rw [slotFaultIf_eq]; rfl
  unfold drainOn
  dsimp only
  generalize slotFaultIf (wideFmt [0, 1] f.ofmt).2 .format g x f.ofmt s = a at hfault ⊢
  split
  · exact hfault
  split
  · exact hfault.of_arr (arr_slotFault ..)
  have heven := hfault.trans (keepsContribs_collectRows x.tag f.group arrs a)
  generalize collectRows x.tag f.group arrs a = r at heven ⊢
  obtain ⟨rows, b⟩ := r
  have hodd := heven.trans (keepsContribs_collectRows x.tag f.group odd b)
  dsimp only at hodd ⊢
  generalize collectRows x.tag f.group odd b = r at hodd ⊢
  obtain ⟨mrows, c⟩ := r
  have hpair : KeepsContribs s (if odd.isEmpty = true then (rows, c) else pairRows g f.alcove x.tag (drainFmt f) rows mrows c).2 := by
    split
    · exact hodd
    · exact hodd.trans (keepsContribs_pairRows ..)
  dsimp only at hpair ⊢
  generalize (if odd.isEmpty = true then (rows, c) else pairRows g f.alcove x.tag (drainFmt f) rows mrows c) = r at hpair ⊢
  obtain ⟨prows, d⟩ := r
  dsimp only at hpair ⊢
  have hput : ∀ j k : DrainJob, KeepsContribs s (if odd.isEmpty = true then convPut j d else convPut k (convPut j d)) := fun j k => by
    split
    · exact hpair.of_arr (arr_convPut ..)
    · exact (hpair.of_arr (arr_convPut ..)).of_arr (arr_convPut ..)
  split
  · refine KeepsContribs.forEach (hput _ _) (fun arr b => ?_) _
    split <;> rfl
  split
  · refine KeepsContribs.forEach (hput _ _) (fun arr b => ?_) _
    unfold clearRows
    split
    · rfl
    · next v _ =>
      exact KeepsContribs.forEach (s := b) (t := b) (f := fun i s => setLrow arr (slotUnit v i) (lrowClear v.wide) s) rfl
        (fun _ _ => rfl) _
  · exact hput _ _

theorem keepsContribs_shiftOn (f : MshiftF) (ks : List (Int × Bool)) (arr : Nat) (s : Block) : KeepsContribs s (shiftOn f ks arr s) := by
  unfold shiftOn
  split
  · rfl
  · refine KeepsContribs.forEach (s := s) (t := s) rfl (fun i b => ?_) _
    split
    · dsimp only
      split
      · split <;> rfl
      · rfl
    · rfl

/-- A landing operation leaves the contributions on their way. -/
theorem keepsContribs_performOp (h : HeldOp) (s : Block) : KeepsContribs s (performOp h s) := by
  unfold performOp
  dsimp only
  split
  · exact KeepsContribs.forEach (s := s) (t := s) rfl (fun arr b => keepsContribs_openOn ..) _
  · exact keepsContribs_drainOn ..
  · exact keepsContribs_drainOn ..
  · refine KeepsContribs.forEach ?_ (fun arr b => keepsContribs_shiftOn ..) _
    split
    · exact KeepsContribs.of_arr (t := s) rfl (arr_consume ..)
    · rfl
  · rfl

/-! ## Operations that wait -/

theorem opWaits_congr {s t : Block} (h : KeepsContribs s t) (k : HeldOp) : opWaits t k = opWaits s k := by
  unfold opWaits
  rw [h]

/-- An operation that waits for contributions stays held (R108). -/
theorem mem_releaseGo_waits {h : HeldOp} (l : List HeldOp) : ∀ {kept : List HeldOp} {s : Block}, opWaits s h = true → h ∈ l →
    h ∈ (releaseGo kept l s).1 := by
  induction l with
  | nil => exact fun _ hmem => absurd hmem List.not_mem_nil
  | cons k l ih =>
    intro kept s hwait hmem
    unfold releaseGo
    obtain rfl | hmem := List.mem_cons.mp hmem
    · rw [if_pos (by rw [hwait]; rfl)]
      exact mem_releaseGo_kept l (List.mem_append_right _ (List.mem_singleton_self _))
    · split
      · exact ih hwait hmem
      · exact ih ((opWaits_congr (keepsContribs_performOp k s) h).trans hwait) hmem

/-- An operation behind one that waits, on a common array, stays held (R108). -/
theorem mem_releaseGo_behind {h k : HeldOp} (hshare : shares k.arrays h.arrays = true) (l : List HeldOp) :
    ∀ {kept : List HeldOp} {s : Block}, (k ∈ kept ∨ (opWaits s k = true ∧ k ∈ l)) → h ∈ (releaseGo kept (l ++ [h]) s).1 := by
  induction l with
  | nil =>
    intro kept s hk
    obtain hk | ⟨-, hk⟩ := hk
    · rw [List.nil_append]
      unfold releaseGo
      rw [if_pos (by rw [List.any_eq_true.mpr ⟨k, hk, hshare⟩, Bool.or_true])]
      exact List.mem_append_right _ (List.mem_singleton_self _)
    · exact absurd hk List.not_mem_nil
  | cons j l ih =>
    intro kept s hk
    rw [List.cons_append]
    unfold releaseGo
    split
    · refine ih ?_
      obtain hk | ⟨hwait, hk⟩ := hk
      · exact .inl (List.mem_append_left _ hk)
      · obtain rfl | hk := List.mem_cons.mp hk
        · exact .inl (List.mem_append_right _ (List.mem_singleton_self _))
        · exact .inr ⟨hwait, hk⟩
    · next hgo =>
      refine ih ?_
      obtain hk | ⟨hwait, hk⟩ := hk
      · exact .inl hk
      · obtain rfl | hk := List.mem_cons.mp hk
        · exact absurd (by rw [hwait]; rfl) hgo
        · exact .inr ⟨(opWaits_congr (keepsContribs_performOp j s) k).trans hwait, hk⟩

section
variable {i : Instr} {x : SlotCtx} {s t : Block} {h : HeldOp}

/-- An operation that was handed over and has to wait stays held in its cycle. -/
theorem HandedOver.mem_held (hand : HandedOver h s t) (hissue : h.issue = cyc s)
    (hwait : (∃ c ∈ s.arr.contribs, c.lastBeat ≤ cyc s ∧ c.arr ∈ h.arrays) ∨
      ∃ k ∈ s.arr.held, opWaits s k = true ∧ shares k.arrays h.arrays = true) : h ∈ (releaseOps t).arr.held := by
  obtain ⟨logs, bnd, rfl⟩ := hand.eq
  unfold releaseOps
  dsimp only
  obtain ⟨c, hc, hbeat, harr⟩ | ⟨k, hk, hkwait, hshare⟩ := hwait
  · refine mem_releaseGo_waits _ ?_ (List.mem_append_right _ (List.mem_singleton_self _))
    refine List.any_eq_true.mpr ⟨c, hc, ?_⟩
    rw [hissue]
    simp [hbeat, harr]
  · exact mem_releaseGo_behind hshare _ (.inr ⟨hkwait, hk⟩)

end

end Sys2Proof.Machine
end

section
/-! SUPPORT. Drains, closes, clears and shifts at the landing (R106, R107, R168). -/

namespace Sys2Proof.Machine

section
variable {α σ β : Type} {l : List α} {f : α → σ → σ} {I : σ → Prop} {a : α}

/-- The one update of a list that reaches what `p` reads. -/
theorem forEach_at (p : σ → β) (hl : l.Nodup) (ha : a ∈ l) (hI : ∀ b ∈ l, ∀ s, I s → I (f b s))
    (hp : ∀ b ∈ l, b ≠ a → ∀ s, I s → p (f b s) = p s) {s : σ} (hs : I s) :
    ∃ t, I t ∧ p t = p s ∧ p (forEach l f s) = p (f a t) := by
  obtain ⟨l₁, l₂, rfl⟩ := List.append_of_mem ha
  have hkeep : ∀ m : List α, (∀ b ∈ m, b ∈ l₁ ++ a :: l₂ ∧ b ≠ a) → ∀ s, I s → I (forEach m f s) ∧ p (forEach m f s) = p s := by
    intro m hm s hs
    induction m generalizing s with
    | nil => exact ⟨hs, rfl⟩
    | cons b m ih =>
      obtain ⟨hb, hne⟩ := hm b List.mem_cons_self
      obtain ⟨hInv, heq⟩ := ih (fun c hc => hm c (List.mem_cons_of_mem b hc)) (f b s) (hI b hb s hs)
      exact ⟨hInv, heq.trans (hp b hb hne s hs)⟩
  have hnot : a ∉ l₁ ∧ a ∉ l₂ := by
    rw [List.nodup_append] at hl
    exact ⟨fun h => hl.2.2 a h a List.mem_cons_self rfl, (List.nodup_cons.mp hl.2.1).1⟩
  obtain ⟨hI₁, hp₁⟩ := hkeep l₁ (fun b hb => ⟨List.mem_append_left _ hb, fun e => hnot.1 (e ▸ hb)⟩) s hs
  obtain ⟨-, hp₂⟩ := hkeep l₂ (fun b hb => ⟨List.mem_append_right _ (List.mem_cons_of_mem a hb), fun e => hnot.2 (e ▸ hb)⟩)
    (f a (forEach l₁ f s)) (hI a ha _ hI₁)
  refine ⟨forEach l₁ f s, hI₁, hp₁, ?_⟩
  rw [forEach_append, forEach_cons, hp₂]

/-- What the update of an element establishes, under an invariant, and every other update keeps. -/
theorem forEach_established {P : σ → Prop} (ha : a ∈ l) (hI : ∀ b ∈ l, ∀ s, I s → I (f b s)) (h : ∀ s, I s → P (f a s))
    (hP : ∀ b ∈ l, ∀ s, I s → P s → P (f b s)) {s : σ} (hs : I s) : P (forEach l f s) := by
  obtain ⟨l₁, l₂, rfl⟩ := List.append_of_mem ha
  have hI₁ : I (forEach l₁ f s) := forEach_induction (fun b hb => hI b (List.mem_append_left _ hb)) hs
  rw [forEach_append, forEach_cons]
  refine (forEach_induction (P := fun t => I t ∧ P t) (fun b hb t ht => ?_) ⟨hI a ha _ hI₁, h _ hI₁⟩).2
  have hmem := List.mem_append_right l₁ (List.mem_cons_of_mem a hb)
  exact ⟨hI b hmem t ht.1, hP b hmem t ht.1 ht.2⟩

end

/-! ## Drains (R106, R168) -/

theorem residueCheck_good {tag arr u : Nat} {s : Block} (h : residueBad (lrow s arr u) = []) : residueCheck tag arr u s = s := by
  unfold residueCheck
  dsimp only
  rw [h]

theorem collectRows_good {tag grp : Nat} {s : Block} (arrs : List Nat)
    (h : ∀ arr ∈ arrs, ∀ v, openGroup s arr grp = some v → ∀ k, k < v.s → residueBad (lrow s arr (slotUnit v k)) = []) :
    collectRows tag grp arrs s = (arrs.flatMap (fun arr => (openGroup s arr grp).elim [] (drainRows s arr)), s) := by
  have hfold : ∀ (l : List Nat) (rows : List DrainRow), (∀ arr ∈ l, arr ∈ arrs) →
      l.foldl (fun (acc : List DrainRow × Block) arr =>
        match openGroup acc.2 arr grp with
        | none => acc
        | some g =>
          let s := forEach (List.range g.s) (fun i s => residueCheck tag arr (slotUnit g i) s) acc.2
          (acc.1 ++ drainRows s arr g, s)) (rows, s) =
        (rows ++ l.flatMap (fun arr => (openGroup s arr grp).elim [] (drainRows s arr)), s) := by
    intro l
    induction l with
    | nil => exact fun rows _ => by simp
    | cons arr l ih =>
      intro rows hl
      have hrest := fun b hb => hl b (List.mem_cons_of_mem arr hb)
      rw [List.foldl_cons, List.flatMap_cons, ← List.append_assoc]
      dsimp only
      cases hg : openGroup s arr grp with
      | none => exact (ih rows hrest).trans (by simp)
      | some v =>
        have hcheck : forEach (List.range v.s) (fun i s => residueCheck tag arr (slotUnit v i) s) s = s :=
          forEach_induction (P := (· = s)) (fun i hi t ht => by
            rw [ht, residueCheck_good (h arr (hl arr List.mem_cons_self) v hg i (List.mem_range.mp hi))]) rfl
        dsimp only
        rw [hcheck, ih _ hrest]
        rfl
  exact (hfold arrs [] (fun _ h => h)).trans (by simp)

/-- The job of an undisturbed drain. -/
def drainJob (x : SlotCtx) (f : DrainF) (isClose : Bool) (g order : Nat) (rows : List DrainRow) : DrainJob :=
  { gal := g, alc := f.alcove, ctx := x, f, isClose, mirror := false, order, start := 0, next := 0, rows }

/-- What follows the hand-over of a drain. -/
def drainAfter (f : DrainF) (isClose : Bool) (issue : Nat) (arrs : List Nat) (s : Block) : Block :=
  if isClose then markClose arrs f.group issue s
  else if f.clear % 2 == 1 then forEach arrs (fun arr s => clearRows arr f.group s) s else s

section
variable {x : SlotCtx} {f : DrainF} {isClose : Bool} {g issue order : Nat} {arrs : List Nat} {s : Block}

theorem drainOn_good (hopen : ∃ arr ∈ arrs, (openGroup s arr f.group).isSome = true) (hconv : conv s g f.alcove = convIdle)
    (hres : ∀ arr ∈ arrs, ∀ v, openGroup s arr f.group = some v → ∀ k, k < v.s → residueBad (lrow s arr (slotUnit v k)) = []) :
    ∃ logs bnd, drainOn x f isClose g issue order arrs [] s = drainAfter f isClose issue arrs
      (convPut (drainJob x f isClose g order (arrs.flatMap (fun arr => (openGroup s arr f.group).elim [] (drainRows s arr))))
        { s with logs, bnd }) := by
  obtain ⟨logs, bnd, hfault⟩ : ∃ logs bnd, slotFaultIf (wideFmt [0, 1] f.ofmt).2 .format g x f.ofmt s = { s with logs, bnd } :=
    ⟨_, _, slotFaultIf_eq ..⟩
  refine ⟨logs, bnd, ?_⟩
  have hany : arrs.any (fun a => (openGroup s a f.group).isSome) = true := List.any_eq_true.mpr hopen
  have hfull : convFull { s with logs, bnd } g f.alcove = false := by
    unfold convFull
    dsimp only
    rw [show conv { s with logs, bnd } g f.alcove = convIdle from hconv]
    rfl
  have hcollect : collectRows x.tag f.group arrs { s with logs, bnd } = _ := collectRows_good arrs hres
  unfold drainOn drainAfter
  dsimp only
  rw [hfault, List.append_nil]
  rw [if_neg (by rw [show arrs.any (fun a => (openGroup { s with logs, bnd } a f.group).isSome) = true from hany]; decide),
    if_neg (by rw [hfull]; simp), hcollect]
  rfl

theorem convPut_idle {j : DrainJob} (h : conv s j.gal j.alc = convIdle) :
    conv (convPut j s) j.gal j.alc = { cur := some { j with start := cyc s, next := 0 }, waiting := [] } := by
  have hset : ∀ (c : Conv) (t : Block), conv (setConv j.gal j.alc c t) j.gal j.alc = c := fun _ _ => mapGet_mapSet_same ..
  unfold convPut convStart
  dsimp only
  rw [h, hset]
  exact hset ..

end

/-- An MCLOSE closes the group in every array it names. -/
theorem openGroup_markClose {arrs : List Nat} {grp c arr : Nat} (ha : arr ∈ arrs) (s : Block) :
    openGroup (markClose arrs grp c s) arr grp = none := by
  have hset : ∀ a v (b : Block), v.closeAt = some c → openGroup (setLgroup a grp (some v) b) a grp = none := fun a v b hv => by
    unfold openGroup
    rw [lgroup_setLgroup_same]
    dsimp only
    rw [hv]
    rfl
  unfold markClose
  refine forEach_of_mem (P := fun a b => openGroup b a grp = none) (fun a b => ?_) (fun a a' b hne hb => ?_) ha s
  · split
    · exact hset _ _ _ rfl
    · assumption
  · split
    · rw [openGroup_congr (lgroup_setLgroup_ne _ _ _ _ hne.symm)]
      exact hb
    · exact hb

theorem lgroup_markClose {arrs : List Nat} {grp c arr : Nat} {v : Group} (ha : arr ∈ arrs) {s : Block}
    (h : openGroup s arr grp = some v) : lgroup (markClose arrs grp c s) arr grp = some { v with closeAt := some c } := by
  have hopen := openGroup_eq_some.mp h
  have hcases : lgroup (markClose arrs grp c s) arr grp = some v ∨
      lgroup (markClose arrs grp c s) arr grp = some { v with closeAt := some c } := by
    unfold markClose
    refine forEach_induction (P := fun b => lgroup b arr grp = some v ∨ lgroup b arr grp = some { v with closeAt := some c })
      (fun a _ b hb => ?_) (.inl hopen.1)
    by_cases hne : arr = a
    · subst hne
      obtain hb | hb := hb
      · rw [openGroup_eq_some.mpr ⟨hb, hopen.2⟩]
        exact .inr (lgroup_setLgroup_same ..)
      · refine .inr ?_
        have hnone : openGroup b arr grp = none := by
          unfold openGroup
          rw [hb]
          rfl
        rw [hnone]
        exact hb
    · split
      · rw [lgroup_setLgroup_ne _ _ _ _ hne]
        exact hb
      · exact hb
  refine hcases.resolve_left fun hv => ?_
  have hnone := openGroup_markClose (grp := grp) (c := c) ha s
  rw [openGroup_eq_some.mpr ⟨hv, hopen.2⟩] at hnone
  exact absurd hnone nofun

/-! ## The clear bit (R106) -/

/-- A group without its saturation mark. -/
def unsat (v : Group) : Group := { v with gsat := false }

/-- The same groups are open, saturation marks apart. -/
def SameGroups (grp : Nat) (s t : Block) : Prop := ∀ a, (openGroup t a grp).map unsat = (openGroup s a grp).map unsat

theorem slotUnit_lt {v : Group} {k : Nat} (hk : k < v.s) (hend : slotEnd v ≤ 64) : slotUnit v k < 64 := by
  unfold slotEnd slotUnit at hend
  unfold slotUnit
  split
  · next h =>
    rw [if_pos h] at hend
    omega
  · next h =>
    rw [if_neg h] at hend
    omega

theorem le_slotUnit (v : Group) (k : Nat) : k ≤ slotUnit v k := by
  unfold slotUnit
  split <;> omega

theorem slotUnit_inj {v : Group} {i j : Nat} (h : slotUnit v i = slotUnit v j) : i = j := by
  unfold slotUnit at h
  split at h <;> omega

section
variable {arr grp a : Nat} {s t u : Block} {v : Group}

theorem SameGroups.refl : SameGroups grp s s := fun _ => rfl

theorem SameGroups.slotEnd_le (h : SameGroups grp s t) (hv : openGroup t a grp = some v) {n : Nat}
    (hs : ∀ w, openGroup s a grp = some w → slotEnd w ≤ n) : slotEnd v ≤ n := by
  have := h a
  rw [hv] at this
  obtain ⟨w, hw, hunsat⟩ := Option.map_eq_some_iff.mp this.symm
  have hle := hs w hw
  rw [show slotEnd w = slotEnd (unsat w) from rfl, hunsat] at hle
  exact hle

theorem SameGroups.of_lgroup (h : SameGroups grp s t) (hne : ∀ a, a ≠ arr → lgroup u a grp = lgroup t a grp)
    (harr : (openGroup u arr grp).map unsat = (openGroup t arr grp).map unsat) : SameGroups grp s u := fun a => by
  by_cases ha : a = arr
  · rw [ha, harr, h arr]
  · rw [openGroup_congr (hne a ha), h a]

theorem lgroup_clearRows_ne (ha : a ≠ arr) (n : Nat) : lgroup (clearRows arr grp s) a n = lgroup s a n := by
  unfold clearRows
  split
  · rfl
  · rw [lgroup_setLgroup_ne _ _ _ _ ha]
    exact forEach_proj (f := fun i b => setLrow arr (slotUnit _ i) (lrowClear _) b) (lgroup · a n) (fun i _ b => rfl) s

theorem openGroup_clearRows (hv : openGroup s arr grp = some v) : openGroup (clearRows arr grp s) arr grp = some (unsat v) := by
  unfold clearRows
  rw [hv]
  exact openGroup_eq_some.mpr ⟨lgroup_setLgroup_same .., (openGroup_eq_some.mp hv).2⟩

theorem SameGroups.clearRows (h : SameGroups grp s t) (arr : Nat) : SameGroups grp s (clearRows arr grp t) := by
  refine h.of_lgroup (fun a ha => lgroup_clearRows_ne ha grp) ?_
  cases hv : openGroup t arr grp with
  | none =>
    unfold Machine.clearRows
    rw [hv]
    exact congrArg _ hv
  | some v => rw [openGroup_clearRows hv]; rfl

theorem lrow_clearRows_ne (ha : a ≠ arr) {w : Nat} (hw : w < 64) (hend : ∀ v, openGroup s arr grp = some v → slotEnd v ≤ 64) :
    lrow (clearRows arr grp s) a w = lrow s a w := by
  unfold clearRows
  split
  · rfl
  · next v hv =>
    rw [lrow_setLgroup]
    refine forEach_proj (lrow · a w) (fun i hi b => lrow_setLrow_ne _ _ _ _ ?_) s
    have := slotUnit_lt (List.mem_range.mp hi) (hend v hv)
    omega

theorem lrow_clearRows (hv : openGroup s arr grp = some v) {i : Nat} (hi : i < v.s) :
    lrow (clearRows arr grp s) arr (slotUnit v i) = lrowClear v.wide := by
  unfold clearRows
  rw [hv]
  dsimp only
  rw [lrow_setLgroup]
  refine forEach_of_mem (P := fun i b => lrow b arr (slotUnit v i) = lrowClear v.wide) (fun i b => lrow_setLrow_same ..)
    (fun i j b hne hb => ?_) (List.mem_range.mpr hi) s
  rw [lrow_setLrow_ne _ _ _ _ (fun h => hne (slotUnit_inj (v := v) (by omega)))]
  exact hb

/-- The clear of every array: its group stays open and its rows are clear. -/
theorem clearRows_all {arrs : List Nat} (ha : arr ∈ arrs) (hend : ∀ a ∈ arrs, ∀ v, openGroup s a grp = some v → slotEnd v ≤ 64)
    (hv : openGroup s arr grp = some v) :
    openGroup (forEach arrs (fun a b => clearRows a grp b) s) arr grp = some (unsat v) ∧
      ∀ i, i < v.s → lrow (forEach arrs (fun a b => clearRows a grp b) s) arr (slotUnit v i) = lrowClear v.wide := by
  have hgroup : ∀ t, SameGroups grp s t → ∃ w, openGroup t arr grp = some w ∧ unsat w = unsat v := fun t ht =>
    Option.map_eq_some_iff.mp ((ht arr).trans (congrArg _ hv))
  have hown : ∀ t, SameGroups grp s t → openGroup (clearRows arr grp t) arr grp = some (unsat v) ∧
      ∀ i, i < v.s → lrow (clearRows arr grp t) arr (slotUnit v i) = lrowClear v.wide := fun t ht => by
    obtain ⟨w, hw, hunsat⟩ := hgroup t ht
    refine ⟨(openGroup_clearRows hw).trans (congrArg some hunsat), fun i hi => ?_⟩
    have hs : (unsat w).s = (unsat v).s := congrArg Group.s hunsat
    have hunit : slotUnit (unsat w) i = slotUnit (unsat v) i := congrArg (slotUnit · i) hunsat
    have hwide : (unsat w).wide = (unsat v).wide := congrArg Group.wide hunsat
    change lrow _ arr (slotUnit (unsat v) i) = lrowClear (unsat v).wide
    rw [← hunit, ← hwide]
    exact lrow_clearRows hw (Nat.lt_of_lt_of_eq hi hs.symm)
  refine forEach_established (I := SameGroups grp s)
    (P := fun t => openGroup t arr grp = some (unsat v) ∧ ∀ i, i < v.s → lrow t arr (slotUnit v i) = lrowClear v.wide)
    ha (fun b _ t ht => ht.clearRows b) hown (fun b hb t ht hP => ?_) .refl
  by_cases hne : arr = b
  · exact hne ▸ hown t ht
  · refine ⟨(openGroup_congr (lgroup_clearRows_ne hne grp)).trans hP.1, fun i hi => ?_⟩
    rw [lrow_clearRows_ne hne (slotUnit_lt hi (hend arr ha v hv)) (fun w hw => ht.slotEnd_le hw (hend b hb))]
    exact hP.2 i hi

end

/-! ## MSHIFT (R107) -/

/-- The shift of one row of an open group. -/
def shiftRow (f : MshiftF) (ks : List (Int × Bool)) (arr : Nat) (v : Group) (i : Nat) (s : Block) : Block :=
  if i < v.s then
    let r := rowShift (nth ks i (0, false)).1 (lrow s arr (slotUnit v i))
    let s := setLrow arr (slotUnit v i) r s
    if rowSat r then
      match lgroup s arr f.group with
      | some g => setLgroup arr f.group (some { g with gsat := true }) s
      | none => s
    else s
  else s

section
variable {f : MshiftF} {ks : List (Int × Bool)} {arr a : Nat} {v : Group} {s t : Block}

theorem shiftOn_eq (hv : openGroup s arr f.group = some v) : shiftOn f ks arr s = forEach (shiftRows f) (shiftRow f ks arr v) s := by
  unfold shiftOn
  rw [hv]
  rfl

theorem lrow_shiftRow (a w i : Nat) : lrow (shiftRow f ks arr v i s) a w =
    if i < v.s then lrow (setLrow arr (slotUnit v i) (rowShift (nth ks i (0, false)).1 (lrow s arr (slotUnit v i))) s) a w
    else lrow s a w := by
  unfold shiftRow
  split
  · dsimp only
    split
    · split <;> rfl
    · rfl
  · rfl

theorem lgroup_shiftRow_ne (ha : a ≠ arr) (n i : Nat) : lgroup (shiftRow f ks arr v i s) a n = lgroup s a n := by
  unfold shiftRow
  split
  · dsimp only
    split
    · split
      · rw [lgroup_setLgroup_ne _ _ _ _ ha]
        rfl
      · rfl
    · rfl
  · rfl

theorem openGroup_shiftRow (i : Nat) :
    (openGroup (shiftRow f ks arr v i s) arr f.group).map unsat = (openGroup s arr f.group).map unsat := by
  unfold shiftRow
  split
  · dsimp only
    split
    · split
      · next g hg =>
        unfold openGroup
        rw [lgroup_setLgroup_same, show lgroup s arr f.group = some g from hg]
        dsimp only
        split <;> rfl
      · rfl
    · rfl
  · rfl

theorem lgroup_shiftOn_ne (ha : a ≠ arr) (n : Nat) : lgroup (shiftOn f ks arr s) a n = lgroup s a n := by
  cases hv : openGroup s arr f.group with
  | none =>
    unfold shiftOn
    rw [hv]
  | some v =>
    rw [shiftOn_eq hv]
    exact forEach_proj (lgroup · a n) (fun i _ b => lgroup_shiftRow_ne ha n i) s

theorem SameGroups.shiftOn (h : SameGroups f.group s t) (arr : Nat) : SameGroups f.group s (shiftOn f ks arr t) := by
  refine h.of_lgroup (fun a ha => lgroup_shiftOn_ne ha _) ?_
  cases hv : openGroup t arr f.group with
  | none =>
    unfold Machine.shiftOn
    rw [hv]
    exact congrArg _ hv
  | some v =>
    rw [shiftOn_eq hv, ← hv]
    exact forEach_proj (fun b => (openGroup b arr f.group).map unsat) (fun i _ b => openGroup_shiftRow i) t

theorem lrow_shiftOn_ne (ha : a ≠ arr) {w : Nat} (hw : w < 64) (hend : ∀ v, openGroup s arr f.group = some v → slotEnd v ≤ 64) :
    lrow (shiftOn f ks arr s) a w = lrow s a w := by
  cases hv : openGroup s arr f.group with
  | none =>
    unfold shiftOn
    rw [hv]
  | some v =>
    rw [shiftOn_eq hv]
    refine forEach_proj (lrow · a w) (fun i _ b => ?_) s
    rw [lrow_shiftRow]
    split
    · next hi =>
      have := slotUnit_lt hi (hend v hv)
      rw [lrow_setLrow_ne _ _ _ _ (by omega)]
    · rfl

theorem mem_shiftRows {i : Nat} : i ∈ shiftRows f ↔ f.row0 % 64 ≤ i ∧ i ≤ f.row0 % 64 + f.nrows % 64 := by
  unfold shiftRows
  simp only [List.mem_map, List.mem_range]
  constructor
  · rintro ⟨k, hk, rfl⟩
    omega
  · exact fun h => ⟨i - f.row0 % 64, by omega, by omega⟩

theorem nodup_shiftRows : (shiftRows f).Nodup := 
  List.pairwise_map.mpr (List.Pairwise.imp (fun h e => h (Nat.add_right_cancel e)) List.nodup_range)

/-- What an MSHIFT makes of a row of an open group. -/
theorem lrow_shiftOn (hv : openGroup s arr f.group = some v) {i : Nat} (hi : i < v.s) :
    lrow (shiftOn f ks arr s) arr (slotUnit v i) =
      if i ∈ shiftRows f then rowShift (nth ks i (0, false)).1 (lrow s arr (slotUnit v i)) else lrow s arr (slotUnit v i) := by
  have hother : ∀ j, j ≠ i → ∀ b, lrow (shiftRow f ks arr v j b) arr (slotUnit v i) = lrow b arr (slotUnit v i) := fun j hj b => by
    rw [lrow_shiftRow]
    split
    · rw [lrow_setLrow_ne _ _ _ _ (fun h => hj (slotUnit_inj (v := v) (by omega)))]
    · rfl
  rw [shiftOn_eq hv]
  split
  · next hmem =>
    obtain ⟨t, -, hrow, hlast⟩ := forEach_at (f := shiftRow f ks arr v) (I := fun _ => True) (lrow · arr (slotUnit v i))
      nodup_shiftRows hmem (fun _ _ _ _ => trivial) (fun j _ hj b _ => hother j hj b) (s := s) trivial
    rw [hlast, lrow_shiftRow, if_pos hi, lrow_setLrow_same, hrow]
  · next hmem => exact forEach_proj (lrow · arr (slotUnit v i)) (fun j hj b => hother j (fun e => hmem (e ▸ hj)) b) s

/-- What an MSHIFT of several different arrays makes of a row of an open group. -/
theorem lrow_shiftOn_all {arrs : List Nat} (hnodup : arrs.Nodup) (ha : arr ∈ arrs)
    (hend : ∀ a ∈ arrs, ∀ v, openGroup s a f.group = some v → slotEnd v ≤ 64) (hv : openGroup s arr f.group = some v)
    {i : Nat} (hi : i < v.s) :
    lrow (forEach arrs (shiftOn f ks) s) arr (slotUnit v i) =
      if i ∈ shiftRows f then rowShift (nth ks i (0, false)).1 (lrow s arr (slotUnit v i)) else lrow s arr (slotUnit v i) := by
  obtain ⟨t, -, hkeep, hlast⟩ := forEach_at (f := shiftOn f ks) (I := SameGroups f.group s)
    (fun b => (lrow b arr (slotUnit v i), lgroup b arr f.group)) hnodup ha (fun b _ t ht => ht.shiftOn b)
    (fun b hb hne t ht => by
      rw [lrow_shiftOn_ne hne.symm (slotUnit_lt hi (hend arr ha v hv)) (fun w hw => ht.slotEnd_le hw (hend b hb)),
        lgroup_shiftOn_ne hne.symm])
    .refl
  obtain ⟨hrow, hgroup⟩ := Prod.ext_iff.mp hkeep
  have hrow : lrow t arr (slotUnit v i) = lrow s arr (slotUnit v i) := hrow
  refine (Prod.ext_iff.mp hlast).1.trans ?_
  dsimp only
  rw [lrow_shiftOn ((openGroup_congr hgroup).trans hv) hi, hrow]

end

theorem rowShift_empty {k : Int} {r : LRow} (h : r.empty = true) : rowShift k r = r := by
  unfold rowShift
  rw [if_pos h]

/-- A shift that keeps the anchor in its range adds to it and leaves the elements (R107). -/
theorem rowShift_in_range {k : Int} {r : LRow} (h : r.empty = false) (hlo : -1023 ≤ k) (hhi : k ≤ 1023)
    (halo : -512 ≤ r.anchor + k) (hahi : r.anchor + k ≤ 511) : rowShift k r = { r with anchor := r.anchor + k } := by
  have hclamp : clampI (-1023) 1023 k = k := by
    unfold clampI
    rw [if_neg (by omega), if_neg (by omega)]
  unfold rowShift
  dsimp only
  rw [if_neg (by rw [h]; simp), hclamp, if_neg (by omega), if_neg (by omega)]

end Sys2Proof.Machine
end

section
/-! SUPPORT. O16: the operations of the landings. -/

namespace Sys2Proof.Machine

theorem slotArrays_unpaired {s : Block} (h : s.gals.alcPair = false) (x : SlotCtx) (g alc first count : Nat) :
    slotArrays s x g alc first count = namedArrays s x.gal g alc first count := by
  unfold slotArrays pairAlcove
  rw [h]
  exact List.append_nil _

/-- A shift's amounts (R107). -/
theorem nth_shiftKs {f : MshiftF} {g : Nat} {s : Block} {k : Nat → Int}
    (h : (f.ksrc % 128 = 0x7F ∧ ∀ i, k i = signed 11 f.kimm) ∨
      (f.ksrc % 128 < 64 ∧ ∀ i, i < 64 → ∃ e : TElem, (treg s g (f.ksrc % 128))[i]? = some e ∧ e.poison = false ∧
        k i = signed 32 e.bits.toNat)) :
    ∃ ks, shiftKs f g s = some ks ∧ ∀ i, i < 64 → (nth ks i (0, false)).1 = k i := by
  unfold shiftKs
  dsimp only
  obtain ⟨hsrc, hk⟩ | ⟨hsrc, hk⟩ := h
  · rw [if_pos hsrc]
    refine ⟨_, rfl, fun i hi => ?_⟩
    unfold nth
    rw [hk i, List.getD_eq_getElem?_getD, List.getElem?_replicate, if_pos hi, Option.getD_some]
  · rw [if_neg (by omega), if_neg (by omega)]
    refine ⟨_, rfl, fun i hi => ?_⟩
    obtain ⟨e, hget, hpoison, hval⟩ := hk i hi
    unfold nth
    rw [List.getD_eq_getElem?_getD, List.getElem?_map, List.getElem?_take_of_lt hi, hget, hval]
    simp only [Option.map_some, Option.getD_some, hpoison]
    rfl

section
variable {h : HeldOp} {s t : Block}

/-- Where nothing is on its way the landing performs an operation in the cycle of its hand-over (R108). -/
theorem HandedOver.releaseOps (hand : HandedOver h s t) (hheld : s.arr.held = []) (hcontribs : s.arr.contribs = []) :
    releaseOps t = { performOp h t with arr := { (performOp h t).arr with held := [] } } := by
  obtain ⟨logs, bnd, rfl⟩ := hand.eq
  refine releaseOps_alone ?_ hcontribs
  dsimp only
  rw [hheld]
  rfl

theorem HandedOver.lrow (hand : HandedOver h s t) (a w : Nat) : lrow t a w = lrow s a w := by
  obtain ⟨logs, bnd, rfl⟩ := hand.eq
  rfl

theorem HandedOver.lgroup (hand : HandedOver h s t) (a n : Nat) : lgroup t a n = lgroup s a n := by
  obtain ⟨logs, bnd, rfl⟩ := hand.eq
  rfl

theorem HandedOver.openGroup (hand : HandedOver h s t) (a n : Nat) : openGroup t a n = openGroup s a n :=
  openGroup_congr (hand.lgroup a n)

theorem HandedOver.conv (hand : HandedOver h s t) (g q : Nat) : conv t g q = conv s g q := by
  obtain ⟨logs, bnd, rfl⟩ := hand.eq
  rfl

theorem HandedOver.cyc (hand : HandedOver h s t) : cyc t = cyc s := by
  obtain ⟨logs, bnd, rfl⟩ := hand.eq
  rfl

end

/-- Every operation of the landing is handed over (R108). -/
theorem landingSlot_handedOver {i : Instr} {x : SlotCtx} {s : State} {g : Nat} {arrs : List Nat} (hr : reaches s.toBlock x g)
    (h : (∃ f, i = .mopen x f ∧ arrs = slotArrays s.toBlock x g (f.alcove % 8) f.first f.count) ∨
      (∃ f, (i = .mclose x f ∨ i = .mdrain x f) ∧ arrs = slotArrays s.toBlock x g (f.alcove % 8) f.first f.count) ∨
      (∃ f, i = .mshift x f ∧ (f.ksrc % 128 = 0x7F ∨ f.ksrc % 128 < 64) ∧
        arrs = slotArrays s.toBlock x g (f.alcove % 8) f.first f.count)) :
    ∃ t alc first count ks, exec i s = .next { s with toBlock := t } ∧
      HandedOver (landOpOf i x g alc first count ks s.toBlock) s.toBlock t ∧
      arrs = slotArrays s.toBlock x g (alc % 8) first count := by
  obtain ⟨f, rfl, ha⟩ | ⟨f, rfl | rfl, ha⟩ | ⟨f, rfl, hsrc, ha⟩ := h
  · obtain ⟨t, he, hh⟩ := exec_mopen hr f
    exact ⟨t, _, _, _, _, he, hh, ha⟩
  · obtain ⟨t, he, hh⟩ := exec_mclose hr f
    exact ⟨t, _, _, _, _, he, hh, ha⟩
  · obtain ⟨t, he, hh⟩ := exec_mdrain hr f
    exact ⟨t, _, _, _, _, he, hh, ha⟩
  · obtain ⟨ks, hks⟩ : ∃ ks, shiftKs f g s.toBlock = some ks := by
      unfold shiftKs
      dsimp only
      obtain hsrc | hsrc := hsrc
      · exact ⟨_, if_pos hsrc⟩
      · rw [if_neg (by omega), if_neg (by omega)]
        exact ⟨_, rfl⟩
    obtain ⟨t, he, hh⟩ := exec_mshift hr f hks
    exact ⟨t, _, _, _, _, he, hh, ha⟩

theorem vec_drainAfter (f : DrainF) (isClose : Bool) (issue : Nat) (arrs : List Nat) (s : Block) :
    (drainAfter f isClose issue arrs s).vec = s.vec := by
  unfold drainAfter
  split
  · unfold markClose
    refine forEach_proj Block.vec (fun a _ b => ?_) s
    split <;> rfl
  · split
    · refine forEach_proj Block.vec (fun a _ b => ?_) s
      unfold clearRows
      split
      · rfl
      · exact forEach_proj (f := fun i b => setLrow a (slotUnit _ i) (lrowClear _) b) Block.vec (fun i _ b => rfl) b
    · rfl

section
variable {x : SlotCtx} {s : State} {g : Nat} (hr : reaches s.toBlock x g) (hcontribs : s.arr.contribs = [])
  (hheld : s.arr.held = []) (hpair : s.gals.alcPair = false)

/-- A drain has started in the converter of its alcove (R168). -/
def DrainStarted (s : Block) (x : SlotCtx) (g : Nat) (f : DrainF) (b : Block) : Prop :=
  ∃ j, (conv b g f.alcove).cur = some j ∧ j.f = f ∧ j.order = s.vec.issueOrder ∧ j.start = cyc s ∧ j.next = 0 ∧
    j.rows = (namedArrays s x.gal g (f.alcove % 8) f.first f.count).flatMap
      (fun arr => (openGroup s arr f.group).elim [] (drainRows s arr))

section
variable {f : DrainF}
  (hopen : ∃ arr ∈ namedArrays s.toBlock x.gal g (f.alcove % 8) f.first f.count, (openGroup s.toBlock arr f.group).isSome = true)
  (hconv : conv s.toBlock g f.alcove = convIdle)
  (hres : ∀ arr ∈ namedArrays s.toBlock x.gal g (f.alcove % 8) f.first f.count, ∀ v, openGroup s.toBlock arr f.group = some v →
    slotEnd v ≤ 64 ∧ ∀ k, k < v.s → residueBad (lrow s.toBlock arr (slotUnit v k)) = [])
include hcontribs hheld hpair hopen hconv hres

/-- The landing performs an undisturbed close or drain: the drain's job starts, then the groups are closed or cleared. -/
theorem releaseOps_drain {i : Instr} {isClose : Bool} {t : Block} (hi : i = if isClose then .mclose x f else .mdrain x f)
    (hand : HandedOver (landOpOf i x g f.alcove f.first f.count [] s.toBlock) s.toBlock t) :
    ∃ b, releaseOps t = { b with arr := { b.arr with held := [] } } ∧ DrainStarted s.toBlock x g f b ∧
      ∃ u, u.arr = t.arr ∧
        b = drainAfter f isClose (cyc s.toBlock) (namedArrays s.toBlock x.gal g (f.alcove % 8) f.first f.count) u := by
  have harrays : (landOpOf i x g f.alcove f.first f.count [] s.toBlock).arrays =
      namedArrays s.toBlock x.gal g (f.alcove % 8) f.first f.count := slotArrays_unpaired hpair ..
  have hop : opArrays (landOpOf i x g f.alcove f.first f.count [] s.toBlock) =
      (namedArrays s.toBlock x.gal g (f.alcove % 8) f.first f.count, []) := by
    unfold opArrays
    rw [harrays, if_neg]
    unfold landOpOf pairAlcove
    rw [hpair]
    simp
  have hperform : performOp (landOpOf i x g f.alcove f.first f.count [] s.toBlock) t =
      drainOn x f isClose g (cyc s.toBlock) s.vec.issueOrder (namedArrays s.toBlock x.gal g (f.alcove % 8) f.first f.count) [] t := by
    unfold performOp
    rw [hop]
    subst hi
    cases isClose <;> rfl
  have hopens : (fun arr => openGroup t arr f.group) = fun arr => openGroup s.toBlock arr f.group :=
    funext fun arr => hand.openGroup arr f.group
  have hrows : ∀ arr v, drainRows t arr v = drainRows s.toBlock arr v := fun arr v => by
    unfold drainRows
    simp only [hand.lrow]
  obtain ⟨logs, bnd, hdrain⟩ := drainOn_good (x := x) (f := f) (isClose := isClose) (g := g) (issue := cyc s.toBlock)
    (order := s.vec.issueOrder) (s := t)
    (arrs := namedArrays s.toBlock x.gal g (f.alcove % 8) f.first f.count)
    (by simpa only [hand.openGroup] using hopen) ((hand.conv g f.alcove).trans hconv)
    (fun arr ha v hv k hk => by
      rw [hand.lrow]
      exact (hres arr ha v (hand.openGroup arr f.group ▸ hv)).2 k hk)
  have hjobrows : (namedArrays s.toBlock x.gal g (f.alcove % 8) f.first f.count).flatMap
      (fun arr => (openGroup t arr f.group).elim [] (drainRows t arr)) =
      (namedArrays s.toBlock x.gal g (f.alcove % 8) f.first f.count).flatMap
        (fun arr => (openGroup s.toBlock arr f.group).elim [] (drainRows s.toBlock arr)) := by
    simp only [hand.openGroup, show drainRows t = drainRows s.toBlock from funext fun arr => funext (hrows arr)]
  rw [hjobrows] at hdrain
  refine ⟨_, (hand.releaseOps hheld hcontribs).trans (by rw [hperform]), ?_, ?_⟩
  · rw [hdrain]
    refine ⟨{ drainJob x f isClose g s.vec.issueOrder _ with start := cyc t, next := 0 }, ?_, rfl, rfl, hand.cyc, rfl, rfl⟩
    unfold conv
    rw [vec_drainAfter]
    have hidle : conv { t with logs, bnd } g f.alcove = convIdle := (hand.conv g f.alcove).trans hconv
    exact congrArg Conv.cur (convPut_idle (j := drainJob x f isClose g s.vec.issueOrder _) hidle)
  · rw [hdrain]
    exact ⟨_, arr_convPut _ { t with logs, bnd }, rfl⟩

end

section
variable {f : MshiftF} {k : Nat → Int}
  (hk : (f.ksrc % 128 = 0x7F ∧ ∀ i, k i = signed 11 f.kimm) ∨
    (f.ksrc % 128 < 64 ∧ ∀ i, i < 64 → ∃ e : TElem, (treg s.toBlock g (f.ksrc % 128))[i]? = some e ∧ e.poison = false ∧
      k i = signed 32 e.bits.toNat))
  (hnodup : (namedArrays s.toBlock x.gal g (f.alcove % 8) f.first f.count).Nodup)
  (hend : ∀ arr ∈ namedArrays s.toBlock x.gal g (f.alcove % 8) f.first f.count, ∀ v,
    openGroup s.toBlock arr f.group = some v → slotEnd v ≤ 64)
include hr hcontribs hheld hpair hk hnodup hend

/-- What an MSHIFT makes of the rows, in the cycle of its hand-over. -/
theorem releaseOps_mshift : ∃ t, exec (.mshift x f) s = .next { s with toBlock := t } ∧ (releaseOps t).arr.held = [] ∧
    ∀ arr ∈ namedArrays s.toBlock x.gal g (f.alcove % 8) f.first f.count, ∀ v, openGroup s.toBlock arr f.group = some v →
      ∀ i, i < v.s → lrow (releaseOps t) arr (slotUnit v i) =
        if i ∈ shiftRows f then rowShift (k i) (lrow s.toBlock arr (slotUnit v i)) else lrow s.toBlock arr (slotUnit v i) := by
  obtain ⟨ks, hks, hval⟩ := nth_shiftKs hk
  obtain ⟨t, he, hand⟩ := exec_mshift hr f hks
  refine ⟨t, he, by rw [hand.releaseOps hheld hcontribs], fun arr ha v hv i hi => ?_⟩
  rw [hand.releaseOps hheld hcontribs]
  have harrays : (landOpOf (.mshift x f) x g f.alcove f.first f.count ks s.toBlock).arrays =
      namedArrays s.toBlock x.gal g (f.alcove % 8) f.first f.count := slotArrays_unpaired hpair ..
  obtain ⟨u, hu, hperform⟩ : ∃ u, u.arr = t.arr ∧ performOp (landOpOf (.mshift x f) x g f.alcove f.first f.count ks s.toBlock) t =
      forEach (namedArrays s.toBlock x.gal g (f.alcove % 8) f.first f.count) (shiftOn f ks) u := by
    rw [← harrays]
    refine ⟨_, ?_, rfl⟩
    split
    · exact arr_consume ..
    · rfl
  rw [hperform]
  have hrow : ∀ a w, lrow u a w = lrow s.toBlock a w := fun a w => by
    unfold lrow
    rw [hu]
    exact hand.lrow a w
  have hgroup : ∀ a n, openGroup u a n = openGroup s.toBlock a n := fun a n => openGroup_congr (by
    unfold lgroup
    rw [hu]
    exact hand.lgroup a n)
  rw [← hgroup] at hv
  have hlt : i < 64 := Nat.lt_of_le_of_lt (le_slotUnit v i) (slotUnit_lt hi (hend arr ha v (hgroup arr _ ▸ hv)))
  refine (lrow_shiftOn_all hnodup ha (fun a ha v hv => hend a ha v (hgroup a _ ▸ hv)) hv hi).trans ?_
  rw [hrow, hval i hlt]

end

end

/-- Settles O16: every operation is handed over with its arrays, stays held behind what is on its way, and otherwise acts in
its cycle: a close or drain hands one job to the converter, a shift adds to the anchors of its rows. -/
theorem landingOperationsActOrWait : Obligations.LandingOperationsActOrWait := by
  unfold Obligations.LandingOperationsActOrWait
  refine ⟨fun i x s g arrs hr hi => ?_, fun x s g hr hcontribs hheld hpair => ⟨?_, ?_⟩, fun x f s g hr hlo hhi => ?_⟩
  · obtain ⟨t, alc, first, count, ks, he, hand, ha⟩ := landingSlot_handedOver hr hi
    refine ⟨_, he, rfl, landOpOf i x g alc first count ks s.toBlock, ?_, rfl, rfl, ha.symm, rfl, rfl, ?_, ?_, ?_, fun hwait => ?_⟩
    · obtain ⟨logs, bnd, rfl⟩ := hand.eq
      rfl
    · obtain ⟨logs, bnd, rfl⟩ := hand.eq
      rfl
    · obtain ⟨logs, bnd, rfl⟩ := hand.eq
      rfl
    · obtain ⟨logs, bnd, rfl⟩ := hand.eq
      rfl
    · rw [ha] at hwait
      exact hand.mem_held rfl hwait
  · dsimp only
    intro f hopen hconv hres
    have hends : ∀ a ∈ namedArrays s.toBlock x.gal g (f.alcove % 8) f.first f.count, ∀ v,
        openGroup s.toBlock a f.group = some v → slotEnd v ≤ 64 := fun a ha v hv => (hres a ha v hv).1
    constructor
    · obtain ⟨t, he, hand⟩ := exec_mclose hr f
      obtain ⟨b, hb, hstarted, u, hu, hafter⟩ := releaseOps_drain (isClose := true) hcontribs hheld hpair hopen hconv hres rfl hand
      have hgroup : ∀ a n, lgroup u a n = lgroup s.toBlock a n := fun a n => by
        unfold lgroup
        rw [hu]
        exact hand.lgroup a n
      refine ⟨_, he, rfl, by rw [hb], by rw [hb]; exact hstarted, fun arr ha => ?_⟩
      rw [hb, hafter]
      refine ⟨openGroup_markClose ha u, fun v hv => lgroup_markClose ha ?_⟩
      rw [openGroup_congr (hgroup arr _)]
      exact hv
    · obtain ⟨t, he, hand⟩ := exec_mdrain hr f
      obtain ⟨b, hb, hstarted, u, hu, hafter⟩ := releaseOps_drain (isClose := false) hcontribs hheld hpair hopen hconv hres rfl hand
      have hrow : ∀ a w, lrow u a w = lrow s.toBlock a w := fun a w => by
        unfold lrow
        rw [hu]
        exact hand.lrow a w
      have hgroup : ∀ a n, openGroup u a n = openGroup s.toBlock a n := fun a n => openGroup_congr (by
        unfold lgroup
        rw [hu]
        exact hand.lgroup a n)
      refine ⟨_, he, rfl, by rw [hb], by rw [hb]; exact hstarted, fun arr ha v hv => ⟨fun hclear => ?_, fun hclear => ?_⟩⟩
      · have hkeep : b = u := by
          rw [hafter]
          unfold drainAfter
          rw [if_neg (by simp), if_neg (by rw [hclear]; decide)]
        rw [hb, hkeep]
        exact ⟨(hgroup arr _).symm, fun k _ => hrow ..⟩
      · have hcleared : b = forEach (namedArrays s.toBlock x.gal g (f.alcove % 8) f.first f.count)
            (fun a b => clearRows a f.group b) u := by
          rw [hafter]
          unfold drainAfter
          rw [if_neg (by simp), if_pos (by rw [hclear]; decide)]
        rw [hb, hcleared]
        exact clearRows_all ha (fun a ha v hv => hends a ha v (hgroup a _ ▸ hv)) ((hgroup arr _).trans hv)
  · dsimp only
    intro f k hk hnodup hend
    obtain ⟨t, he, hheld', hrows⟩ := releaseOps_mshift hr hcontribs hheld hpair hk hnodup hend
    refine ⟨_, he, rfl, hheld', fun arr ha v hv i hi => ⟨fun hlo hhi hempty hklo hkhi halo hahi => ?_, fun hout => ?_⟩⟩
    · rw [hrows arr ha v hv i hi, if_pos (mem_shiftRows.mpr ⟨hlo, hhi⟩), rowShift_in_range hempty hklo hkhi halo hahi]
    · rw [hrows arr ha v hv i hi]
      split
      · next hmem =>
        obtain ⟨hlo, hhi⟩ := mem_shiftRows.mp hmem
        exact rowShift_empty (hout.elim (fun h => absurd h (by omega)) (fun h => h.elim (fun h => absurd h (by omega)) id))
      · rfl
  · refine effect_of_eq (f := doMshift x f) ((withSlot_runs hr.1 hr.2.1 hr.2.2).trans ?_)
    have hnone : shiftKs f g s.toBlock = none := by
      unfold shiftKs
      dsimp only
      rw [if_neg (by omega), if_pos hlo]
    rw [hnone]
    rfl

end Sys2Proof.Machine
end

section
/-! SUPPORT. O15: loads, streams and groups start. -/

namespace Sys2Proof.Machine

/-! ## Loads (R66 to R68) -/

section
variable {arr : Nat} {p : LoadParam} {s : Block}

theorem wbuf_setWbuf_same {b : Nat} {w : WBuf} : wbuf (setWbuf arr b w s) arr b = w := mapGet_mapSet_same ..

/-- A load takes the weight port and clears the buffer that is not active. -/
theorem startLoad_starts : ∃ j, portJob (startLoad arr p s) arr = some j ∧ j.start = cyc s ∧ j.buf = 1 - activeBuf s arr ∧
    j.words = [] ∧ j.scaleBytes = [] ∧ j.par = p ∧ (wbuf (startLoad arr p s) arr j.buf).complete = false := by
  unfold startLoad
  dsimp only
  refine ⟨_, mapGet_mapSet_same .., ?_, rfl, rfl, rfl, rfl, congrArg WBuf.complete wbuf_setWbuf_same⟩
  cases portJob s arr <;> rfl

theorem active_startLoad : (startLoad arr p s).arr.active = s.arr.active := by
  unfold startLoad
  dsimp only
  split <;> rfl

theorem cyc_startLoad : cyc (startLoad arr p s) = cyc s := by
  unfold startLoad
  dsimp only
  split <;> rfl

theorem portJob_startLoad_ne {a : Nat} (h : a ≠ arr) : portJob (startLoad arr p s) a = portJob s a := by
  unfold startLoad
  dsimp only
  refine (mapGet_mapSet_ne _ _ _ _ _ h).trans ?_
  cases portJob s arr <;> rfl

theorem wbuf_startLoad_ne {a : Nat} (h : a ≠ arr) (b : Nat) : wbuf (startLoad arr p s) a b = wbuf s a b := by
  have hset : ∀ c w (t : Block), wbuf (setWbuf arr c w t) a b = wbuf t a b := fun c w t => mapGet_mapSet_ne _ _ _ _ _ (by omega)
  unfold startLoad
  dsimp only
  refine (hset _ _ _).trans ?_
  split
  · exact hset ..
  · rfl

end

/-- The parameters of the load of the n-th array. -/
def loadParam (x : SlotCtx) (f : MloadF) (n : Nat) : LoadParam :=
  { fmt := (elemFmt f.fmt).1, width := f.width % 16, lvl := f.lvl % 256
    src := f.src + x.moff + n * f.arrStride, scaleSrc := f.scaleSrc + x.moff + n * f.arrStride }

/-- The start of one array's load. -/
def loadArr (x : SlotCtx) (f : MloadF) (e : Nat × Nat) (s : Block) : Block := startLoad e.1 (loadParam x f e.2) s

/-- What an array's port and buffers show. -/
def portView (arr : Nat) (s : Block) : Option LoadJob × (Nat → WBuf) × Nat × Nat :=
  (portJob s arr, wbuf s arr, activeBuf s arr, cyc s)

theorem nodup_of_fst {l : List (Nat × Nat)} (h : (l.map Prod.fst).Nodup) : l.Nodup :=
  List.Pairwise.imp (fun hne e => hne (congrArg Prod.fst e)) (List.pairwise_map.mp h)

theorem eq_of_fst_eq {l : List (Nat × Nat)} (h : (l.map Prod.fst).Nodup) {a b : Nat × Nat} (ha : a ∈ l) (hb : b ∈ l)
    (heq : a.1 = b.1) : a = b := by
  induction l with
  | nil => exact absurd ha List.not_mem_nil
  | cons c l ih =>
    obtain ⟨hc, hl⟩ := List.nodup_cons.mp h
    obtain rfl | hal := List.mem_cons.mp ha
    · obtain rfl | hbl := List.mem_cons.mp hb
      · rfl
      · exact absurd (by rw [heq]; exact List.mem_map_of_mem hbl) hc
    · obtain rfl | hbl := List.mem_cons.mp hb
      · exact absurd (by rw [← heq]; exact List.mem_map_of_mem hal) hc
      · exact ih hl hal hbl

/-- Different arrays that are loaded in turn each start their load. -/
theorem loads_start {x : SlotCtx} {f : MloadF} {l : List (Nat × Nat)} (hl : (l.map Prod.fst).Nodup) {arr n : Nat}
    (hmem : (arr, n) ∈ l) (s : Block) :
    ∃ j, portJob (forEach l (loadArr x f) s) arr = some j ∧ j.start = cyc s ∧ j.buf = 1 - activeBuf s arr ∧ j.words = [] ∧
      j.scaleBytes = [] ∧ j.par = loadParam x f n ∧ (wbuf (forEach l (loadArr x f) s) arr j.buf).complete = false ∧
      activeBuf (forEach l (loadArr x f) s) arr = activeBuf s arr := by
  obtain ⟨t, -, hkeep, hlast⟩ := forEach_at (f := loadArr x f) (I := fun _ => True) (portView arr) (nodup_of_fst hl)
    hmem (fun _ _ _ _ => trivial) (fun b hb hne t _ => by
      have harr : arr ≠ b.1 := fun e => hne (eq_of_fst_eq hl hb hmem e.symm)
      unfold portView loadArr activeBuf
      rw [portJob_startLoad_ne harr, active_startLoad, cyc_startLoad,
        show wbuf (startLoad b.1 (loadParam x f b.2) t) arr = wbuf t arr from funext fun c => wbuf_startLoad_ne harr c])
    (s := s) trivial
  unfold portView at hkeep hlast
  simp only [Prod.mk.injEq] at hkeep hlast
  obtain ⟨-, -, hactive, hcyc⟩ := hkeep
  obtain ⟨hport, hwbuf, hactive', -⟩ := hlast
  obtain ⟨j, hj, hstart, hbuf, hwords, hscale, hpar, hcomplete⟩ := startLoad_starts (arr := arr) (p := loadParam x f n) (s := t)
  refine ⟨j, hport.trans hj, hstart.trans hcyc, hbuf.trans (by rw [hactive]), hwords, hscale, hpar, ?_, ?_⟩
  · rw [hwbuf]
    exact hcomplete
  · rw [hactive']
    unfold activeBuf loadArr
    rw [active_startLoad]
    exact hactive

theorem loadOn_eq (x : SlotCtx) (f : MloadF) (g alc : Nat) (s : Block) :
    loadOn x f g alc s = forEach (namedArrays s x.gal g alc f.first f.count).zipIdx (loadArr x f) s := rfl

theorem mem_zipIdx_of_getElem? {l : List Nat} {n a : Nat} (h : l[n]? = some a) : (a, n) ∈ l.zipIdx :=
  List.mk_mem_zipIdx_iff_getElem?.mpr h

theorem fst_zipIdx (l : List Nat) : l.zipIdx.map Prod.fst = l := by simp

/-- What changes neither the binding of arrays nor the pairing names the same arrays. -/
theorem namedArrays_congr {s t : Block} (h : t.bind = s.bind) (lg g alc first count : Nat) :
    namedArrays t lg g alc first count = namedArrays s lg g alc first count := by
  unfold namedArrays arrOf
  rw [h]

section
variable {x : SlotCtx} {g : Nat} {s : Block}

theorem bind_loads (f : MloadF) (l : List (Nat × Nat)) : (forEach l (loadArr x f) s).bind = s.bind := by
  refine forEach_proj Block.bind (fun e _ t => ?_) s
  unfold loadArr startLoad
  dsimp only
  split <;> rfl

theorem pairAlcove_congr {t : Block} (h : t.gals = s.gals) (alc : Nat) : pairAlcove t x alc = pairAlcove s x alc := by
  unfold pairAlcove
  rw [h]

theorem gals_loads (f : MloadF) (l : List (Nat × Nat)) : (forEach l (loadArr x f) s).gals = s.gals := by
  refine forEach_proj Block.gals (fun e _ t => ?_) s
  unfold loadArr startLoad
  dsimp only
  split <;> rfl

end

/-- The arrays of an MLOAD.W with their numbers within their alcove. -/
def loadList (s : Block) (x : SlotCtx) (f : MloadF) (g : Nat) : List (Nat × Nat) :=
  (namedArrays s x.gal g (f.alcove % 8) f.first f.count).zipIdx ++
    (if pairAlcove s x (f.alcove % 8) then (namedArrays s x.gal g (f.alcove % 8 + 1) f.first f.count).zipIdx else [])

theorem loadList_arrays (s : Block) (x : SlotCtx) (f : MloadF) (g : Nat) :
    (loadList s x f g).map Prod.fst = slotArrays s x g (f.alcove % 8) f.first f.count := by
  unfold loadList slotArrays
  rw [List.map_append, fst_zipIdx]
  split
  · rw [fst_zipIdx]
  · rfl

/-- An MLOAD.W starts the loads of its arrays in turn. -/
theorem exec_mloadW {x : SlotCtx} {s : State} {g : Nat} (h : reaches s.toBlock x g) (f : MloadF) :
    ∃ logs bnd, exec (.mloadW x f) s =
      .next { s with toBlock := forEach (loadList s.toBlock x f g) (loadArr x f) { s.toBlock with logs, bnd } } := by
  obtain ⟨logs, bnd, hfault⟩ : ∃ logs bnd, slotFaultIf (elemFmt f.fmt).2 .format g x f.fmt (rangeFault g x f.first f.count s.toBlock)
      = { s.toBlock with logs, bnd } := by
    unfold rangeFault
    rw [slotFaultIf_eq (decide _), slotFaultIf_eq]
    exact ⟨_, _, rfl⟩
  refine ⟨logs, bnd, effect_of_eq (f := doMloadW x f) ((withSlot_runs h.1 h.2.1 h.2.2).trans ?_)⟩
  dsimp only
  rw [hfault, loadOn_eq]
  unfold loadList
  rw [pairAlcove_congr (gals_loads f _), forEach_append,
    namedArrays_congr (s := s.toBlock) (t := { s.toBlock with logs, bnd }) rfl,
    pairAlcove_congr (s := s.toBlock) (t := { s.toBlock with logs, bnd }) rfl]
  split
  · rw [loadOn_eq, namedArrays_congr (bind_loads f _), namedArrays_congr (s := s.toBlock) (t := { s.toBlock with logs, bnd }) rfl]
  · rfl

/-! ## Streams (R70, R71, R74) -/

/-- What the start of a stream's pass keeps, buffers apart. -/
def streamView (s : Block) := (s.prog, s.bind, s.clk, s.arr.streams, s.arr.streamCount, s.gals.alcPair)

section
variable {s : Block}

theorem streamView_slotFaultIf (b : Bool) (k : LogKind) (g : Nat) (x : SlotCtx) (d : Nat) :
    streamView (slotFaultIf b k g x d s) = streamView s := by rw [slotFaultIf_eq]; rfl

theorem active_slotFaultIf (b : Bool) (k : LogKind) (g : Nat) (x : SlotCtx) (d : Nat) :
    (slotFaultIf b k g x d s).arr.active = s.arr.active := by rw [slotFaultIf_eq]

theorem countTile_keeps (t : Stream) (arr : Nat) :
    streamView (countTile t arr s) = streamView s ∧ (countTile t arr s).arr.active = s.arr.active := by
  unfold countTile
  dsimp only
  split
  · unfold countIgnored
    split
    · exact ⟨rfl, rfl⟩
    · dsimp only
      split
      · exact ⟨rfl, rfl⟩
      · unfold countCset
        split <;> exact ⟨rfl, rfl⟩
  · exact ⟨rfl, rfl⟩

theorem streamView_startLoad (arr : Nat) (p : LoadParam) : streamView (startLoad arr p s) = streamView s := by
  unfold startLoad
  dsimp only
  split <;> rfl

/-- The start of a stream's first pass in one array exchanges the array's buffers. -/
theorem setupArr_spec {t : Stream} (ht : t.pass = 0) (a : StrArr) : (setupArr t a s).1.arr = a.arr ∧
    streamView (setupArr t a s).2 = streamView s ∧ (setupArr t a s).2.arr.active = (swapBufs a.arr s).arr.active := by
  unfold setupArr
  dsimp only
  rw [if_pos (.inl ht)]
  simp only [if_pos ht]
  generalize hw : activeWbuf (swapBufs a.arr s) a.arr = w
  have hview : ∀ b₁ b₂ k₁ k₂, streamView (countTile t a.arr (slotFaultIf b₁ k₁ t.gal t.ctx a.arr
      (slotFaultIf b₂ k₂ t.gal t.ctx a.arr (swapBufs a.arr s)))) = streamView s ∧
      (countTile t a.arr (slotFaultIf b₁ k₁ t.gal t.ctx a.arr
      (slotFaultIf b₂ k₂ t.gal t.ctx a.arr (swapBufs a.arr s)))).arr.active = (swapBufs a.arr s).arr.active := fun b₁ b₂ k₁ k₂ => by
    obtain ⟨hv, ha⟩ := countTile_keeps (s := slotFaultIf b₁ k₁ t.gal t.ctx a.arr
      (slotFaultIf b₂ k₂ t.gal t.ctx a.arr (swapBufs a.arr s))) t a.arr
    rw [hv, ha, streamView_slotFaultIf, streamView_slotFaultIf, active_slotFaultIf, active_slotFaultIf]
    exact ⟨rfl, rfl⟩
  split
  · exact ⟨rfl, (streamView_startLoad ..).trans (hview ..).1, active_startLoad.trans (hview ..).2⟩
  · exact ⟨rfl, hview ..⟩

theorem activeBuf_setupArr {t : Stream} (ht : t.pass = 0) (a : StrArr) (arr : Nat) :
    activeBuf (setupArr t a s).2 arr = if arr = a.arr then 1 - activeBuf s arr else activeBuf s arr := by
  unfold activeBuf
  rw [(setupArr_spec ht a).2.2]
  split
  · next h =>
    rw [h]
    exact mapGet_mapSet_same ..
  · next h => exact mapGet_mapSet_ne _ _ _ _ _ h

theorem setupGo_spec {t : Stream} (ht : t.pass = 0) (l : List StrArr) : ∀ {s : Block}, (l.map (·.arr)).Nodup →
    (setupGo t l s).1.map (·.arr) = l.map (·.arr) ∧ streamView (setupGo t l s).2 = streamView s ∧
      ∀ arr, activeBuf (setupGo t l s).2 arr = if arr ∈ l.map (·.arr) then 1 - activeBuf s arr else activeBuf s arr := by
  induction l with
  | nil => exact fun _ => ⟨rfl, rfl, fun arr => by simp [setupGo]⟩
  | cons a l ih =>
    intro s hl
    rw [List.map_cons, List.nodup_cons] at hl
    obtain ⟨harr, hview, -⟩ := setupArr_spec (s := s) ht a
    have hactive := activeBuf_setupArr (s := s) ht a
    unfold setupGo
    generalize setupArr t a s = r at harr hview hactive ⊢
    obtain ⟨b, u⟩ := r
    dsimp only at harr hview hactive ⊢
    obtain ⟨hmap, hviews, hactives⟩ := ih (s := u) hl.2
    refine ⟨by rw [List.map_cons, List.map_cons, hmap, harr], hviews.trans hview, fun arr => ?_⟩
    rw [hactives arr, hactive arr, List.map_cons]
    by_cases h : arr = a.arr
    · rw [if_neg (h ▸ hl.1), if_pos h, if_pos (h ▸ List.mem_cons_self)]
    · simp only [h, if_false, List.mem_cons, false_or]

end

/-- The streams that an MSTREAM on an alcove leaves without the arrays it takes (R74). -/
def lostArrays (f : MstreamF) (g alc : Nat) (arrs : List Nat) (s : Block) : List (Nat × Nat) :=
  s.arr.streams.flatMap (fun t =>
    let busHit := t.gal == g && t.alc == alc && t.f.bus % 4 == f.bus % 4
    t.arrays.filterMap (fun a => if busHit || arrs.contains a.arr then some (t.id, a.arr) else none))

/-- A stream without the arrays it has lost. -/
def withoutLost (lost : List (Nat × Nat)) (t : Stream) : Stream :=
  { t with arrays := t.arrays.filter (fun a => !(lost.contains (t.id, a.arr))) }

/-- The opening whose group an array holds with the stream's S, plus 1. -/
def heldGid (n : Nat) (e : Option (Nat × Nat)) : Nat :=
  match e with
  | some v => if v.1 = n then v.2 + 1 else 0
  | none => 0

/-- A stream sets up its first pass and stands among the streams. -/
def withStream (t : Stream) (s : Block) : Block :=
  let r := setupGo t t.arrays s
  { r.2 with arr := { r.2.arr with
    streams := r.2.arr.streams ++ [{ t with arrays := r.1, ready := true, got := [], scale := (0, false) }]
    streamCount := r.2.arr.streamCount + 1 } }

/-- A stream of an MSTREAM that has started in this cycle. -/
structure Started (x : SlotCtx) (f : MstreamF) (g q : Nat) (mirror : Bool) (s : Block) (r : Stream) : Prop where
  id : r.id = s.arr.streamCount
  gal : r.gal = g
  alc : r.alc = q
  fields : r.f = f
  ctx : r.ctx = x
  start : r.passStart = cyc s
  pass : r.pass = 0
  fmt : r.fmt = (elemFmt (tdFmt (tensorDesc s x.bank f.rowDesc))).1
  lvl : r.lvl = tdLvl (tensorDesc s x.bank f.rowDesc)
  isMirror : r.mirror = mirror
  arrays : r.arrays.map (·.arr) = namedArrays s x.gal g q f.first f.count

theorem tensorDesc_congr {s t : Block} (h : t.prog = s.prog) (bank d : Nat) : tensorDesc t bank d = tensorDesc s bank d := by
  unfold tensorDesc partOff imgNum
  rw [h]

section
variable (x : SlotCtx) (f : MstreamF) (g alc : Nat) (mirror : Bool) (s : Block)

/-- The arrays that an MSTREAM takes have been taken from the earlier streams. -/
def streamTakes : Block :=
  takeArrays (lostArrays f g alc (namedArrays s x.gal g alc f.first f.count) s)
    (slotFaultIf (!(lostArrays f g alc (namedArrays s x.gal g alc f.first f.count) s).isEmpty) .program g x 0x74 s)

/-- Its descriptor has been read. -/
def streamReads : Block :=
  slotFaultIf ((elemFmt (tdFmt (tensorDesc (streamTakes x f g alc s) x.bank f.rowDesc))).2 && !mirror) .format g x
    (tdFmt (tensorDesc (streamTakes x f g alc s) x.bank f.rowDesc)) (streamTakes x f g alc s)

/-- The arrays with the groups they hold. -/
def streamHeld : List (Nat × Option (Nat × Nat)) :=
  (namedArrays s x.gal g alc f.first f.count).map (fun a => (a, slotCountAfter (streamReads x f g alc mirror s) a f.group))

/-- The S of the stream. -/
def streamS : Nat := max 1 (((streamHeld x f g alc mirror s).findSome? (fun e => e.2.map (·.1))).getD 1)

def streamBase : Block :=
  slotFaultIf ((streamHeld x f g alc mirror s).any (fun e => heldGid (streamS x f g alc mirror s) e.2 == 0)) .program g x 0x488
    (streamReads x f g alc mirror s)

def newStream : Stream :=
  { id := (streamBase x f g alc mirror s).arr.streamCount, gal := g, alc, mirror, ctx := x, f
    arrays := (streamHeld x f g alc mirror s).map
      (fun e => { arr := e.1, j0 := 0, par := none, under := false, gid := heldGid (streamS x f g alc mirror s) e.2 })
    s := streamS x f g alc mirror s
    fmt := (elemFmt (tdFmt (tensorDesc (streamTakes x f g alc s) x.bank f.rowDesc))).1
    wfmt := slowestFmt (tileFmts (streamBase x f g alc mirror s) (namedArrays s x.gal g alc f.first f.count))
    wload := longestLoad (tileFmts (streamBase x f g alc mirror s) (namedArrays s x.gal g alc f.first f.count))
    lvl := tdLvl (tensorDesc (streamTakes x f g alc s) x.bank f.rowDesc)
    desc := leBytes 64 (tensorDesc (streamTakes x f g alc s) x.bank f.rowDesc)
    npass := ceilDiv (f.nRows % 2 ^ 20 + 1) (streamS x f g alc mirror s)
    pass := 0, passStart := cyc (streamBase x f g alc mirror s), ready := false, got := [], scale := (0, false) }

theorem streamOn_eq : streamOn x f g alc mirror s = withStream (newStream x f g alc mirror s) (streamBase x f g alc mirror s) := by
  unfold streamOn setupPass withStream newStream streamBase streamS streamHeld streamReads streamTakes lostArrays heldGid
  dsimp only <;> rfl

theorem prog_streamTakes : (streamTakes x f g alc s).prog = s.prog := by
  unfold streamTakes takeArrays
  rw [slotFaultIf_eq]

theorem streamBase_keeps :
    streamView (streamBase x f g alc mirror s) = (s.prog, s.bind, s.clk,
      s.arr.streams.map (withoutLost (lostArrays f g alc (namedArrays s x.gal g alc f.first f.count) s)), s.arr.streamCount,
      s.gals.alcPair) ∧ (streamBase x f g alc mirror s).arr.active = s.arr.active := by
  unfold streamBase streamReads
  rw [streamView_slotFaultIf, streamView_slotFaultIf, active_slotFaultIf, active_slotFaultIf]
  unfold streamTakes
  rw [slotFaultIf_eq]
  exact ⟨rfl, rfl⟩

theorem newStream_started : Started x f g alc mirror s (newStream x f g alc mirror s) := by
  have hview := (streamBase_keeps x f g alc mirror s).1
  unfold streamView at hview
  simp only [Prod.mk.injEq] at hview
  obtain ⟨-, -, hclk, -, hcount, -⟩ := hview
  have hdesc : tensorDesc (streamTakes x f g alc s) x.bank f.rowDesc = tensorDesc s x.bank f.rowDesc :=
    tensorDesc_congr (prog_streamTakes x f g alc s) ..
  refine ⟨hcount, rfl, rfl, rfl, rfl, congrArg (·.fcyc) hclk, rfl, ?_, ?_, rfl, ?_⟩
  · rw [← hdesc]
    unfold newStream
    dsimp only
  · rw [← hdesc]
    unfold newStream
    dsimp only
  · unfold newStream streamHeld
    dsimp only
    rw [List.map_map, List.map_map]
    exact List.map_id _

end

/-- What an MSTREAM on one alcove leaves: earlier streams lose the arrays it takes, and its stream `r` starts. -/
structure StreamOn (x : SlotCtx) (f : MstreamF) (g q : Nat) (mirror : Bool) (s t : Block) (r : Stream) : Prop where
  started : Started x f g q mirror s r
  streams : t.arr.streams =
    s.arr.streams.map (withoutLost (lostArrays f g q (namedArrays s x.gal g q f.first f.count) s)) ++ [r]
  count : t.arr.streamCount = s.arr.streamCount + 1
  prog : t.prog = s.prog
  bind : t.bind = s.bind
  clk : t.clk = s.clk
  pair : t.gals.alcPair = s.gals.alcPair
  active : ∀ arr, activeBuf t arr =
    if arr ∈ namedArrays s x.gal g q f.first f.count then 1 - activeBuf s arr else activeBuf s arr

theorem streamOn_spec {x : SlotCtx} {f : MstreamF} {g alc : Nat} {s : Block} (mirror : Bool)
    (hl : (namedArrays s x.gal g alc f.first f.count).Nodup) :
    ∃ r, StreamOn x f g alc mirror s (streamOn x f g alc mirror s) r := by
  rw [streamOn_eq]
  have ht := newStream_started x f g alc mirror s
  obtain ⟨hview, hactive⟩ := streamBase_keeps x f g alc mirror s
  generalize streamBase x f g alc mirror s = u at hview hactive ⊢
  generalize newStream x f g alc mirror s = t at ht ⊢
  obtain ⟨hmap, hviews, hactives⟩ := setupGo_spec ht.pass t.arrays (s := u) (ht.arrays ▸ hl)
  unfold withStream
  generalize setupGo t t.arrays u = r at hmap hviews hactives ⊢
  have hall := hviews.trans hview
  unfold streamView at hall
  simp only [Prod.mk.injEq] at hall
  obtain ⟨hprog, hbind, hclk, hstreams, hcount, hpair⟩ := hall
  refine ⟨{ t with arrays := r.1, ready := true, got := [], scale := (0, false) }, { ht with arrays := hmap.trans ht.arrays },
    ?_, ?_, hprog, hbind, hclk, hpair, fun arr => ?_⟩
  · rw [← hstreams]
  · rw [← hcount]
  · refine (hactives arr).trans ?_
    rw [ht.arrays]
    unfold activeBuf
    rw [hactive]

/-- A stream on the bus that an MSTREAM takes loses all its arrays (R74). -/
theorem withoutLost_bus {f : MstreamF} {g alc : Nat} {arrs : List Nat} {s : Block} {o : Stream} (ho : o ∈ s.arr.streams)
    (hg : o.gal = g) (ha : o.alc = alc) (hbus : o.f.bus % 4 = f.bus % 4) :
    (withoutLost (lostArrays f g alc arrs s) o).arrays = [] := by
  unfold withoutLost
  refine List.filter_eq_nil_iff.mpr fun a hmem => ?_
  have hlost : (o.id, a.arr) ∈ lostArrays f g alc arrs s := by
    refine List.mem_flatMap.mpr ⟨o, ho, List.mem_filterMap.mpr ⟨a, hmem, if_pos ?_⟩⟩
    simp [hg, ha, hbus]
  simpa using hlost

section
variable {x : SlotCtx} {f : MstreamF} {g q : Nat} {mirror : Bool} {s t : Block} {r : Stream} (h : StreamOn x f g q mirror s t r)
include h

theorem StreamOn.mem : r ∈ t.arr.streams := by
  rw [h.streams]
  exact List.mem_append_right _ List.mem_cons_self

/-- An earlier stream stays, with fewer arrays at most. -/
theorem StreamOn.keeps {v : Stream} (hv : v ∈ s.arr.streams) :
    ∃ arrays, { v with arrays } ∈ t.arr.streams ∧ (v.arrays = [] → arrays = []) := by
  rw [h.streams]
  refine ⟨_, List.mem_append_left _ (List.mem_map_of_mem hv), fun h => ?_⟩
  rw [h]
  rfl

theorem StreamOn.empties {o : Stream} (ho : o ∈ s.arr.streams) (hg : o.gal = g) (ha : o.alc = q)
    (hbus : o.f.bus % 4 = f.bus % 4) : ∃ v ∈ t.arr.streams, v.id = o.id ∧ v.arrays = [] := by
  rw [h.streams]
  exact ⟨withoutLost _ o, List.mem_append_left _ (List.mem_map_of_mem ho), rfl, withoutLost_bus ho hg ha hbus⟩

end

/-- What reads the same, program, binding and clock, starts the same streams. -/
theorem Started.of_view {x : SlotCtx} {f : MstreamF} {g alc : Nat} {mirror : Bool} {s t : Block} {r : Stream}
    (h : Started x f g alc mirror t r) (hprog : t.prog = s.prog) (hbind : t.bind = s.bind) (hclk : t.clk = s.clk)
    {n : Nat} (hcount : t.arr.streamCount = n) :
    r.id = n ∧ r.gal = g ∧ r.alc = alc ∧ r.f = f ∧ r.ctx = x ∧ r.passStart = cyc s ∧ r.pass = 0 ∧
      r.fmt = (elemFmt (tdFmt (tensorDesc s x.bank f.rowDesc))).1 ∧ r.lvl = tdLvl (tensorDesc s x.bank f.rowDesc) ∧
      r.mirror = mirror ∧ r.arrays.map (·.arr) = namedArrays s x.gal g alc f.first f.count := by
  refine ⟨h.id.trans hcount, h.gal, h.alc, h.fields, h.ctx, h.start.trans (congrArg (·.fcyc) hclk), h.pass, ?_, ?_, h.isMirror, ?_⟩
  · rw [h.fmt, tensorDesc_congr hprog]
  · rw [h.lvl, tensorDesc_congr hprog]
  · rw [h.arrays, namedArrays_congr hbind]

section
variable {x : SlotCtx} {s : State} {g : Nat} {f : MstreamF}

/-- The named arrays of the two alcoves differ. -/
theorem slotArrays_paired {s : Block} {alc first count : Nat} (hpair : pairAlcove s x alc = true) :
    slotArrays s x g alc first count = namedArrays s x.gal g alc first count ++ namedArrays s x.gal g (alc + 1) first count := by
  unfold slotArrays
  rw [if_pos hpair]

theorem slotArrays_single {s : Block} {alc first count : Nat} (hpair : pairAlcove s x alc = false) :
    slotArrays s x g alc first count = namedArrays s x.gal g alc first count := by
  unfold slotArrays
  rw [if_neg (by rw [hpair]; simp), List.append_nil]

theorem nodup_namedArrays {s : Block} {alc first count : Nat} (h : (slotArrays s x g alc first count).Nodup) :
    (namedArrays s x.gal g alc first count).Nodup := (List.nodup_append.mp h).1

theorem exec_mstream (h : reaches s.toBlock x g) (hnodup : (slotArrays s.toBlock x g (f.alcove % 8) f.first f.count).Nodup) :
    ∃ logs bnd, exec (.mstream x f) s = .next { s with toBlock :=
      (if pairAlcove s.toBlock x (f.alcove % 8) = true then
        streamOn x f g (f.alcove % 8 + 1) true (streamOn x f g (f.alcove % 8) false { s.toBlock with logs, bnd })
      else streamOn x f g (f.alcove % 8) false { s.toBlock with logs, bnd }) } := by
  obtain ⟨logs, bnd, hfault⟩ : ∃ logs bnd, rangeFault g x f.first f.count s.toBlock = { s.toBlock with logs, bnd } :=
    ⟨_, _, slotFaultIf_eq ..⟩
  refine ⟨logs, bnd, effect_of_eq (f := doMstream x f) ((withSlot_runs h.1 h.2.1 h.2.2).trans ?_)⟩
  dsimp only
  rw [hfault]
  obtain ⟨r, hon⟩ := streamOn_spec false (s := { s.toBlock with logs, bnd }) (nodup_namedArrays hnodup)
  have hsame : pairAlcove (streamOn x f g (f.alcove % 8) false { s.toBlock with logs, bnd }) x (f.alcove % 8) =
      pairAlcove s.toBlock x (f.alcove % 8) := by
    unfold pairAlcove
    rw [hon.pair]
  rw [hsame]

end

/-- Settles O15: loads and groups start array by array in one pass over different arrays; a stream takes its arrays from the
earlier streams and exchanges their buffers once. -/
theorem loadsStreamsAndGroupsStart : Obligations.LoadsStreamsAndGroupsStart := by
  unfold Obligations.LoadsStreamsAndGroupsStart
  refine ⟨fun x f s g hr hnodup => ?_, fun x f s g hr hnodup => ?_, fun x f s g hr hcontribs hheld => ?_⟩
  · obtain ⟨logs, bnd, he⟩ := exec_mloadW hr f
    refine ⟨_, he, rfl, fun alc halc n arr hn => ?_⟩
    have hmem : (arr, n) ∈ loadList s.toBlock x f g := by
      unfold loadList
      obtain rfl | ⟨rfl, hpair⟩ := halc
      · exact List.mem_append_left _ (mem_zipIdx_of_getElem? hn)
      · rw [if_pos hpair]
        exact List.mem_append_right _ (mem_zipIdx_of_getElem? hn)
    obtain ⟨j, hj, hstart, hbuf, hwords, hscale, hpar, hcomplete, hactive⟩ :=
      loads_start (x := x) (f := f) ((loadList_arrays ..).symm ▸ hnodup) hmem { s.toBlock with logs, bnd }
    exact ⟨j, hj, hstart, hbuf, hwords, hscale, hpar ▸ rfl, hpar ▸ rfl, hpar ▸ rfl, hpar ▸ rfl, hpar ▸ rfl, hcomplete, hactive⟩
  · dsimp only
    obtain ⟨logs, bnd, he⟩ := exec_mstream hr hnodup
    refine ⟨_, he, rfl, ?_⟩
    obtain ⟨r, hon⟩ := streamOn_spec false (s := { s.toBlock with logs, bnd }) (nodup_namedArrays hnodup)
    obtain ⟨hid, hgal, halc, hf, hctx, hstart, hpass, hfmt, hlvl, hmirror, harrays⟩ :=
      hon.started.of_view (s := s.toBlock) rfl rfl rfl rfl
    have hnamed : ∀ q, namedArrays { s.toBlock with logs, bnd } x.gal g q f.first f.count =
        namedArrays s.toBlock x.gal g q f.first f.count := fun q => namedArrays_congr (by rfl) ..
    have hbufs : ∀ arr, activeBuf { s.toBlock with logs, bnd } arr = activeBuf s.toBlock arr := fun arr => by
      unfold activeBuf
      rfl
    have hmem := hon.mem
    have hlost : ∀ o ∈ s.arr.streams, o.gal = g → o.alc = f.alcove % 8 → o.f.bus % 4 = f.bus % 4 →
        ∃ v ∈ (streamOn x f g (f.alcove % 8) false { s.toBlock with logs, bnd }).arr.streams, v.id = o.id ∧ v.arrays = [] :=
      fun o ho => hon.empties ho
    generalize streamOn x f g (f.alcove % 8) false { s.toBlock with logs, bnd } = u at hon hmem hlost ⊢
    have hactive := hon.active
    cases hpair : pairAlcove s.toBlock x (f.alcove % 8) with
    | false =>
      rw [if_neg (by simp)]
      refine ⟨⟨r, hmem, hid, hgal, halc, hf, hctx, hstart, hpass, hfmt, hlvl, hmirror, fun _ => harrays⟩, nofun, fun arr ha => ?_,
        hlost⟩
      rw [slotArrays_single hpair] at ha
      rw [hactive, hnamed, if_pos ha, hbufs]
    | true =>
      rw [if_pos rfl]
      rw [slotArrays_paired hpair] at hnodup ⊢
      have hbind : ∀ q, namedArrays u x.gal g q f.first f.count = namedArrays s.toBlock x.gal g q f.first f.count :=
        fun q => namedArrays_congr hon.bind ..
      obtain ⟨r', hon'⟩ := streamOn_spec (alc := f.alcove % 8 + 1) true (s := u) (by rw [hbind]; exact (List.nodup_append.mp hnodup).2.1)
      generalize streamOn x f g (f.alcove % 8 + 1) true u = w at hon' ⊢
      have hstarted' := hon'.started.of_view (s := s.toBlock) hon.prog hon.bind hon.clk hon.count
      refine ⟨?_, fun _ => ⟨r', ?_, hstarted'⟩, fun arr ha => ?_, fun o ho hg ha hbus => ?_⟩
      · obtain ⟨arrays, hv, -⟩ := hon'.keeps hmem
        exact ⟨_, hv, hid, hgal, halc, hf, hctx, hstart, hpass, hfmt, hlvl, hmirror, nofun⟩
      · exact hon'.mem
      · have hdisjoint := List.nodup_append.mp hnodup
        rw [hon'.active, hbind, hactive, hnamed, hbufs]
        obtain ha | ha := List.mem_append.mp ha
        · rw [if_neg (fun h => hdisjoint.2.2 arr ha arr h rfl), if_pos ha]
        · rw [if_pos ha, if_neg (fun h => hdisjoint.2.2 arr h arr ha rfl)]
      · obtain ⟨v, hv, hvid, hempty⟩ := hlost o ho hg ha hbus
        obtain ⟨arrays, hmem', hnone⟩ := hon'.keeps hv
        exact ⟨_, hmem', hvid, hnone hempty⟩
  · obtain ⟨t, he, hand⟩ := exec_mopen hr f
    refine ⟨_, he, rfl, fun arr ha => ?_⟩
    have hopened : Opened f s.vec.issueOrder arr (forEach (slotArrays s.toBlock x g (f.alcove % 8) f.first f.count)
        (openOn x f s.vec.issueOrder) t) :=
      forEach_of_mem (P := Opened f s.vec.issueOrder) (fun a b => opened_openOn x f _ a b)
        (fun a b u hne h => h.openOn_other x f _ _ hne) ha t
    obtain ⟨hpos, hend⟩ := openedGroup_bounds f s.vec.issueOrder
    rw [hand.releaseOps hheld hcontribs]
    exact ⟨_, hopened.1, rfl, rfl, rfl, hend, hpos, rfl, rfl, rfl, hopened.2⟩

end Sys2Proof.Machine
end

section
/-! SUPPORT. Error queues and records (R29, R352, R354, R356), and O32. -/

namespace Sys2Proof.Machine

/-! ## What leaves the logs -/

section
variable (s : Block)

theorem logs_bumpNum (key w n : Nat) : (bumpNum key w n s).logs = s.logs := setNum_keeps_logs ..

theorem logs_alert (code word : Nat) : (alert code word s).logs = s.logs := rfl

theorem logs_notify (key : Nat) (v : Bytes) : (notify key v s).logs = s.logs := by
  unfold notify
  dsimp only
  rw [logs_bumpNum, logs_bumpNum]

theorem logs_notifyNum (key : Nat) : (notifyNum key s).logs = s.logs := logs_notify ..

theorem logs_setStatus (key v notes alerts code : Nat) : (setStatus key v notes alerts code s).logs = s.logs := by
  unfold setStatus
  dsimp only
  split
  · rw [logs_alert]
    split
    · rw [logs_notifyNum, setNum_keeps_logs]
    · exact setNum_keeps_logs ..
  · split
    · rw [logs_notifyNum, setNum_keeps_logs]
    · exact setNum_keeps_logs ..

theorem logs_setFwBit (n : Nat) (b : Bool) : (setFwBit n b s).logs = s.logs := by
  unfold setFwBit
  dsimp only
  split
  · rw [logs_alert, logs_setStatus]
  · exact logs_setStatus ..

theorem logs_dropSignature : (dropSignature s).logs = s.logs := by
  unfold dropSignature
  split
  · rfl
  split
  · rfl
  · split
    · rfl
    · rw [logs_setFwBit, logs_bumpNum]

theorem logs_dropSignatures (n : Nat) : (iter dropSignature n s).logs = s.logs := by
  induction n generalizing s with
  | zero => rfl
  | succ n ih => exact (ih (dropSignature s)).trans (logs_dropSignature s)

theorem logs_trimBuffer : (trimBuffer s).logs = s.logs := by
  unfold trimBuffer
  split
  · rfl
  · exact logs_dropSignatures s _

end

/-! ## Records -/

section
variable (code sev flags tag kind loc addr step tick : Nat) (extra : Bytes) (s : Block)

/-- The record that `makeCper` makes. -/
def recordOf : Cper :=
  { code, severity := sev, flags, tag, kind, gaps := num s (if queueOf loc < 50 then 0x501001 else 0x501002),
    step, tick, loc, addr, epoch := epochNo s, lepoch := lepochNo s, id := s.logs.recId + 1, extra }

/-- The record store takes a record (R356). -/
def recordStored (l : Logs) (r : Cper) : Logs :=
  { l with cper := (if 4096 ≤ l.cper.length then l.cper.drop 1 else l.cper) ++ [r], recId := l.recId + 1, cperDue := true }

/-- A fatal record goes to flash while the security core runs, and waits for it otherwise (R356). -/
def fatalStored (runs : Bool) (sev : Nat) (l : Logs) (r : Cper) : Logs :=
  if sev ≠ 1 then l
  else if runs then { l with fatal := (l.fatal ++ [r]).drop ((l.fatal ++ [r]).length - 64) }
  else { l with fatalWait := l.fatalWait ++ [r] }

theorem logs_makeCper : (makeCper code sev flags tag kind loc addr step tick extra s).logs =
    fatalStored (procRuns s 0) sev (recordStored s.logs (recordOf code sev flags tag kind loc addr step tick extra s))
      (recordOf code sev flags tag kind loc addr step tick extra s) := by
  have hbump : ∀ (c : Prop) [Decidable c] (t : Block), (if c then bumpNum 0x540102 32 1 (bumpNum 0x540101 64 1 t)
      else bumpNum 0x540101 64 1 t).logs = t.logs := fun c _ t => by
    split
    · rw [logs_bumpNum, logs_bumpNum]
    · rw [logs_bumpNum]
  unfold makeCper fatalStored
  dsimp only
  rw [hbump]
  simp only [decide_eq_true_eq]
  split
  · rfl
  · change Block.logs (if procRuns s 0 = true then _ else _) = _
    split
    · rfl
    · exact logs_trimBuffer _

theorem queues_makeCper : (makeCper code sev flags tag kind loc addr step tick extra s).logs.queues = s.logs.queues := by
  rw [logs_makeCper]
  unfold fatalStored
  split
  · rfl
  · split <;> rfl

theorem recId_makeCper : (makeCper code sev flags tag kind loc addr step tick extra s).logs.recId = s.logs.recId + 1 ∧
    (makeCper code sev flags tag kind loc addr step tick extra s).logs.cperDue = true := by
  rw [logs_makeCper]
  unfold fatalStored
  split
  · exact ⟨rfl, rfl⟩
  · split <;> exact ⟨rfl, rfl⟩

theorem cper_makeCper : (makeCper code sev flags tag kind loc addr step tick extra s).logs.cper =
    (if 4096 ≤ s.logs.cper.length then s.logs.cper.drop 1 else s.logs.cper) ++
      [recordOf code sev flags tag kind loc addr step tick extra s] := by
  rw [logs_makeCper]
  unfold fatalStored
  split
  · rfl
  · split <;> rfl

/-- A record stands last in the store. -/
theorem getLast?_makeCper : (makeCper code sev flags tag kind loc addr step tick extra s).logs.cper.getLast? =
    some (recordOf code sev flags tag kind loc addr step tick extra s) := by
  rw [cper_makeCper, List.getLast?_concat]

theorem length_cper_makeCper (h : s.logs.cper.length ≤ 4096) :
    (makeCper code sev flags tag kind loc addr step tick extra s).logs.cper.length ≤ 4096 := by
  rw [cper_makeCper, List.length_append, List.length_singleton]
  split
  · rw [List.length_drop]
    omega
  · omega

end

/-! ## Error queues -/

section
variable (code sev loc tag addr : Nat) (inj rec : Bool) (extra : Bytes) (s : Block)

/-- The entry that an event leaves in its error queue. -/
def entryOf : ErrEntry := { detector := code, loc, injected := inj, tag, addr, step := stepNo s, tick := s.clk.tick, extra, sev, recorded := rec }

theorem putEvent_room {q : Nat} (h : (mapGet [] s.logs.queues q).length < 256) :
    putEvent q code sev loc inj rec tag addr extra s = { s with logs := { s.logs with
      queues := mapSet [] s.logs.queues q (mapGet [] s.logs.queues q ++ [entryOf code sev loc tag addr inj rec extra s]) } } := by
  unfold putEvent
  dsimp only
  rw [if_neg (by omega)]
  rfl

theorem mem_putEvent {q : Nat} (h : (mapGet [] s.logs.queues q).length < 256) :
    mapGet [] (putEvent q code sev loc inj rec tag addr extra s).logs.queues q =
      mapGet [] s.logs.queues q ++ [entryOf code sev loc tag addr inj rec extra s] := by
  rw [putEvent_room _ _ _ _ _ _ _ _ _ h]
  exact mapGet_mapSet_same ..

theorem logs_putEvent_full {q : Nat} (h : 256 ≤ (mapGet [] s.logs.queues q).length) :
    (putEvent q code sev loc inj rec tag addr extra s).logs = s.logs := by
  unfold putEvent
  dsimp only
  rw [if_pos h]
  exact logs_bumpNum ..

theorem queues_putEvent_ne {q r : Nat} (h : r ≠ q) :
    mapGet [] (putEvent q code sev loc inj rec tag addr extra s).logs.queues r = mapGet [] s.logs.queues r := by
  by_cases hfull : 256 ≤ (mapGet [] s.logs.queues q).length
  · rw [logs_putEvent_full _ _ _ _ _ _ _ _ _ hfull]
  · rw [putEvent_room _ _ _ _ _ _ _ _ _ (Nat.lt_of_not_le hfull)]
    exact mapGet_mapSet_ne _ _ _ _ _ h

end

/-- An SRAM event at a place that had one before fences the store, and the fence has its record (R349). -/
theorem getLast?_classify_sram {e : ErrEntry} {s : Block} (hcode : e.detector = 0x0A) (hdom : fld e.loc 60 4 = 3)
    (hbefore : s.rel.sramBad.contains (fld e.loc 54 6 * 2 ^ 32 + leNat e.extra) = true) (hfloor : floorRecs s = []) :
    ∃ r, (classify e s).logs.cper.getLast? = some r ∧ r.code = 0xF0 := by
  have hsram : ∃ r, (sramEvent (fld e.loc 54 6) (leNat e.extra) s).logs.cper.getLast? = some r ∧ r.code = 0xF0 := by
    unfold sramEvent
    dsimp only
    rw [if_pos hbefore]
    unfold fenceStore
    rw [hfloor, if_neg (by simp)]
    unfold reportShape fenceRec setRelBit actionCper cperNow
    dsimp only
    rw [setNum_keeps_logs, logs_setStatus]
    exact ⟨_, getLast?_makeCper .., rfl⟩
  unfold classify
  dsimp only
  rw [if_pos (c := e.detector = 0x0A ∧ fld e.loc 60 4 = 3) ⟨hcode, hdom⟩]
  split
  · exact hsram
  · exact hsram

/-- A module whose gallery 0 has had an SRAM event, with a second one of the same word waiting for the gallery core. -/
def sramEntry : ErrEntry :=
  { detector := 0x0A, loc := locOf 3 0 0 0 0 0, injected := false, tag := 0, addr := 0, step := 0, tick := 0, extra := []
    sev := 0, recorded := false }
def sramTwice : State := { State.reset with
  logs := { State.reset.logs with queues := [(0, [sramEntry])] }, rel := { State.reset.rel with sramBad := [0] } }

theorem sramTwice_word : sramTwice.rel.sramBad.contains (fld sramEntry.loc 54 6 * 2 ^ 32 + leNat sramEntry.extra) = true := by
  change [0].contains (fld sramEntry.loc 54 6 * 2 ^ 32 + leNat sramEntry.extra) = true
  decide

/-- Refutes O32: when the event popped is a second SRAM event of one word, the gallery core fences the store (R349), and the
record that stands last is the fence's (code 0xF0), not the event's. -/
theorem not_errorQueuesAndRecords : ¬ Obligations.ErrorQueuesAndRecords := by
  unfold Obligations.ErrorQueuesAndRecords
  rintro ⟨hpop, -⟩
  obtain ⟨hexec, t, ht, -, -, hrec, -⟩ := hpop sramTwice 0 sramEntry [] (by decide) rfl rfl
  obtain ⟨p, hlast, -, hcode, -⟩ := hrec rfl
  rw [hexec] at ht
  have hstate := Host.Outcome.next.inj ht
  rw [← hstate] at hlast
  have hframe := RecordFrame.makeCper (.refl { sramTwice.toBlock with logs := { sramTwice.logs with queues := mapSet [] sramTwice.logs.queues 0 [] } })
    sramEntry.detector sramEntry.sev (b2n sramEntry.injected) sramEntry.tag 0 sramEntry.loc sramEntry.addr sramEntry.step sramEntry.tick
    sramEntry.extra
  obtain ⟨r, hr, hfence⟩ := getLast?_classify_sram (e := sramEntry) rfl (by decide)
    (by rw [hframe.rel]; exact sramTwice_word)
    (by unfold floorRecs; rw [hframe.rel]; rfl)
  have hsame : some r = some p := hr.symm.trans hlast
  rw [Option.some.inj hsame, hcode] at hfence
  exact absurd hfence (by decide)

end Sys2Proof.Machine
end

section
/-! SUPPORT. Resets: what they leave of the program, the queues and the freeze; O36. -/

namespace Sys2Proof.Machine

theorem num_bumpNum (key n : Nat) (s : Block) (w : Nat) : num (bumpNum key w n s) key = min (2 ^ w - 1) (num s key + n) := by
  unfold bumpNum
  rw [num_setNum_same, satN_eq_min]

/-! ## The program, the queues and the freeze -/

/-- The program, the queues and the freeze are the same. -/
structure SameRun (s t : Block) : Prop where
  prog : t.prog = s.prog
  queues : t.queues = s.queues
  freeze : t.freeze = s.freeze

theorem SameRun.refl (s : Block) : SameRun s s := ⟨rfl, rfl, rfl⟩

section
variable {s t : Block} (h : SameRun s t)
include h

theorem SameRun.trans {u : Block} (h' : SameRun t u) : SameRun s u :=
  ⟨h'.prog.trans h.prog, h'.queues.trans h.queues, h'.freeze.trans h.freeze⟩

theorem SameRun.record {u : Block} (h' : RecordFrame t u) : SameRun s u :=
  h.trans ⟨by rw [h'.eq], by rw [h'.eq], by rw [h'.eq]⟩

theorem SameRun.report {u : Block} (h' : ReportFrame t u) : SameRun s u := h.record h'.toRecord

theorem SameRun.setNum (key v : Nat) : SameRun s (setNum key v t) := h.report (ReportFrame.setNum (.refl t) ..)

theorem SameRun.setStatus (key v notes alerts code : Nat) : SameRun s (setStatus key v notes alerts code t) :=
  h.report (ReportFrame.setStatus (.refl t) ..)

theorem SameRun.ite {u : Block} (h' : SameRun s u) {c : Prop} {_ : Decidable c} : SameRun s (if c then t else u) := by
  split
  · exact h
  · exact h'

theorem SameRun.withStore (x : Store) : SameRun s { t with store := x } := h.trans ⟨rfl, rfl, rfl⟩
theorem SameRun.withFw (x : Fw) : SameRun s { t with fw := x } := h.trans ⟨rfl, rfl, rfl⟩
theorem SameRun.withMem (x : Mem) : SameRun s { t with mem := x } := h.trans ⟨rfl, rfl, rfl⟩
theorem SameRun.withUpd (x : Update) : SameRun s { t with upd := x } := h.trans ⟨rfl, rfl, rfl⟩
theorem SameRun.withPwr (x : Power) : SameRun s { t with pwr := x } := h.trans ⟨rfl, rfl, rfl⟩
theorem SameRun.withArc (x : Arcade) : SameRun s { t with arc := x } := h.trans ⟨rfl, rfl, rfl⟩
theorem SameRun.withBnd (x : Boundary) : SameRun s { t with bnd := x } := h.trans ⟨rfl, rfl, rfl⟩

theorem SameRun.notify (key : Nat) (v : Bytes) : SameRun s (notify key v t) := h.report (ReportFrame.notify (.refl t) ..)

theorem SameRun.setFwBit (n : Nat) (b : Bool) : SameRun s (setFwBit n b t) := h.record (RecordFrame.setFwBit (.refl t) ..)

theorem SameRun.cperNow (code sev flags tag kind loc addr : Nat) (extra : Bytes) :
    SameRun s (cperNow code sev flags tag kind loc addr extra t) := h.record (RecordFrame.cperNow (.refl t) ..)

theorem SameRun.setSec (v : Nat) : SameRun s (setSec v t) := by
  unfold Machine.setSec
  exact .ite (.notify (.setNum h ..) ..) (.setNum h ..)

theorem SameRun.forEach {α : Type} {f : α → Block → Block} (l : List α) (hf : ∀ a b, SameRun b (f a b)) :
    SameRun s (forEach l f t) := forEach_induction (P := SameRun s) (fun a _ _ hb => hb.trans (hf a _)) h

theorem SameRun.pmapSet (page e : Nat) : SameRun s (pmapSet page e t) := h.trans ⟨rfl, rfl, rfl⟩

theorem SameRun.resetArcade (tell : Bool) : SameRun s (resetArcade tell t) := by
  unfold Machine.resetArcade
  exact h.withArc _

theorem SameRun.railsTo (n : Nat) : SameRun s (railsTo n t) := by
  unfold Machine.railsTo railUp railDown
  exact .ite (h.forEach _ fun a b => .ite (.withPwr (.refl b) _) (.refl b)) (h.forEach _ fun a b => .ite (.withPwr (.refl b) _) (.refl b))

theorem SameRun.freshWords : SameRun s (freshWords t) := by
  unfold Machine.freshWords reportShape
  exact .setSec (.setNum (.setNum (.setNum (.setStatus (.setNum (.setNum (.setNum h ..) ..) ..) ..) ..) ..) ..) _

theorem SameRun.resetObjects (keep : Nat → Bool) : SameRun s (resetObjects keep t) := by
  unfold Machine.resetObjects
  exact .setNum (.setNum (.withStore h _) ..) ..

theorem SameRun.setRecov (n : Nat) (b : Bool) : SameRun s (setRecov n b t) := h.setStatus ..

theorem SameRun.adoptNow : SameRun s (adoptNow t) := h.trans ⟨rfl, rfl, rfl⟩

theorem SameRun.markUnwritten (key : Nat) : SameRun s (markUnwritten key t) := h.trans ⟨rfl, rfl, rfl⟩

theorem SameRun.setEpoch (e : Nat) : SameRun s (setEpoch e t) := by
  unfold Machine.setEpoch
  exact .markUnwritten (.setNum h ..) _

theorem SameRun.adoptOwn : SameRun s (adoptOwn t).2 := by
  have hdecl : ∀ v u, SameRun s u → SameRun s (Machine.setNum 0x1F1005 (putBit (num (setDecl v u) 0x1F1005) 4 (stagedDiffers (setDecl v u))) (setDecl v u)) :=
    fun v u hu => .setNum (.setStatus hu ..) ..
  unfold Machine.adoptOwn pendingBit
  dsimp only
  split
  · split
    · exact hdecl _ _ (.setEpoch (.adoptNow h) _)
    · exact h
  · split
    · split
      · exact hdecl _ _ (.setEpoch (.adoptNow h) _)
      · exact hdecl _ _ h
    · exact hdecl _ _ h

theorem SameRun.stagedWrite : SameRun s (stagedWrite t) := by
  unfold Machine.stagedWrite adoptMarks orphanCheck pendingBit
  exact .ite (.setNum h ..) (.setRecov (.setRecov (.setNum h.adoptOwn ..) ..) ..)

theorem SameRun.stageDefaults : SameRun s (stageDefaults t) := by
  unfold Machine.stageDefaults
  exact .stagedWrite (.forEach (.withStore h _) _ fun a b => .markUnwritten (.refl b) a)

theorem SameRun.bootPage (fk : Nat) : SameRun s (bootPage fk t) := by
  unfold Machine.bootPage
  refine .ite h ?_
  dsimp only
  split
  · exact .pmapSet (.withMem h _) ..
  · exact .pmapSet h ..

theorem SameRun.fixRec (r : Nat × Nat) : SameRun s (fixRec t r) := by
  unfold Machine.fixRec
  dsimp only
  split
  · exact h.withMem _
  · exact h.withMem _
  · exact h.withMem _
  · exact h.withMem _
  · exact h.withMem _
  · exact h

theorem SameRun.bootMemory : SameRun s (bootMemory t) := by
  have hfix : ∀ (l : List (Nat × Nat)) (u : Block), SameRun s u → SameRun s (l.foldl Machine.fixRec u) := by
    intro l
    induction l with
    | nil => exact fun _ hu => hu
    | cons r l ih => exact fun u hu => ih _ (hu.fixRec r)
  have hrecs := hfix (floorRecs t) _ ((h.withMem memReset).withUpd { t.upd with recA := recNone, recB := recNone })
  unfold Machine.bootMemory
  dsimp only at hrecs ⊢
  generalize (floorRecs t).foldl Machine.fixRec _ = u at hrecs ⊢
  exact .setNum (.setNum (.setNum (.setNum (.setNum (.setNum (.forEach hrecs _ fun a b => .bootPage (.refl b) a) ..) ..) ..) ..)
    ..) ..

theorem SameRun.loadSet (set : Nat) : SameRun s (loadSet set t) := h.forEach _ (fun _ _ => .withFw (.refl _) _)

theorem SameRun.selectFirmware : SameRun s (selectFirmware t).2 := by
  unfold Machine.selectFirmware
  dsimp only
  generalize hbase : Machine.setNum 0x800100 _ _ = u
  have hu : SameRun s u := by
    rw [← hbase]
    exact .setNum (.forEach (.withFw h _) _ fun a b => .setNum (.refl b) ..) ..
  split
  · exact .loadSet (.setNum (.withFw hu _) ..) _
  · split
    · exact .loadSet (.setFwBit (.setNum (.withFw hu _) ..) ..) _
    · exact .setFwBit (.setNum hu ..) ..

theorem SameRun.recoverRecord : SameRun s (recoverRecord t) := by
  have hrec : ∀ r u, SameRun s u → SameRun s (setRecord r u) := fun r u hu => hu.withUpd _
  unfold Machine.recoverRecord applyRecord updBit flipEntries
  refine .ite (.cperNow h ..) (.ite (hrec _ _ (.withBnd h _)) (.ite (.setNum ?_ ..) h))
  exact hrec _ _ (.setNum (.forEach (hrec _ _ h) _ fun a b => .pmapSet (.refl b) ..) ..)

end

/-! ## Links after a reset -/

/-- No link is READY or UP. -/
def NoneReady (s : Block) : Prop := ∀ l, (link s l).state ≠ 4 ∧ (link s l).state ≠ 5

theorem noneReady_congr {s t : Block} (h : t.arc.links = s.arc.links) (hs : NoneReady s) : NoneReady t := by
  unfold NoneReady link at hs ⊢
  rw [h]
  exact hs

@[simp] theorem link_setLink_same (l : Nat) (k : Link) (s : Block) : link (setLink l k s) l = k := mapGet_mapSet_same ..

theorem link_setLink_ne {l m : Nat} (h : m ≠ l) (k : Link) (s : Block) : link (setLink l k s) m = link s m :=
  mapGet_mapSet_ne _ _ _ _ _ h

theorem noneReady_setLink {l : Nat} {k : Link} {s : Block} (hs : NoneReady s) (hk : k.state ≠ 4 ∧ k.state ≠ 5) :
    NoneReady (setLink l k s) := fun m => by
  by_cases h : m = l
  · rw [h, link_setLink_same]
    exact hk
  · rw [link_setLink_ne h]
    exact hs m

theorem noneReady_resetArcade (tell : Bool) (s : Block) : NoneReady (resetArcade tell s) := by
  have hfold : ∀ (l : List Nat) (m : SMap Link), (∀ n, (mapGet linkZero m n).state ≠ 4 ∧ (mapGet linkZero m n).state ≠ 5) →
      ∀ n, (mapGet linkZero (l.foldl (fun m l => mapSet linkZero m l (linkAfterReset s tell l)) m) n).state ≠ 4 ∧
        (mapGet linkZero (l.foldl (fun m l => mapSet linkZero m l (linkAfterReset s tell l)) m) n).state ≠ 5 := by
    intro l
    induction l with
    | nil => exact fun _ h => h
    | cons a l ih =>
      refine fun m h => ih _ fun n => ?_
      by_cases hn : n = a
      · rw [hn, mapGet_mapSet_same]
        unfold linkAfterReset
        dsimp only
        split <;> decide
      · rw [mapGet_mapSet_ne _ _ _ _ _ hn]
        exact h n
  unfold NoneReady link resetArcade
  dsimp only
  exact hfold (List.range 18) [] (fun n => ⟨nofun, nofun⟩)

/-- Where no link is READY or UP, an unchanged plan only disables links and gives them back. -/
theorem applyPlan_none {s : Block} (h : NoneReady s) (l : Nat) :
    NoneReady (applyPlan false l s) ∧ SameRun s (applyPlan false l s) := by
  have hmod : ∀ f : Link → Link, (f (link s l)).state ≠ 4 ∧ (f (link s l)).state ≠ 5 →
      NoneReady (modLink l f s) ∧ SameRun s (modLink l f s) := fun f hf => ⟨noneReady_setLink h hf, ⟨rfl, rfl, rfl⟩⟩
  have hnot : ¬((link s l).state = 5 ∨ (link s l).state = 4) := fun e => e.elim (h l).2 (h l).1
  unfold applyPlan
  dsimp only
  rw [if_neg (c := (link s l).state = 5 ∨ (link s l).state = 4) hnot]
  split
  · exact ⟨h, .refl s⟩
  split
  · split
    · exact ⟨h, .refl s⟩
    · exact hmod _ ⟨nofun, nofun⟩
  split
  · exact hmod _ ⟨nofun, nofun⟩
  · exact ⟨h, .refl s⟩

theorem applyPlans_none {s : Block} (h : NoneReady s) (l : List Nat) :
    NoneReady (forEach l (applyPlan false) s) ∧ SameRun s (forEach l (applyPlan false) s) :=
  forEach_induction (P := fun t => NoneReady t ∧ SameRun s t)
    (fun a _ _ ht => ⟨(applyPlan_none ht.1 a).1, ht.2.trans (applyPlan_none ht.1 a).2⟩) ⟨h, .refl s⟩

/-! ## What a reset clears -/

/-- No program is loaded, nothing is queued and nothing is frozen. -/
structure Cleared (s : Block) : Prop where
  prog : s.prog.loaded = false
  queues : s.queues.descs = []
  freeze : s.freeze = none

theorem Cleared.same {s t : Block} (h : Cleared s) (h' : SameRun s t) : Cleared t :=
  ⟨by rw [h'.prog, h.prog], by rw [h'.queues, h.queues], by rw [h'.freeze, h.freeze]⟩

theorem cleared_clearHalls (s : Block) : Cleared (clearHalls s) := ⟨rfl, rfl, rfl⟩

theorem cleared_wipe (s : Block) : Cleared (wipe s) := by
  have hboot := (cleared_clearHalls s).same (.bootMemory (.refl (clearHalls s)))
  unfold wipe
  generalize bootMemory (clearHalls s) = u at hboot ⊢
  refine Cleared.same (s := { u with upd := updReset, recov := { u.recov with contexts := [], manifests := [], signWait := [], ctxParts := [] }
                                     sec := { u.sec with wiped := lifeCount u + 1 } }) ?_ (.stageDefaults (.setNum (.refl _) ..))
  exact hboot.same ⟨rfl, rfl, rfl⟩

theorem cleared_shutDown (tell : Bool) (s : Block) : Cleared (shutDown tell s) := by
  have hreset := (cleared_clearHalls (unload s)).same (.resetArcade (.refl _) tell)
  unfold shutDown
  dsimp only
  generalize resetArcade tell (clearHalls (unload s)) = u at hreset ⊢
  refine Cleared.same ?_ (.setNum (.setNum (.setSec (.setNum (.setNum (.railsTo (.refl _) 0) ..) ..) _) ..) ..)
  exact hreset.same ⟨rfl, rfl, rfl⟩

/-! ## The links are as the reset of the arcade leaves them until the plan is applied -/

section
variable (s : Block)

theorem arc_railsTo (n : Nat) : (railsTo n s).arc = s.arc := by
  unfold railsTo railUp railDown
  split
  · exact forEach_proj (f := fun a b => railUp a b) Block.arc (fun a _ b => by unfold railUp; split <;> rfl) s
  · exact forEach_proj (f := fun a b => railDown a b) Block.arc (fun a _ b => by unfold railDown; split <;> rfl) s

theorem arc_setStatus (key v notes alerts code : Nat) : (setStatus key v notes alerts code s).arc = s.arc :=
  (ReportFrame.setStatus (.refl s) ..).arc

theorem arc_setSec (v : Nat) : (setSec v s).arc = s.arc := by
  unfold setSec notifyNum
  dsimp only
  split
  · exact (ReportFrame.notify (.setNum (.refl s) ..) ..).arc
  · exact setNum_keeps_arc ..

theorem arc_freshWords : (freshWords s).arc = s.arc := by
  unfold freshWords reportShape
  dsimp only
  rw [arc_setSec, setNum_keeps_arc, setNum_keeps_arc, setNum_keeps_arc, arc_setStatus, setNum_keeps_arc, setNum_keeps_arc,
    setNum_keeps_arc]

theorem arc_resetObjects (keep : Nat → Bool) : (resetObjects keep s).arc = s.arc := by
  unfold resetObjects
  rw [setNum_keeps_arc, setNum_keeps_arc]

end

theorem SameRun.flushFatal {s t : Block} (h : SameRun s t) : SameRun s (flushFatal t) := h.trans ⟨rfl, rfl, rfl⟩

/-- The module after the halls, the arcade, the words and the objects of a warm reset. -/
theorem cleared_freshWords {u : Block} (h : Cleared u) (hready : NoneReady u) (a b : Vport) :
    Cleared (freshWords (resetKeys (resetObjects keepsWarm (railsTo 6 { u with portA := a, portB := b })))) ∧
      NoneReady (freshWords (resetKeys (resetObjects keepsWarm (railsTo 6 { u with portA := a, portB := b })))) := by
  have hports : Cleared { u with portA := a, portB := b } := h.same ⟨rfl, rfl, rfl⟩
  have hlinks : (railsTo 6 { u with portA := a, portB := b }).arc = u.arc := arc_railsTo { u with portA := a, portB := b } 6
  have hrails := hports.same (.railsTo (.refl _) 6)
  generalize railsTo 6 { u with portA := a, portB := b } = v at hlinks hrails ⊢
  have hkeys : Cleared (resetKeys (resetObjects keepsWarm v)) := (hrails.same (.resetObjects (.refl v) _)).same ⟨rfl, rfl, rfl⟩
  refine ⟨hkeys.same (.freshWords (.refl _)), noneReady_congr (s := u) ?_ hready⟩
  rw [arc_freshWords, show (resetKeys (resetObjects keepsWarm v)).arc = (resetObjects keepsWarm v).arc from rfl, arc_resetObjects,
    hlinks]

theorem Cleared.wipeDue {s : Block} (h : Cleared s) : Cleared (wipeDue s) := by
  unfold Machine.wipeDue
  split
  · exact cleared_wipe s
  · exact h

theorem cleared_warmReset (s : Block) : Cleared (warmReset s) := by
  unfold warmReset
  dsimp only
  generalize hc : clearHalls _ = c
  have hclear : Cleared c := by
    rw [← hc]
    exact cleared_clearHalls _
  obtain ⟨hfresh, hready⟩ := cleared_freshWords (hclear.same (.resetArcade (.refl c) true)) (noneReady_resetArcade true c)
    (portWarm (resetArcade true c).portA) (portWarm (resetArcade true c).portB)
  generalize freshWords _ = v at hfresh hready ⊢
  have hplan := hfresh.same (applyPlans_none hready (List.range 18)).2
  have harcade : Cleared (reportArcade (forEach (List.range 18) (applyPlan false) v)) :=
    hplan.same (SameRun.setStatus (.refl _) ..)
  have hselect := harcade.same (.selectFirmware (.refl _))
  generalize reportArcade _ = w at hselect ⊢
  split
  · exact ((hselect.same (.flushFatal (.refl _))).same (.recoverRecord (.refl _))).wipeDue
  · exact cleared_shutDown false _

/-! ## Errors of the hall bridge and the adapters -/

theorem port_modPort_same {p : Nat} (f : Vport → Vport) (s : Block) : port (modPort p f s) p = f (port s p) := by
  unfold port modPort
  split <;> rfl

theorem port_modPort_ne {p q : Nat} (hp : p < 2) (hq : q < 2) (h : q ≠ p) (f : Vport → Vport) (s : Block) :
    port (modPort p f s) q = port s q := by
  unfold port modPort
  by_cases hp0 : p = 0
  · rw [if_pos hp0, if_neg (by omega), if_neg (by omega)]
  · rw [if_neg hp0, if_pos (by omega), if_pos (by omega)]

theorem logs_modPort (p : Nat) (f : Vport → Vport) (s : Block) : (modPort p f s).logs = s.logs := by
  unfold modPort
  split <;> rfl

/-- An entry that goes to its queue leaves the records and the vestibules. -/
theorem cper_putEvent (q code sev loc : Nat) (inj rec : Bool) (tag addr : Nat) (extra : Bytes) (s : Block) :
    (putEvent q code sev loc inj rec tag addr extra s).logs.cper = s.logs.cper := by
  unfold putEvent
  dsimp only
  split
  · rw [logs_bumpNum]
  · rfl

section
variable (code loc : Nat) (inj : Bool) (s : Block)

/-- A fatal event makes its record at once. -/
theorem getLast?_detectFatal : ∃ r, (detectFatal code loc inj s).logs.cper.getLast? = some r ∧ r.code = code ∧
    r.severity = 1 ∧ r.loc = loc := by
  unfold detectFatal
  rw [cper_putEvent]
  exact ⟨_, getLast?_makeCper .., rfl, rfl, rfl⟩

theorem mem_detectFatal (h : (mapGet [] s.logs.queues (queueOf loc)).length < 256) : ∃ e : ErrEntry,
    mapGet [] (detectFatal code loc inj s).logs.queues (queueOf loc) = mapGet [] s.logs.queues (queueOf loc) ++ [e] ∧
      e.detector = code ∧ e.sev = 1 ∧ e.recorded = true := by
  have hqueues : (cperNow code 1 (b2n inj) 0 0 loc 0 [] s).logs.queues = s.logs.queues := queues_makeCper ..
  unfold detectFatal
  generalize cperNow code 1 (b2n inj) 0 0 loc 0 [] s = c at hqueues ⊢
  rw [← hqueues] at h ⊢
  exact ⟨_, mem_putEvent _ _ _ _ _ _ _ _ _ h, rfl, rfl, rfl⟩

end

/-- Settles O36: an event that finds room stands last in its queue; a failed vote makes its record and its entry, and the warm
reset that follows clears the program, the queues and the freeze. -/
theorem bridgeAndAdapterErrors : Obligations.BridgeAndAdapterErrors := by
  unfold Obligations.BridgeAndAdapterErrors
  refine ⟨fun s vote hroom => ?_, fun s p hp hlink hroom => ?_, fun s hhalls => ?_⟩
  · exact ⟨_, rfl, rfl, _, mem_putEvent _ _ _ _ _ _ _ _ _ hroom, rfl, rfl, rfl, rfl⟩
  · have hexec : exec (.adapterRetry p) s = .next { s with toBlock := (detectAt (50 + p) 0x19 (domLoc 9) false 0 0 []
        (modPort p (fun v => { v with retryCnt := satN 32 (v.retryCnt + 1) }) s.toBlock)) } := by
      refine Eq.trans (if_neg (by omega)) (effect_of_eq (f := doAdapterRetry p) ?_)
      exact if_neg (by omega)
    have hlogs := logs_modPort p (fun v => { v with retryCnt := satN 32 (v.retryCnt + 1) }) s.toBlock
    have hport := port_modPort_same (p := p) (fun v => { v with retryCnt := satN 32 (v.retryCnt + 1) }) s.toBlock
    generalize modPort p (fun v => { v with retryCnt := satN 32 (v.retryCnt + 1) }) s.toBlock = c at hexec hlogs hport
    rw [← hlogs] at hroom
    refine ⟨_, hexec, rfl, ?_, entryOf 0x19 2 (domLoc 9) 0 0 false false [] c, ?_, rfl, rfl, rfl, rfl⟩
    · unfold detectAt
      dsimp only
      rw [putEvent_room _ _ _ _ _ _ _ _ _ hroom]
      refine (congrArg Vport.retryCnt hport).trans ?_
      exact satN_eq_min ..
    · rw [← hlogs]
      exact mem_putEvent _ _ _ _ _ _ _ _ _ hroom
  · dsimp only
    have hexec : exec .hallBridgeVoteFail s = .next { s with toBlock := warmReset (detectFatal 0x0F (domLoc 8) false s.toBlock) } :=
      effect_of_eq (f := doVoteFail) (if_neg (by rw [hhalls]; simp))
    have hclear := cleared_warmReset (detectFatal 0x0F (domLoc 8) false s.toBlock)
    refine ⟨getLast?_detectFatal .., fun h => mem_detectFatal _ _ _ _ h, hexec, ?_⟩
    generalize warmReset _ = w at hexec hclear
    exact ⟨_, hexec, rfl, hclear.prog, hclear.queues, hclear.freeze⟩

end Sys2Proof.Machine
end

section
/-! SUPPORT. The object numbers that reports leave alone; restarts of processors (R432); O37. -/

namespace Sys2Proof.Machine

/-! ## Numbers -/

/-- The counters of the portico, which every notify changes. -/
def notifyKeys : List Nat := [0x340102, 0x340105]

section
variable {key k : Nat} (s : Block)

theorem num_bumpNum_ne (h : k ≠ key) (w n : Nat) : num (bumpNum key w n s) k = num s k := num_setNum_ne _ _ _ _ h

theorem num_alert (code word : Nat) : num (alert code word s) k = num s k := rfl

theorem num_notify (h : k ∉ notifyKeys) (v : Bytes) : num (notify key v s) k = num s k := by
  simp only [notifyKeys, List.mem_cons, List.not_mem_nil, or_false, not_or] at h
  unfold notify
  dsimp only
  rw [num_bumpNum_ne _ h.2, num_bumpNum_ne _ h.1]
  rfl

theorem num_setStatus_ne (hkey : k ≠ key) (h : k ∉ notifyKeys) (v notes alerts code : Nat) :
    num (setStatus key v notes alerts code s) k = num s k := by
  have hset := num_setNum_ne key k v s hkey
  unfold setStatus notifyNum
  dsimp only
  split
  · rw [num_alert]
    split
    · rw [num_notify _ h, hset]
    · exact hset
  · split
    · rw [num_notify _ h, hset]
    · exact hset

theorem num_setStatus_same (h : key ∉ notifyKeys) (v notes alerts code : Nat) :
    num (setStatus key v notes alerts code s) key = v := by
  unfold setStatus notifyNum
  dsimp only
  split
  · rw [num_alert]
    split
    · rw [num_notify _ h, num_setNum_same]
    · exact num_setNum_same ..
  · split
    · rw [num_notify _ h, num_setNum_same]
    · exact num_setNum_same ..

theorem num_setFwBit (hkey : k ≠ 0x801000) (h : k ∉ notifyKeys) (n : Nat) (b : Bool) : num (setFwBit n b s) k = num s k := by
  unfold setFwBit
  dsimp only
  split
  · rw [num_alert, num_setStatus_ne _ hkey h]
  · exact num_setStatus_ne _ hkey h ..

/-- The numbers that a dropped signature changes (R432). -/
def trimKeys : List Nat := 0x801000 :: 0x803005 :: notifyKeys

theorem num_dropSignature (h : k ∉ trimKeys) : num (dropSignature s) k = num s k := by
  simp only [trimKeys, List.mem_cons, not_or] at h
  obtain ⟨hword, hcount, hnotify⟩ := h
  unfold dropSignature
  split
  · rfl
  split
  · rfl
  · split
    · rfl
    · rw [num_setFwBit _ hword hnotify, num_bumpNum_ne _ hcount]
      rfl

theorem num_trimBuffer (h : k ∉ trimKeys) : num (trimBuffer s) k = num s k := by
  have hiter : ∀ (n : Nat) (t : Block), num (iter dropSignature n t) k = num t k := by
    intro n
    induction n with
    | zero => exact fun _ => rfl
    | succ n ih => exact fun t => (ih (dropSignature t)).trans (num_dropSignature t h)
  unfold trimBuffer
  split
  · rfl
  · exact hiter _ s

theorem num_setDom (v : Bytes) : num (setDom key v s) k = num s k := rfl

theorem num_reportProcs (hkey : k ≠ 0x801000) (h : k ∉ notifyKeys) : num (reportProcs s) k = num s k := by
  unfold reportProcs
  rw [num_setFwBit _ hkey h, num_setFwBit _ hkey h]

end

/-! ## Restarts -/

section
variable {n : Nat} (s : Block)

@[simp] theorem proc_setProc_same (p : Proc) : proc (setProc n p s) n = p := mapGet_mapSet_same ..

theorem proc_setProc_ne {m : Nat} (h : m ≠ n) (p : Proc) : proc (setProc n p s) m = proc s m := mapGet_mapSet_ne _ _ _ _ _ h

theorem proc_congr {s t : Block} (h : t.fw = s.fw) (m : Nat) : proc t m = proc s m := by
  unfold proc
  rw [h]

theorem fw_setFwBit (b : Bool) : (setFwBit n b s).fw = s.fw := (RecordFrame.setFwBit (.refl s) ..).fw

theorem fw_trimBuffer : (trimBuffer s).fw = s.fw := (RecordFrame.trimBuffer (.refl s)).fw

theorem fw_reportProcs : (reportProcs s).fw = s.fw := by
  unfold reportProcs
  rw [fw_setFwBit, fw_setFwBit]

theorem fw_countRestart : (countRestart n s).fw = s.fw := by
  unfold countRestart
  split
  · exact setNum_keeps_fw ..
  · exact setNum_keeps_fw ..

theorem proc_beginRestart (staged : Bool) (m : Nat) : proc (beginRestart n staged s) m =
    if m = n then { proc s n with running := false, halted := false, hold100 := false, staged } else proc s m := by
  unfold beginRestart
  rw [proc_congr ((fw_reportProcs _).trans (fw_countRestart _))]
  split
  · next h => rw [h, proc_setProc_same]
  · next h => exact proc_setProc_ne _ h _

/-- The object that counts a processor's restarts (R432). -/
def restartKey (n : Nat) : Nat := if n < 3 then 0x803001 + n else 0x803004

theorem num_beginRestart (staged : Bool) :
    num (beginRestart n staged s) (restartKey n) = min (2 ^ 32 - 1) (num s (restartKey n) + 1) := by
  have hword : restartKey n ≠ 0x801000 := by unfold restartKey; split <;> omega
  have hnotify : restartKey n ∉ notifyKeys := by
    unfold restartKey notifyKeys
    simp only [List.mem_cons, List.not_mem_nil, or_false, not_or]
    split <;> omega
  unfold beginRestart
  rw [num_reportProcs _ hword hnotify]
  unfold countRestart restartKey
  split
  · rw [num_bumpNum]
    rfl
  · rw [num_bumpNum]
    rfl

theorem restartKey_not_trim : restartKey n ∉ trimKeys := by
  unfold restartKey trimKeys notifyKeys
  simp only [List.mem_cons, List.not_mem_nil, or_false, not_or]
  split <;> omega

theorem pwr_trimBuffer : (trimBuffer s).pwr = s.pwr := by rw [(RecordFrame.trimBuffer (.refl s)).eq]

theorem pwr_setFwBit (b : Bool) : (setFwBit n b s).pwr = s.pwr := by rw [(RecordFrame.setFwBit (.refl s) ..).eq]

theorem pwr_beginRestart (staged : Bool) : (beginRestart n staged s).pwr = s.pwr := by
  unfold beginRestart reportProcs
  rw [pwr_setFwBit, pwr_setFwBit]
  unfold countRestart
  split
  · exact setNum_keeps_pwr ..
  · exact setNum_keeps_pwr ..

theorem procUp_eq (h : (proc s n).running = true) (hheld : (proc s n).held = false) (hp : pstate s ≠ 0) : procUp s n = true := by
  unfold procUp
  rw [h, hheld, decide_eq_true hp]
  rfl

end

/-- Settles O37: a restart touches the one processor, and its count; the buffers that are trimmed with it hold no processor. -/
theorem processorsRestartOnAWatchdogOrAMismatch : Obligations.ProcessorsRestartOnAWatchdogOrAMismatch := by
  unfold Obligations.ProcessorsRestartOnAWatchdogOrAMismatch
  refine ⟨fun s n hn hrun hheld hp => ?_, fun s n hn hrun hheld hp => ?_⟩
  · have hexec : exec (.processorWatchdog n) s =
        .next { s with toBlock := trimBuffer (beginRestart n (proc s.toBlock n).staged s.toBlock) } :=
      (onProc_there hn _ s).trans (effect_of_eq (f := doProcWatchdog n) (if_pos (procUp_eq _ hrun hheld hp)))
    have hproc : ∀ m, proc (trimBuffer (beginRestart n (proc s.toBlock n).staged s.toBlock)) m = _ := fun m =>
      (proc_congr (fw_trimBuffer _) m).trans (proc_beginRestart s.toBlock (proc s.toBlock n).staged m)
    have hcount := (num_trimBuffer (beginRestart n (proc s.toBlock n).staged s.toBlock) (restartKey_not_trim (n := n))).trans
      (num_beginRestart ..)
    generalize trimBuffer _ = t at hexec hproc hcount
    refine ⟨_, hexec, rfl, ?_, ?_, fun h => ?_, fun h => ?_, fun m hm => ?_⟩
    · rw [hproc, if_pos rfl]
    · rw [hproc, if_pos rfl]
    · unfold restartKey at hcount
      rw [if_pos h] at hcount
      exact hcount
    · unfold restartKey at hcount
      rw [if_neg (by omega)] at hcount
      exact hcount
    · rw [hproc, if_neg hm]
  · have hup : ¬((!(procUp s.toBlock n)) = true ∨ n ≠ 0 ∧ n ≠ 2) := by
      rw [procUp_eq _ hrun hheld hp]
      simp only [Bool.not_true, Bool.false_eq_true, false_or]
      omega
    have hexec : exec (.lockstepMismatch n) s = .next { s with toBlock := lockstepHit n false s.toBlock } :=
      (onProc_there (by omega) _ s).trans (effect_of_eq (f := doLockstep n) (if_neg hup))
    obtain ⟨u, hu, hfw, hpwr⟩ : ∃ u, lockstepHit n false s.toBlock = trimBuffer (beginRestart n (proc s.toBlock n).staged u) ∧
        u.fw = s.fw ∧ u.pwr.lockLatch = s.pwr.lockLatch ++ [(if n = 2 then 0x04 else 0x05, false)] := by
      have hframe : ∀ b, ReportFrame b (setRelBit 0 true b) := fun b => .setStatus (.refl b) ..
      refine ⟨_, rfl, ?_, ?_⟩
      · exact (hframe _).fw
      · rw [(hframe _).pwr]
    have hproc : ∀ m, proc (lockstepHit n false s.toBlock) m = _ := fun m =>
      (hu ▸ proc_congr (fw_trimBuffer _) m).trans (proc_beginRestart u (proc s.toBlock n).staged m)
    have hlatch : (lockstepHit n false s.toBlock).pwr = u.pwr := by rw [hu, pwr_trimBuffer, pwr_beginRestart]
    generalize lockstepHit n false s.toBlock = t at hexec hproc hlatch
    refine ⟨_, hexec, rfl, ?_, ?_, fun m hm => ?_⟩
    · rw [hproc, if_pos rfl]
    · rw [hlatch]
      exact hpwr
    · rw [hproc, if_neg hm, proc_congr hfw]

end Sys2Proof.Machine
end

section
/-! SUPPORT. The transmitter of a link and the sending of packets: what they leave of the links (R256 to R261, R272, R282). -/

namespace Sys2Proof.Machine

/-! ## The transmitter -/

/-- What the transmitter may change of a link. -/
def TxFrame (k k' : Link) : Prop :=
  k' = { k with
    wait := k'.wait, sent := k'.sent, slots := k'.slots, turn := k'.turn, lastLane := k'.lastLane, laneCount := k'.laneCount
    nextLseq := k'.nextLseq, credits := k'.credits, freed := k'.freed, tellAck := k'.tellAck, tell := k'.tell, out := k'.out }

theorem TxFrame.refl (k : Link) : TxFrame k k := rfl

section
variable {k k' : Link} (h : TxFrame k k')
include h

theorem TxFrame.eq : k' = { k with
    wait := k'.wait, sent := k'.sent, slots := k'.slots, turn := k'.turn, lastLane := k'.lastLane, laneCount := k'.laneCount
    nextLseq := k'.nextLseq, credits := k'.credits, freed := k'.freed, tellAck := k'.tellAck, tell := k'.tell, out := k'.out } := h

theorem TxFrame.state : k'.state = k.state := by rw [h.eq]
theorem TxFrame.reason : k'.reason = k.reason := by rw [h.eq]
theorem TxFrame.active : k'.active = k.active := by rw [h.eq]
theorem TxFrame.failed : k'.failed = k.failed := by rw [h.eq]
theorem TxFrame.spareUsed : k'.spareUsed = k.spareUsed := by rw [h.eq]
theorem TxFrame.spareTraining : k'.spareTraining = k.spareTraining := by rw [h.eq]
theorem TxFrame.signal : k'.signal = k.signal := by rw [h.eq]
theorem TxFrame.beacon : k'.beacon = k.beacon := by rw [h.eq]
theorem TxFrame.counters : k'.counters = k.counters := by rw [h.eq]
theorem TxFrame.rxCount : k'.rxCount = k.rxCount := by rw [h.eq]

theorem TxFrame.trans {k'' : Link} (h' : TxFrame k' k'') : TxFrame k k'' := by
  unfold TxFrame at h h' ⊢
  rw [h', h]

end

theorem TxFrame.ite {k a b : Link} (ha : TxFrame k a) (hb : TxFrame k b) {c : Prop} {_ : Decidable c} :
    TxFrame k (if c then a else b) := by
  split
  · exact ha
  · exact hb

section
variable (k : Link) (f : Flit)

theorem stampFlit_frame : TxFrame k (stampFlit k f).1 := by
  unfold stampFlit
  dsimp only
  split <;> rfl

/-- Acknowledgement and credits leave the rest of a flit. -/
theorem stampFlit_flit : (stampFlit k f).2 = { f with
    ack := (stampFlit k f).2.ack, ackv := (stampFlit k f).2.ackv, cvc := (stampFlit k f).2.cvc, cred := (stampFlit k f).2.cred } := by
  unfold stampFlit
  dsimp only
  split <;> rfl

theorem laneFlit_frame : TxFrame k (laneFlit f k) := rfl

theorem putFlit_frame : TxFrame k (putFlit f k) := by
  unfold putFlit
  exact .ite (.refl k) ((stampFlit_frame k f).trans (laneFlit_frame _ _))

theorem tellPeer_frame : TxFrame k (tellPeer k) := by
  have hfold : ∀ (l : List (Nat × Nat × Nat)) (j : Link),
      TxFrame j (l.foldl (fun k e => putFlit (controlFlit e.1 e.2.1 e.2.2) k) j) := by
    intro l
    induction l with
    | nil => exact .refl
    | cons e l ih => exact fun j => (putFlit_frame j _).trans (ih _)
  unfold tellPeer
  exact TxFrame.trans (k' := { k with tell := [] }) rfl (hfold k.tell _)

theorem iter_frame {g : Link → Link} (hg : ∀ k, TxFrame k (g k)) (n : Nat) (k : Link) : TxFrame k (iter g n k) := by
  induction n generalizing k with
  | zero => exact .refl k
  | succ n ih => exact (hg k).trans (ih _)

theorem idleFlits_frame : TxFrame k (idleFlits k) := iter_frame (fun k => .ite (putFlit_frame k _) (.refl k)) 5 k

theorem giveLane_frame (t : TxFlit) (resend : Bool) : TxFrame k (giveLane t resend k) := by
  have hstamp := stampFlit_frame k t.flit
  unfold giveLane
  dsimp only
  generalize stampFlit k t.flit = r at hstamp ⊢
  obtain ⟨j, g⟩ := r
  exact hstamp.trans (TxFrame.trans (k' := { j with sent := _ }) rfl (laneFlit_frame _ _))

theorem sendOne_frame : TxFrame k (sendOne k) := by
  unfold sendOne
  split
  · exact .refl k
  · split
    · exact .refl k
    · split
      · exact .refl k
      · dsimp only
        exact TxFrame.trans (k' := { k with
          wait := _, credits := _, slots := _, turn := _, nextLseq := _ }) rfl (giveLane_frame _ _ _)

theorem pumpLink_frame : TxFrame k (pumpLink k) := iter_frame sendOne_frame _ k

theorem takeAck_frame : TxFrame k (takeAck f k) := by
  unfold takeAck
  dsimp only
  refine TxFrame.trans (k' := { (if f.ackv = true then { k with sent := ackSent f.ack k.sent } else k) with credits := _ }) ?_
    (pumpLink_frame _)
  split <;> rfl

end

/-! ## Sending -/

/-- What the sending of packets leaves: only links that are UP change, and only their transmitters. -/
structure LinkSends (s t : Block) : Prop where
  slot : t.arc.slot = s.arc.slot
  frame : ∀ m, TxFrame (link s m) (link t m)
  idle : ∀ m, (link s m).state ≠ 5 → link t m = link s m

theorem link_congr {s t : Block} (h : t.arc.links = s.arc.links) (m : Nat) : link t m = link s m := by
  unfold link
  rw [h]

theorem LinkSends.of_arc {s t : Block} (hslot : t.arc.slot = s.arc.slot) (hlinks : t.arc.links = s.arc.links) : LinkSends s t where
  slot := hslot
  frame m := by rw [link_congr hlinks]; exact .refl _
  idle m _ := link_congr hlinks m

theorem LinkSends.of_arc_eq {s t : Block} (h : t.arc = s.arc) : LinkSends s t := .of_arc (by rw [h]) (by rw [h])

theorem LinkSends.refl (s : Block) : LinkSends s s := .of_arc rfl rfl

theorem LinkSends.trans {s t u : Block} (h : LinkSends s t) (h' : LinkSends t u) : LinkSends s u where
  slot := h'.slot.trans h.slot
  frame m := (h.frame m).trans (h'.frame m)
  idle m hm := (h'.idle m (by rw [(h.frame m).state]; exact hm)).trans (h.idle m hm)

theorem LinkSends.ite {s t u : Block} (ht : LinkSends s t) (hu : LinkSends s u) {c : Prop} {_ : Decidable c} : LinkSends s (if c then t else u) := by
  split
  · exact ht
  · exact hu

theorem LinkSends.forEach {α : Type} {f : α → Block → Block} (hf : ∀ a b, LinkSends b (f a b)) (l : List α) (s : Block) :
    LinkSends s (forEach l f s) := forEach_induction (P := LinkSends s) (fun a _ _ h => h.trans (hf a _)) (.refl s)

section
variable (s : Block)

theorem state_portLink {port shall l : Nat} (h : portLink s port shall = some l) : (link s l).state = 5 := by
  have hup : ∀ m ∈ (maskBits 18 (portMask s port)).filter (fun l => (link s l).state == 5 && s.arc.routes.contains l),
      (link s m).state = 5 := fun m hm => by
    have := (List.mem_filter.mp hm).2
    rw [Bool.and_eq_true] at this
    exact beq_iff_eq.mp this.1
  unfold portLink at h
  dsimp only at h
  split at h
  · next a ha =>
    rw [← Option.some.inj h]
    exact hup _ (List.mem_of_find?_eq_some ha)
  · exact hup _ (List.mem_of_head? h)

theorem state_pathTo {dst shall l : Nat} {det : Bool} (h : pathTo s dst shall = some (l, det)) : (link s l).state = 5 := by
  unfold pathTo at h
  split at h
  · next a ha =>
    obtain ⟨i, -, hi⟩ := Option.bind_eq_some_iff.mp ha
    obtain ⟨rfl, -⟩ := Prod.mk.inj (Option.some.inj h)
    exact state_portLink s hi
  · split at h
    · exact absurd h nofun
    · next i hi =>
      obtain ⟨a, ha, heq⟩ := Option.map_eq_some_iff.mp h
      obtain ⟨rfl, -⟩ := Prod.mk.inj heq
      exact state_portLink s ha

/-- A packet's path begins with a link that is UP. -/
theorem state_streamPath {p : Packet} {l : Nat} {det : Bool} (h : streamPath s p = some (l, det)) : (link s l).state = 5 := by
  unfold streamPath at h
  split at h
  · exact state_pathTo s h
  · split at h
    · next hup =>
      obtain ⟨rfl, -⟩ := Prod.mk.inj (Option.some.inj h)
      exact hup.1
    · exact state_pathTo s h

theorem linkSends_modLink {l : Nat} {f : Link → Link} (hup : (link s l).state = 5) (hf : ∀ k, TxFrame k (f k)) :
    LinkSends s (modLink l f s) where
  slot := rfl
  frame m := by
    unfold modLink
    by_cases h : m = l
    · rw [h, link_setLink_same]
      exact hf _
    · rw [link_setLink_ne h]
      exact .refl _
  idle m hm := link_setLink_ne (fun h => hm (by rw [h]; exact hup)) _ _

theorem LinkSends.enqueue {s t : Block} (h : LinkSends s t) {l : Nat} (again : Bool) (desc : Nat) (p : Packet)
    (hup : (link t l).state = 5) : LinkSends s (enqueue again l desc p t) :=
  h.trans (linkSends_modLink t hup (fun k => TxFrame.trans (k' := { k with wait := _ }) rfl (pumpLink_frame _)))

theorem linkSends_reportArcade : LinkSends s (reportArcade s) := .of_arc_eq (arc_reportArcade s)

theorem linkSends_launch (again : Bool) (desc : Nat) (p : Packet) : LinkSends s (launch again desc p s) := by
  unfold launch
  split
  · exact .of_arc_eq (arc_losePacket ..)
  · next l det hpath =>
    have hup := state_streamPath s hpath
    dsimp only
    generalize hu : (if det = true then reportArcade _ else _ : Block) = u
    have hsend : LinkSends s u := by
      rw [← hu]
      refine .ite (.trans ?_ (linkSends_reportArcade _)) ?_
      · refine .of_arc ?_ ?_
        · dsimp only
          split <;> rfl
        · dsimp only
          split <;> rfl
      · refine .ite ?_ ?_
        · exact .of_arc rfl rfl
        · exact .of_arc rfl rfl
    have hup' : (link u l).state = 5 := (hsend.frame l).state.trans hup
    refine .ite (.ite ?_ (.enqueue ?_ _ _ _ ?_)) (hsend.enqueue _ _ _ hup')
    · exact hsend.trans (.of_arc rfl rfl)
    · exact hsend.trans (.of_arc rfl rfl)
    · exact hup'

theorem linkSends_sendPacket (desc : Nat) (p : Packet) : LinkSends s (sendPacket desc p s) := by
  unfold sendPacket
  dsimp only
  refine .ite ?_ (.ite ?_ ?_)
  · exact .of_arc rfl rfl
  · exact .of_arc rfl rfl
  · refine .trans ?_ (linkSends_launch _ _ _ _)
    exact .of_arc rfl rfl

theorem linkSends_sendCtrl (dst vc cepoch : Nat) (data : Bytes) : LinkSends s (sendCtrl dst vc cepoch data s) := by
  unfold sendCtrl sendCtrlFor
  exact .ite (.refl s) (linkSends_sendPacket ..)

theorem linkSends_portsChanged : LinkSends s (portsChanged s) := by
  unfold portsChanged
  dsimp only
  have hreport := linkSends_reportArcade s
  generalize reportArcade s = u at hreport ⊢
  refine .ite hreport (hreport.trans (.trans ?_ (.forEach (fun _ b => linkSends_sendCtrl b ..) _ _)))
  exact .of_arc rfl rfl

theorem linkSends_resendAll (fs : List TxFlit) : LinkSends s (resendAll fs s) := .forEach (fun _ b => linkSends_launch b ..) _ _

theorem linkSends_releaseRetain : LinkSends s (releaseRetain s) :=
  LinkSends.trans (t := { s with arc := { s.arc with retainWait := [] } }) (.of_arc rfl rfl) (.forEach (fun _ b => linkSends_launch b ..) _ _)

theorem linkSends_detect (code loc : Nat) (inj : Bool) (tag addr : Nat) (extra : Bytes) : LinkSends s (detect code loc inj tag addr extra s) :=
  .of_arc_eq (ReportFrame.detect (.refl s) ..).arc

end

end Sys2Proof.Machine
end

section
/-! SUPPORT. Links that fail, train and align (R263, R276, R280, R281); O40 and O39. -/

namespace Sys2Proof.Machine

/-! ## A link goes down -/

/-- A link has gone down: it holds nothing to send, and the other links keep their states. -/
structure LinkGone (l reason st : Nat) (s t : Block) : Prop where
  state : (link t l).state = st
  reason : (link t l).reason = reason
  active : (link t l).active = 0
  sent : (link t l).sent = []
  wait : (link t l).wait = []
  failed : (link t l).failed = (link s l).failed
  signal : (link t l).signal = (link s l).signal
  beacon : (link t l).beacon = (link s l).beacon
  slot : t.arc.slot = s.arc.slot
  others : ∀ m, m ≠ l → (link t m).state = (link s m).state

/-- A link without its traffic. -/
def emptied (reason st : Nat) (k : Link) : Link :=
  { k with
    state := st, reason := reason, holdOver := false, active := 0, sent := [], wait := [], reorder := [], partials := []
    freed := [], credits := [], spareTraining := false }

theorem linkGone_linkGoes {l reason st : Nat} {s : Block} (inj : Bool) (h9 : (link s l).state ≠ 9) (h8 : (link s l).state ≠ 8)
    (hslot : s.arc.slot < 72) (hst : st ≠ 5) : LinkGone l reason st s (linkGoes inj l reason st s) := by
  unfold linkGoes
  dsimp only
  rw [if_neg (by omega)]
  generalize hk : (if (carries (link s l).state && reason != 1 && reason != 6 && reason != 12) = true then putFlit (controlFlit 4 l reason) (link s l) else link s l) = k
  have hframe : TxFrame (link s l) k := by
    rw [← hk]
    exact .ite (putFlit_frame _ _) (.refl _)
  have hsends : ∀ (c : Prop) [Decidable c] (fs : List TxFlit) (u : Block),
      LinkSends u (portsChanged (resendAll fs (portsChanged (if c then detect 0x0E (laneLoc l 0) inj 0 0 [] u else u)))) :=
    fun c _ fs u => ((LinkSends.ite (linkSends_detect u ..) (.refl u)).trans (linkSends_portsChanged _)).trans
      ((linkSends_resendAll _ fs).trans (linkSends_portsChanged _))
  change LinkGone l reason st s (portsChanged (resendAll _ (portsChanged (if carries (link s l).state = true then
    detect 0x0E (laneLoc l 0) inj 0 0 [] (setLink l (emptied reason st k) s) else setLink l (emptied reason st k) s))))
  generalize hu : setLink l (emptied reason st k) s = u
  have hlink : link u l = emptied reason st k := by
    rw [← hu]
    exact link_setLink_same ..
  have hothers : ∀ m, m ≠ l → link u m = link s m := fun m hm => by
    rw [← hu]
    exact link_setLink_ne hm ..
  have hsend := hsends (carries (link s l).state = true) ((link s l).sent ++ (link s l).wait) u
  have hidle := hsend.idle l (by rw [hlink]; exact hst)
  refine ⟨?_, ?_, ?_, ?_, ?_, ?_, ?_, ?_, ?_, fun m hm => ?_⟩
  · rw [hidle, hlink]
    rfl
  · rw [hidle, hlink]
    rfl
  · rw [hidle, hlink]
    rfl
  · rw [hidle, hlink]
    rfl
  · rw [hidle, hlink]
    rfl
  · rw [hidle, hlink]
    exact hframe.failed
  · rw [hidle, hlink]
    exact hframe.signal
  · rw [hidle, hlink]
    exact hframe.beacon
  · rw [hsend.slot, ← hu]
    rfl
  · rw [(hsend.frame m).state, hothers m hm]

theorem carries_states {st : Nat} (h : carries st = true) : st = 3 ∨ st = 4 ∨ st = 5 ∨ st = 6 := by
  unfold carries at h
  simp only [Bool.or_eq_true, beq_iff_eq] at h
  omega

section
variable {s : State} {l : Nat} (hl : l < 18) (hhalls : halls s.toBlock = true)
include hl hhalls

theorem onLink_acts (f : Block → Block) : onLink l f s = .next { s with toBlock := f s.toBlock } :=
  Eq.trans (if_neg (by omega)) (effect_of_eq (f := fun s => if halls s then f s else s) (if_pos hhalls))

theorem onLane_acts {lane : Nat} (hlane : lane < 25) (f : Block → Block) : onLane l lane f s = .next { s with toBlock := f s.toBlock } :=
  Eq.trans (if_neg (by omega)) (effect_of_eq (f := fun s => if halls s then f s else s) (if_pos hhalls))

end

/-- Settles O40: every event takes its link down by `linkGoes`, whose packets then take other links and leave its state. -/
theorem aLinkFailsWithItsReason : Obligations.ALinkFailsWithItsReason := by
  unfold Obligations.ALinkFailsWithItsReason
  dsimp only
  intro s l reason hl hhalls hslot
  have hgoes : ∀ (r st : Nat) (b : Block), b.arc.slot = s.arc.slot → (∀ m, (link b m).state = (link s.toBlock m).state) →
      (link s.toBlock l).state ≠ 8 → (link s.toBlock l).state ≠ 9 → st ≠ 5 → LinkGone l r st b (linkDown l r st b) :=
    fun r st b hb hstates h8 h9 hst => linkGone_linkGoes false (by rw [hstates]; exact h9) (by rw [hstates]; exact h8)
      (by rw [hb]; exact hslot) hst
  have hgone : ∀ (r st : Nat) (i : Instr) (f : Block → Block), exec i s = onLink l f s →
      f s.toBlock = linkDown l r st s.toBlock → (link s.toBlock l).state ≠ 8 → (link s.toBlock l).state ≠ 9 → st ≠ 5 →
      answers i s (fun t => (link t l).state = st ∧ (link t l).reason = r ∧ (link t l).active = 0 ∧ (link t l).sent = [] ∧
        (link t l).wait = [] ∧ ∀ m, m ≠ l → (link t m).state = (link s.toBlock m).state) := by
    intro r st i f he hf h8 h9 hst
    have h := hgoes r st s.toBlock rfl (fun _ => rfl) h8 h9 hst
    rw [← hf] at h
    exact ⟨_, he.trans (onLink_acts hl hhalls f), rfl, h.state, h.reason, h.active, h.sent, h.wait, h.others⟩
  refine ⟨fun hst => ⟨?_, ?_⟩, fun hst => ⟨?_, ?_⟩, fun hst => ⟨?_, ?_⟩, fun hst => ?_⟩
  · exact hgone 2 7 _ (doTrainTimeout l) rfl (if_pos hst) (by omega) (by omega) (by decide)
  · refine hgone 2 7 _ (doTrained l 0) rfl ?_ (by omega) (by omega) (by decide)
    unfold doTrained
    dsimp only
    rw [if_neg (by omega), if_pos (Nat.and_zero _)]
  · exact hgone 3 7 _ (doAlignTimeout l) rfl (if_pos hst) (by omega) (by omega) (by decide)
  · refine hgone 3 7 _ (doAligned l 0) rfl ?_ (by omega) (by omega) (by decide)
    unfold doAligned
    dsimp only
    rw [if_neg (by omega), if_pos (Nat.and_zero _)]
  · have hstates := carries_states hst
    have hlink : ∀ m, (link (modLink l (fun k => { k with signal := false }) s.toBlock) m).state = (link s.toBlock m).state := fun m => by
      unfold modLink
      by_cases hm : m = l
      · rw [hm, link_setLink_same]
      · rw [link_setLink_ne hm]
    have hsignal : (link (modLink l (fun k => { k with signal := false }) s.toBlock) l).signal = false :=
      congrArg Link.signal (link_setLink_same ..)
    have hdo : doLossOfSignal l s.toBlock = linkDown l 1 7 (modLink l (fun k => { k with signal := false }) s.toBlock) := if_pos hst
    have h := hgoes 1 7 (modLink l (fun k => { k with signal := false }) s.toBlock) rfl hlink (by omega) (by omega) (by decide)
    rw [← hdo] at h
    exact ⟨_, onLink_acts hl hhalls (doLossOfSignal l), rfl, ⟨h.state, h.reason, h.active, h.sent, h.wait,
      fun m hm => (h.others m hm).trans (hlink m)⟩, h.signal.trans hsignal⟩
  · exact hgone 12 0 _ (doDown l) rfl (if_pos hst) (by have := carries_states hst; omega) (by have := carries_states hst; omega) (by decide)
  · exact hgone 6 7 _ (doLinkNoFlit l) rfl (if_pos hst) (by omega) (by omega) (by decide)

end Sys2Proof.Machine
end

section
/-! SUPPORT. Lanes that lock, and links that train and align (R262, R263, R276); O39. -/

namespace Sys2Proof.Machine

/-! ## The values in force -/

section
variable (s : Block)

theorem forceN_setNum (key v : Nat) : (setNum key v s).store.forceN = s.store.forceN := by
  have hmirror : ∀ o, (noteMirror key o s).store.forceN = s.store.forceN := fun o => by
    unfold noteMirror
    split <;> rfl
  unfold setNum
  dsimp only
  split
  · rfl
  · exact hmirror _

theorem forceN_bumpNum (key w n : Nat) : (bumpNum key w n s).store.forceN = s.store.forceN := forceN_setNum ..

theorem forceN_notify (key : Nat) (v : Bytes) : (notify key v s).store.forceN = s.store.forceN := by
  unfold notify
  dsimp only
  rw [forceN_bumpNum, forceN_bumpNum]

theorem forceN_setStatus (key v notes alerts code : Nat) : (setStatus key v notes alerts code s).store.forceN = s.store.forceN := by
  have halert : ∀ (c w : Nat) (t : Block), (alert c w t).store.forceN = t.store.forceN := fun _ _ _ => rfl
  unfold setStatus notifyNum
  dsimp only
  split
  · rw [halert]
    split
    · rw [forceN_notify, forceN_setNum]
    · exact forceN_setNum ..
  · split
    · rw [forceN_notify, forceN_setNum]
    · exact forceN_setNum ..

theorem forceN_setFwBit (n : Nat) (b : Bool) : (setFwBit n b s).store.forceN = s.store.forceN := by
  unfold setFwBit
  dsimp only
  split
  · exact forceN_setStatus ..
  · exact forceN_setStatus ..

theorem forceN_trimBuffer : (trimBuffer s).store.forceN = s.store.forceN := by
  have hdrop : ∀ t : Block, (dropSignature t).store.forceN = t.store.forceN := fun t => by
    unfold dropSignature
    split
    · rfl
    split
    · rfl
    · split
      · rfl
      · rw [forceN_setFwBit, forceN_bumpNum]
  have hiter : ∀ (n : Nat) (t : Block), (iter dropSignature n t).store.forceN = t.store.forceN := by
    intro n
    induction n with
    | zero => exact fun _ => rfl
    | succ n ih => exact fun t => (ih (dropSignature t)).trans (hdrop t)
  unfold trimBuffer
  split
  · rfl
  · exact hiter _ s

theorem forceN_floorRec (loc kind detail : Nat) : (floorRec loc kind detail s).store.forceN = s.store.forceN := by
  unfold floorRec setRelBit
  dsimp only
  split
  · rw [forceN_setStatus, forceN_trimBuffer]
  · exact forceN_trimBuffer _

theorem forceN_detect (code loc : Nat) (inj : Bool) (tag addr : Nat) (extra : Bytes) :
    (detect code loc inj tag addr extra s).store.forceN = s.store.forceN := by
  unfold detect detectAt putEvent
  dsimp only
  split
  · exact forceN_bumpNum ..
  · rfl

theorem arc_floorRec (loc kind detail : Nat) : (floorRec loc kind detail s).arc = s.arc := by
  have htrim : ∀ t : Block, (trimBuffer t).arc = t.arc := fun t => by rw [(RecordFrame.trimBuffer (.refl t)).eq]
  unfold floorRec setRelBit
  dsimp only
  split
  · rw [arc_setStatus, htrim]
  · exact htrim _

theorem arc_detect (code loc : Nat) (inj : Bool) (tag addr : Nat) (extra : Bytes) : (detect code loc inj tag addr extra s).arc = s.arc :=
  (ReportFrame.detect (.refl s) ..).arc

theorem numF_congr {s t : Block} (hslot : t.arc.slot = s.arc.slot) (h : t.store.forceN = s.store.forceN) (key : Nat) :
    numF t key = numF s key := by
  unfold numF
  rw [hslot, h]

end

/-! ## Lanes that lack a lock -/

/-- One lane that lacks its lock is retired. -/
def loseLane (l n : Nat) (s : Block) : Block :=
  detect 0x0D (laneLoc l n) false 0 0 [] (floorRec (laneLoc l n) 0x0D 1
    (setLink l (dropLane n { link s l with tell := (link s l).tell ++ [(2, n, 1)] }) s))

theorem keepLocked_eq (l locked : Nat) (s : Block) :
    keepLocked l locked s = forEach ((activeLanes (link s l)).filter (fun n => !(bit locked n))) (loseLane l) s := rfl

section
variable (l n : Nat) (s : Block)

theorem arc_loseLane : (loseLane l n s).arc =
    (setLink l (dropLane n { link s l with tell := (link s l).tell ++ [(2, n, 1)] }) s).arc := by
  unfold loseLane
  rw [arc_detect, arc_floorRec]

theorem link_loseLane : link (loseLane l n s) l = dropLane n { link s l with tell := (link s l).tell ++ [(2, n, 1)] } := by
  rw [link_congr (congrArg Arcade.links (arc_loseLane l n s))]
  exact link_setLink_same ..

theorem link_loseLane_ne {m : Nat} (h : m ≠ l) : link (loseLane l n s) m = link s m := by
  rw [link_congr (congrArg Arcade.links (arc_loseLane l n s))]
  exact link_setLink_ne h ..

theorem forceN_loseLane : (loseLane l n s).store.forceN = s.store.forceN := by
  unfold loseLane
  rw [forceN_detect, forceN_floorRec]
  rfl

end

/-- What the loss of lanes leaves of the module. -/
structure LanesLost (l : Nat) (lanes : List Nat) (s t : Block) : Prop where
  active : ∀ i, (link t l).active.testBit i = ((link s l).active.testBit i && !(lanes.contains i))
  state : (link t l).state = (link s l).state
  others : ∀ m, m ≠ l → link t m = link s m
  slot : t.arc.slot = s.arc.slot
  forceN : t.store.forceN = s.store.forceN

theorem lanesLost (l : Nat) (lanes : List Nat) (s : Block) : LanesLost l lanes s (forEach lanes (loseLane l) s) := by
  induction lanes generalizing s with
  | nil => exact ⟨fun i => by simp [forEach], rfl, fun _ _ => rfl, rfl, rfl⟩
  | cons n lanes ih =>
    have h := ih (loseLane l n s)
    rw [forEach_cons]
    refine ⟨fun i => ?_, ?_, fun m hm => ?_, ?_, ?_⟩
    · rw [h.active, link_loseLane]
      unfold dropLane
      dsimp only
      by_cases hi : i = n
      · rw [hi, testBit_putBit_same]
        simp
      · rw [testBit_putBit_ne _ hi]
        simp [hi]
    · rw [h.state, link_loseLane]
      rfl
    · rw [h.others m hm, link_loseLane_ne _ _ _ hm]
    · rw [h.slot, arc_loseLane]
      rfl
    · rw [h.forceN, forceN_loseLane]

/-- Of the lanes of a link those that locked stay in use. -/
theorem keepLocked_active (l locked : Nat) (s : Block) (i : Nat) :
    (link (keepLocked l locked s) l).active.testBit i = ((link s l).active.testBit i && (locked.testBit i || decide (25 ≤ i))) := by
  rw [keepLocked_eq, (lanesLost ..).active]
  by_cases ha : (link s l).active.testBit i = true
  · rw [ha, Bool.true_and, Bool.true_and]
    have hmem : ((activeLanes (link s l)).filter (fun n => !(bit locked n))).contains i = (decide (i < 25) && !(locked.testBit i)) := by
      rw [Bool.eq_iff_iff, List.contains_iff_mem, List.mem_filter]
      unfold activeLanes
      rw [mem_maskBits, Bool.and_eq_true, decide_eq_true_eq, bit_eq_testBit, ha]
      simp
    rw [hmem]
    by_cases hi : i < 25
    · rw [decide_eq_true hi, decide_eq_false (show ¬ 25 ≤ i by omega), Bool.true_and, Bool.not_not, Bool.or_false]
    · rw [decide_eq_false hi, decide_eq_true (show 25 ≤ i by omega), Bool.false_and, Bool.or_true, Bool.not_false]
  · simp only [Bool.not_eq_true] at ha
    rw [ha]
    rfl

/-- A link with a locked lane keeps a lane in use. -/
theorem keepLocked_active_ne {l locked : Nat} {s : Block} (h : (link s l).active &&& locked ≠ 0) :
    (link (keepLocked l locked s) l).active ≠ 0 := by
  obtain ⟨i, hi⟩ := Nat.exists_testBit_of_ne_zero h
  rw [Nat.testBit_and, Bool.and_eq_true] at hi
  intro h0
  have := keepLocked_active l locked s i
  rw [h0, hi.1, hi.2, Nat.zero_testBit] at this
  exact absurd this (by simp)

/-! ## Training and alignment -/

/-- What a training starts with. -/
theorem link_startTrain (l : Nat) (s : Block) : (link (startTrain l s) l).state = 1 ∧
    (link (startTrain l s) l).signal = (link s l).signal := by
  unfold startTrain linkCount modLink
  dsimp only
  split
  · rw [link_setLink_same, link_setLink_same]
    exact ⟨rfl, rfl⟩
  · rw [link_setLink_same]
    exact ⟨rfl, rfl⟩

/-- A flit that leaves on a link with an active lane is the last one out. -/
theorem putFlit_out {k : Link} (f : Flit) (h : k.active ≠ 0) : ∃ n ack ackv cvc cred,
    (putFlit f k).out = k.out ++ [(n, { f with ack, ackv, cvc, cred })] := by
  have hframe := stampFlit_frame k f
  have hout : (stampFlit k f).1.out = k.out := by
    unfold stampFlit
    dsimp only
    split <;> rfl
  have hflit := stampFlit_flit k f
  unfold putFlit
  rw [if_neg h]
  dsimp only
  rw [hflit]
  unfold laneFlit
  dsimp only
  rw [hout]
  exact ⟨_, _, _, _, _, rfl⟩

/-- A beacon is the last flit out of a link that carries flits. -/
theorem out_sendBeacon {l : Nat} {s : Block} (hcarries : carries (link s l).state = true) (hactive : (link s l).active ≠ 0) :
    ∃ n f, (link (sendBeacon l s) l).out = (link s l).out ++ [(n, f)] ∧ f.kind = 3 ∧ f.payload = beaconPayload s l := by
  unfold sendBeacon
  rw [if_pos hcarries]
  unfold modLink
  rw [link_setLink_same]
  obtain ⟨n, ack, ackv, cvc, cred, h⟩ := putFlit_out (k := { link s l with told := beaconSays s (link s l) })
    (flitOf 3 (beaconPayload s l)) hactive
  exact ⟨n, _, h, rfl, rfl⟩

theorem linkSame_sendBeacon (l : Nat) (s : Block) : (link (sendBeacon l s) l).state = (link s l).state ∧
    (link (sendBeacon l s) l).reason = (link s l).reason := by
  unfold sendBeacon modLink
  split
  · rw [link_setLink_same]
    have h := putFlit_frame { link s l with told := beaconSays s (link s l) } (flitOf 3 (beaconPayload s l))
    exact ⟨h.state, h.reason⟩
  · exact ⟨rfl, rfl⟩

/-- A link with enough locked lanes after ALIGN: it probes, or is held with no slot. -/
def probing (s : Block) (k : Link) : Link :=
  { k with
    state := if 72 ≤ s.arc.slot then 6 else 3
    reason := if 72 ≤ s.arc.slot then 13 else k.reason
    laneCount := [], rxCount := [], nextLseq := 0, expLseq := 0, rxAny := false, tellAck := false, credits := fullCredits, lastLane := 24 }

/-- An alignment with enough locked lanes ends with a beacon. -/
theorem doAligned_probes {l locked : Nat} {s : Block} (hst : (link s l).state = 2) (hlock : (link s l).active &&& locked ≠ 0)
    (henough : numF s 0x320003 ≤ popBelow 25 (link (keepLocked l locked s) l).active) :
    (s.arc.slot < 72 → (link (doAligned l locked s) l).state = 3) ∧
      (72 ≤ s.arc.slot → (link (doAligned l locked s) l).state = 6 ∧ (link (doAligned l locked s) l).reason = 13) ∧
      ∃ o, (link (doAligned l locked s) l).out.getLast? = some o ∧ o.2.kind = 3 := by
  have hlost := lanesLost l ((activeLanes (link s l)).filter (fun n => !(bit locked n))) s
  rw [← keepLocked_eq] at hlost
  have hactive := keepLocked_active_ne hlock
  unfold doAligned
  dsimp only
  rw [if_neg (by omega), if_neg hlock, numF_congr hlost.slot hlost.forceN]
  generalize keepLocked l locked s = u at hlost hactive henough ⊢
  rw [if_neg (by omega)]
  change (s.arc.slot < 72 → (link (reportArcade (sendBeacon l (modLink l tellPeer (modLink l (probing u) u)))) l).state = 3) ∧
    (72 ≤ s.arc.slot → (link (reportArcade (sendBeacon l (modLink l tellPeer (modLink l (probing u) u)))) l).state = 6 ∧
      (link (reportArcade (sendBeacon l (modLink l tellPeer (modLink l (probing u) u)))) l).reason = 13) ∧
    ∃ o, (link (reportArcade (sendBeacon l (modLink l tellPeer (modLink l (probing u) u)))) l).out.getLast? = some o ∧ o.2.kind = 3
  have hlink : ∃ k, link (modLink l tellPeer (modLink l (probing u) u)) l = k ∧ TxFrame (probing u (link u l)) k := by
    unfold modLink
    rw [link_setLink_same, link_setLink_same]
    exact ⟨_, rfl, tellPeer_frame _⟩
  generalize modLink l tellPeer (modLink l (probing u) u) = v at hlink ⊢
  obtain ⟨k, hk, hframe⟩ := hlink
  rw [← hk] at hframe
  have hstate : (link v l).state = if 72 ≤ s.arc.slot then 6 else 3 := by
    rw [hframe.state, ← hlost.slot]
    rfl
  have hreason : (link v l).reason = if 72 ≤ s.arc.slot then 13 else (link u l).reason := by
    rw [hframe.reason, ← hlost.slot]
    rfl
  have hcarries : carries (link v l).state = true := by
    rw [hstate]
    split <;> rfl
  obtain ⟨n, f, hout, hkind, -⟩ := out_sendBeacon hcarries (by rw [hframe.active]; exact hactive)
  obtain ⟨hbstate, hbreason⟩ := linkSame_sendBeacon l v
  rw [link_congr (congrArg Arcade.links (arc_reportArcade _))]
  refine ⟨fun h => ?_, fun h => ⟨?_, ?_⟩, (n, f), ?_, hkind⟩
  · rw [hbstate, hstate, if_neg (by omega)]
  · rw [hbstate, hstate, if_pos h]
  · rw [hbreason, hreason, if_pos h]
  · rw [hout, List.getLast?_concat]

/-- Settles O39: the lanes without a lock are dropped one by one; a link whose locked lanes suffice sends its beacon last; a
hold that ends, and a signal, start a training from DOWN only. -/
theorem linksTrainAndComeBack : Obligations.LinksTrainAndComeBack := by
  unfold Obligations.LinksTrainAndComeBack
  refine ⟨fun s l locked hl hhalls hlock => ⟨fun hst => ?_, fun hst henough => ?_⟩, fun s l signal hl hhalls => ⟨fun hst => ?_, fun hst => ?_,
    fun hst hover => ?_, fun hnot => ?_⟩⟩
  · have hdo : doTrained l locked s.toBlock = modLink l (fun k => { k with state := 2 }) (keepLocked l locked s.toBlock) := by
      unfold doTrained
      dsimp only
      rw [if_neg (by omega), if_neg hlock]
    have hactive := keepLocked_active l locked s.toBlock
    refine ⟨_, onLink_acts hl hhalls (doTrained l locked), rfl, ?_, fun n hn => ?_⟩
    · rw [hdo]
      exact congrArg Link.state (link_setLink_same ..)
    · rw [hdo]
      refine (congrArg (fun k : Link => k.active.testBit n) (link_setLink_same ..)).trans ?_
      rw [hactive, decide_eq_false (by omega), Bool.or_false]
  · exact ⟨_, onLink_acts hl hhalls (doAligned l locked), rfl, doAligned_probes hst hlock henough⟩
  · refine (onLink_acts hl hhalls (doHoldExpiry l signal)).trans ?_
    unfold doHoldExpiry
    rw [if_pos hst]
  · have hdo : doHoldExpiry l signal s.toBlock = if signal then
        startTrain l (setLink l { link s.toBlock l with holdOver := true, signal } s.toBlock)
        else setLink l { link s.toBlock l with holdOver := true, signal } s.toBlock := by
      unfold doHoldExpiry
      dsimp only
      rw [if_neg (by omega), if_pos hst]
    refine ⟨_, onLink_acts hl hhalls (doHoldExpiry l signal), rfl, ?_⟩
    rw [hdo]
    cases signal with
    | true =>
      obtain ⟨hstate, hsignal⟩ := link_startTrain l (setLink l { link s.toBlock l with holdOver := true, signal := true } s.toBlock)
      exact ⟨hstate, hsignal.trans (congrArg Link.signal (link_setLink_same ..))⟩
    | false => exact ⟨(congrArg Link.state (link_setLink_same ..)).trans hst, congrArg Link.signal (link_setLink_same ..)⟩
  · have hdo : doSignal l s.toBlock = startTrain l (setLink l { link s.toBlock l with signal := true } s.toBlock) :=
      if_pos ⟨hst, hover⟩
    obtain ⟨hstate, hsignal⟩ := link_startTrain l (setLink l { link s.toBlock l with signal := true } s.toBlock)
    rw [← hdo] at hstate hsignal
    exact ⟨_, onLink_acts hl hhalls (doSignal l), rfl, hstate, hsignal.trans (congrArg Link.signal (link_setLink_same ..))⟩
  · refine (onLink_acts hl hhalls (doSignal l)).trans ?_
    unfold doSignal
    rw [if_neg hnot]

end Sys2Proof.Machine
end

section
/-! SUPPORT. Lanes that retire and join (R262, R263); O41. -/

namespace Sys2Proof.Machine

section
variable (l i n : Nat) (s : Block)

theorem link_linkCount : link (linkCount l i n s) l =
    { link s l with counters := mapMod 0 (link s l).counters i (fun c => satN 64 (c + n)) } := link_setLink_same ..

theorem mapGet_counters : mapGet 0 (link (linkCount l i n s) l).counters i = min (2 ^ 64 - 1) (mapGet 0 (link s l).counters i + n) := by
  rw [link_linkCount]
  unfold mapMod
  dsimp only
  rw [mapGet_mapSet_same, satN_eq_min]

theorem mapGet_counters_ne {j : Nat} (h : j ≠ i) : mapGet 0 (link (linkCount l i n s) l).counters j = mapGet 0 (link s l).counters j := by
  rw [link_linkCount]
  exact mapGet_mapSet_ne _ _ _ _ _ h

end

/-- Two links agree on the lanes and the state. -/
structure SameLanes (k k' : Link) : Prop where
  state : k'.state = k.state
  active : k'.active = k.active
  failed : k'.failed = k.failed
  spareUsed : k'.spareUsed = k.spareUsed
  spareTraining : k'.spareTraining = k.spareTraining

theorem SameLanes.trans {k k' k'' : Link} (h : SameLanes k k') (h' : SameLanes k' k'') : SameLanes k k'' :=
  ⟨h'.state.trans h.state, h'.active.trans h.active, h'.failed.trans h.failed, h'.spareUsed.trans h.spareUsed,
    h'.spareTraining.trans h.spareTraining⟩

theorem TxFrame.lanes {k k' : Link} (h : TxFrame k k') : SameLanes k k' :=
  ⟨h.state, h.active, h.failed, h.spareUsed, h.spareTraining⟩

section
variable {l lane reason : Nat} {tell : Bool} {s : Block}

theorem retireLane_unused (h : (link s l).active.testBit lane = false) : retireLane l lane reason tell false s = s := by
  unfold retireLane
  rw [if_pos (by rw [bit_eq_testBit, h]; rfl)]

theorem retireLane_last (h : (link s l).active.testBit lane = true) (hone : popBelow 25 (link s l).active = 1) :
    retireLane l lane reason tell false s = if reason = 1 then linkGoes false l 1 7 s else s := by
  unfold retireLane
  dsimp only
  rw [if_neg (by rw [bit_eq_testBit, h]; simp), if_pos hone]

/-- The retirement of a lane that is not the last one, and what follows when too few remain (R280). -/
theorem retireLane_drops (h : (link s l).active.testBit lane = true) (hone : popBelow 25 (link s l).active ≠ 1) :
    ∃ u, retireLane l lane reason tell false s =
        (if popBelow 25 (link u l).active < numF s 0x320003 then linkGoes false l 4 7 u else u) ∧
      SameLanes (dropLane lane (link s l)) (link u l) ∧ u.arc.slot = s.arc.slot := by
  have hmoved : ∀ (m : List TxFlit) (k : Link), TxFrame k (m.foldl (fun k t => giveLane t true k) k) := by
    intro m
    induction m with
    | nil => exact .refl
    | cons t m ih => exact fun k => (giveLane_frame k t true).trans (ih _)
  have htell : TxFrame (dropLane lane (link s l))
      (if tell then putFlit (controlFlit 2 lane reason) (dropLane lane (link s l)) else dropLane lane (link s l)) :=
    .ite (putFlit_frame _ _) (.refl _)
  unfold retireLane
  dsimp only
  rw [if_neg (by rw [bit_eq_testBit, h]; simp), if_neg hone]
  generalize (if tell then _ else _ : Link) = k at htell ⊢
  generalize (k.sent.filter (fun t => t.lane == lane)) = m
  have hlanes : SameLanes (dropLane lane (link s l))
      (link (linkCount l 1 m.length (setLink l (m.foldl (fun k t => giveLane t true k) k) s)) l) := by
    rw [link_linkCount, link_setLink_same]
    exact ((htell.trans (hmoved m k)).lanes).trans ⟨rfl, rfl, rfl, rfl, rfl⟩
  have hforce : (linkCount l 1 m.length (setLink l (m.foldl (fun k t => giveLane t true k) k) s)).store.forceN = s.store.forceN := rfl
  have hslot : (linkCount l 1 m.length (setLink l (m.foldl (fun k t => giveLane t true k) k) s)).arc.slot = s.arc.slot := rfl
  simp only [Bool.false_eq_true, if_false]
  generalize linkCount l 1 m.length _ = v at hlanes hforce hslot ⊢
  have harc : (detect 0x0D (laneLoc l lane) false 0 0 [] (floorRec (laneLoc l lane) 0x0D reason v)).arc = v.arc := by
    rw [arc_detect, arc_floorRec]
  have hforce' : (detect 0x0D (laneLoc l lane) false 0 0 [] (floorRec (laneLoc l lane) 0x0D reason v)).store.forceN = v.store.forceN := by
    rw [forceN_detect, forceN_floorRec]
  generalize detect 0x0D _ _ _ _ _ _ = u at harc hforce' ⊢
  refine ⟨u, ?_, ?_, ?_⟩
  · rw [numF_congr (by rw [harc]; exact hslot) (hforce'.trans hforce)]
  · rw [link_congr (congrArg Arcade.links harc)]
    exact hlanes
  · rw [harc, hslot]

end

theorem doLaneErrors_one (l lane unc cor : Nat) (s : Block) : doLaneErrors l [(lane, unc, cor)] s =
    if numF s 0x320008 < unc then retireLane l lane 2 true false (linkCount l 2 cor (linkCount l 3 unc s))
    else if numF s 0x320009 < cor then retireLane l lane 3 true false (linkCount l 2 cor (linkCount l 3 unc s))
    else linkCount l 2 cor (linkCount l 3 unc s) := rfl

/-- What an event that retires a lane does. -/
structure Retires (l lane : Nat) (i : Instr) (s : State) (reason : Nat) (tell : Bool) (b : Block) : Prop where
  exec : exec i s = .next { s with toBlock := retireLane l lane reason tell false b }
  lanes : SameLanes (link s.toBlock l) (link b l)
  slot : b.arc.slot = s.arc.slot
  force : numF b 0x320003 = numF s.toBlock 0x320003
  lock : i = .laneLossOfLock l lane → reason = 1 ∧ b = s.toBlock
  noFlit : i = .laneNoFlit l lane → reason = 4 ∧ b = s.toBlock

theorem retires_of {s : State} {l lane reason unc cor : Nat} {i : Instr} (hl : l < 18) (hlane : lane < 25)
    (hhalls : halls s.toBlock = true) (h : i = .laneRetire l lane reason ∨ i = .laneLossOfLock l lane ∨
      (i = .laneNoFlit l lane ∧ (link s.toBlock l).state = 5) ∨
      (i = .laneErrorSecond l [(lane, unc, cor)] ∧ (numF s.toBlock 0x320008 < unc ∨ numF s.toBlock 0x320009 < cor))) :
    ∃ r tell b, Retires l lane i s r tell b := by
  have hrefl : SameLanes (link s.toBlock l) (link s.toBlock l) := ⟨rfl, rfl, rfl, rfl, rfl⟩
  obtain rfl | rfl | ⟨rfl, hup⟩ | ⟨rfl, herr⟩ := h
  · exact ⟨reason, false, s.toBlock, onLane_acts hl hhalls hlane _, hrefl, rfl, rfl, nofun, nofun⟩
  · exact ⟨1, true, s.toBlock, onLane_acts hl hhalls hlane _, hrefl, rfl, rfl, fun _ => ⟨rfl, rfl⟩, nofun⟩
  · refine ⟨4, true, s.toBlock, (onLane_acts hl hhalls hlane _).trans ?_, hrefl, rfl, rfl, nofun, fun _ => ⟨rfl, rfl⟩⟩
    unfold doLaneNoFlit
    rw [if_pos hup]
  · have hcount : SameLanes (link s.toBlock l) (link (linkCount l 2 cor (linkCount l 3 unc s.toBlock)) l) := by
      rw [link_linkCount, link_linkCount]
      exact ⟨rfl, rfl, rfl, rfl, rfl⟩
    have hexec : exec (.laneErrorSecond l [(lane, unc, cor)]) s = .next { s with
        toBlock := doLaneErrors l [(lane, unc, cor)] s.toBlock } := onLink_acts hl hhalls _
    by_cases hunc : numF s.toBlock 0x320008 < unc
    · exact ⟨2, true, _, hexec.trans (by rw [doLaneErrors_one, if_pos hunc]), hcount, rfl, rfl, nofun, nofun⟩
    · have hcor := herr.resolve_left hunc
      exact ⟨3, true, _, hexec.trans (by rw [doLaneErrors_one, if_neg hunc, if_pos hcor]), hcount, rfl, rfl, nofun, nofun⟩

/-- A link in use after the peer's or its own spare lane joins. -/
theorem carries_ne {st : Nat} (h : carries st = true) : st ≠ 8 ∧ st ≠ 9 := by
  have := carries_states h
  omega

section
variable {s : State} {l lane reason unc cor : Nat} {i : Instr} (hl : l < 18) (hlane : lane < 25) (hhalls : halls s.toBlock = true)
  (hi : i = .laneRetire l lane reason ∨ i = .laneLossOfLock l lane ∨
    (i = .laneNoFlit l lane ∧ (link s.toBlock l).state = 5) ∨
    (i = .laneErrorSecond l [(lane, unc, cor)] ∧ (numF s.toBlock 0x320008 < unc ∨ numF s.toBlock 0x320009 < cor)))
include hl hlane hhalls hi

theorem unused_lane_stays (hactive : (link s.toBlock l).active.testBit lane = false) : answers i s (fun t =>
    (link t l).active = (link s.toBlock l).active ∧ (link t l).failed = (link s.toBlock l).failed ∧
    (link t l).state = (link s.toBlock l).state) := by
  obtain ⟨r, tell, b, h⟩ := retires_of hl hlane hhalls hi
  have hunused : retireLane l lane r tell false b = b := retireLane_unused (by rw [h.lanes.active]; exact hactive)
  exact ⟨_, h.exec, rfl, by rw [hunused]; exact ⟨h.lanes.active, h.lanes.failed, h.lanes.state⟩⟩

section
variable (hactive : (link s.toBlock l).active.testBit lane = true) (hone : popBelow 25 (link s.toBlock l).active ≠ 1)
include hactive hone

/-- A lane that is not the last one leaves its link; too few lanes take the link down. -/
theorem lane_drops : ∃ u t, exec i s = .next { s with toBlock := t } ∧
    t = (if popBelow 25 (putBit (link s.toBlock l).active lane false) < numF s.toBlock 0x320003 then linkGoes false l 4 7 u else u) ∧
    SameLanes (dropLane lane (link s.toBlock l)) (link u l) ∧ u.arc.slot = s.arc.slot := by
  obtain ⟨r, tell, b, h⟩ := retires_of hl hlane hhalls hi
  obtain ⟨u, heq, hlanes, hslot⟩ := retireLane_drops (reason := r) (tell := tell) (s := b) (l := l) (lane := lane)
    (by rw [h.lanes.active]; exact hactive) (by rw [h.lanes.active]; exact hone)
  have hsame : SameLanes (dropLane lane (link s.toBlock l)) (dropLane lane (link b l)) := by
    unfold dropLane
    rw [h.lanes.active, h.lanes.failed, h.lanes.spareUsed, h.lanes.spareTraining]
    exact ⟨h.lanes.state, rfl, rfl, rfl, rfl⟩
  have hlanes' := hsame.trans hlanes
  refine ⟨u, _, h.exec, ?_, hlanes', hslot.trans h.slot⟩
  rw [heq, h.force, show (link u l).active = putBit (link s.toBlock l).active lane false from hlanes'.active]

theorem lane_retires (henough : numF s.toBlock 0x320003 ≤ popBelow 25 (putBit (link s.toBlock l).active lane false)) :
    answers i s (fun t => (link t l).active.testBit lane = false ∧ (link t l).failed.testBit lane = true ∧
      (∀ m, m ≠ lane → (link t l).active.testBit m = (link s.toBlock l).active.testBit m) ∧
      (link t l).spareTraining = ((link s.toBlock l).spareTraining ||
        (!(link s.toBlock l).spareUsed && !(link s.toBlock l).failed.testBit 24 && lane != 24)) ∧
      (link t l).state = (link s.toBlock l).state) := by
  obtain ⟨u, t, hexec, ht, hlanes, -⟩ := lane_drops hl hlane hhalls hi hactive hone
  rw [if_neg (by omega)] at ht
  subst ht
  refine ⟨_, hexec, rfl, ?_, ?_, fun m hm => ?_, ?_, hlanes.state⟩
  · rw [show (link t l).active = putBit (link s.toBlock l).active lane false from hlanes.active, testBit_putBit_same]
  · rw [show (link t l).failed = putBit (link s.toBlock l).failed lane true from hlanes.failed, testBit_putBit_same]
  · rw [show (link t l).active = putBit (link s.toBlock l).active lane false from hlanes.active, testBit_putBit_ne _ hm]
  · refine hlanes.spareTraining.trans ?_
    unfold dropLane
    rw [bit_eq_testBit]

theorem lane_takes_link_down (hfew : popBelow 25 (putBit (link s.toBlock l).active lane false) < numF s.toBlock 0x320003)
    (hcarries : carries (link s.toBlock l).state = true) (hslot : s.arc.slot < 72) :
    answers i s (fun t => (link t l).state = 7 ∧ (link t l).reason = 4 ∧ (link t l).failed.testBit lane = true) := by
  obtain ⟨u, t, hexec, ht, hlanes, hslot'⟩ := lane_drops hl hlane hhalls hi hactive hone
  rw [if_pos hfew] at ht
  subst ht
  have hstate : (link u l).state = (link s.toBlock l).state := hlanes.state
  obtain ⟨h8, h9⟩ := carries_ne hcarries
  have hgone := linkGone_linkGoes (l := l) (reason := 4) (st := 7) (s := u) false (by rw [hstate]; exact h9) (by rw [hstate]; exact h8)
    (by rw [hslot']; exact hslot) (by decide)
  refine ⟨_, hexec, rfl, hgone.state, hgone.reason, ?_⟩
  rw [hgone.failed, show (link u l).failed = putBit (link s.toBlock l).failed lane true from hlanes.failed, testBit_putBit_same]

end

theorem last_lane (hactive : (link s.toBlock l).active.testBit lane = true) (hone : popBelow 25 (link s.toBlock l).active = 1)
    (hcarries : carries (link s.toBlock l).state = true) (hslot : s.arc.slot < 72) :
    (i = .laneLossOfLock l lane → answers i s (fun t => (link t l).state = 7 ∧ (link t l).reason = 1 ∧
      (link t l).failed = (link s.toBlock l).failed)) ∧ (i = .laneNoFlit l lane → exec i s = .next s) := by
  obtain ⟨r, tell, b, h⟩ := retires_of hl hlane hhalls hi
  have hlast : retireLane l lane r tell false b = if r = 1 then linkGoes false l 1 7 b else b :=
    retireLane_last (by rw [h.lanes.active]; exact hactive) (by rw [h.lanes.active]; exact hone)
  refine ⟨fun hlock => ?_, fun hno => ?_⟩
  · obtain ⟨hr, hb⟩ := h.lock hlock
    obtain ⟨h8, h9⟩ := carries_ne hcarries
    have hgone := linkGone_linkGoes (l := l) (reason := 1) (st := 7) (s := s.toBlock) false h9 h8 hslot (by decide)
    refine ⟨_, h.exec, rfl, ?_⟩
    rw [hlast, if_pos hr, hb]
    exact ⟨hgone.state, hgone.reason, hgone.failed⟩
  · obtain ⟨hr, hb⟩ := h.noFlit hno
    rw [h.exec, hlast, if_neg (by omega), hb]

end

/-- Settles O41: an event that retires a lane drops it and starts the spare, unless it is the last one, and too few lanes take
the link down; a lane that joins is set in the lanes in use; the lanes of an error list are taken in turn. -/
theorem lanesRetireAndJoin : Obligations.LanesRetireAndJoin := by
  unfold Obligations.LanesRetireAndJoin
  refine ⟨fun s l lane reason unc cor i hl hlane hhalls hi => ⟨unused_lane_stays hl hlane hhalls hi, lane_retires hl hlane hhalls hi,
    lane_takes_link_down hl hlane hhalls hi, last_lane hl hlane hhalls hi⟩, fun s l lane hl hlane hhalls hcarries => ⟨fun hfailed => ?_,
    fun hspare => ?_⟩, fun s l hl hhalls => ⟨onLink_acts hl hhalls _, fun lane unc cor hunc hcor => ?_, fun c cs t ht hhalls' => ?_⟩⟩
  · have hdo : doLaneJoin l lane s.toBlock = setLink l (pumpLink { link s.toBlock l with
        active := putBit (link s.toBlock l).active lane true, spareUsed := (link s.toBlock l).spareUsed || lane == 24
        spareTraining := false }) s.toBlock := by
      unfold doLaneJoin
      dsimp only
      rw [if_neg (by rw [bit_eq_testBit, hfailed, hcarries]; simp)]
    refine ⟨_, onLane_acts hl hhalls hlane (doLaneJoin l lane), rfl, ?_⟩
    rw [hdo]
    dsimp only
    rw [link_setLink_same]
    have hframe := pumpLink_frame { link s.toBlock l with
      active := putBit (link s.toBlock l).active lane true, spareUsed := (link s.toBlock l).spareUsed || lane == 24
      spareTraining := false }
    refine ⟨?_, hframe.state⟩
    rw [hframe.active, testBit_putBit_same]
  · have hdo : doSpareTrained l s.toBlock = setLink l (pumpLink (tellPeer { link s.toBlock l with
        active := putBit (link s.toBlock l).active 24 true, spareUsed := true, spareTraining := false
        tell := (link s.toBlock l).tell ++ [(3, 24, 0)] })) s.toBlock := by
      unfold doSpareTrained
      dsimp only
      rw [if_neg (by rw [hspare]; simp), if_pos hcarries]
    refine ⟨_, onLink_acts hl hhalls (doSpareTrained l), rfl, ?_⟩
    rw [hdo]
    dsimp only
    rw [link_setLink_same]
    have hframe := (tellPeer_frame { link s.toBlock l with
      active := putBit (link s.toBlock l).active 24 true, spareUsed := true, spareTraining := false
      tell := (link s.toBlock l).tell ++ [(3, 24, 0)] }).trans (pumpLink_frame _)
    refine ⟨?_, hframe.spareUsed, hframe.spareTraining⟩
    rw [hframe.active, testBit_putBit_same]
  · refine ⟨_, onLink_acts hl hhalls (doLaneErrors l [(lane, unc, cor)]), rfl, ?_⟩
    rw [doLaneErrors_one, if_neg (by omega), if_neg (by omega)]
    refine ⟨?_, ?_, ?_⟩
    · rw [mapGet_counters_ne _ _ _ _ (by decide), mapGet_counters]
    · rw [mapGet_counters, mapGet_counters_ne _ _ _ _ (by decide)]
    · rw [link_linkCount, link_linkCount]
  · have hone : exec (.laneErrorSecond l [c]) s = .next { s with toBlock := doLaneErrors l [c] s.toBlock } := onLink_acts hl hhalls _
    rw [hone] at ht
    have ht := (Host.Outcome.next.inj ht).symm
    subst ht
    refine (onLink_acts hl hhalls (doLaneErrors l (c :: cs))).trans ?_
    exact (onLink_acts hl hhalls' (doLaneErrors l cs)).symm

end Sys2Proof.Machine
end

section
/-! SUPPORT. Flits that are sent again (R258, R259); O42. Beacons (R277, R278); O43. -/

namespace Sys2Proof.Machine

/-! ## Flits that are sent again -/

theorem nextLane_mem {k : Link} (h : activeLanes k ≠ []) : nextLane k ∈ activeLanes k := by
  unfold nextLane
  dsimp only
  split
  · next n hn => exact List.mem_of_find?_eq_some hn
  · cases ha : activeLanes k with
    | nil => exact absurd ha h
    | cons a l => exact List.mem_cons_self

section
variable (k : Link) (t : TxFlit)

theorem out_giveLane (resend : Bool) : ∃ n f, (giveLane t resend k).out = k.out ++ [(n, f)] ∧ f.lseq = t.flit.lseq ∧
    f.payload = t.flit.payload ∧ (activeLanes k ≠ [] → n ∈ activeLanes k) := by
  have hframe := stampFlit_frame k t.flit
  have hflit := stampFlit_flit k t.flit
  have hout : (stampFlit k t.flit).1.out = k.out ∧ (stampFlit k t.flit).1.lastLane = k.lastLane := by
    unfold stampFlit
    dsimp only
    split <;> exact ⟨rfl, rfl⟩
  unfold giveLane
  dsimp only
  generalize stampFlit k t.flit = r at hframe hflit hout ⊢
  obtain ⟨j, f⟩ := r
  dsimp only at hframe hflit hout ⊢
  unfold laneFlit
  dsimp only
  rw [hout.1]
  refine ⟨_, f, rfl, by rw [hflit], by rw [hflit], fun h => ?_⟩
  have hlane : ∀ sent out, nextLane { j with sent, out } = nextLane k := fun sent out => by
    unfold nextLane activeLanes
    dsimp only
    rw [hframe.active, hout.2]
  rw [hlane]
  exact nextLane_mem h

/-- A flit that is sent again stays among those sent, with one resend more. -/
theorem sent_giveLane (h : t ∈ k.sent) : ∃ u ∈ (giveLane t true k).sent, u.flit.lseq = t.flit.lseq ∧ u.resends = t.resends + 1 := by
  have hflit := stampFlit_flit k t.flit
  have hsent : (stampFlit k t.flit).1.sent = k.sent := by
    unfold stampFlit
    dsimp only
    split <;> rfl
  unfold giveLane
  dsimp only
  generalize stampFlit k t.flit = r at hflit hsent ⊢
  obtain ⟨j, f⟩ := r
  dsimp only at hflit hsent ⊢
  have hlseq : f.lseq = t.flit.lseq := by rw [hflit]
  unfold laneFlit
  dsimp only
  rw [if_pos rfl, hsent]
  exact ⟨_, List.mem_map_of_mem h, by rw [if_pos hlseq.symm]; exact hlseq, by rw [if_pos hlseq.symm]; rfl⟩

end

/-- Settles O42: both events resend the flit that they find, until its resends reach the limit, which takes the link down. -/
theorem aFlitIsResent : Obligations.AFlitIsResent := by
  unfold Obligations.AFlitIsResent
  intro s l t i hl hhalls hi
  obtain ⟨hexec, hmem⟩ : exec i s = .next { s with toBlock := resendFlit l t s.toBlock } ∧ t ∈ (link s.toBlock l).sent := by
    obtain ⟨lane, count, hlane, rfl, hfind⟩ | ⟨lseq, rfl, hfind⟩ := hi
    · refine ⟨(onLane_acts hl hhalls hlane (doNak l lane count)).trans ?_, List.mem_of_find?_eq_some hfind⟩
      unfold doNak
      rw [hfind]
    · refine ⟨(onLink_acts hl hhalls (doReplayTimeout l lseq)).trans ?_, List.mem_of_find?_eq_some hfind⟩
      unfold doReplayTimeout
      rw [hfind]
  refine ⟨fun hbelow => ?_, fun hlimit hcarries hslot => ?_⟩
  · have hlink : ∃ c, link (resendFlit l t s.toBlock) l = { giveLane t true (link s.toBlock l) with counters := c } := by
      unfold resendFlit modLink
      rw [if_neg (by omega), link_linkCount, link_setLink_same]
      exact ⟨_, rfl⟩
    obtain ⟨c, hlink⟩ := hlink
    generalize resendFlit l t s.toBlock = b at hexec hlink
    refine ⟨_, hexec, rfl, ?_⟩
    dsimp only
    rw [hlink]
    exact ⟨out_giveLane .., sent_giveLane _ _ hmem, (giveLane_frame _ t true).state⟩
  · obtain ⟨h8, h9⟩ := carries_ne hcarries
    have hgone := linkGone_linkGoes (l := l) (reason := 5) (st := 7) (s := s.toBlock) false h9 h8 hslot (by decide)
    have hdown : resendFlit l t s.toBlock = linkGoes false l 5 7 s.toBlock := if_pos hlimit
    rw [← hdown] at hgone
    exact ⟨_, hexec, rfl, hgone.state, hgone.reason⟩

/-! ## Beacons -/

/-- The quarantine of another link leaves a link that is not UP. -/
theorem link_quarantine_ne {l m reason : Nat} {s : Block} (hm : l ≠ m) (h5 : (link s l).state ≠ 5) :
    link (quarantine m reason s) l = link s l := by
  unfold quarantine
  dsimp only
  generalize hu : setLink m _ s = u
  have hlink : link u l = link s l := by
    rw [← hu]
    exact link_setLink_ne hm ..
  have hsend := ((linkSends_portsChanged u).trans (linkSends_resendAll _ ((link s m).sent ++ (link s m).wait))).trans
    (linkSends_portsChanged _)
  rw [hsend.idle l (by rw [hlink]; exact h5), hlink]

/-- A link in PROBE is decided by the plan check (R278). -/
theorem link_decideProbe (l : Nat) (b : Bytes) (s : Block) : link (decideProbe l b s) l =
    if planCheck s l b = 0 then { link s l with state := 4 } else { link s l with state := 6, reason := planCheck s l b } := by
  unfold decideProbe modLink
  dsimp only
  split
  · exact link_setLink_same ..
  · split
    · next hnine =>
      have hkeep : ∀ (ms : List Nat) (u : Block), (∀ m ∈ ms, m ≠ l) → (link u l).state = 6 →
          link (forEach ms (fun m s => quarantine m 9 s) u) l = link u l := by
        intro ms
        induction ms with
        | nil => exact fun _ _ _ => rfl
        | cons m ms ih =>
          intro u hms hu
          have hq := link_quarantine_ne (l := l) (m := m) (reason := 9) (s := u) (hms m List.mem_cons_self).symm (by omega)
          rw [forEach_cons, ih _ (fun n hn => hms n (List.mem_cons_of_mem m hn)) (by rw [hq]; exact hu), hq]
      have hdup : ∀ m ∈ duplicates s l b, m ≠ l := fun m hm h => by
        have := (List.mem_filter.mp hm).2
        rw [h] at this
        simp at this
      rw [hkeep _ _ hdup (congrArg Link.state (link_setLink_same ..)), hnine]
      exact link_setLink_same ..
    · exact link_setLink_same ..

/-- The link that has kept a beacon. -/
def heardBeacon (b : Bytes) (k : Link) : Link :=
  { k with beacon := b, heard := true, peerSlot := bcSlot b % 128, peerLink := bcLink b % 32 }

/-- Settles O43: a beacon is kept first; the plan check then decides PROBE, a new serial takes READY and UP down, and otherwise
only the status word changes. -/
theorem beaconsGoBothWays : Obligations.BeaconsGoBothWays := by
  unfold Obligations.BeaconsGoBothWays
  intro s l payload hl hhalls hcarries
  dsimp only
  have hexec : exec (.beacon l payload) s = .next { s with toBlock := doBeacon l payload s.toBlock } := onLink_acts hl hhalls _
  have hkept : link (setLink l (heardBeacon (slice payload 0 240) (link s.toBlock l)) s.toBlock) l =
      heardBeacon (slice payload 0 240) (link s.toBlock l) := link_setLink_same ..
  have hdo : doBeacon l payload s.toBlock =
      if ((link s.toBlock l).state = 4 ∨ (link s.toBlock l).state = 5) ∧ (link s.toBlock l).heard = true ∧
          bcSerial (link s.toBlock l).beacon ≠ bcSerial (slice payload 0 240) then
        linkDown l 10 0 (setLink l (heardBeacon (slice payload 0 240) (link s.toBlock l)) s.toBlock)
      else if (link s.toBlock l).state = 3 ∨ ((link s.toBlock l).state = 6 ∧ (link s.toBlock l).reason ≠ 13 ∧
          (link s.toBlock l).beacon ≠ slice payload 0 240) then
        portsChanged (decideProbe l (slice payload 0 240) (setLink l (heardBeacon (slice payload 0 240) (link s.toBlock l)) s.toBlock))
      else reportArcade (setLink l (heardBeacon (slice payload 0 240) (link s.toBlock l)) s.toBlock) := by
    unfold doBeacon
    dsimp only
    rw [if_neg (by rw [hcarries]; simp)]
    rfl
  generalize hu : setLink l (heardBeacon (slice payload 0 240) (link s.toBlock l)) s.toBlock = u at hkept hdo
  refine ⟨fun hactive => ⟨_, onLink_acts hl hhalls (sendBeacon l), rfl, out_sendBeacon hcarries hactive⟩, fun h3 => ?_,
    fun h45 hheard hslot hne => ?_, fun h45 heq => ?_⟩
  · rw [if_neg (by omega), if_pos (.inl h3)] at hdo
    have hlink : link (portsChanged (decideProbe l (slice payload 0 240) u)) l = link (decideProbe l (slice payload 0 240) u) l := by
      refine (linkSends_portsChanged _).idle l ?_
      rw [link_decideProbe]
      split <;> exact nofun
    rw [← hdo, link_decideProbe, hkept] at hlink
    rw [← hu] at hlink
    generalize doBeacon l payload s.toBlock = t at hexec hlink
    refine ⟨_, hexec, rfl, ?_, fun h0 => ?_, fun h0 => ?_⟩
    · dsimp only
      rw [hlink]
      split <;> rfl
    · exact congrArg Link.state (hlink.trans (if_pos h0))
    · exact ⟨congrArg Link.state (hlink.trans (if_neg h0)), congrArg Link.reason (hlink.trans (if_neg h0))⟩
  · rw [if_pos ⟨h45, hheard, hne⟩] at hdo
    have hgone := linkGone_linkGoes (l := l) (reason := 10) (st := 0) (s := u) false (by rw [hkept]; unfold heardBeacon; dsimp only; omega)
      (by rw [hkept]; unfold heardBeacon; dsimp only; omega) (by rw [← hu]; exact hslot) (by decide)
    unfold linkDown at hdo
    rw [← hdo] at hgone
    exact ⟨_, hexec, rfl, hgone.beacon.trans (by rw [hkept]; rfl), hgone.state, hgone.reason⟩
  · rw [if_neg (fun h => h.2.2 heq), if_neg (by omega)] at hdo
    have hlink : link (reportArcade u) l = link u l := link_congr (congrArg Arcade.links (arc_reportArcade u)) l
    rw [← hdo, ← hu] at hlink
    exact ⟨_, hexec, rfl, hlink⟩

end Sys2Proof.Machine
end

section
/-! SUPPORT. Flits that arrive (R259, R260); O44. -/

namespace Sys2Proof.Machine

theorem inject_none {code loc : Nat} {s : Block} (h : injects s code loc = false) : inject code loc s = (false, s) := by
  unfold inject
  rw [if_neg (by rw [h]; simp)]

theorem injects_congr {s t : Block} (hrel : t.rel = s.rel) (hstore : t.store = s.store) (hslot : t.arc.slot = s.arc.slot)
    (code loc : Nat) : injects t code loc = injects s code loc := by
  unfold injects armed num
  rw [hrel, hstore, hslot]

/-- A link counts a flit on a lane. -/
def counted (lane : Nat) (k : Link) : Link := { k with rxCount := mapSet 0 k.rxCount lane (mapGet 0 k.rxCount lane + 1) }

section
variable {l lane : Nat} {flit : Bytes} {uncorr : Bool} {s : Block}

/-- Without an injection a flit on a lane in use is counted and checked. -/
theorem flitIn_counts (hcarries : carries (link s l).state = true) (hlane : (link s l).active.testBit lane = true)
    (hc : injects s 0x0C (laneLoc l lane) = false) (hd : injects s 0x0D (laneLoc l lane) = false)
    (he : injects s 0x0E (laneLoc l 0) = false) : flitIn l lane flit uncorr s =
      if (uncorr || !(flitCrcOk flit)) = true then
        detect 0x0C (laneLoc l lane) false 0 0 [] (modLink l (putFlit (controlFlit 1 lane (mapGet 0 (link s l).rxCount lane)))
          (linkCount l 0 1 (setLink l (counted lane (link s l)) s)))
      else if 3 < (parseFlit flit).kind then linkCount l 0 1 (setLink l (counted lane (link s l)) s)
      else modLink l idleFlits
        (if (parseFlit flit).kind = 1 then
          dataFlitIn l (parseFlit flit) (releaseRetain (modLink l (takeAck (parseFlit flit)) (setLink l (counted lane (link s l)) s)))
        else if (parseFlit flit).kind = 2 then
          doControl l (parseFlit flit).payload (releaseRetain (modLink l (takeAck (parseFlit flit)) (setLink l (counted lane (link s l)) s)))
        else if (parseFlit flit).kind = 3 then
          doBeacon l (parseFlit flit).payload (releaseRetain (modLink l (takeAck (parseFlit flit)) (setLink l (counted lane (link s l)) s)))
        else releaseRetain (modLink l (takeAck (parseFlit flit)) (setLink l (counted lane (link s l)) s))) := by
  have hflows : flows (link s l) = true := by
    unfold flows
    rw [hcarries]
    rfl
  have hfree : inject 0x0C (laneLoc l lane) (setLink l
      { link s l with rxCount := mapSet 0 (link s l).rxCount lane (mapGet 0 (link s l).rxCount lane + 1) } s) =
        (false, setLink l (counted lane (link s l)) s) :=
    inject_none ((injects_congr rfl rfl rfl ..).trans hc)
  unfold flitIn
  rw [if_neg (by rw [hflows, bit_eq_testBit, hlane]; simp), inject_none he]
  dsimp only
  rw [if_neg (by simp), inject_none hd]
  dsimp only
  rw [if_neg (by simp)]
  unfold laneFlitIn
  simp only [hfree, Bool.false_or, Bool.false_eq_true, if_false]

theorem dataFlitIn_known {f : Flit} (h : 1600 ≤ (f.lseq + 65536 - (link s l).expLseq) % 65536 ∨
    ∃ g ∈ (link s l).reorder, g.lseq = f.lseq) : dataFlitIn l f s = s := by
  have hany : 1600 ≤ (f.lseq + 65536 - (link s l).expLseq) % 65536 ∨ (link s l).reorder.any (fun g => g.lseq == f.lseq) = true :=
    h.imp_right fun ⟨g, hg, heq⟩ => List.any_eq_true.mpr ⟨g, hg, beq_iff_eq.mpr heq⟩
  unfold dataFlitIn
  dsimp only
  split
  · rfl
  · rfl

end

/-- The entry of an event in an error queue with room. -/
theorem queue_detect (code loc tag addr : Nat) (inj : Bool) (extra : Bytes) {s : Block}
    (h : (mapGet [] s.logs.queues (queueOf loc)).length < 256) : ∃ e : ErrEntry,
      mapGet [] (detect code loc inj tag addr extra s).logs.queues (queueOf loc) = mapGet [] s.logs.queues (queueOf loc) ++ [e] ∧
      e.detector = code ∧ e.loc = loc ∧ e.injected = inj := by
  unfold detect detectAt
  exact ⟨_, mem_putEvent code _ loc tag addr inj _ extra s h, rfl, rfl, rfl⟩

/-- What a discarded flit leaves on its link: its count, the uncorrectable one and a NAK. -/
theorem badFlit_link {l lane n : Nat} {s : Block} (hactive : (link s l).active.testBit lane = true) :
    let t := modLink l (putFlit (controlFlit 1 lane n)) (linkCount l 0 1 (setLink l (counted lane (link s l)) s))
    mapGet 0 (link t l).rxCount lane = mapGet 0 (link s l).rxCount lane + 1 ∧
    mapGet 0 (link t l).counters 0 = min (2 ^ 64 - 1) (mapGet 0 (link s l).counters 0 + 1) ∧
    ∃ m f, (link t l).out = (link s l).out ++ [(m, f)] ∧ f.kind = 2 ∧ f.payload = (controlFlit 1 lane n).payload := by
  intro t
  have hcount : link (setLink l (counted lane (link s l)) s) l = counted lane (link s l) := link_setLink_same ..
  have hsame : link (linkCount l 0 1 (setLink l (counted lane (link s l)) s)) l =
      { counted lane (link s l) with counters := mapMod 0 (link s l).counters 0 (fun c => satN 64 (c + 1)) } :=
    (link_linkCount (i := 0) (n := 1) ..).trans (by rw [hcount]; rfl)
  have hlink : link t l = putFlit (controlFlit 1 lane n) (link (linkCount l 0 1 (setLink l (counted lane (link s l)) s)) l) :=
    link_setLink_same ..
  have hframe := putFlit_frame (f := controlFlit 1 lane n)
    (k := link (linkCount l 0 1 (setLink l (counted lane (link s l)) s)) l)
  have hlanes : (link s l).active ≠ 0 := by
    intro h0
    rw [h0, Nat.zero_testBit] at hactive
    exact Bool.false_ne_true hactive
  obtain ⟨m, ack, ackv, cvc, cred, hout⟩ := putFlit_out (controlFlit 1 lane n)
    (k := link (linkCount l 0 1 (setLink l (counted lane (link s l)) s)) l) (by rw [hsame]; exact hlanes)
  refine ⟨?_, ?_, m, { controlFlit 1 lane n with ack, ackv, cvc, cred }, ?_, rfl, rfl⟩
  · rw [hlink, hframe.rxCount, hsame]
    exact mapGet_mapSet_same ..
  · rw [hlink, hframe.counters, mapGet_counters, hcount]
    rfl
  · rw [hlink, hout, hsame]
    rfl

/-- Settles O44: with no injection, a flit on a lane in use is counted; a bad one leaves a NAK, its count and its event, and a
good one acts by its kind between the acknowledgement and the idle flits. -/
theorem flitsAreCheckedAndTaken : Obligations.FlitsAreCheckedAndTaken := by
  unfold Obligations.FlitsAreCheckedAndTaken
  intro s l lane flit uncorr i hl hlane hhalls hi hcarries hactive hc hd he
  dsimp only
  have hexec : exec i s = .next { s with toBlock := flitIn l lane flit uncorr s.toBlock } := by
    obtain rfl | rfl := hi
    · exact onLane_acts hl hhalls hlane _
    · exact onLane_acts hl hhalls hlane _
  have hflit := flitIn_counts (flit := flit) (uncorr := uncorr) hcarries hactive hc hd he
  refine ⟨fun hbad => ?_, fun hunc hcrc => ?_⟩
  · rw [if_pos (by obtain h | h := hbad <;> rw [h] <;> simp)] at hflit
    rw [hflit] at hexec
    have hlink := badFlit_link (n := mapGet 0 (link s.toBlock l).rxCount lane) hactive
    generalize ht : modLink l (putFlit (controlFlit 1 lane (mapGet 0 (link s.toBlock l).rxCount lane)))
      (linkCount l 0 1 (setLink l (counted lane (link s.toBlock l)) s.toBlock)) = t at hexec hlink
    have hlogs : t.logs = s.logs := by rw [← ht]; rfl
    obtain ⟨hrx, hcount, hout⟩ := hlink
    have harc : ∀ i, link (detect 0x0C (laneLoc l lane) false 0 0 [] t) i = link t i := fun i =>
      link_congr (congrArg Arcade.links (arc_detect ..)) i
    refine ⟨_, hexec, rfl, ?_, ?_, ?_, fun hroom => ?_⟩
    all_goals dsimp only
    · rw [harc]; exact hrx
    · rw [harc]; exact hcount
    · rw [harc]; exact hout
    · rw [← hlogs] at hroom ⊢
      exact queue_detect _ _ _ _ _ _ hroom
  · rw [if_neg (by rw [hunc, hcrc]; simp)] at hflit
    rw [hexec, hflit]
    refine ⟨fun h0 => ?_, fun h1 => ⟨?_, fun hknown => ?_⟩, fun h2 => ?_, fun h3 => ?_⟩
    · rw [if_neg (by omega), if_neg (by omega), if_neg (by omega), if_neg (by omega)]
      rfl
    · rw [if_neg (by omega), if_pos h1]
      rfl
    · rw [if_neg (by omega), if_pos h1]
      exact congrArg (fun c => Host.Outcome.next { s with toBlock := modLink l idleFlits c }) (dataFlitIn_known hknown)
    · rw [if_neg (by omega), if_neg (by omega), if_pos h2]
      rfl
    · rw [if_neg (by omega), if_neg (by omega), if_neg (by omega), if_pos h3]
      rfl

end Sys2Proof.Machine
end

section
/-! SUPPORT. Packets at their destination (R270, R271); O45. -/

namespace Sys2Proof.Machine

/-- What sending a packet may change: links and streams, reports, the step status, the descriptors and the recovery. -/
def SendFrame (s t : Block) : Prop :=
  t = { s with
    arc := { t.arc with rxSeq := s.arc.rxSeq, rxNew := s.arc.rxNew, slot := s.arc.slot }
    bnd := { s.bnd with bits := t.bnd.bits }
    store := t.store, portico := t.portico, portA := t.portA, portB := t.portB, logs := t.logs, recov := t.recov, queues := t.queues }

theorem SendFrame.refl (s : Block) : SendFrame s s := rfl

section
variable {s t : Block} (h : SendFrame s t)
include h

theorem SendFrame.mem : t.mem = s.mem := by rw [show t = _ from h]
theorem SendFrame.mezz : t.mezz = s.mezz := by rw [show t = _ from h]
theorem SendFrame.tok : t.tok = s.tok := by rw [show t = _ from h]
theorem SendFrame.rxSeq : t.arc.rxSeq = s.arc.rxSeq := by rw [show t = _ from h]

theorem SendFrame.trans {u : Block} (h' : SendFrame t u) : SendFrame s u := by
  unfold SendFrame at h h' ⊢
  rw [h', h]

theorem SendFrame.report {u : Block} (h' : ReportFrame t u) : SendFrame s u :=
  h.trans (by
    unfold SendFrame
    unfold ReportFrame at h'
    rw [h'])

theorem SendFrame.descFail : SendFrame s (descFail t) := h.trans rfl

theorem SendFrame.failDesc (desc : Nat) : SendFrame s (failDesc desc t) := h.trans rfl

theorem SendFrame.failPull : SendFrame s (failPull t) := h.trans rfl

theorem SendFrame.modLink (l : Nat) (f : Link → Link) : SendFrame s (modLink l f t) := h.trans rfl

theorem SendFrame.enqueue (again : Bool) (l desc : Nat) (p : Packet) : SendFrame s (enqueue again l desc p t) := h.modLink ..

end

theorem SendFrame.ite {s a b : Block} {c : Prop} [Decidable c] (ha : SendFrame s a) (hb : SendFrame s b) :
    SendFrame s (if c then a else b) := by
  split
  · exact ha
  · exact hb

theorem sendFrame_losePacket (desc : Nat) (p : Packet) (s : Block) : SendFrame s (losePacket desc p s) := by
  have hset : SendFrame s (if (p.src == s.arc.slot && phOp p.header == 4 && leAt p.data 0 1 == 0x20) = true then
      setRecov 5 true s else s) :=
    .ite (.report (.refl s) (ReportFrame.setStatus (.refl s) ..)) (.refl s)
  unfold losePacket loseDesc
  dsimp only
  refine .ite ?_ (.ite (.failDesc ?_ _) (.descFail ?_))
  all_goals exact .ite (.failPull hset) hset

theorem SendFrame.withArc {s t : Block} (h : SendFrame s t) {a : Arcade} (hseq : a.rxSeq = t.arc.rxSeq)
    (hnew : a.rxNew = t.arc.rxNew) (hslot : a.slot = t.arc.slot) :
    SendFrame s { t with arc := a } :=
  h.trans (by
    unfold SendFrame
    dsimp only
    rw [← hseq, ← hnew, ← hslot])

theorem SendFrame.reportArcade {s t : Block} (h : SendFrame s t) : SendFrame s (reportArcade t) :=
  h.report (ReportFrame.setStatus (.refl t) ..)

theorem sendFrame_launch (again : Bool) (desc : Nat) (p : Packet) (s : Block) : SendFrame s (launch again desc p s) := by
  unfold launch
  split
  case h_1 => exact sendFrame_losePacket ..
  case h_2 l det _ =>
    have hdet (t : Block) (a : List Nat) (ht : SendFrame s t) :
        SendFrame s (if det then Machine.reportArcade { t with arc := { t.arc with detours := a } } else t) :=
      .ite (.reportArcade (.withArc ht rfl rfl rfl)) ht
    have hkeep (c : Bool) (t : Block) (a : List Nat) (ht : SendFrame s t) :
        SendFrame s (if c then { t with arc := { t.arc with retaining := a } } else t) :=
      .ite (.withArc ht rfl rfl rfl) ht
    dsimp only
    refine .ite (.ite ?_ (.enqueue ?_ ..)) (.enqueue ?_ ..)
    · refine .withArc ?_ rfl rfl rfl
      exact hdet _ _ (hkeep _ _ _ (.withArc (.refl s) rfl rfl rfl))
    · refine .withArc ?_ rfl rfl rfl
      exact hdet _ _ (hkeep _ _ _ (.withArc (.refl s) rfl rfl rfl))
    · exact hdet _ _ (hkeep _ _ _ (.withArc (.refl s) rfl rfl rfl))

theorem sendFrame_sendPacket (desc : Nat) (p : Packet) (s : Block) : SendFrame s (sendPacket desc p s) := by
  unfold sendPacket
  dsimp only
  have hseq (a : List (Nat × Nat)) : SendFrame s { s with arc := { s.arc with txSeq := a } } := rfl
  exact .ite (.withArc (hseq _) rfl rfl rfl)
    (.ite (.withArc (hseq _) rfl rfl rfl) (.trans (hseq _) (sendFrame_launch ..)))

theorem sendFrame_sendCtrl (dst vc cepoch : Nat) (data : Bytes) (s : Block) : SendFrame s (sendCtrl dst vc cepoch data s) := by
  unfold sendCtrl sendCtrlFor
  exact .ite (.refl s) (sendFrame_sendPacket ..)

theorem sendFrame_countPacket (l : Option Nat) (i : Nat) (s : Block) : SendFrame s (countPacket l i s) := by
  unfold countPacket
  split
  · exact .modLink (.refl s) ..
  · exact .refl s

/-! ## The packet that is next of its stream -/

section
variable {p : Packet} {s : Block}

theorem onPacket_here {op : Nat} (hop : phOp p.header = op) (hdst : p.dst = s.arc.slot) :
    onPacket op p s = takePacket (arrivalLink s p) p s := by
  unfold onPacket packetIn
  rw [if_pos hop, if_pos hdst]

/-- The stream of a packet expects the next one. -/
def advanced (p : Packet) (s : Block) : Block := { s with arc := { s.arc with
  rxSeq := mapSet 0 s.arc.rxSeq (rxKey p.src p.shall p.vc) ((mapGet 0 s.arc.rxSeq (rxKey p.src p.shall p.vc) + 1) % 65536)
  rxNew := setAdd s.arc.rxNew (rxKey p.src p.shall p.vc) } }

theorem takePacket_next {l : Option Nat} (hstale : stalePacket s p = false)
    (hseq : phPseq p.header = mapGet 0 s.arc.rxSeq (rxKey p.src p.shall p.vc)) :
    takePacket l p s = drainLoop (doPacketEffect p (advanced p s)) := by
  unfold takePacket
  rw [if_neg (by rw [hstale]; simp)]
  exact if_pos hseq

theorem doPacketEffect_data (h1 : 1 ≤ phOp p.header) (h3 : phOp p.header ≤ 3) :
    doPacketEffect p s = pullArrive p (performEffect p s) := by
  unfold doPacketEffect
  exact (if_neg (by omega)).trans (if_pos ⟨h1, h3⟩)

/-- A packet out of its turn performs nothing: it is counted, or its gap is reported. -/
theorem takePacket_outOfTurn {l : Option Nat} (hstale : stalePacket s p = false)
    (hseq : phPseq p.header ≠ mapGet 0 s.arc.rxSeq (rxKey p.src p.shall p.vc)) : SendFrame s (takePacket l p s) := by
  unfold takePacket
  dsimp only
  rw [if_neg (by rw [hstale]; simp), if_neg hseq]
  refine .ite (sendFrame_countPacket ..) ?_
  have ht := sendFrame_countPacket l 5 s
  generalize countPacket l 5 s = t at ht ⊢
  refine .ite ht (.trans ?_ (sendFrame_sendCtrl ..))
  exact .withArc ht rfl rfl rfl

theorem performEffect_write {t : Block} (hop : phOp p.header = 1) (h : effectWrite p s = (false, t)) :
    performEffect p s = collsGo (collArrive p (packetToken p.header t)) := by
  unfold performEffect
  dsimp only
  rw [if_pos hop, h]
  exact if_neg Bool.false_ne_true

/-- An MWRITE of MOP 0 to the mezzanine of a gallery. -/
theorem effectWrite_mezz {g : Nat} (hmop : phMop p.header = 0) (htgt : phTgt p.header = 1)
    (hg : physOf s (fld (phAddr p.header) 23 6) = some g) : effectWrite p s =
      (false, mezzWrite g (fld (phAddr p.header) 0 23)
        (withPoison (p.data.take (min (phLen p.header + 1) p.data.length)) p.poison 16) s) := by
  unfold effectWrite
  dsimp only
  have hlegal : ¬ 3 < phMop p.header := by omega
  simp only [if_neg hlegal, if_pos htgt, if_pos hmop, hg]

/-- An MWRITE of MOP 0 to memory in the layout of its epoch. -/
theorem effectWrite_mem (hmop : phMop p.header = 0) (htgt : phTgt p.header = 0)
    (hepoch : epochOk s (phAddr p.header) (packetSpan p.header (min (phLen p.header + 1) p.data.length)) (phLepoch p.header) = true) :
    effectWrite p s = (false, (memWrite p.shall false (phAddr p.header)
        (withPoison (p.data.take (min (phLen p.header + 1) p.data.length)) p.poison 16) s).2) := by
  unfold effectWrite
  dsimp only
  have hlegal : ¬ 3 < phMop p.header := by omega
  simp only [if_neg hlegal]
  rw [if_neg (by omega), if_neg (by rw [hepoch]; simp), if_pos hmop]

theorem performEffect_read (hop : phOp p.header = 2) : performEffect p s = packetToken p.header (effectRead p s) := by
  unfold performEffect
  exact (if_neg (by omega)).trans (if_pos hop)

theorem performEffect_token (hop : phOp p.header = 3) : performEffect p s = packetToken p.header s := by
  unfold performEffect
  exact (if_neg (by omega)).trans (if_neg (by omega))

theorem pullArrive_noJob (h : s.recov.job = none) : pullArrive p s = s := by
  unfold pullArrive
  rw [h]

theorem drainLoop_empty (h : s.arc.loop = []) : drainLoop s = s := by
  unfold drainLoop
  rw [h]
  rfl

theorem packetToken_adds {h g : Nat} (hg : physOf s (phTgal h) = some g) (hval : phTval h ≠ 0) :
    packetToken h s = tokAdd g (phTctr h) (phTval h) s := by
  unfold packetToken
  rw [if_neg hval, hg]

end

/-- Settles O45: the next packet of its stream performs its effect, and any other leaves memory, mezzanines, counters and
streams alone. -/
theorem packetsTakeEffectOnceAndInOrder : Obligations.PacketsTakeEffectOnceAndInOrder := by
  unfold Obligations.PacketsTakeEffectOnceAndInOrder
  intro s p op i hi hop hdst hstale h k e b n data
  have hexec : exec i s = .next { s with toBlock := takePacket (arrivalLink s.toBlock p) p s.toBlock } := by
    rw [← onPacket_here hop hdst]
    obtain ⟨rfl, rfl⟩ | ⟨rfl, rfl⟩ | ⟨rfl, rfl⟩ := hi
    · rfl
    · rfl
    · rfl
  have hnext (hseq : phPseq h = e) : exec i s = .next { s with toBlock := drainLoop (pullArrive p (performEffect p b)) } := by
    rw [hexec, takePacket_next hstale hseq, doPacketEffect_data (by omega) (by omega)]
    rfl
  refine ⟨hnext, fun h1 hmop => ⟨fun g htgt hg => ?_, fun htgt hepoch => ?_⟩, fun h2 => ?_, ?_, fun hseq => ?_⟩
  · exact performEffect_write (hop.trans h1) (effectWrite_mezz hmop htgt hg)
  · exact performEffect_write (hop.trans h1) (effectWrite_mem hmop htgt hepoch)
  · exact performEffect_read (hop.trans h2)
  · intro hseq h3 hjob hloop g hg hval
    rw [hnext hseq, performEffect_token (hop.trans h3), packetToken_adds (s := b) hg hval]
    have hkeep : (tokAdd g (phTctr h) (phTval h) b).recov = b.recov ∧ (tokAdd g (phTctr h) (phTval h) b).arc = b.arc := by
      rw [tokAdd_eq]
      exact ⟨rfl, rfl⟩
    rw [pullArrive_noJob (hkeep.1 ▸ hjob), drainLoop_empty (hkeep.2 ▸ hloop)]
  · have hkeep := takePacket_outOfTurn (l := arrivalLink s.toBlock p) hstale hseq
    generalize takePacket (arrivalLink s.toBlock p) p s.toBlock = t at hexec hkeep
    exact ⟨_, hexec, rfl, hkeep.mem, hkeep.mezz, hkeep.tok, hkeep.rxSeq⟩

end Sys2Proof.Machine
end

section
/-! SUPPORT. Streams at their source (R272, R282, R283, R364); O46. -/

namespace Sys2Proof.Machine

variable (t : StreamF) (s : Block)

/-- An acknowledgement drops what it covers of its stream. -/
theorem retain_filter_gone : s.arc.retain.filter
      (fun r => !(((retained s t).filter (fun r => covered t.pseq (phPseq r.p.header))).contains r)) =
    s.arc.retain.filter (fun r => !(packetKey s r.p == streamKey s t.src t.shall t.dst t.vc && covered t.pseq (phPseq r.p.header))) := by
  refine List.filter_congr fun r hr => congrArg Bool.not (Bool.eq_iff_iff.mpr ?_)
  rw [List.contains_iff_mem, List.mem_filter, retained, List.mem_filter, Bool.and_eq_true]
  exact ⟨fun ⟨⟨_, hkey⟩, hcov⟩ => ⟨hkey, hcov⟩, fun ⟨hkey, hcov⟩ => ⟨⟨hr, hkey⟩, hcov⟩⟩

/-- An acknowledgement of the module's own context stream ends the wait for its holder, any other ends none. -/
theorem ctxAcked_eq : ctxAcked t s = { s with recov := { s.recov with ctxAwait := s.recov.ctxAwait.filter (fun e =>
    !(t.src == s.arc.slot && t.shall == 0 && t.vc == 2 && e.1 == t.dst && covered t.pseq e.2)) } } := by
  unfold ctxAcked
  split
  case isTrue hother =>
    have hnone : (t.src == s.arc.slot && t.shall == 0 && t.vc == 2) = false := by
      obtain h | h | h := hother
      · simp [h]
      · simp [h]
      · simp [h]
    have hkept : s.recov.ctxAwait.filter (fun _ => true) = s.recov.ctxAwait := List.filter_eq_self.mpr fun _ _ => rfl
    simp only [hnone, Bool.false_and, Bool.not_false, hkept]
  case isFalse hown =>
    have hall : (t.src == s.arc.slot && t.shall == 0 && t.vc == 2) = true := by simp only [Bool.and_eq_true, beq_iff_eq]; omega
    simp only [hall, Bool.true_and]

theorem doGapRequest_lost (h : (retained s t).any (fun r => phPseq r.p.header == t.pseq) = false) :
    doGapRequest t s = descFail (failPull s) := if_pos (by rw [h]; rfl)

theorem doGapRequest_held (h : (retained s t).any (fun r => phPseq r.p.header == t.pseq) = true) :
    doGapRequest t s = forEach ((retained s t).filter (fun r => covered (phPseq r.p.header) t.pseq))
      (fun r s => launch true r.desc r.p s) s := if_neg (by rw [h]; simp)

theorem retained_at : (retained s t).filter (fun r => phPseq r.p.header == t.pseq) =
    s.arc.retain.filter (fun r => packetKey s r.p == streamKey s t.src t.shall t.dst t.vc && phPseq r.p.header == t.pseq) := by
  unfold retained
  rw [List.filter_filter]
  exact List.filter_congr fun r _ => Bool.and_comm ..

/-- The relay's onward port counts as down, and the stream takes its path anew. -/
def relayLost (relay : Nat) : Block := { s with arc := { s.arc with
  badRelays := s.arc.badRelays ++ [(relay, onwardPort s relay t.dst)]
  paths := mapSet 0 s.arc.paths (streamKey s t.src t.shall t.dst t.vc) 0 } }

theorem doNoRoute_eq (relay : Nat) : doNoRoute relay t s =
    if (retained s t).filter (fun r => phPseq r.p.header == t.pseq) = [] then descFail (relayLost t s relay)
    else forEach ((retained s t).filter (fun r => phPseq r.p.header == t.pseq))
      (fun r b => launch true r.desc { r.p with detour := false } b) (relayLost t s relay) := rfl

theorem doAckPeriod_none (h : s.arc.rxNew = []) : doAckPeriod s = s := by
  unfold doAckPeriod
  dsimp only
  rw [h]
  show { s with arc := { s.arc with rxNew := [] } } = s
  rw [← h]

theorem failPull_job {j : TakeJob} (h : (failPull s).recov.job = some j) : j.failed = true := by
  obtain ⟨i, -, rfl⟩ := Option.map_eq_some_iff.mp h
  rfl

/-- Settles O46: each message acts on the packets that the stream still holds. -/
theorem streamsAreRetainedAndAcknowledged : Obligations.StreamsAreRetainedAndAcknowledged := by
  unfold Obligations.StreamsAreRetainedAndAcknowledged
  refine ⟨fun s t relay => ?_, fun s h => ?_, fun s k h => ?_, fun s slot bits => ?_⟩
  · refine ⟨?_, fun hlost => ?_, fun hheld => effect_of_eq (doGapRequest_held _ _ hheld), fun hagain => ?_, fun hnone => ?_⟩
    · refine effect_of_eq (f := doStreamAck t) ?_
      unfold doStreamAck
      dsimp only
      rw [ctxAcked_eq, retain_filter_gone]
    · exact ⟨_, effect_of_eq (doGapRequest_lost _ _ hlost), rfl, testBit_descFail _, rfl, fun j hj => failPull_job _ hj⟩
    · refine effect_of_eq ((doNoRoute_eq t s.toBlock relay).trans ?_)
      rw [retained_at]
      exact if_neg hagain
    · have hlost : doNoRoute relay t s.toBlock = descFail (relayLost t s.toBlock relay) := by
        rw [doNoRoute_eq, retained_at]
        exact if_pos hnone
      exact ⟨_, effect_of_eq hlost, rfl, testBit_descFail _, rfl⟩
  · exact effect_of_eq (doAckPeriod_none _ h)
  · refine effect_of_eq (f := doAckPeriod) ?_
    unfold doAckPeriod
    dsimp only
    rw [h]
    rfl
  · exact ⟨_, rfl, rfl, mapGet_mapSet_same .., fun q hq => mapGet_mapSet_ne _ _ _ _ _ hq, fun r hr => by
      simpa using (List.mem_filter.mp hr).2⟩

end Sys2Proof.Machine
end

section
/-! SUPPORT. Messages of a boundary and contexts (R145, R146, R364, R409); O47. -/

namespace Sys2Proof.Machine

theorem iter_fixed {σ : Type} {f : σ → σ} {s : σ} (h : f s = s) (n : Nat) : iter f n s = s := by
  induction n with
  | zero => rfl
  | succ n ih => rw [iter, h, ih]

/-- Outside a boundary's actions nothing goes on. -/
theorem boundGo_idle {s : Block} (h : s.bnd.phase ≠ .actions) : boundGo s = s := by
  unfold boundGo
  generalize 40 = n
  have hidle : ¬ (s.bnd.phase = .actions ∧ procRuns s 2 = true) := fun hact => h hact.1
  refine iter_fixed ?_ n
  exact if_neg hidle

section
variable (s : Block)

/-- A vote of another step or epoch is counted, and no vote is kept. -/
theorem doVote_discards {v : VoteF} (h : v.step < stepNo s ∨ stepNo s + 2 ≤ v.step ∨ v.epoch ≠ epochNo s) :
    (doVote v s).bnd.votes = s.bnd.votes ∧ (doVote v s).bnd.phase = s.bnd.phase ∧
      num (doVote v s) 0x234207 = min (2 ^ 32 - 1) (num s 0x234207 + 1) := by
  have hcount : num (voteDiscard s) 0x234207 = min (2 ^ 32 - 1) (num s 0x234207 + 1) := num_bumpNum ..
  have hbnd : (voteDiscard s).bnd = s.bnd := ReportFrame.bnd (.bumpNum (.refl s) ..)
  unfold doVote
  split
  case isTrue =>
    have hvotes := congrArg Boundary.votes hbnd
    have hphase := congrArg Boundary.phase hbnd
    exact ⟨hvotes, hphase, hcount⟩
  case isFalse hstep =>
    rw [if_pos (bne_iff_ne.mpr ((h.resolve_left fun hlow => hstep (.inl hlow)).resolve_left fun hhigh => hstep (.inr hhigh)))]
    exact ⟨congrArg Boundary.votes hbnd, congrArg Boundary.phase hbnd, hcount⟩

theorem doVote_kept {v : VoteF} (hlow : stepNo s ≤ v.step) (hhigh : v.step < stepNo s + 2) (hepoch : v.epoch = epochNo s) :
    doVote v s = boundGo { s with bnd := { s.bnd with votes := s.bnd.votes ++ [v] } } := by
  unfold doVote
  rw [if_neg (by omega), if_neg (by rw [hepoch]; simp)]

theorem doAgree_earlier {a : AgreeF} (h : earlier s a.step a.attempt = true) :
    (doAgree a s).bnd.agrees = s.bnd.agrees ∧ (doAgree a s).bnd.phase = s.bnd.phase := by
  unfold doAgree
  rw [if_pos h]
  split
  · exact ⟨rfl, rfl⟩
  · exact ⟨rfl, rfl⟩

theorem any_agrees {a : AgreeF} : s.bnd.agrees.any (fun b => b.slot == a.slot && b.step == a.step && b.attempt == a.attempt) = true ↔
    ∃ c ∈ s.bnd.agrees, c.slot = a.slot ∧ c.step = a.step ∧ c.attempt = a.attempt := by
  simp only [List.any_eq_true, Bool.and_eq_true, beq_iff_eq, and_assoc]

theorem doAgree_known {a : AgreeF} (h : earlier s a.step a.attempt = false)
    (hknown : ∃ c ∈ s.bnd.agrees, c.slot = a.slot ∧ c.step = a.step ∧ c.attempt = a.attempt) : doAgree a s = s := by
  unfold doAgree
  rw [if_neg (by rw [h]; simp), if_pos ((any_agrees s).mpr hknown)]

theorem doAgree_new {a : AgreeF} (h : earlier s a.step a.attempt = false)
    (hnew : ∀ c ∈ s.bnd.agrees, ¬ (c.slot = a.slot ∧ c.step = a.step ∧ c.attempt = a.attempt)) :
    doAgree a s = boundGo { s with bnd := { s.bnd with agrees := s.bnd.agrees ++ [a] } } := by
  unfold doAgree
  rw [if_neg (by rw [h]; simp), if_neg (fun hany => by obtain ⟨c, hc, heq⟩ := (any_agrees s).mp hany; exact hnew c hc heq)]

/-! ## Contexts -/

/-- A fold that keeps one of two entries gives an entry of the list or the one it began with. -/
theorem foldl_pick_mem {α : Type} {p : α → α → Prop} [∀ a b, Decidable (p a b)] (l : List α) (b : α) :
    l.foldl (fun b e => if p e b then e else b) b ∈ b :: l := by
  induction l generalizing b with
  | nil => exact List.mem_singleton.mpr rfl
  | cons e l ih =>
    have h := ih (if p e b then e else b)
    rw [List.foldl_cons]
    rw [List.mem_cons] at h ⊢
    obtain h | h := h
    · rw [h]
      split
      · exact .inr (List.mem_cons_self ..)
      · exact .inl rfl
    · exact .inr (List.mem_cons_of_mem _ h)

/-- A context is kept for its slot: the module's own always, another while at most eight others are kept. -/
theorem contexts_keepContext {slot : Nat} {c : Bytes}
    (h : slot = s.arc.slot ∨ ((mapSet [] s.recov.contexts slot c).filter (fun e => e.1 != s.arc.slot)).length ≤ 8) :
    mapGet [] (keepContext slot c s).recov.contexts slot = c := by
  unfold keepContext
  dsimp only
  split
  case isTrue => exact mapGet_mapSet_same ..
  case isFalse hmany =>
    have hslot : slot = s.arc.slot := h.resolve_right hmany
    generalize ho : (mapSet [] s.recov.contexts slot c).filter (fun e => e.1 != s.arc.slot) = others at hmany
    have hmem := foldl_pick_mem (p := fun e b : Nat × Bytes => ctxStep e.2 < ctxStep b.2) others (others.headD (0, []))
    have hin : others.foldl (fun b e => if ctxStep e.2 < ctxStep b.2 then e else b) (others.headD (0, [])) ∈ others := by
      obtain ⟨e, l, rfl⟩ : ∃ e l, others = e :: l := by
        cases others with
        | nil => exact absurd (Nat.zero_le 8) hmany
        | cons e l => exact ⟨e, l, rfl⟩
      obtain heq | hin := List.mem_cons.mp hmem
      · rw [heq]
        exact List.mem_cons_self ..
      · exact hin
    rw [← ho] at hin
    have hne := (List.mem_filter.mp hin).2
    rw [ho] at hne
    rw [mapGet_mapSet_ne _ _ _ _ _ (by rw [hslot]; exact (bne_iff_ne.mp hne).symm)]
    exact mapGet_mapSet_same ..

theorem ctxParts_keepContext (slot : Nat) (c : Bytes) : (keepContext slot c s).recov.ctxParts = s.recov.ctxParts := rfl

end

/-- Settles O47: a vote, an agreement or a part of a context is kept or discarded by its step, epoch, sender and room. -/
theorem boundaryMessagesAndContextsAreKept : Obligations.BoundaryMessagesAndContextsAreKept := by
  unfold Obligations.BoundaryMessagesAndContextsAreKept
  refine ⟨⟨fun s v hlow hhigh hepoch => ?_, fun s v h => ?_, fun s a => ⟨fun h => ?_, fun h => ⟨fun hnew => ?_, fun hknown => ?_⟩⟩⟩,
    fun s slot offset total data => ?_⟩
  · have hdo := doVote_kept s.toBlock hlow hhigh hepoch
    exact ⟨effect_of_eq (f := doVote v) hdo, fun hidle => effect_of_eq (f := doVote v) (hdo.trans (boundGo_idle hidle))⟩
  · exact ⟨_, rfl, rfl, doVote_discards s.toBlock h⟩
  · exact ⟨_, rfl, rfl, doAgree_earlier s.toBlock h⟩
  · have hdo := doAgree_new s.toBlock h hnew
    exact ⟨effect_of_eq (f := doAgree a) hdo, fun hidle => effect_of_eq (f := doAgree a) (hdo.trans (boundGo_idle hidle))⟩
  · exact effect_of_eq (f := doAgree a) (doAgree_known s.toBlock h hknown)
  · intro old parts got c
    refine ⟨fun hless => ?_, fun hall => ?_⟩
    · refine effect_of_eq (f := doContextMsg slot offset total data) ?_
      exact if_pos hless
    · have hexec : exec (.contextMessage slot offset total data) s = .next { s with
          toBlock := doContextMsg slot offset total data s.toBlock } := rfl
      have hdo : doContextMsg slot offset total data s.toBlock =
          if ctxValid c then keepContext slot c { s.toBlock with recov := { s.recov with ctxParts := mapSet [] s.recov.ctxParts slot [] } }
          else { s.toBlock with recov := { s.recov with ctxParts := mapSet [] s.recov.ctxParts slot [] } } := if_neg (Nat.not_lt.mpr hall)
      rw [hdo] at hexec
      refine ⟨_, hexec, rfl, ?_, fun hvalid hroom => ?_, fun hbad => ?_⟩
      · dsimp only
        split
        · exact mapGet_mapSet_same ..
        · exact mapGet_mapSet_same ..
      · dsimp only
        rw [if_pos hvalid]
        exact contexts_keepContext _ hroom
      · dsimp only
        rw [if_neg (by rw [hbad]; simp)]

end Sys2Proof.Machine
end

section
/-! SUPPORT. Reading and writing one whole sector of a plain page (R227 to R229, R232). -/

namespace Sys2Proof.Machine

/-! ## Sets of sectors, cells -/

theorem contains_setDel (l : List Nat) (n k : Nat) : (setDel l n).contains k = (l.contains k && k != n) := by
  rw [Bool.eq_iff_iff, Bool.and_eq_true, List.contains_iff_mem, List.contains_iff_mem]
  exact List.mem_filter

theorem mem_setAdd (l : List Nat) (n k : Nat) : k ∈ setAdd l n ↔ k ∈ l ∨ k = n := by
  induction l with
  | nil => simp [setAdd]
  | cons a r ih =>
    unfold setAdd
    split
    case isTrue h =>
      subst h
      rw [List.mem_cons]
      exact ⟨Or.inl, fun h => h.elim id Or.inl⟩
    case isFalse =>
      split
      · rw [List.mem_cons]
        exact or_comm
      · rw [List.mem_cons, ih, List.mem_cons]
        exact or_assoc.symm

theorem contains_setPut_same (l : List Nat) (n : Nat) (b : Bool) : (setPut l n b).contains n = b := by
  unfold setPut
  cases b with
  | true => exact List.contains_iff_mem.mpr ((mem_setAdd l n n).mpr (.inr rfl))
  | false =>
    refine (contains_setDel l n n).trans ?_
    simp

theorem contains_setPut_ne (l : List Nat) {n k : Nat} (b : Bool) (h : k ≠ n) : (setPut l n b).contains k = l.contains k := by
  unfold setPut
  cases b with
  | true =>
    rw [if_pos rfl, Bool.eq_iff_iff, List.contains_iff_mem, List.contains_iff_mem, mem_setAdd]
    exact or_iff_left h
  | false =>
    refine (contains_setDel l n k).trans ?_
    rw [bne_iff_ne.mpr h, Bool.and_true]

/-- A cell of the bytes that a write puts. -/
theorem mapGet_cellsPut (m : List Host.Cell) (a k : Nat) (l : Bytes) : mapGet (0 : Byte) (cellsPut m a (l.map some)) k =
    if a ≤ k ∧ k < a + l.length then l.getD (k - a) 0 else mapGet (0 : Byte) m k := by
  induction l generalizing m a with
  | nil => exact (if_neg (by simp)).symm
  | cons b l ih =>
    rw [List.map_cons, cellsPut, ih, List.length_cons]
    by_cases hk : k = a
    · subst hk
      rw [if_neg (by omega), if_pos (by omega), mapGet_mapSet_same, Nat.sub_self]
      rfl
    · rw [mapGet_mapSet_ne _ _ _ _ _ hk]
      by_cases hin : a + 1 ≤ k ∧ k < a + 1 + l.length
      · rw [if_pos hin, if_pos (by omega), show k - a = k - (a + 1) + 1 by omega]
        rfl
      · rw [if_neg hin, if_neg (by omega)]

theorem secBytes_cellsPut_same {s : Block} {l : Bytes} (hlen : l.length = 32) (k : Nat) :
    (List.range 32).map (fun i => mapGet (0 : Byte) (cellsPut s.mem.bytes (k * 32) (l.map some)) (k * 32 + i)) = l := by
  refine List.ext_getElem (by simp [hlen]) fun i h1 h2 => ?_
  rw [List.getElem_map, List.getElem_range, mapGet_cellsPut, if_pos (by omega), show k * 32 + i - k * 32 = i by omega]
  simp [List.getD_eq_getElem?_getD, h2]

theorem secBytes_cellsPut_ne {s : Block} {l : Bytes} (hlen : l.length = 32) {k j : Nat} (h : j ≠ k) :
    (List.range 32).map (fun i => mapGet (0 : Byte) (cellsPut s.mem.bytes (k * 32) (l.map some)) (j * 32 + i)) = secBytes s j := by
  refine List.map_congr_left fun i hi => ?_
  have hi := List.mem_range.mp hi
  rw [mapGet_cellsPut, if_neg (by omega)]

/-! ## Pieces -/

theorem pieces_sector {a : Nat} (halign : a % 32 = 0) (ha : a < 2 ^ 39) :
    pieces (a % 2 ^ 39) 32 = [(a / 2 ^ 20, a % 2 ^ 20, 32, 0)] := by
  have hone : ceilDiv (32 + a % 2 ^ 20) (2 ^ 20) = 1 := by
    unfold ceilDiv
    omega
  unfold pieces
  rw [if_neg (by decide), Nat.mod_eq_of_lt ha]
  dsimp only
  rw [hone, List.range_one, List.map_singleton]
  simp only [if_true, Nat.add_zero, Nat.sub_zero]
  rw [Nat.mod_eq_of_lt (by omega), Nat.min_eq_right (by omega)]

theorem pieceSecs_sector {off : Nat} (h : off % 32 = 0) : pieceSecs off 32 = [off] := by
  have hone : ceilDiv (32 + off % 32) 32 = 1 := by
    unfold ceilDiv
    omega
  unfold pieceSecs
  rw [hone, List.range_one, List.map_singleton, Nat.add_zero]
  congr 1
  omega

theorem secPart_sector {data : List (Byte × Bool)} (h : data.length = 32) (off : Nat) : secPart off 32 data off = data.map some := by
  unfold secPart
  refine List.ext_getElem (by simp [h]) fun i h1 h2 => ?_
  rw [List.length_map, List.length_range] at h1
  rw [List.getElem_map, List.getElem_range, if_neg (by omega), Nat.add_sub_cancel_left, List.getElem_map]
  exact List.getElem?_eq_getElem (by omega)

/-! ## A page that is usable, not mirrored and no shadow -/

/-- A state with other page-map caches. -/
def withCaches (a b : List Nat) (n : Nat) (s : Block) : Block := { s with mem := { s.mem with cacheA := a, cacheB := b, misses := n } }

theorem injects_unarmed {s : Block} (h : armed s = false) (code loc : Nat) : injects s code loc = false := by
  unfold injects
  rw [h]
  rfl

theorem translate_unarmed {s : Block} (h : armed s = false) (hall page : Nat) :
    ∃ a b n, translate hall page s = (pmapEntry s page, withCaches a b n s) := by
  unfold translate
  dsimp only
  split
  · exact ⟨s.mem.cacheA, s.mem.cacheB, s.mem.misses, rfl⟩
  · rw [inject_none (injects_unarmed h ..)]
    dsimp only
    rw [if_neg (c := false = true) Bool.false_ne_true]
    split
    · exact ⟨_, s.mem.cacheB, _, rfl⟩
    · exact ⟨s.mem.cacheA, _, _, rfl⟩

theorem pageFaults_plain {e page : Nat} {s : Block} (huse : peUsable e = true) (hmirror : bit e 1 = false) : pageFaults e page s = s := by
  unfold pageFaults peBoth
  rw [if_neg (by rw [huse]; simp), if_neg (by rw [hmirror]; simp)]

theorem readSec_plain {e page off : Nat} {s : Block} (hmirror : bit e 1 = false)
    (herr : mapGet 0 s.mem.symErr (secKey (peHere e) off) = 0) : readSec e page off s =
      (secBytes s (secKey (peHere e) off), s.mem.poison.contains (secKey (peHere e) off), s) := by
  unfold readSec readSecAt decodeSec peMirrored
  dsimp only
  rw [if_pos herr, if_pos (by rw [hmirror]; rfl)]

section
variable {s : Block} {a : Nat} (h : plainSector s a)
include h

/-- A read of a whole sector gives its bytes with the sector's poison on each, and moves the page-map caches at most. -/
theorem memRead_sector (hall : Nat) : ∃ ca cb n, memRead hall a 32 s =
    ((secBytes s (sectorOf s a)).map (fun b => (b, s.mem.poison.contains (sectorOf s a))), withCaches ca cb n s) := by
  obtain ⟨halign, ha, huse, hmirror, -, harm, herr⟩ := h
  obtain ⟨ca, cb, n, htr⟩ := translate_unarmed harm hall (a / 2 ^ 20)
  refine ⟨ca, cb, n, ?_⟩
  unfold memRead
  rw [pieces_sector halign ha, List.foldl_cons, List.foldl_nil]
  unfold readPiece
  dsimp only
  rw [htr]
  dsimp only
  rw [pageFaults_plain huse hmirror, if_pos huse, pieceSecs_sector (by omega), List.foldl_cons, List.foldl_nil]
  unfold readFold
  dsimp only
  rw [readSec_plain (s := withCaches ca cb n s) hmirror herr]
  dsimp only
  rw [show a % 2 ^ 20 % 32 = 0 by omega, List.drop_zero, List.nil_append, List.nil_append, List.take_of_length_le]
  · rfl
  · exact Nat.le_of_eq (by rw [List.length_map, length_secBytes])

end

/-- A write of a whole sector at a location. -/
theorem writeSecAt_whole {s : Block} (h : armed s = false) (fk off addr : Nat) (l : Bytes) (pois : Bool) :
    writeSecAt fk off addr (l.map some) pois s = { s with mem := { s.mem with
      bytes := cellsPut s.mem.bytes (secKey fk off * 32) (l.map some)
      symErr := mapSet 0 s.mem.symErr (secKey fk off) 0
      poison := setPut s.mem.poison (secKey fk off) pois } } := by
  have hwhole : (l.map some).all Option.isSome = true := by simp
  unfold writeSecAt
  dsimp only
  rw [hwhole, if_pos rfl, inject_none (injects_unarmed h ..)]
  dsimp only
  rw [inject_none (injects_unarmed h ..)]
  dsimp only
  rw [Bool.not_true, Bool.false_and, Bool.or_false, if_neg (by simp), if_neg (by simp)]
  rfl

theorem dropTags_colls (page : Nat) (s : Block) : ∃ c, dropTags page s = { s with colls := c } := by
  unfold dropTags
  split
  · exact ⟨_, rfl⟩
  · exact ⟨s.colls, rfl⟩

theorem any_map_some {data : List (Byte × Bool)} {f : Option (Byte × Bool) → Bool} (hf : ∀ d, f (some d) = d.2) :
    (data.map some).any f = anyPoison data := by
  unfold anyPoison
  rw [List.any_map]
  exact congrArg data.any (funext hf)

/-- A write of a whole sector puts its bytes and its poison there; the page-map caches and the cache slots' tags may move. -/
theorem memWrite_sector {s : Block} {a : Nat} (h : plainSector s a) {data : List (Byte × Bool)} (hlen : data.length = 32) (hall : Nat) :
    ∃ ca cb n c, memWrite hall false a data s = (false, { withCaches ca cb n s with
      colls := c
      mem := { (withCaches ca cb n s).mem with
        bytes := cellsPut s.mem.bytes (sectorOf s a * 32) ((plain data).map some)
        symErr := mapSet 0 s.mem.symErr (sectorOf s a) 0
        poison := setPut s.mem.poison (sectorOf s a) (anyPoison data) } }) := by
  obtain ⟨halign, ha, huse, hmirror, hshadow, harm, herr⟩ := h
  obtain ⟨ca, cb, n, htr⟩ := translate_unarmed harm hall (a / 2 ^ 20)
  obtain ⟨c, htags⟩ := dropTags_colls (a / 2 ^ 20) (withCaches ca cb n s)
  have hlocs : writeLocs false (pmapEntry s (a / 2 ^ 20)) = [peHere (pmapEntry s (a / 2 ^ 20))] := by
    unfold writeLocs peShadow peMirrored
    rw [hshadow, hmirror]
    rfl
  have hpart : (data.map some).map (·.map (·.1)) = (plain data).map (some : Byte → Option Byte) := by
    unfold plain
    rw [List.map_map, List.map_map]
    rfl
  refine ⟨ca, cb, n, c, ?_⟩
  unfold memWrite
  rw [hlen, pieces_sector halign ha, List.foldl_cons, List.foldl_nil]
  unfold writePiece
  dsimp only
  rw [htr]
  dsimp only
  rw [pageFaults_plain huse hmirror, if_neg (by rw [huse]; simp), hlocs, pieceSecs_sector (by omega), List.isEmpty_cons,
    if_neg (by simp), htags, List.drop_zero, List.take_of_length_le (by omega)]
  refine congrArg (Prod.mk _) ?_
  simp only [forEach, List.foldl_cons, List.foldl_nil]
  unfold writeSecTo
  dsimp only
  rw [secPart_sector hlen, hpart, any_map_some (fun _ => rfl)]
  exact writeSecAt_whole (s := { withCaches ca cb n s with colls := c }) harm ..

end Sys2Proof.Machine
end

section
/-! SUPPORT. The register window, the aperture and the links of a vestibule (R378 to R390); O48. -/

namespace Sys2Proof.Machine

/-! ## Headers -/

theorem headOf_headBits {h : VHead} (hop : h.op < 256) (hspace : h.space < 2) (hcls : h.cls < 4) (htag : h.tag < 4096)
    (hlen : h.len < 4096) (haddr : h.addr < 2 ^ 39) (hcst : h.cst < 8) : headOf (headBits h) = h ∧ headBits h < 2 ^ 128 := by
  obtain ⟨op, space, cls, tag, len, addr, cst⟩ := h
  dsimp only at *
  unfold headOf headBits fld
  simp only [Nat.shiftRight_eq_div_pow, VHead.mk.injEq]
  omega

/-! ## A message that reaches its port -/

section
variable {p : Nat} {s : State}

theorem portWake_active {v : Vport} (h : v.link = 2) : portWake v = v := if_neg (by omega)

theorem modPort_same {b : Block} {f : Vport → Vport} (h : f (port b p) = port b p) : modPort p f b = b := by
  unfold modPort
  unfold port at h
  split
  case isTrue h0 => rw [if_pos h0] at h; rw [h]
  case isFalse h0 => rw [if_neg h0] at h; rw [h]

theorem mem_modPort (p : Nat) (f : Vport → Vport) (b : Block) : (modPort p f b).mem = b.mem := by
  unfold modPort
  split
  · rfl
  · rfl

theorem onPort_acts (hp : p < 2) (halive : alive s.toBlock = true) (hlink : (port s.toBlock p).link = 2)
    (hinj : injects s.toBlock 0x19 (domLoc 9) = false) (f : Block → Block) :
    onPort p f s = .next { s with toBlock := f s.toBlock } := by
  unfold onPort
  rw [if_neg (by omega)]
  refine effect_of_eq ?_
  rw [halive, hlink, modPort_same (portWake_active hlink), vestibuleFlit, inject_none hinj]
  rfl

end

/-! ## Window reads -/

theorem leAt_leBytes {n v : Nat} (h : v < 256 ^ n) : leAt (leBytes n v) 0 n = v := by
  have hslice : slice (leBytes n v) 0 n = leBytes n v := by
    unfold slice
    dsimp only
    rw [List.drop_zero, List.take_of_length_le (Nat.le_of_eq (length_leBytes ..)), length_leBytes, Nat.sub_self, List.replicate_zero,
      List.append_nil]
  unfold leAt
  rw [hslice, leNat_leBytes h]

theorem winOk_word {off : Nat} (halign : off % 4 = 0) (hlast : off + 4 ≤ 65536) : winOk off 4 = true := by
  unfold winOk
  simp [halign, hlast]

/-- A read of one word answers with the word, and clears a counter that it read. -/
theorem winRead_word {p tag off : Nat} {s : Block} (halign : off % 4 = 0) (hlast : off + 4 ≤ 65536) :
    winRead p tag off 4 s = complete p tag 0 0 off (leBytes 4 (winWord s p off)) (cleanMask 4) (modPort p (winClear off) s) := by
  have hone : (List.range (ceilDiv 4 4)).map (fun i => off + 4 * i) = [off] := rfl
  unfold winRead
  dsimp only
  rw [if_neg (by rw [winOk_word halign hlast]; simp), hone, List.flatMap_cons, List.flatMap_nil, List.append_nil,
    List.take_of_length_le (Nat.le_of_eq (length_leBytes ..))]
  rfl

section
variable {p tag cst space addr : Nat} {data : Bytes} {mask : List Bool} {s : Block}

theorem port_complete : port (complete p tag cst space addr data mask s) p =
    { port s p with out := (port s p).out ++ [.completion tag cst space addr data mask] } := port_modPort_same ..

/-- The port after a read of one word. -/
theorem port_winRead {off : Nat} (halign : off % 4 = 0) (hlast : off + 4 ≤ 65536) :
    (port (winRead p tag off 4 s) p).out =
        (port s p).out ++ [.completion tag 0 0 off (leBytes 4 (winWord s p off)) (cleanMask 4)] ∧
      (port (winRead p tag off 4 s) p).retryCnt = (if off = 0x18 then 0 else (port s p).retryCnt) ∧
      (port (winRead p tag off 4 s) p).poisonCnt = (if off = 0x1C then 0 else (port s p).poisonCnt) := by
  rw [winRead_word halign hlast, port_complete, port_modPort_same]
  unfold winClear
  by_cases h18 : off = 0x18
  · rw [if_pos h18, if_pos h18, if_neg (by omega)]
    exact ⟨rfl, rfl, rfl⟩
  · rw [if_neg h18, if_neg h18]
    by_cases h1C : off = 0x1C
    · rw [if_pos h1C, if_pos h1C]
      exact ⟨rfl, rfl, rfl⟩
    · rw [if_neg h1C, if_neg h1C]
      exact ⟨rfl, rfl, rfl⟩

end

theorem doVread_takes {p : Nat} {m : VmsgF} {off len : Nat} (s : Block) (hlow : 1 ≤ len) (hhigh : len ≤ 4096) :
    doVread p m off len s = takeHead p { op := m.op, space := 0, cls := 0, tag := m.tag, len := len - 1, addr := off, cst := 0 } s :=
  if_neg (by omega)

theorem takeHead_sent {p : Nat} {h : VHead} {s : Block} (h2 : 2 ≤ h.op) (h4 : h.op ≤ 4) : takeHead p h s = s := by
  unfold takeHead
  rw [if_neg (by omega), if_pos ⟨h2, h4⟩]

theorem takeHead_unknown {p : Nat} {h : VHead} {s : Block} (hop : h.op = 0 ∨ 4 < h.op) : takeHead p h s = vstErr p 6 s := by
  unfold takeHead
  rw [if_neg (by omega), if_neg (by omega)]

/-! ## Window writes -/

/-- A write of one word of the window. -/
theorem doWindowWrite_word {p off v : Nat} {s : Block} (halign : off % 4 = 0) (hlast : off + 4 ≤ 65536) (hv : v < 2 ^ 32) :
    doWindowWrite p off (leBytes 4 v) s = winPut ringBuffer p off 4 v s := by
  have hone : List.range (ceilDiv 4 4) = [0] := rfl
  unfold doWindowWrite winWrite
  rw [length_leBytes, if_neg (by decide), if_neg (by rw [winOk_word halign hlast]; simp), hone]
  simp only [forEach, List.foldl_cons, List.foldl_nil]
  rw [leAt_leBytes hv]
  rfl

/-- A write of an entry of the doorbell map. -/
theorem winPut_dbmap {mb : Nat → Nat → Block → Block} {p n v : Nat} {s : Block} (hn : n < 62) :
    winPut mb p (0x200 + 4 * n) 4 v s =
      modPort p (fun q => { q with dbmap := mapSet 0 q.dbmap n (v &&& 0x80003FFF) }) s := by
  unfold winPut
  rw [if_neg (by omega), if_neg (by omega), if_neg (by omega), if_neg (by omega), if_neg (by omega), if_neg (by omega),
    if_pos (by omega), show (0x200 + 4 * n - 0x200) / 4 = n by omega]

/-! ## Links -/

theorem vestibuleLinkDown_acts {p : Nat} {s : State} (hp : p < 2) : exec (.vestibuleLinkDown p) s = .next { s with
    toBlock := modPort p (fun q => { q with link := if halls s.toBlock then 1 else 0, mods := 0 }) s.toBlock } := by
  have hdown : portDown (halls s.toBlock) = fun q => { q with link := if halls s.toBlock then 1 else 0, mods := 0 } := rfl
  rw [← hdown]
  exact (if_neg (by omega)).trans rfl

/-- Alerts that were held are sent; the link itself stays as it is. -/
theorem sendHeld_link (v : Vport) : (sendHeld v).link = v.link ∧ (sendHeld v).mods = v.mods ∧ (sendHeld v).repairs = v.repairs ∧
    (sendHeld v).everUp = v.everUp ∧ (sendHeld v).retrains = v.retrains := by
  unfold sendHeld
  refine List.foldlRecOn v.held _ (motive := fun q : Vport => q.link = v.link ∧ q.mods = v.mods ∧ q.repairs = v.repairs ∧
    q.everUp = v.everUp ∧ q.retrains = v.retrains) ⟨rfl, rfl, rfl, rfl, rfl⟩ fun q hq e _ => ?_
  dsimp only
  split
  · exact hq
  · exact hq

/-- A training that ends while the halls run brings the link up. -/
theorem doLinkUp_trains {p : Nat} {s : Block} (hhalls : halls s = true) (hdown : (port s p).link < 2) :
    (port (doLinkUp p s) p).link = 2 ∧ 1 ≤ (port (doLinkUp p s) p).mods ∧ (port (doLinkUp p s) p).mods ≤ 15 ∧
      (port (doLinkUp p s) p).repairs < 256 ∧ (port (doLinkUp p s) p).everUp = true ∧ (doLinkUp p s).freeCtr = s.freeCtr + 1 ∧
      (port (doLinkUp p s) p).retrains =
        if (port s p).everUp then min 65535 ((port s p).retrains + 1) else (port s p).retrains := by
  have hdo : doLinkUp p s = modPort p (portUpNow (1 + (fresh s).1 % 15) (fld (fresh s).1 8 8)) (fresh s).2 := by
    unfold doLinkUp
    rw [hhalls, decide_eq_true hdown]
    rfl
  have hport : port (doLinkUp p s) p = portUpNow (1 + (fresh s).1 % 15) (fld (fresh s).1 8 8) (port s p) := by
    rw [hdo]
    exact port_modPort_same ..
  have hfree : (doLinkUp p s).freeCtr = s.freeCtr + 1 := by
    rw [hdo]
    unfold modPort
    split
    · rfl
    · rfl
  obtain ⟨hlink, hmods, hrepairs, hever, hretrains⟩ := sendHeld_link { port s p with
    link := 2, mods := 1 + (fresh s).1 % 15, repairs := fld (fresh s).1 8 8, everUp := true
    retrains := if (port s p).everUp then satN 16 ((port s p).retrains + 1) else (port s p).retrains }
  rw [hport]
  refine ⟨hlink, ?_, ?_, ?_, hever, hfree, hretrains.trans ?_⟩
  · exact Nat.le_trans (Nat.le_add_right 1 _) (Nat.le_of_eq hmods.symm)
  · exact Nat.le_trans (Nat.le_of_eq hmods) (show 1 + (fresh s).1 % 15 ≤ 15 by omega)
  · exact Nat.lt_of_le_of_lt (Nat.le_of_eq hrepairs) (Nat.mod_lt _ (by decide))
  · exact congrArg (fun n => if (port s p).everUp then n else (port s p).retrains) (satN_eq_min ..)

/-! ## The aperture -/

section
variable {p tag addr len cls : Nat} {s : Block}

theorem apOk_of (haddr : addr < 2 ^ 39) (hlow : 1 ≤ len) (hhigh : len ≤ 4096) (hpage : addr / 4096 = (addr + len - 1) / 4096) :
    apOk addr len = true := by
  unfold apOk
  rw [decide_eq_true hlow, decide_eq_true hhigh, decide_eq_true haddr, ← hpage]
  simp

theorem apRead_clean (hok : apOk addr len = true) (hawake : (!(halls s) || bit (num s 0x720100) 7) = false)
    (hclean : ((unitMask (memRead p addr len s).1).filter id).length = 0) :
    apRead p tag addr len s = complete p tag 0 1 addr (plain (memRead p addr len s).1) (unitMask (memRead p addr len s).1)
      (memRead p addr len s).2 := by
  unfold apRead
  rw [if_neg (by rw [hok]; simp), if_neg (by rw [← Bool.or_eq_true, hawake]; simp)]
  exact if_pos hclean

theorem apRead_asleep (hok : apOk addr len = true) (hasleep : (!(halls s) || bit (num s 0x720100) 7) = true) :
    apRead p tag addr len s = complete p tag 2 1 addr (zeros len) (cleanMask len) (vstErr p 1 s) := by
  unfold apRead
  rw [if_neg (by rw [hok]; simp)]
  exact if_pos (Bool.or_eq_true .. ▸ hasleep)

theorem apWrite_awake {d : Bytes} (mask : List Bool) (hok : apOk addr d.length = true)
    (hawake : (!(halls s) || bit (num s 0x720100) 7) = false) :
    apWrite p addr d mask s = (memWrite p false addr (withPoison d mask 32) s).2 := by
  unfold apWrite
  rw [if_neg (by rw [hok]; simp)]
  exact if_neg (by rw [← Bool.or_eq_true, hawake]; simp)

theorem apWrite_asleep {d : Bytes} (mask : List Bool) (hok : apOk addr d.length = true)
    (hasleep : (!(halls s) || bit (num s 0x720100) 7) = true) : apWrite p addr d mask s = vstErr p 1 s := by
  unfold apWrite
  rw [if_neg (by rw [hok]; simp)]
  exact if_pos (Bool.or_eq_true .. ▸ hasleep)

theorem plain_withPoison (d : Bytes) (mask : List Bool) (unit : Nat) : plain (withPoison d mask unit) = d := by
  unfold plain withPoison
  refine List.ext_getElem (by simp) fun i h1 h2 => ?_
  simp

theorem length_withPoison (d : Bytes) (mask : List Bool) (unit : Nat) : (withPoison d mask unit).length = d.length := by
  simp [withPoison]

theorem unitMask_sector (d : Bytes) (h : d.length = 32) : unitMask (d.map (fun b => (b, false))) = [false] := by
  have hone : List.range (ceilDiv 32 32) = [0] := rfl
  unfold unitMask anyPoison
  rw [List.length_map, h, hone, List.map_singleton, List.drop_zero, List.take_of_length_le (Nat.le_of_eq ((List.length_map ..).trans h)), List.any_map]
  simp [Function.comp_def]

/-- The bytes of every sector after a write of one whole sector. -/
theorem secBytes_memWrite (h : plainSector s addr) {data : List (Byte × Bool)} (hlen : data.length = 32) (hall : Nat) :
    secBytes (memWrite hall false addr data s).2 (sectorOf s addr) = plain data ∧
      ∀ k, k ≠ sectorOf s addr → secBytes (memWrite hall false addr data s).2 k = secBytes s k := by
  obtain ⟨ca, cb, n, c, hwrite⟩ := memWrite_sector h hlen hall
  have hplain : (plain data).length = 32 := by
    unfold plain
    rw [List.length_map, hlen]
  rw [hwrite]
  exact ⟨secBytes_cellsPut_same hplain _, fun k hk => secBytes_cellsPut_ne hplain hk⟩

end

/-- Settles O48: window words, doorbell map, links and the aperture, one clause of the model's definitions at a time. -/
theorem theVestibuleWindowAndAperture : Obligations.TheVestibuleWindowAndAperture := by
  unfold Obligations.TheVestibuleWindowAndAperture
  refine ⟨fun h hop hspace hcls htag hlen haddr hcst => headOf_headBits hop hspace hcls htag hlen haddr hcst,
    fun s p tag off v hp halive hlink halign hlast hv hinj => ?_, fun s p hp => ⟨?_, fun hhalls hdown => ?_, ?_⟩⟩
  · intro q
    have hacts := onPort_acts hp halive hlink hinj
    refine ⟨?_, fun op len hlow hhigh => ⟨fun h2 h4 => ?_, fun hop => ?_⟩, ?_, ?_, ?_, ?_, ?_, fun n hn => ?_⟩
    · exact ⟨_, hacts _, rfl, port_winRead halign hlast⟩
    · refine (hacts _).trans ?_
      rw [doVread_takes _ hlow hhigh, takeHead_sent h2 h4]
    · refine (hacts _).trans ?_
      rw [doVread_takes _ hlow hhigh, takeHead_unknown hop]
    · obtain ⟨hout, hcnt, -⟩ := port_winRead (p := p) (tag := tag) (s := s.toBlock) (off := 0x18) (by decide) (by decide)
      exact ⟨_, hacts _, rfl, hout, hcnt⟩
    · obtain ⟨hout, -, hcnt⟩ := port_winRead (p := p) (tag := tag) (s := s.toBlock) (off := 0x1C) (by decide) (by decide)
      exact ⟨_, hacts _, rfl, hout, hcnt⟩
    · refine (hacts _).trans ?_
      rw [doWindowWrite_word (by decide) (by decide) hv]
      rfl
    · refine (hacts _).trans ?_
      rw [doWindowWrite_word (by decide) (by decide) hv]
      rfl
    · refine (hacts _).trans ?_
      rw [doWindowWrite_word (by decide) (by decide) hv]
      rfl
    · refine (hacts _).trans ?_
      rw [doWindowWrite_word (by omega) (by omega) hv, winPut_dbmap hn]
  · exact vestibuleLinkDown_acts hp
  · have hexec : exec (.vestibuleLinkUp p) s = .next { s with toBlock := doLinkUp p s.toBlock } := if_neg (by omega)
    exact ⟨_, hexec, rfl, doLinkUp_trains hhalls hdown⟩
  · intro tag addr len cls data mask halive hlink hinj haddr hlow hhigh hdata hpage
    have hacts := onPort_acts hp halive hlink hinj
    have hok := apOk_of haddr hlow hhigh hpage
    have hread : exec (.apertureRead p tag addr len cls) s = .next { s with toBlock := apRead p tag addr len s.toBlock } := by
      refine (hacts _).trans ?_
      rw [if_neg (by omega)]
    have hwrite (mask : List Bool) : exec (.apertureWrite p addr cls data mask) s =
        .next { s with toBlock := apWrite p addr data mask s.toBlock } := by
      refine (hacts _).trans ?_
      rw [if_neg (by omega)]
    refine ⟨fun hhalls hwipe => ?_, fun hoff => ?_⟩
    · have hawake : (!(halls s.toBlock) || bit (num s.toBlock 0x720100) 7) = false := by
        rw [hhalls, bit_eq_testBit, hwipe]
        rfl
      refine ⟨?_, fun hclean => ?_, fun h32 hplain => ⟨?_, fun hpoison => ?_⟩⟩
      · rw [hwrite, apWrite_awake _ (hdata ▸ hok) hawake]
      · rw [hread, apRead_clean hok hawake hclean]
      · have hset := secBytes_memWrite hplain (data := withPoison data [false] 32) (by rw [length_withPoison]; omega) p
        rw [plain_withPoison] at hset
        refine ⟨_, hwrite [false], rfl, ?_⟩
        rw [apWrite_awake _ (hdata ▸ hok) hawake]
        exact hset
      · obtain ⟨ca, cb, n, hmem⟩ := memRead_sector hplain p
        rw [hpoison] at hmem
        have hbytes : plain ((secBytes s.toBlock (sectorOf s.toBlock addr)).map (fun b => (b, false))) =
            secBytes s.toBlock (sectorOf s.toBlock addr) := by
          unfold plain
          rw [List.map_map]
          exact List.map_id _
        have hmask := unitMask_sector (secBytes s.toBlock (sectorOf s.toBlock addr)) (length_secBytes ..)
        have hclean := apRead_clean (p := p) (tag := tag) hok hawake (by rw [h32, hmem, hmask]; rfl)
        rw [h32, hmem, hmask, hbytes, ← h32] at hclean
        rw [hclean] at hread
        exact ⟨_, hread, rfl, congrArg Vport.out port_complete,
          (congrArg Mem.bytes (mem_modPort p _ (withCaches ca cb n s.toBlock))).trans rfl⟩
    · have hasleep : (!(halls s.toBlock) || bit (num s.toBlock 0x720100) 7) = true := by
        rw [bit_eq_testBit]
        obtain h | h := hoff
        · rw [h]; rfl
        · rw [h, Bool.or_true]
      rw [hwrite, hread, apWrite_asleep _ (hdata ▸ hok) hasleep, apRead_asleep hok hasleep]
      exact ⟨rfl, rfl⟩

end Sys2Proof.Machine
end

section
/-! SUPPORT. Doorbells of a vestibule (R385 to R387); O49. -/

namespace Sys2Proof.Machine

theorem port_congr {s t : Block} {p : Nat} (hA : t.portA = s.portA) (hB : t.portB = s.portB) : port t p = port s p := by
  unfold port
  rw [hA, hB]

section
variable {p n v : Nat} {s : Block}

theorem dbSeen_countRing : (port (countRing p s) p).dbSeen = ((port s p).dbSeen + 1) % 2 ^ 32 :=
  congrArg Vport.dbSeen (port_modPort_same ..)

/-- What a doorbell that sets an error bit leaves. -/
theorem rejectedRing (e : Nat) : (port (countRing p (vstErr p e s)) p).err.testBit e = true ∧
    (port (countRing p (vstErr p e s)) p).dbSeen = ((port s p).dbSeen + 1) % 2 ^ 32 := by
  have hport : port (vstErr p e s) p = { port s p with err := putBit (port s p).err e true } := port_modPort_same ..
  have hcount : port (countRing p (vstErr p e s)) p =
      { port (vstErr p e s) p with dbSeen := ((port (vstErr p e s) p).dbSeen + 1) % 2 ^ 32 } := port_modPort_same ..
  rw [hcount, hport]
  exact ⟨testBit_putBit_same .., rfl⟩

theorem rejectedRing_keeps (e : Nat) : (countRing p (vstErr p e s)).tok = s.tok ∧ (countRing p (vstErr p e s)).colls = s.colls ∧
    (countRing p (vstErr p e s)).mem = s.mem := by
  unfold countRing vstErr modPort
  split
  · exact ⟨rfl, rfl, rfl⟩
  · exact ⟨rfl, rfl, rfl⟩

theorem ringProgram_adds {g : Nat} (hmap : bit (mapGet 0 (port s p).dbmap n) 31 = true) (hv : v % 65536 ≠ 0)
    (hg : physOf s (min (fld (mapGet 0 (port s p).dbmap n) 8 6) 47) = some g) :
    ringProgram p n v s = countRing p (tokAdd g (fld (mapGet 0 (port s p).dbmap n) 0 8) (v % 65536) s) := by
  unfold ringProgram
  dsimp only
  rw [if_neg (by rw [hmap]; simpa using hv), hg]

theorem ringProgram_rejects (h : bit (mapGet 0 (port s p).dbmap n) 31 = false ∨ v % 65536 = 0) :
    ringProgram p n v s = countRing p (vstErr p 4 s) := by
  unfold ringProgram
  dsimp only
  rw [if_pos (h.imp_left fun h => by rw [h]; rfl)]

/-- What the port and the counter show after a program doorbell. -/
theorem tokVal_ringProgram {g : Nat} (hmap : bit (mapGet 0 (port s p).dbmap n) 31 = true) (hv : v % 65536 ≠ 0)
    (hg : physOf s (min (fld (mapGet 0 (port s p).dbmap n) 8 6) 47) = some g) :
    tokVal (ringProgram p n v s) g (fld (mapGet 0 (port s p).dbmap n) 0 8) =
        min (2 ^ 32 - 1) (tokVal s g (fld (mapGet 0 (port s p).dbmap n) 0 8) + v % 65536) ∧
      (port (ringProgram p n v s) p).dbSeen = ((port s p).dbSeen + 1) % 2 ^ 32 := by
  rw [ringProgram_adds hmap hv hg]
  have htok (b : Block) (g c : Nat) : tokVal (countRing p b) g c = tokVal b g c := by
    unfold countRing modPort
    split
    · rfl
    · rfl
  refine ⟨(htok ..).trans (tokVal_tokAdd_same ..), ?_⟩
  rw [dbSeen_countRing, tokAdd_eq]
  rfl

end

theorem winPut_doorbell {mb : Nat → Nat → Block → Block} {p n v : Nat} {s : Block} (hn : n < 62) :
    winPut mb p (0x100 + 4 * n) 4 v s = ringProgram p n v s := by
  unfold winPut
  rw [if_neg (by omega), if_neg (by omega), if_neg (by omega), if_pos (by omega), show (0x100 + 4 * n - 0x100) / 4 = n by omega]

/-! ## Collective doorbells -/

section
variable {p v phase : Nat} {s : Block}

/-- A collective doorbell of a phase, by the attempt, the doorbells held and taken, and how far its collective is. -/
theorem ringColl_phase (h12 : phase = 1 ∨ phase = 2) : ringColl p (setFld v 10 2 phase) s = countRing p (
    if fld v 12 8 ≠ s.bnd.attempt % 256 then vstErr p 3 s
    else if s.colls.heldBells.any (fun e => e.1 == (fld v 0 10, phase, fld v 12 8)) ∨
        s.colls.doneBells.contains (fld v 0 10, phase, fld v 12 8) then s
    else if bellPassed s (fld v 0 10) phase then vstErr p 3 s
    else collsGo { s with colls := { s.colls with heldBells := s.colls.heldBells ++ [((fld v 0 10, phase, fld v 12 8), p)] } }) := by
  have hphase : phase % 2 ^ 2 = phase := by omega
  have hatt : (phase = 0 ∨ phase = 3 ∨ fld v 12 8 ≠ s.bnd.attempt % 256) ↔ fld v 12 8 ≠ s.bnd.attempt % 256 := by omega
  unfold ringColl
  rw [fld_setFld_same, fld_setFld_ne (by omega), fld_setFld_ne (by omega), hphase]
  simp only [hatt]

theorem held_none {b : Nat × Nat × Nat} (hheld : ∀ e ∈ s.colls.heldBells, e.1 ≠ b) (hdone : s.colls.doneBells.contains b = false) :
    ¬ (s.colls.heldBells.any (fun e => e.1 == b) = true ∨ s.colls.doneBells.contains b = true) := by
  rw [hdone, List.any_eq_true]
  rintro (⟨e, he, heq⟩ | h)
  · exact hheld e he (eq_of_beq heq)
  · exact Bool.false_ne_true h

end

/-- Settles O49: a doorbell counts, and adds, is held or sets its error bit by its map entry, its attempt and its collective. -/
theorem doorbellsCountAndAct : Obligations.DoorbellsCountAndAct := by
  unfold Obligations.DoorbellsCountAndAct
  intro s p n v hp halive hlink hn hv hinj m
  have hacts := onPort_acts hp halive hlink hinj
  have hprog : exec (.programDoorbell p n v) s = .next { s with toBlock := ringProgram p n v s.toBlock } := by
    refine (hacts _).trans ?_
    unfold doRing
    rw [if_pos hn]
  refine ⟨fun g hmap hval hg => ⟨_, hprog, rfl, tokVal_ringProgram hmap hval hg⟩, fun hbad => ?_, ?_, ?_⟩
  · rw [ringProgram_rejects hbad] at hprog
    obtain ⟨herr, hseen⟩ := rejectedRing (p := p) (s := s.toBlock) 4
    exact ⟨_, hprog, rfl, herr, (rejectedRing_keeps 4).1, hseen⟩
  · rw [hprog]
    refine (hacts _).trans ?_
    rw [doWindowWrite_word (by omega) (by omega) hv, winPut_doorbell hn]
  · intro i phase hi b
    have h12 : phase = 1 ∨ phase = 2 := hi.imp And.left And.left
    have hexec : exec i s = .next { s with toBlock := ringColl p (setFld v 10 2 phase) s.toBlock } := by
      obtain ⟨rfl, rfl⟩ | ⟨rfl, rfl⟩ := hi
      · exact hacts _
      · exact hacts _
    rw [ringColl_phase h12] at hexec
    refine ⟨fun hatt hheld hdone hpassed => ?_, fun hbad => ?_⟩
    · rw [if_neg (by omega), if_neg (held_none hheld hdone), if_neg (by rw [hpassed]; simp)] at hexec
      exact hexec
    · obtain ⟨herr, hseen⟩ := rejectedRing (p := p) (s := s.toBlock) 3
      obtain ⟨-, hcolls, hmem⟩ := rejectedRing_keeps (p := p) (s := s.toBlock) 3
      have hrej : exec i s = .next { s with toBlock := countRing p (vstErr p 3 s.toBlock) } := by
        by_cases hatt : fld v 12 8 ≠ s.bnd.attempt % 256
        · rw [if_pos hatt] at hexec
          exact hexec
        · obtain ⟨hheld, hdone, hpassed⟩ := hbad.resolve_left hatt
          rw [if_neg hatt, if_neg (held_none hheld hdone), if_pos hpassed] at hexec
          exact hexec
      exact ⟨_, hrej, rfl, herr, hcolls, hmem, hseen⟩

end Sys2Proof.Machine
end

section
/-! SUPPORT. Mailbox requests (R392, R450, R461); O50. -/

namespace Sys2Proof.Machine

/-- A request command of a port arrives by the port's mailbox. -/
theorem exec_request {i : Instr} {typ : Nat} {r : ReqF} (h : reqHead i = some (typ, r)) (hport : r.port < 2) {s : State}
    (hlink : (port s.toBlock r.port).link = 2) : exec i s = mailboxIn i s := by
  unfold reqHead at h
  split at h
  case h_14 q =>
    obtain ⟨rfl, rfl⟩ := Prod.mk.inj (Option.some.inj h)
    exact (if_neg (by omega)).trans (if_neg (by rw [hlink]; simp))
  case h_23 => exact absurd h nofun
  all_goals rfl

section
variable {p seq typ n ty : Nat} {f : Block → Block} {s : Block}

theorem port_countRing : port (countRing p s) p = { port s p with dbSeen := ((port s p).dbSeen + 1) % 2 ^ 32 } :=
  port_modPort_same ..

theorem service_countRing : (port (countRing p s) p).service = (port s p).service := by rw [port_countRing]

theorem heldSeq_countRing : (port (countRing p s) p).heldSeq = (port s p).heldSeq := by rw [port_countRing]

theorem response_countRing : (port (countRing p s) p).response = (port s p).response := by rw [port_countRing]

/-- A ring while a request is in service. -/
theorem ringMailbox_busy (h : (port s p).service = some (n, ty)) : ringMailbox p seq typ f s =
    if n = seq % 2 ^ 32 then countRing p s else vstErr p 2 (countRing p s) := by
  unfold ringMailbox
  dsimp only
  rw [service_countRing, h]

/-- A ring with the number of the response held. -/
theorem ringMailbox_again (h : (port s p).service = none) (hheld : (port s p).heldSeq = seq % 2 ^ 32 + 1) :
    ringMailbox p seq typ f s =
      alert 9 (seq % 2 ^ 32 + leAt (port s p).response 12 2 * 2 ^ 32) (countRing p s) := by
  unfold ringMailbox
  dsimp only
  rw [service_countRing, h]
  dsimp only
  rw [heldSeq_countRing, if_pos hheld, response_countRing]

/-- A ring of a new request. -/
theorem ringMailbox_new (h : (port s p).service = none) (hheld : (port s p).heldSeq ≠ seq % 2 ^ 32 + 1) :
    ringMailbox p seq typ f s =
      f (modPort p (fun v => { v with service := some (seq % 2 ^ 32, typ), mbState := 1 }) (countRing p s)) := by
  unfold ringMailbox
  dsimp only
  rw [service_countRing, h]
  dsimp only
  rw [heldSeq_countRing, if_neg hheld]

end

section
variable {i : Instr} {typ : Nat} {r : ReqF} {s : Block}

theorem serve_refuses {st : Nat} (h : reqHead i = some (typ, r)) (hgate : gate typ s = some st) :
    serve i s = refuseReq typ r st s := by
  unfold serve
  rw [h]
  dsimp only
  rw [hgate]

theorem serve_waits (h : reqHead i = some (typ, r)) (hgate : gate typ s = none) (hwait : reqWaits typ s = true) :
    serve i s = holdRequest i s := by
  unfold serve
  rw [h]
  dsimp only
  rw [hgate]
  exact if_pos hwait

theorem serve_performs (h : reqHead i = some (typ, r)) (hgate : gate typ s = none) (hwait : reqWaits typ s = false) :
    serve i s = performReq i s := by
  unfold serve
  rw [h]
  dsimp only
  rw [hgate]
  exact if_neg (by rw [hwait]; simp)

/-- Of a request that waits only an attestation's report is taken at once, and only while the security core is away. -/
theorem holdRequest_waits (h : reqHead i = some (typ, r))
    (hrep : ∀ n : Bytes, i = .attestationReport r n → n.length ≠ 64 ∨ procRuns s 0 = true) : holdRequest i s = holdReq i s := by
  unfold holdRequest
  split
  case h_1 q n =>
    obtain ⟨rfl, rfl⟩ := Prod.mk.inj (Option.some.inj h)
    have hn := hrep n rfl
    exact if_neg (by
      rintro ⟨h64, hproc⟩
      obtain h | h := hn
      · exact h h64
      · rw [h] at hproc
        exact absurd hproc (by simp))
  case h_2 => rfl

theorem holdRequest_report {n : Bytes} (h64 : n.length = 64) (hproc : procRuns s 0 = false) :
    holdRequest (.attestationReport r n) s = { s with fw := { s.fw with reports := s.fw.reports ++ [(r, reportHead s n)] } } :=
  if_pos ⟨h64, by rw [hproc]; rfl⟩

end

/-- Settles O50: what the mailbox does with a ring follows from what it serves and holds, and what a new request does from its
gate and what it waits for. -/
theorem aRequestIsTakenOnce : Obligations.ARequestIsTakenOnce := by
  unfold Obligations.ARequestIsTakenOnce
  intro s i typ r hreq hport halive hlink hinj q c b
  have hexec : exec i s = .next { s with toBlock := ringMailbox r.port r.seq typ (serve i) s.toBlock } := by
    rw [exec_request hreq hport hlink]
    unfold mailboxIn
    rw [hreq]
    exact onPort_acts hport halive hlink hinj _
  refine ⟨fun n ty hbusy => ?_, fun hfree hheld => ?_, fun hfree hnew => ?_⟩
  · rw [hexec, ringMailbox_busy hbusy]
  · rw [hexec, ringMailbox_again hfree hheld]
  · rw [ringMailbox_new hfree hnew] at hexec
    refine ⟨fun st hgate => ?_, fun hgate hwait => ⟨fun hrep => ?_, fun n hi h64 hproc => ?_⟩, fun hgate hrun => ?_⟩
    · rw [hexec]
      exact congrArg (fun t => Host.Outcome.next { s with toBlock := t }) (serve_refuses hreq hgate)
    · rw [hexec]
      exact congrArg (fun t => Host.Outcome.next { s with toBlock := t })
        ((serve_waits hreq hgate hwait).trans (holdRequest_waits hreq hrep))
    · subst hi
      rw [hexec]
      exact congrArg (fun t => Host.Outcome.next { s with toBlock := t })
        ((serve_waits hreq hgate hwait).trans (holdRequest_report h64 hproc))
    · rw [hexec]
      exact congrArg (fun t => Host.Outcome.next { s with toBlock := t }) (serve_performs hreq hgate hrun)

end Sys2Proof.Machine
end

section
/-! SUPPORT. What mailbox requests do when they are performed (R391 to R393); O51, O52. -/

namespace Sys2Proof.Machine

/-- A request that is taken is performed. -/
theorem exec_taken {i : Instr} {r : ReqF} {s : State} {b : Block} (h : taken i r s b) :
    exec i s = .next { s with toBlock := performReq i b } := by
  obtain ⟨typ, hreq, hport, halive, hlink, hinj, hfree, hheld, rfl, hgate, hwait⟩ := h
  exact ((aRequestIsTakenOnce s i typ r hreq hport halive hlink hinj).2.2 hfree hheld).2.2 hgate hwait

/-! ## Responses -/

section
variable (r : ReqF) (typ st : Nat) (d : Bytes) (b : Block)

/-- A response changes the ports and nothing else. -/
theorem respond_eq : respond r typ st d b =
    { b with portA := (respond r typ st d b).portA, portB := (respond r typ st d b).portB } := by
  unfold respond alert modPort
  dsimp only
  split
  · rfl
  · rfl

/-- An alert leaves the mailbox of its port as it is. -/
theorem alertPort_mailbox (powered : Bool) (code word step tick : Nat) (v : Vport) :
    (alertPort powered code word step tick v).mbState = v.mbState ∧ (alertPort powered code word step tick v).service = v.service ∧
      (alertPort powered code word step tick v).heldSeq = v.heldSeq ∧ (alertPort powered code word step tick v).response = v.response := by
  unfold alertPort
  dsimp only
  generalize (!(bit v.pend code) && powered) = gained
  cases gained with
  | false =>
    rw [if_neg Bool.false_ne_true]
    split
    · exact ⟨rfl, rfl, rfl, rfl⟩
    · split
      · exact ⟨rfl, rfl, rfl, rfl⟩
      · exact ⟨rfl, rfl, rfl, rfl⟩
  | true =>
    rw [if_pos rfl]
    split
    · exact ⟨rfl, rfl, rfl, rfl⟩
    · split
      · exact ⟨rfl, rfl, rfl, rfl⟩
      · exact ⟨rfl, rfl, rfl, rfl⟩

theorem port_alert (code word p : Nat) : port (alert code word b) p =
    alertPort (decide (pstate b ≠ 0)) code word (stepNo b) b.clk.tick (port b p) := by
  unfold port alert
  split
  · rfl
  · rfl

/-- The response that a port holds. -/
theorem port_respond : (port (respond r typ st d b) r.port).mbState = 2 ∧ (port (respond r typ st d b) r.port).service = none ∧
    (port (respond r typ st d b) r.port).heldSeq = r.seq % 2 ^ 32 + 1 ∧
    (port (respond r typ st d b) r.port).response = respHeader typ (r.seq % 2 ^ 32) d.length st (stepNo b) ++ d := by
  unfold respond
  dsimp only
  rw [port_alert, port_modPort_same]
  obtain ⟨hstate, hservice, hheld, hresp⟩ := alertPort_mailbox _ _ _ _ _ _
  exact ⟨hstate, hservice, hheld, hresp⟩

end

section
variable {r : ReqF} {typ st : Nat} {d : Bytes} {b : Block}

theorem prog_respond : (respond r typ st d b).prog = b.prog := by rw [respond_eq]
theorem num_respond (key : Nat) : num (respond r typ st d b) key = num b key := by rw [respond_eq]; rfl
theorem atRest_respond : atRest (respond r typ st d b) = atRest b := by rw [respond_eq]; rfl
theorem isParked_respond : isParked (respond r typ st d b) = isParked b := by rw [respond_eq]; rfl
theorem recov_respond : (respond r typ st d b).recov = b.recov := by rw [respond_eq]
theorem bnd_respond : (respond r typ st d b).bnd = b.bnd := by rw [respond_eq]
theorem arc_respond : (respond r typ st d b).arc = b.arc := by rw [respond_eq]
theorem fw_respond : (respond r typ st d b).fw = b.fw := by rw [respond_eq]

end

theorem atRest_of {b : Block} (hloaded : b.prog.loaded = true) (hrun : stepRunning b = false) : atRest b = true := by
  unfold atRest
  rw [hloaded, hrun]
  rfl

/-- No boundary is in its actions and no takeover goes on. -/
theorem idle_of {b : Block} (hrest : atRest b = true) (hphase : b.bnd.phase ≠ .actions) (hjob : b.recov.job = none) :
    (!(atRest b) || b.bnd.phase == .actions || b.recov.job.isSome) = false := by
  rw [hrest, hjob, beq_eq_false_iff_ne.mpr hphase]
  rfl

theorem num_longDone (typ status seq key : Nat) (b : Block) : num (longDone typ status seq b) key = num b key := rfl

theorem num_recovEnd (typ code : Nat) (r : ReqF) (b : Block) : num (recovEnd typ code r b) 0x607300 = code :=
  num_setNum_same ..

section
variable {r : ReqF} {b : Block}

/-! ## Loading, starting, parking -/

/-- A load that a running step refuses, or whose size is out of its bounds. -/
theorem doLoad_refused {addr size code : Nat} (h : tryLoad addr size b = (code, b)) (hcode : code ≠ 256) :
    num (doLoad r addr size b) 0x603001 = code ∧ (doLoad r addr size b).prog = b.prog := by
  unfold doLoad
  rw [h]
  dsimp only
  rw [if_neg hcode]
  refine ⟨num_setNum_same .., ?_⟩
  exact (ReportFrame.prog (.setNum (.refl _) ..)).trans prog_respond

theorem fromStandby_now {i : Instr} {typ : Nat} {f : Block → Block} (hstate : pstate b ≠ 1) (htrans : b.pwr.trans = none) :
    fromStandby i typ r f b = f b := by
  unfold fromStandby
  dsimp only
  rw [htrans]
  exact if_neg hstate

theorem doStart_starts (hloaded : b.prog.loaded = true) (hstarted : b.prog.started = false) (hphase : b.bnd.phase ≠ .actions)
    (hjob : b.recov.job = none) : doStart r b = beginResume 0x11 r { b with recov := { b.recov with replay := false } } := by
  unfold doStart
  exact if_neg (by rw [hloaded, hstarted, hjob, beq_eq_false_iff_ne.mpr hphase]; simp)

theorem doResume_resumes (hrest : atRest b = true) (hphase : b.bnd.phase ≠ .actions)
    (hjob : b.recov.job = none) : doResume r b = beginResume 0x13 r { b with recov := { b.recov with replay := false } } := by
  unfold doResume
  exact if_neg (by rw [idle_of hrest hphase hjob]; simp)

theorem doReplay_checks (hrest : atRest b = true) (hphase : b.bnd.phase ≠ .actions) (hjob : b.recov.job = none) :
    let m := slice (dom b 0x608400) 0 4096
    let c := setNum 0x607300 0 (setNum 0x600001 (mfStep m) b)
    doReplay r b = if slice m 0x18 64 ≠ dom b 0x603002 then respond r 0x11 8 [] (setNum 0x607300 4 b)
      else if slice m 0x58 64 ≠ digestForce b then respond r 0x11 8 [] (setNum 0x607300 7 b)
      else beginResume 0x11 r { c with
        recov := { c.recov with replay := true, replayManifest := m }, upd := { c.upd with eta := mfEta m } } := by
  unfold doReplay
  exact if_neg (by rw [idle_of hrest hphase hjob]; simp)

theorem doPark_parks (hloaded : b.prog.loaded = true) (h : b.prog.started = true ∨ isParked b = true) :
    let c := respond r 0x12 1 [] b
    let d := { c with recov := { c.recov with parkPending := true, parkReqs := c.recov.parkReqs ++ [(r.port, r.seq)] } }
    doPark r b = if isParked b then goParked d else setRecov 0 true d := by
  have hmay : (!b.prog.loaded || (!b.prog.started && !(isParked b))) = false := by
    rw [hloaded]
    obtain h | h := h
    · rw [h]; rfl
    · rw [h]; simp
  unfold doPark
  rw [if_neg (by rw [hmay]; simp)]
  dsimp only
  rw [show isParked { respond r 0x12 stAccepted [] b with recov := { (respond r 0x12 stAccepted [] b).recov with
    parkPending := true, parkReqs := (respond r 0x12 stAccepted [] b).recov.parkReqs ++ [(r.port, r.seq)] } } = isParked b from
    isParked_respond]
  rfl

/-! ## Contexts -/

theorem doSave_saves {addr : Nat} (halign : addr % 2 ^ 20 = 0) (haddr : addr < 2 ^ 39) (hrest : atRest b = true)
    (hjob : b.recov.job = none) (hctx : mapGet [] b.recov.contexts b.arc.slot ≠ []) :
    doSave r addr b = recovEnd 0x14 0 r (memWrite 0 false addr
      ((mapGet [] b.recov.contexts b.arc.slot).map (fun b => (b, false))) (respond r 0x14 1 [] b)).2 := by
  unfold doSave
  rw [if_neg (by omega)]
  dsimp only
  rw [if_neg (by rw [atRest_respond, hrest, recov_respond, hjob]; simp), recov_respond, arc_respond]
  split
  case h_1 h => exact absurd h hctx
  case h_2 => rfl

theorem doRestore_restores {addr flags : Nat} (halign : addr % 2 ^ 20 = 0) (haddr : addr < 2 ^ 39) (hrest : atRest b = true)
    (hphase : b.bnd.phase ≠ .actions) (hjob : b.recov.job = none) :
    let h := memRead 0 addr 256 (respond r 0x15 1 [] b)
    let n := leAt (plain h.1) 4 4
    let d := if n < 256 ∨ 119040 + 16 * 49152 < n then h else memRead 0 addr n h.2
    let code := if anyPoison d.1 then 2 else ctxStatus (plain d.1) (bit flags 0) d.2
    doRestore r addr flags b =
      if code = 0 then recovEnd 0x15 0 r (applyContext (plain d.1) (bit flags 0) d.2) else recovEnd 0x15 code r d.2 := by
  unfold doRestore
  rw [if_neg (by omega)]
  dsimp only
  rw [if_neg (by rw [atRest_respond, bnd_respond, recov_respond, idle_of hrest hphase hjob]; simp)]
  rfl

theorem doReMirror_begins (hrest : atRest b = true) (hphase : b.bnd.phase ≠ .actions) (hjob : b.recov.job = none) :
    doReMirror r b = jobGo (pullHeld (startJob 0x17 r 0x7F [] (respond r 0x17 1 [] b))) := by
  unfold doReMirror
  dsimp only
  exact if_neg (by rw [atRest_respond, bnd_respond, recov_respond, idle_of hrest hphase hjob]; simp)

theorem doTakeSlices_eq (rank : Nat) :
    let c := respond r 0x16 1 [] b
    let code := if takeStatus rank c = 0 then sliceStatus rank c else takeStatus rank c
    doTakeSlices r rank b =
      if code = 0 then jobGo (pullHeld (pullRank rank (leftSlot rank c) (startJob 0x16 r rank (ctxFound rank c) c)))
      else recovEnd 0x16 code r c := by
  intro c code
  unfold doTakeSlices
  dsimp only
  rw [ite_not]
  rfl

theorem doTakeTwin_eq (rank : Nat) :
    let c := respond r 0x16 1 [] b
    doTakeTwin r rank b =
      if takeStatus rank c = 0 then jobGo (pullHeld (startJob 0x16 r rank (ctxFound rank c) c))
      else recovEnd 0x16 (takeStatus rank c) r c := by
  intro c
  unfold doTakeTwin
  dsimp only
  rw [ite_not]
  rfl

end

/-- Settles O51: each request does what its own lemma says once the mailbox has taken it. -/
theorem requestsAboutTheProgram : Obligations.RequestsAboutTheProgram := by
  unfold Obligations.RequestsAboutTheProgram
  refine ⟨fun r typ st d b _ => ?_, fun s r b => ?_⟩
  · obtain ⟨hstate, hservice, hheld, hresp⟩ := port_respond r typ st d b
    exact ⟨hstate, hservice, hheld, hresp, respond_eq ..⟩
  · refine ⟨fun index sub offset count h => exec_taken h, fun index sub offset data h => exec_taken h, fun h => exec_taken h,
      fun addr size h => ?_, fun h hstate htrans hloaded hstarted hphase hjob => ?_,
      fun h hstate htrans hloaded hrun hphase hjob => ?_, fun h hloaded hmay => ?_,
      fun h hstate htrans hloaded hrun hphase hjob => ?_, fun addr h halign haddr hloaded hrun hjob hctx => ?_,
      fun addr flags h halign haddr hloaded hrun hphase hjob => ?_, fun rank h => ?_, fun rank h => ?_,
      fun h hloaded hrun hphase hjob => ?_⟩
    · refine ⟨exec_taken h, fun hrun hstarted => ?_, fun hrun hsize => ?_⟩
      · exact doLoad_refused (if_pos (by rw [hrun, hstarted]; rfl)) (by decide)
      · refine doLoad_refused ?_ (by decide)
        unfold tryLoad
        rw [if_neg (by rw [hrun]; simp), if_pos hsize]
    · rw [exec_taken h]
      exact congrArg (fun t => Host.Outcome.next { s with toBlock := t })
        ((fromStandby_now hstate htrans).trans (doStart_starts hloaded hstarted hphase hjob))
    · rw [exec_taken h]
      exact congrArg (fun t => Host.Outcome.next { s with toBlock := t })
        ((fromStandby_now hstate htrans).trans (doReplay_checks (atRest_of hloaded hrun) hphase hjob))
    · rw [exec_taken h]
      exact congrArg (fun t => Host.Outcome.next { s with toBlock := t }) (doPark_parks hloaded hmay)
    · rw [exec_taken h]
      exact congrArg (fun t => Host.Outcome.next { s with toBlock := t })
        ((fromStandby_now hstate htrans).trans (doResume_resumes (atRest_of hloaded hrun) hphase hjob))
    · rw [exec_taken h]
      exact congrArg (fun t => Host.Outcome.next { s with toBlock := t })
        (doSave_saves halign haddr (atRest_of hloaded hrun) hjob hctx)
    · intro m n d code t
      refine ⟨?_, ?_⟩
      · rw [exec_taken h]
        exact congrArg (fun t => Host.Outcome.next { s with toBlock := t })
          (doRestore_restores halign haddr (atRest_of hloaded hrun) hphase hjob)
      · by_cases hcode : code = 0
        · exact (congrArg (fun t => num t 0x607300) (if_pos hcode)).trans ((num_recovEnd ..).trans hcode.symm)
        · exact (congrArg (fun t => num t 0x607300) (if_neg hcode)).trans (num_recovEnd ..)
    · intro c code x t
      rw [exec_taken h]
      exact congrArg (fun t => Host.Outcome.next { s with toBlock := t }) (doTakeSlices_eq rank)
    · intro c code x t
      rw [exec_taken h]
      exact congrArg (fun t => Host.Outcome.next { s with toBlock := t }) (doTakeTwin_eq rank)
    · rw [exec_taken h]
      exact congrArg (fun t => Host.Outcome.next { s with toBlock := t })
        (doReMirror_begins (atRest_of hloaded hrun) hphase hjob)

end Sys2Proof.Machine
end

section
/-! SUPPORT. Requests about power, security and firmware (R437 to R440, R449, R452, R457); O52. -/

namespace Sys2Proof.Machine

theorem ite_bnot {α : Type} (c : Bool) (x y : α) : (if !c then x else y) = if c then y else x := by
  cases c with
  | false => rfl
  | true => rfl

section
variable {r : ReqF} {b : Block}

theorem doWarm_eq (r : ReqF) (b : Block) : doWarm r b = warmReset (respond r 0x20 0 [] b) := rfl

theorem doPower_may {target : Nat} (h : powerMay target b = true) :
    doPower r target b = powerGo target (r.port, r.seq + 1) (respond r 0x21 1 [] b) := if_pos h

theorem doPower_mayNot {target : Nat} (h : powerMay target b = false) :
    doPower r target b = respond r 0x21 7 [] (setNum 0x607300 1 (setResult 1 b)) := if_neg (by rw [h]; simp)

theorem doAttest_nonce {nonce : Bytes} (h : nonce.length = 64) : doAttest r nonce b = respond r 0x30 0 (attest b nonce) b := if_pos h

theorem doStage_checks {kind addr size : Nat} (hidle : b.fw.activating = false) (hkind : kind < 4) (hlow : 512 ≤ size)
    (hhigh : size ≤ 512 + imgLimit kind) :
    let d := memRead 0 addr size (respond r 0x40 1 [] b)
    let l := stagedSet d.2 kind (plain d.1)
    let code := if anyPoison d.1 then 1 else imgCheck d.2 kind (plain d.1)
    let c := putSet (1 - d.2.fw.activeSet) l d.2
    doStage r kind addr size b = if code ≠ 0 then fwDone code r d.2
      else if setCoherent l then fwDone 0 r (setFwBit 2 true { c with fw := { c.fw with staged := true } })
      else fwDone 4 r d.2 := by
  intro d l code c
  unfold doStage
  rw [if_neg (by rw [hidle]; simp)]
  dsimp only
  rw [if_neg (by omega)]
  exact congrArg (ite _ _) (ite_bnot ..)

/-- An activation of the staged set, before its first processor. -/
def activationSet (r : ReqF) (b : Block) : Block :=
  let c := respond r 0x40 1 [] b
  { c with fw := { c.fw with activating := true, order := activationOrder c, req := (r.port, r.seq) } }

theorem doActivate_staged (hidle : b.fw.activating = false) (hstaged : b.fw.staged = true) : doActivate r b =
    if pstate b = 4 ∨ emergencies b ≠ 0 then
      setNum 0x802100 7 (setFwBit 4 true { activationSet r b with fw := { (activationSet r b).fw with deferred := true } })
    else activateNext (setFwBit 3 true (activationSet r b)) := by
  have hnum (key : Nat) : num (activationSet r b) key = num b key := num_respond key
  have hstate : pstate (activationSet r b) = pstate b := congrArg (fun n => fld n 0 3) (hnum 0x401000)
  have hem : emergencies (activationSet r b) = emergencies b := congrArg (· &&& 0x7C) (hnum 0x402000)
  unfold doActivate
  rw [if_neg (by rw [hidle]; simp)]
  dsimp only
  rw [if_neg (by rw [fw_respond, hstaged]; simp), ← hstate, ← hem]
  rfl

/-- A deferred activation keeps every processor as it is. -/
theorem doActivate_defers (hidle : b.fw.activating = false) (hstaged : b.fw.staged = true) (h : pstate b = 4 ∨ emergencies b ≠ 0) :
    num (doActivate r b) 0x802100 = 7 ∧ (doActivate r b).fw.deferred = true ∧ (doActivate r b).fw.activating = true ∧
      (doActivate r b).fw.procs = b.fw.procs := by
  have hfw : (doActivate r b).fw = { (activationSet r b).fw with deferred := true } := by
    rw [doActivate_staged hidle hstaged, if_pos h]
    exact (ReportFrame.fw (.setNum (.refl _) ..)).trans (fw_setFwBit ..)
  have hcode : num (doActivate r b) 0x802100 = 7 := by
    rw [doActivate_staged hidle hstaged, if_pos h]
    exact num_setNum_same ..
  have hprocs : (respond r 0x40 1 [] b).fw.procs = b.fw.procs := congrArg Fw.procs fw_respond
  rw [hfw]
  exact ⟨hcode, rfl, rfl, hprocs⟩

theorem doAbandon_staged (hidle : b.fw.activating = false) (hstaged : b.fw.staged = true) :
    let c := respond r 0x40 1 [] b
    doAbandon r b = fwDone 0 r (setFwBit 2 false { c with fw := { c.fw with staged := false } }) := by
  unfold doAbandon
  rw [if_neg (by rw [hidle]; simp)]
  dsimp only
  exact if_pos (by rw [fw_respond, hstaged])

end

/-- Settles O52: each request does what its own lemma says once the mailbox has taken it. -/
theorem requestsAboutTheModule : Obligations.RequestsAboutTheModule := by
  unfold Obligations.RequestsAboutTheModule
  intro s r b
  refine ⟨fun h => ?_, fun i target hi h => ?_, fun nonce hlen h => ?_, fun tok h => exec_taken h,
    fun kind addr size h hidle hkind hlow hhigh => ?_, fun h hidle hstaged hstate hem => ?_, fun h hidle hstaged hdefer => ?_,
    fun h hidle hstaged => ?_⟩
  · rw [exec_taken h]
    exact congrArg (fun t => Host.Outcome.next { s with toBlock := t }) (doWarm_eq r b)
  · have hexec : exec i s = .next { s with toBlock := doPower r target b } := by
      rw [exec_taken h]
      obtain ⟨rfl, rfl⟩ | ⟨rfl, rfl⟩ | ⟨rfl, rfl⟩ := hi
      · rfl
      · rfl
      · rfl
    refine ⟨fun hmay => ?_, fun hmay => ?_⟩
    · rw [hexec, doPower_may hmay]
    · rw [hexec, doPower_mayNot hmay]
  · rw [exec_taken h]
    exact congrArg (fun t => Host.Outcome.next { s with toBlock := t }) (doAttest_nonce hlen)
  · rw [exec_taken h]
    exact congrArg (fun t => Host.Outcome.next { s with toBlock := t }) (doStage_checks hidle hkind hlow hhigh)
  · rw [exec_taken h]
    refine congrArg (fun t => Host.Outcome.next { s with toBlock := t }) ((doActivate_staged hidle hstaged).trans ?_)
    exact if_neg (by simp [hstate, hem])
  · have hfacts := doActivate_defers (r := r) hidle hstaged hdefer
    have hexec : exec (.firmwareActivate r) s = .next { s with toBlock := doActivate r b } := exec_taken h
    generalize doActivate r b = t at hexec hfacts
    exact ⟨_, hexec, rfl, hfacts⟩
  · rw [exec_taken h]
    exact congrArg (fun t => Host.Outcome.next { s with toBlock := t }) (doAbandon_staged hidle hstaged)

end Sys2Proof.Machine
end

section
/-! SUPPORT. Objects and their writes (R395 to R400); O53. -/

namespace Sys2Proof.Machine

theorem objFind_some {key : Nat} {o : ObjDef} (h : objFind key = some o) : o ∈ objTable ∧ o.key = key :=
  ⟨List.mem_of_find?_eq_some h, eq_of_beq (List.find?_some (p := fun o : ObjDef => o.key == key) h)⟩

/-- Outside the digest set no object is a port's, nor the lane mask: both have their own rules for a write. -/
theorem undigested_keys : objTable.all (fun o => o.digest || (!(decide (0x311001 ≤ o.key) && decide (o.key ≤ 0x31100A)) && o.key != 0x321100)) =
    true := by decide +kernel

theorem not_port_of_undigested {key : Nat} {o : ObjDef} (h : objFind key = some o) (hdigest : o.digest = false) :
    ¬ (0x311001 ≤ o.key ∧ o.key ≤ 0x31100A) ∧ key ≠ 0x321100 := by
  obtain ⟨hmem, rfl⟩ := objFind_some h
  have hall := List.all_eq_true.mp undigested_keys o hmem
  rw [hdigest, Bool.false_or, Bool.and_eq_true, Bool.not_eq_true', Bool.and_eq_false_iff, decide_eq_false_iff_not,
    decide_eq_false_iff_not, bne_iff_ne] at hall
  exact ⟨fun ⟨hlow, hhigh⟩ => hall.1.elim (· hlow) (· hhigh), hall.2⟩

section
variable {s : Block} {pl : Plane} {key : Nat} {o : ObjDef}

/-! ## Refusals -/

theorem objWrite_missing (hfind : objFind key = none) (hrec : objHighest (key / 256) = 0) (offset : Nat) (data : Bytes) :
    objWrite pl key offset data s = (6, s) := by
  have href : writeRefused s pl key = some 6 := by
    unfold writeRefused
    rw [hfind]
    exact if_neg (by omega)
  unfold objWrite
  rw [href]
  exact if_neg (by decide)

theorem objRead_missing (hfind : objFind key = none) (hrec : objHighest (key / 256) = 0) (offset count : Nat) :
    objRead s key offset count = (6, []) := by
  have hval : objValue s key = none := by
    unfold objValue
    rw [hfind]
    exact if_neg (by omega)
  unfold objRead
  rw [hval]
  rfl

theorem objWrite_forbidden (hfind : objFind key = some o) (h : o.acc = .const ∨ o.acc = .ro ∨ planeMay s pl (key / 256) = false)
    (offset : Nat) (data : Bytes) : objWrite pl key offset data s = (5, bumpNum 0x1E0003 32 1 s) := by
  have href : writeRefused s pl key = some stAccess := by
    unfold writeRefused
    rw [hfind]
    exact if_pos (h.imp_right (.imp_right fun h => by rw [h]; rfl))
  unfold objWrite
  rw [href]
  exact if_pos rfl

theorem writeRefused_none (hfind : objFind key = some o) (hacc : o.acc = .rw) (hmay : planeMay s pl (key / 256) = true) :
    writeRefused s pl key = none := by
  unfold writeRefused
  rw [hfind]
  exact if_neg (by rw [hacc, hmay]; simp)

theorem objWrite_length (hfind : objFind key = some o) (hacc : o.acc = .rw) (hmay : planeMay s pl (key / 256) = true)
    (hsize : 0 < typSize o.typ) {data : Bytes} (hlen : data.length ≠ typSize o.typ) : objWrite pl key 0 data s = (4, s) := by
  unfold objWrite
  rw [writeRefused_none hfind hacc hmay, hfind]
  exact (if_pos (by omega)).trans (if_pos (.inr hlen))

theorem objWrite_part (hfind : objFind key = some o) (hacc : o.acc = .rw) (hmay : planeMay s pl (key / 256) = true)
    (hsize : typSize o.typ = 0) (hsmall : o.hi ≤ 8) {offset : Nat} (hpos : 0 < offset) (hin : offset ≤ o.hi) (data : Bytes) :
    objWrite pl key offset data s = (4, s) := by
  have hsmallObj : smallObj key = true := by
    unfold smallObj
    rw [hfind]
    simp [hsmall]
  unfold objWrite
  rw [writeRefused_none hfind hacc hmay, hfind]
  dsimp only
  rw [if_neg (by omega), if_neg (by omega), if_pos hsmallObj, if_pos (by omega)]
  rfl

/-! ## An accepted write of an integer -/

theorem objWrite_number (hfind : objFind key = some o) (hacc : o.acc = .rw) (hmay : planeMay s pl (key / 256) = true)
    (hsize : 0 < typSize o.typ) {v : Nat} (hv : v < 256 ^ typSize o.typ) :
    objWrite pl key 0 (leBytes (typSize o.typ) v) s = (0, writeNum o v s) := by
  unfold objWrite
  rw [writeRefused_none hfind hacc hmay, hfind]
  dsimp only
  rw [if_pos (by omega), if_neg (by simp), leNat_leBytes hv]
  rfl

/-- Outside the digest set nothing but the mark for flash and what η's own write notes follows the stored value. -/
theorem afterStore_undigested (hdigest : o.digest = false) (hmode : o.key ≠ 0x321000) (hmask : o.key ≠ 0x321100) (s : Block) :
    afterStore o s = etaWrite o.key (if o.persist then markUnwritten o.key s else s) := by
  unfold afterStore laneWrite
  dsimp only
  rw [hdigest, if_neg (c := false = true) Bool.false_ne_true, if_neg fun h => h.1.elim hmode hmask]

theorem etaWrite_eq (key : Nat) (s : Block) : etaWrite key s = { s with upd := (etaWrite key s).upd } := by
  unfold etaWrite
  split
  · rfl
  · split
    · rfl
    · rfl

/-- What a write of an integer outside the digest set leaves. -/
theorem writeNum_undigested (hacc : o.acc = .rw) (hdigest : o.digest = false) (hmode : o.key ≠ 0x321000) (hmask : o.key ≠ 0x321100)
    (v : Nat) : num (writeNum o v s) o.key = clampNum o v ∧ (o.persist = true → o.key ∈ (writeNum o v s).store.unwritten) ∧
      (writeNum o v s).mem = s.mem ∧ (writeNum o v s).arr = s.arr ∧ (writeNum o v s).vec = s.vec := by
  have hclamp : ReportFrame s (setNum o.key (clampNum o v) (if clampNum o v = v then s else countClamp o.key s)) := by
    refine .setNum ?_ ..
    split
    · exact .refl s
    · exact .setNum (.bumpNum (.refl s) ..) ..
  have hnum : num (setNum o.key (clampNum o v) (if clampNum o v = v then s else countClamp o.key s)) o.key = clampNum o v :=
    num_setNum_same ..
  unfold writeNum
  dsimp only
  rw [if_neg (by rw [hacc]; simp), afterStore_undigested hdigest hmode hmask, etaWrite_eq]
  generalize setNum o.key (clampNum o v) (if clampNum o v = v then s else countClamp o.key s) = t at hclamp hnum
  cases o.persist with
  | false => exact ⟨hnum, fun h => absurd h Bool.false_ne_true, hclamp.mem, hclamp.arr, hclamp.vec⟩
  | true => exact ⟨hnum, fun _ => List.mem_append_right _ (List.mem_singleton.mpr rfl), hclamp.mem, hclamp.arr, hclamp.vec⟩

theorem clampNum_range (h1 : o.typ ≠ 1) (h10 : o.typ ≠ 10) (hport : ¬ (0x311001 ≤ o.key ∧ o.key ≤ 0x31100A)) (v : Nat) :
    clampNum o v = if v < o.lo then o.lo else if o.hi < v then o.hi else v := by
  unfold clampNum
  rw [if_neg h1, if_neg h10, if_neg hport]

/-! ## Reads -/

theorem objRead_bytes {x : Bytes} {offset count : Nat} (hval : objValue s key = some x) (hin : offset ≤ x.length)
    (h : smallObj key = false ∨ (offset = 0 ∧ x.length ≤ count)) :
    objRead s key offset count = (0, (x.drop offset).take (min count 4096)) := by
  unfold objRead
  rw [hval]
  dsimp only
  rw [if_neg (by omega), if_neg (by
    rintro ⟨hsmall, hpart⟩
    obtain h | h := h
    · rw [h] at hsmall
      exact Bool.false_ne_true hsmall
    · omega)]
  rfl

theorem objRead_part {x : Bytes} {offset count : Nat} (hval : objValue s key = some x) (hin : offset ≤ x.length)
    (hsmall : smallObj key = true) (h : 0 < offset ∨ count < x.length) : objRead s key offset count = (4, []) := by
  unfold objRead
  rw [hval]
  dsimp only
  rw [if_neg (by omega), if_pos ⟨hsmall, by omega⟩]
  rfl

end

/-- Settles O53: the checks of a write come first; an integer outside the digest set is then clamped and stored. -/
theorem objectWritesAreClampedAndReadBack : Obligations.ObjectWritesAreClampedAndReadBack := by
  unfold Obligations.ObjectWritesAreClampedAndReadBack
  intro s pl key v o
  refine ⟨fun hfind hrec offset data => ⟨objWrite_missing hfind hrec .., objRead_missing hfind hrec ..⟩,
    fun hfind h offset data => objWrite_forbidden hfind h .., fun hfind hacc hmay hsize => ⟨fun data hlen =>
      objWrite_length hfind hacc hmay hsize hlen, fun h1 h10 hdigest hmode hv => ?_⟩,
    fun hfind hacc hmay hsize hsmall offset data hpos hin => objWrite_part hfind hacc hmay hsize hsmall hpos hin data,
    fun x offset count hval hin => ⟨fun h => objRead_bytes hval hin h, fun hsmall h => objRead_part hval hin hsmall h⟩⟩
  obtain ⟨hport, hmask⟩ := not_port_of_undigested hfind hdigest
  obtain ⟨-, rfl⟩ := objFind_some hfind
  obtain ⟨hnum, hpersist, hmem, harr, hvec⟩ := writeNum_undigested (s := s) hacc hdigest hmode hmask v
  rw [clampNum_range h1 h10 hport] at hnum
  rw [objWrite_number hfind hacc hmay hsize hv]
  exact ⟨rfl, hnum, hpersist, hmem, harr, hvec⟩

end Sys2Proof.Machine
end

section
/-! SUPPORT. The object numbers that the arcade's own reports change. -/

namespace Sys2Proof.Machine

/-- Two states agree on the strapped slot and on every number but the listed ones. -/
structure OnlyNums (ks : List Nat) (s t : Block) : Prop where
  slot : t.arc.slot = s.arc.slot
  num : ∀ k, k ∉ ks → num t k = num s k

namespace OnlyNums
variable {ks : List Nat} {s t u : Block}

theorem refl (s : Block) : OnlyNums ks s s := ⟨rfl, fun _ _ => rfl⟩

theorem trans (h : OnlyNums ks s t) (h' : OnlyNums ks t u) : OnlyNums ks s u :=
  ⟨h'.slot.trans h.slot, fun k hk => (h'.num k hk).trans (h.num k hk)⟩

/-- An update that keeps the slot and the stored numbers. -/
theorem of_nums (h : OnlyNums ks s t) (hslot : u.arc.slot = t.arc.slot) (hnums : u.store.nums = t.store.nums) : OnlyNums ks s u :=
  h.trans ⟨hslot, fun k _ => by unfold Machine.num; rw [hslot, hnums]⟩

theorem ite {c : Prop} [Decidable c] (ht : OnlyNums ks s t) (hu : OnlyNums ks s u) : OnlyNums ks s (if c then t else u) := by
  split
  · exact ht
  · exact hu

theorem forEach {α : Type} {f : α → Block → Block} (hf : ∀ a b, OnlyNums ks b (f a b)) (l : List α) (h : OnlyNums ks s t) :
    OnlyNums ks s (forEach l f t) := by
  induction l generalizing t with
  | nil => exact h
  | cons a l ih => exact ih (h.trans (hf a t))

section
variable (h : OnlyNums ks s t)
include h

theorem withArc {a : Arcade} (hslot : a.slot = t.arc.slot) : OnlyNums ks s { t with arc := a } := h.of_nums hslot rfl

theorem withPortico (p : Portico) : OnlyNums ks s { t with portico := p } := h.of_nums rfl rfl

theorem withLogs (l : Logs) : OnlyNums ks s { t with logs := l } := h.of_nums rfl rfl

theorem setLink (l : Nat) (k : Link) : OnlyNums ks s (setLink l k t) := h.withArc rfl

theorem modLink (l : Nat) (f : Link → Link) : OnlyNums ks s (modLink l f t) := h.withArc rfl

theorem enqueue (again : Bool) (l desc : Nat) (p : Packet) : OnlyNums ks s (enqueue again l desc p t) := h.withArc rfl

theorem descFail : OnlyNums ks s (descFail t) := h.of_nums rfl rfl

theorem failDesc (desc : Nat) : OnlyNums ks s (failDesc desc t) := h.of_nums rfl rfl

theorem failPull : OnlyNums ks s (failPull t) := h.of_nums rfl rfl

theorem setNum {key : Nat} (hkey : key ∈ ks) (v : Nat) : OnlyNums ks s (setNum key v t) :=
  h.trans ⟨by rw [setNum_keeps_arc], fun k hk => num_setNum_ne key k v t (fun e => hk (e ▸ hkey))⟩

theorem bumpNum {key : Nat} (hkey : key ∈ ks) (w n : Nat) : OnlyNums ks s (bumpNum key w n t) := h.setNum hkey _

theorem notify (hframes : 0x340102 ∈ ks) (hlast : 0x340105 ∈ ks) (key : Nat) (v : Bytes) : OnlyNums ks s (notify key v t) := by
  unfold Machine.notify
  dsimp only
  exact .bumpNum (.bumpNum (h.withPortico _) hframes ..) hlast ..

theorem alert (code word : Nat) : OnlyNums ks s (alert code word t) := h.of_nums rfl rfl

theorem setStatus {key : Nat} (hframes : 0x340102 ∈ ks) (hlast : 0x340105 ∈ ks) (hkey : key ∈ ks) (v notes alerts code : Nat) :
    OnlyNums ks s (setStatus key v notes alerts code t) := by
  have hnote : OnlyNums ks s (if v - (v &&& Machine.num t key) &&& notes != 0 then notifyNum key (Machine.setNum key v t)
      else Machine.setNum key v t) :=
    .ite (.notify (h.setNum hkey v) hframes hlast ..) (h.setNum hkey v)
  unfold Machine.setStatus
  exact .ite (.alert hnote ..) hnote

theorem setRecov (hframes : 0x340102 ∈ ks) (hlast : 0x340105 ∈ ks) (hkey : 0x607000 ∈ ks) (n : Nat) (b : Bool) :
    OnlyNums ks s (setRecov n b t) := h.setStatus hframes hlast hkey ..

theorem detect (hrec : 0x501001 ∈ ks) (hvest : 0x501002 ∈ ks) (code loc : Nat) (inj : Bool) (tag addr : Nat) (extra : Bytes) :
    OnlyNums ks s (detect code loc inj tag addr extra t) := by
  unfold Machine.detect detectAt putEvent
  dsimp only
  refine .ite ?_ (h.withLogs _)
  split
  · exact h.bumpNum hrec ..
  · exact h.bumpNum hvest ..

end

end OnlyNums

/-! ## Links -/

/-- The numbers that a link's changes reach: its port word, the recovery word, what notifies and error queues count. -/
def linkKeys : List Nat := [0x332000, 0x607000, 0x340102, 0x340105, 0x501001, 0x501002]

section
variable {s t : Block}

theorem onlyNums_losePacket (desc : Nat) (p : Packet) (s : Block) : OnlyNums linkKeys s (losePacket desc p s) := by
  have hset : OnlyNums linkKeys s (if (p.src == s.arc.slot && phOp p.header == 4 && leAt p.data 0 1 == 0x20) = true then
      setRecov 5 true s else s) := .ite (.setRecov (.refl s) (by decide) (by decide) (by decide) ..) (.refl s)
  unfold losePacket loseDesc
  dsimp only
  refine .ite ?_ (.ite (.failDesc ?_ _) (.descFail ?_))
  all_goals exact .ite (.failPull hset) hset

theorem onlyNums_reportArcade (h : OnlyNums linkKeys s t) : OnlyNums linkKeys s (reportArcade t) :=
  h.setStatus (by decide) (by decide) (by decide) ..

theorem onlyNums_launch (again : Bool) (desc : Nat) (p : Packet) (s : Block) : OnlyNums linkKeys s (launch again desc p s) := by
  unfold launch
  split
  case h_1 => exact onlyNums_losePacket ..
  case h_2 l det _ =>
    have hdet (t : Block) (a : List Nat) (ht : OnlyNums linkKeys s t) :
        OnlyNums linkKeys s (if det then reportArcade { t with arc := { t.arc with detours := a } } else t) :=
      .ite (onlyNums_reportArcade (.withArc ht rfl)) ht
    have hkeep (c : Bool) (t : Block) (a : List Nat) (ht : OnlyNums linkKeys s t) :
        OnlyNums linkKeys s (if c then { t with arc := { t.arc with retaining := a } } else t) :=
      .ite (.withArc ht rfl) ht
    dsimp only
    refine .ite (.ite ?_ (.enqueue ?_ ..)) (.enqueue ?_ ..)
    · refine .withArc ?_ rfl
      exact hdet _ _ (hkeep _ _ _ (.withArc (.refl s) rfl))
    · refine .withArc ?_ rfl
      exact hdet _ _ (hkeep _ _ _ (.withArc (.refl s) rfl))
    · exact hdet _ _ (hkeep _ _ _ (.withArc (.refl s) rfl))

theorem onlyNums_sendPacket (desc : Nat) (p : Packet) (s : Block) : OnlyNums linkKeys s (sendPacket desc p s) := by
  unfold sendPacket
  dsimp only
  have hseq (a : List (Nat × Nat)) : OnlyNums linkKeys s { s with arc := { s.arc with txSeq := a } } := .withArc (.refl s) rfl
  exact .ite (.withArc (hseq _) rfl) (.ite (.withArc (hseq _) rfl) (.trans (hseq _) (onlyNums_launch ..)))

theorem onlyNums_sendCtrl (dst vc cepoch : Nat) (data : Bytes) (s : Block) : OnlyNums linkKeys s (sendCtrl dst vc cepoch data s) := by
  unfold sendCtrl sendCtrlFor
  exact .ite (.refl s) (onlyNums_sendPacket ..)

theorem onlyNums_portsChanged (h : OnlyNums linkKeys s t) : OnlyNums linkKeys s (portsChanged t) := by
  have hreport := onlyNums_reportArcade h
  unfold portsChanged
  dsimp only
  refine .ite hreport (.forEach (fun q b => onlyNums_sendCtrl _ _ _ _ b) _ ?_)
  exact hreport.withArc rfl

theorem onlyNums_resendAll (fs : List TxFlit) (h : OnlyNums linkKeys s t) : OnlyNums linkKeys s (resendAll fs t) := by
  unfold resendAll
  exact .forEach (fun pk b => onlyNums_launch _ _ _ b) _ h

theorem onlyNums_linkGoes (inj : Bool) (l reason st : Nat) (h : OnlyNums linkKeys s t) : OnlyNums linkKeys s (linkGoes inj l reason st t) := by
  have hset (k : Link) : OnlyNums linkKeys s (setLink l k t) := h.setLink l k
  unfold linkGoes
  dsimp only
  refine .ite h (onlyNums_portsChanged (onlyNums_resendAll _ (onlyNums_portsChanged (.ite ?_ (hset _)))))
  exact .detect (hset _) (by decide) (by decide) ..

theorem onlyNums_applyLaneMode (s : Block) : OnlyNums linkKeys s (applyLaneMode s) := by
  unfold applyLaneMode
  dsimp only
  refine onlyNums_portsChanged (.forEach (fun l b => ?_) _ (.refl s))
  refine .ite (.modLink (.ite ?_ (.refl b)) ..) (.ite (.modLink (.refl b) ..) (.refl b))
  exact onlyNums_linkGoes _ _ _ _ (.refl b)

end

end Sys2Proof.Machine
end

section
/-! SUPPORT. Commands that are writes of one object (R397, R400); O54. -/

namespace Sys2Proof.Machine

/-! ## Activations leave the program, the queues and the freeze (R439) -/

section
variable {s t : Block} (h : SameRun s t)
include h

theorem SameRun.alert (code word : Nat) : SameRun s (alert code word t) := h.trans ⟨rfl, rfl, rfl⟩

theorem SameRun.longDone (typ status seq : Nat) : SameRun s (longDone typ status seq t) := h.trans ⟨rfl, rfl, rfl⟩

theorem SameRun.setDom (key : Nat) (v : Bytes) : SameRun s (setDom key v t) := h.trans ⟨rfl, rfl, rfl⟩

theorem SameRun.powerLandings : SameRun s (powerLandings t) := h.trans ⟨rfl, rfl, rfl⟩

theorem SameRun.bumpNum (key w n : Nat) : SameRun s (bumpNum key w n t) := h.setNum ..

theorem SameRun.reportProcs : SameRun s (reportProcs t) := (h.setFwBit ..).setFwBit ..

theorem SameRun.setProc (n : Nat) (p : Proc) : SameRun s (setProc n p t) := h.withFw _

theorem SameRun.countRestart (n : Nat) : SameRun s (countRestart n t) := by
  unfold Machine.countRestart
  exact .ite (h.bumpNum ..) (.bumpNum (.setDom h ..) ..)

theorem SameRun.beginRestart (n : Nat) (staged : Bool) : SameRun s (beginRestart n staged t) :=
  .reportProcs (.countRestart (.setProc h ..) n)

theorem SameRun.raiseCounter (c v : Nat) : SameRun s (raiseCounter c v t) := h.withFw _

theorem SameRun.commitActivation : SameRun s (commitActivation t) := by
  unfold Machine.commitActivation
  refine .longDone (.setFwBit (.setFwBit (.forEach ?_ _ (fun k b => .setNum (.refl b) ..)) ..) ..) ..
  refine .setNum (.setNum (.withFw ?_ _) ..) ..
  refine .forEach ?_ _ (fun k b => .raiseCounter (.refl b) ..)
  exact .raiseCounter (.withFw h _) ..

theorem SameRun.commitIdle : SameRun s (commitIdle t) := .ite h.commitActivation h

theorem SameRun.activateNext : SameRun s (activateNext t) := by
  unfold Machine.activateNext
  refine .ite h ?_
  split
  · exact h.commitIdle
  · exact .ite (.setNum (.setFwBit (.withFw h _) ..) ..) (.ite (.withFw h _) (h.beginRestart ..))

theorem SameRun.activationIdle : SameRun s (activationIdle t) := by
  unfold Machine.activationIdle
  exact .ite (.activateNext (.withFw h _)) h.commitIdle

end

/-- An unloaded module has no program. -/
theorem loaded_unload (s : Block) : (unload s).prog.loaded = false := by
  unfold unload
  dsimp only
  rw [SameRun.prog (.activationIdle (.powerLandings (.setDom (.refl _) _ _)))]
  rfl

/-! ## Writes of one object -/

section
variable {pl : Plane} {o : ObjDef} {v : Nat} {s : Block}

theorem clampNum_in (h1 : o.typ ≠ 1) (h10 : o.typ ≠ 10) (hport : ¬ (0x311001 ≤ o.key ∧ o.key ≤ 0x31100A))
    (hlow : o.lo ≤ v) (hhigh : v ≤ o.hi) : clampNum o v = v := by
  rw [clampNum_range h1 h10 hport, if_neg (by omega), if_neg (by omega)]

/-- A write-only number of one, two or four bytes is an object whose accepted write is its action. -/
theorem writeRow_command (hfind : objFind o.key = some o) (hacc : o.acc = .wo) (hkind : o.typ = 2 ∨ o.typ = 3 ∨ o.typ = 4)
    (hport : ¬ (0x311001 ≤ o.key ∧ o.key ≤ 0x31100A)) (hlo : o.lo = 0) (hhi : o.hi < 256 ^ typSize o.typ)
    (hup : planeUp s pl = true) (hmay : planeMay s pl (o.key / 256) = true) (hv : v ≤ o.hi) :
    writeRow pl o.key (typSize o.typ) v s = actNum o.key v s := by
  have hsize : typSize o.typ ≠ 0 := by
    obtain h | h | h := hkind
    · rw [h]; decide
    · rw [h]; decide
    · rw [h]; decide
  exact writeRow_action hfind hacc hsize hup hmay (by omega) (clampNum_in (by omega) (by omega) hport (by omega) hv)

/-- The write-only numbers of the directory that are commands. -/
def commandObjs : List ObjDef :=
  [ob 0x512200 4 .wo 0 0 524287 false false, ob 0x321200 2 .wo 0 0 17 false false, ob 0x523200 2 .wo 0 0 49 false false,
   ob 0x530100 2 .wo 0 0 1 false false, ob 0xA10004 3 .wo 0 0 1024 false false, ob 0x607500 2 .wo 0 0 49 false false,
   ob 0x712000 2 .wo 0 0 1 false false, ob 0x402100 2 .wo 0 0 1 false false]

theorem commandObjs_ok : commandObjs.all (fun o => objFind o.key == some o && o.acc == .wo &&
    (o.typ == 2 || o.typ == 3 || o.typ == 4) && !(decide (0x311001 ≤ o.key) && decide (o.key ≤ 0x31100A)) && o.lo == 0 &&
    decide (o.hi < 256 ^ typSize o.typ)) = true := by decide +kernel

theorem writeRow_commandObj (ho : o ∈ commandObjs) (hup : planeUp s pl = true) (hmay : planeMay s pl (o.key / 256) = true)
    (hv : v ≤ o.hi) : writeRow pl o.key (typSize o.typ) v s = actNum o.key v s := by
  have hok := List.all_eq_true.mp commandObjs_ok o ho
  simp only [Bool.and_eq_true, Bool.or_eq_true, beq_iff_eq, Bool.not_eq_true', Bool.and_eq_false_iff, decide_eq_true_eq,
    decide_eq_false_iff_not] at hok
  obtain ⟨⟨⟨⟨⟨hfind, hacc⟩, hkind⟩, hport⟩, hlo⟩, hhi⟩ := hok
  exact writeRow_command hfind hacc (by omega) (fun h => hport.elim (fun hlow => hlow h.1) (fun hhigh => hhigh h.2)) hlo hhi hup hmay hv

/-- A number that is neither persistent nor of the digest set is stored as it is written, and the lanes follow it. -/
theorem writeRow_stored (hfind : objFind o.key = some o) (hacc : o.acc = .rw) (hsize : 0 < typSize o.typ) (hup : planeUp s pl = true)
    (hmay : planeMay s pl (o.key / 256) = true) (hfits : v < 256 ^ typSize o.typ) (hclamp : clampNum o v = v)
    (hpersist : o.persist = false) (hdigest : o.digest = false) (heta : o.key ≠ 0x601001) :
    writeRow pl o.key (typSize o.typ) v s = laneWrite o.key (setNum o.key v s) := by
  unfold writeRow
  rw [if_pos ⟨hup, hfits⟩, objWrite_number hfind hacc hmay hsize hfits]
  unfold writeNum afterStore etaWrite
  dsimp only
  rw [hclamp, if_pos rfl, hacc, if_neg (by simp), hpersist, hdigest, if_pos heta]
  rfl

/-- The row of 0x3210 in the directory. -/
def laneModeObj : ObjDef := ob 0x321000 2 .rw 0 0 4 false false

theorem objFind_laneModeObj : objFind laneModeObj.key = some laneModeObj := by decide +kernel

/-- The lane mode is stored, and the links follow it. -/
theorem writeRow_laneMode (hup : planeUp s pl = true) (hmay : planeMay s pl 0x3210 = true) (hv : v < 5) :
    writeRow pl 0x321000 1 v s = laneWrite 0x321000 (setNum 0x321000 v s) :=
  writeRow_stored objFind_laneModeObj rfl (by decide) hup hmay (show v < 256 by omega)
    (clampNum_in (by decide) (by decide) (by decide) (Nat.zero_le v) (Nat.le_of_lt_succ hv)) rfl rfl (by decide)

theorem num_laneWrite {k : Nat} (hk : k ∉ linkKeys) (key : Nat) (s : Block) : num (laneWrite key s) k = num s k := by
  unfold laneWrite
  exact (OnlyNums.ite (onlyNums_applyLaneMode s) (.refl s)).num k hk

/-! ## What the commands do -/

/-- A link that is reset is DOWN, without a reason and without lanes. -/
theorem link_resetLink {l : Nat} (hstate : (link s l).state < 8) (hslot : s.arc.slot < 72) :
    (link (resetLink l s) l).state = 0 ∧ (link (resetLink l s) l).reason = 0 ∧ (link (resetLink l s) l).active = 0 := by
  have hgone := linkGone_linkGoes (l := l) (reason := 0) (st := 0) (s := s) false (by omega) (by omega) hslot (by decide)
  have hlink : link (resetLink l s) l = { link (linkDown l 0 0 s) l with reason := 0 } := by
    unfold resetLink
    dsimp only
    rw [if_neg (by omega)]
    exact link_setLink_same ..
  rw [hlink]
  exact ⟨hgone.state, rfl, hgone.active⟩

theorem rel_clearFloor (s : Block) : (clearFloor s).rel = { s.rel with
    floorOld := s.rel.floorOld ++ s.rel.floorMap ++ s.rel.floorWait, floorMap := [], floorWait := [] } :=
  ReportFrame.rel (.setStatus (.refl _) ..)

theorem generateKey_may (h : lifeMay s = true) : (generateKey s).sec.identity = s.sec.identity + 1 ∧
    (num (generateKey s) 0x720100).testBit 4 = true := by
  have hdo : generateKey s = setNum 0x720100 (putBit (num s 0x720100) 4 true)
      { s with sec := { s.sec with identity := s.sec.identity + 1 } } := if_neg (by rw [h]; simp)
  rw [hdo, num_setNum_same]
  exact ⟨congrArg Sec.identity (ReportFrame.sec (.setNum (.refl _) ..)), testBit_putBit_same ..⟩

theorem armInjection_may {count : Nat} (h : canArm s (num s 0xA10001) = true) : (armInjection count s).rel.inject =
    { detector := num s 0xA10001, loc := num s 0xA10002, trigger := num s 0xA10003, left := count } := by
  have hdo : armInjection count s = setNum 0xA10005 (if count = 0 then 0 else 1) { s with rel := { s.rel with inject :=
      { detector := num s 0xA10001, loc := num s 0xA10002, trigger := num s 0xA10003, left := count } } } :=
    if_neg (by rw [h]; simp)
  rw [hdo]
  exact congrArg Rel.inject (ReportFrame.rel (.setNum (.refl _) ..))

theorem resetGallery_running {g : Nat} (hg : g ∈ boundPhys s) (hrun : isParked s = false) : resetGallery g s = s := by
  unfold resetGallery
  rw [if_pos (List.contains_iff_mem.mpr hg), if_neg (by rw [hrun]; simp)]

theorem loaded_resetGallery {g : Nat} (hg : g ∈ boundPhys s) (hpark : isParked s = true) (hjob : s.recov.job = none) :
    (resetGallery g s).prog.loaded = false := by
  unfold resetGallery
  rw [if_pos (List.contains_iff_mem.mpr hg), if_pos (by rw [hpark, hjob]; rfl)]
  have hleave (b : Block) : SameRun b (leaveActive b) := .ite (.setNum (.refl b) ..) (.refl b)
  rw [(hleave _).prog]
  exact loaded_unload _

theorem onFlash_waits {i : Instr} {f : Block → Block} (h : procRuns s 0 = false) :
    onFlash i f s = { s with fw := { s.fw with waiting := s.fw.waiting ++ [i] } } := if_neg (by rw [h]; simp)

theorem onFlash_now {i : Instr} {f : Block → Block} (h : procRuns s 0 = true) : onFlash i f s = f s := if_pos h

end

/-- Settles O54: an accepted value of a command object is its action, which has a lemma of its own. -/
theorem commandObjectsActOnAWrite : Obligations.CommandObjectsActOnAWrite := by
  unfold Obligations.CommandObjectsActOnAWrite
  intro s pl v hup may
  have hcommand {o : ObjDef} (ho : o ∈ commandObjs) (hmay : may (o.key / 256)) {w : Nat} (hw : w ≤ o.hi) :
      writeRow pl o.key (typSize o.typ) w s.toBlock = actNum o.key w s.toBlock := writeRow_commandObj ho hup hmay hw
  refine ⟨fun hmay hv hhalls => ?_, fun hmay hv => ?_, fun hmay => ?_, fun hmay hv => ?_, fun hmay hv => ?_, fun hmay hproc => ?_,
    fun hmay hv hhalls => ?_, fun hmay => ?_, fun hmay hlife hproc => ?_, fun hproc => ⟨fun hmay => ?_, fun hmay => ?_⟩,
    fun hmay hv harm => ?_, fun hnot hv => ?_⟩
  · have hexec : exec (.linkReset pl v) s = .next { s with toBlock := resetLink v s.toBlock } :=
      effect_of_eq ((hcommand (o := ob 0x321200 2 .wo 0 0 17 false false) (by decide) hmay (Nat.le_of_lt_succ hv)).trans
        (if_pos hhalls))
    exact ⟨hexec, fun hstate hslot => ⟨_, hexec, rfl, link_resetLink hstate hslot⟩⟩
  · have hexec : exec (.laneMode pl v) s = .next { s with toBlock := laneWrite 0x321000 (setNum 0x321000 v s.toBlock) } :=
      effect_of_eq (writeRow_laneMode hup hmay hv)
    have hnum : num (laneWrite 0x321000 (setNum 0x321000 v s.toBlock)) 0x321000 = v :=
      (num_laneWrite (by decide) _ _).trans (num_setNum_same ..)
    generalize laneWrite 0x321000 (setNum 0x321000 v s.toBlock) = t at hexec hnum
    exact ⟨hexec, ⟨_, hexec, rfl, hnum⟩⟩
  · exact effect_of_eq ((writeRow_restore hup hmay (Nat.le_refl 1)).trans (if_pos rfl))
  · have hdo := hcommand (o := ob 0x512200 4 .wo 0 0 524287 false false) (by decide) hmay (Nat.le_of_lt_succ hv)
    exact ⟨_, effect_of_eq hdo, rfl, (mem_setAdd ..).mpr (.inr rfl), rfl, rfl⟩
  · have hdo := hcommand (o := ob 0x523200 2 .wo 0 0 49 false false) (by decide) hmay (Nat.le_of_lt_succ hv)
    exact ⟨_, effect_of_eq hdo, rfl, (mem_setAdd ..).mpr (.inr rfl)⟩
  · have hdo := hcommand (o := ob 0x530100 2 .wo 0 0 1 false false) (by decide) hmay (Nat.le_refl 1)
    have hexec : exec (.clearFloorMap pl 1) s = .next { s with toBlock := clearFloor s.toBlock } :=
      effect_of_eq (hdo.trans (onFlash_now hproc))
    have hrel := rel_clearFloor s.toBlock
    generalize clearFloor s.toBlock = t at hexec hrel
    exact ⟨_, hexec, rfl, congrArg Rel.floorMap hrel, congrArg Rel.floorWait hrel, congrArg Rel.floorOld hrel⟩
  · have hexec : exec (.galleryReset pl v) s = .next { s with toBlock := resetGallery v s.toBlock } :=
      effect_of_eq ((hcommand (o := ob 0x607500 2 .wo 0 0 49 false false) (by decide) hmay (Nat.le_of_lt_succ hv)).trans
        (if_pos hhalls))
    refine ⟨hexec, fun hg hrun => ?_, fun hg hpark hjob => ⟨_, hexec, rfl, loaded_resetGallery hg hpark hjob⟩⟩
    rw [hexec, resetGallery_running hg hrun]
  · have hdo := hcommand (o := ob 0x402100 2 .wo 0 0 1 false false) (by decide) hmay (Nat.le_refl 1)
    have hexec : exec (.clearLatchedBits pl 1) s = .next { s with
        toBlock := setNum 0x402000 (num s.toBlock 0x402000 &&& 0xFFFF0FFF) s.toBlock } := effect_of_eq hdo
    exact ⟨_, hexec, rfl, num_setNum_same ..⟩
  · have hdo := hcommand (o := ob 0x712000 2 .wo 0 0 1 false false) (by decide) hmay (Nat.le_refl 1)
    have hexec : exec (.generateIdentityKey pl 1) s = .next { s with toBlock := generateKey s.toBlock } :=
      effect_of_eq (hdo.trans (onFlash_now hproc))
    exact ⟨_, hexec, rfl, generateKey_may hlife⟩
  · have hdo := hcommand (o := ob 0x530100 2 .wo 0 0 1 false false) (by decide) hmay (Nat.le_refl 1)
    exact effect_of_eq (hdo.trans (onFlash_waits hproc))
  · have hdo := hcommand (o := ob 0x712000 2 .wo 0 0 1 false false) (by decide) hmay (Nat.le_refl 1)
    exact effect_of_eq (hdo.trans (onFlash_waits hproc))
  · have hdo := hcommand (o := ob 0xA10004 3 .wo 0 0 1024 false false) (by decide) hmay hv
    have hexec : exec (.injectionArm pl v) s = .next { s with toBlock := armInjection v s.toBlock } := effect_of_eq hdo
    exact ⟨_, hexec, rfl, armInjection_may harm⟩
  · have hdo : writeRow pl 0x712000 1 v s.toBlock = bumpNum 0x1E0003 32 1 s.toBlock := by
      have hwrite := objWrite_forbidden (s := s.toBlock) (pl := pl) (key := 0x712000) (o := ob 0x712000 2 .wo 0 0 1 false false)
        (by decide +kernel) (.inr (.inr hnot)) 0 (leBytes 1 v)
      unfold writeRow
      rw [if_pos ⟨hup, by omega⟩, hwrite]
    exact effect_of_eq hdo

end Sys2Proof.Machine
end

section
/-! SUPPORT. What booting memory and staging the defaults change; the lifecycle (R443 to R447); O55. -/

namespace Sys2Proof.Machine

/-- What booting memory and staging the defaults may change: tables of memory, records, objects, reports, the boundary. -/
def BootFrame (s t : Block) : Prop :=
  t = { s with
    mem := { t.mem with bytes := s.mem.bytes }, upd := t.upd, bnd := t.bnd
    store := t.store, portico := t.portico, portA := t.portA, portB := t.portB, logs := t.logs }

theorem BootFrame.refl (s : Block) : BootFrame s s := rfl

section
variable {s t : Block} (h : BootFrame s t)
include h

theorem BootFrame.eq : t = { s with
    mem := { t.mem with bytes := s.mem.bytes }, upd := t.upd, bnd := t.bnd
    store := t.store, portico := t.portico, portA := t.portA, portB := t.portB, logs := t.logs } := h

theorem BootFrame.bytes : t.mem.bytes = s.mem.bytes := by rw [h.eq]
theorem BootFrame.recov : t.recov = s.recov := by rw [h.eq]
theorem BootFrame.sec : t.sec = s.sec := by rw [h.eq]
theorem BootFrame.fw : t.fw = s.fw := by rw [h.eq]
theorem BootFrame.pwr : t.pwr = s.pwr := by rw [h.eq]

theorem BootFrame.trans {u : Block} (h' : BootFrame t u) : BootFrame s u := by
  unfold BootFrame at h h' ⊢
  rw [h', h]

theorem BootFrame.report {u : Block} (h' : ReportFrame t u) : BootFrame s u :=
  h.trans (by
    unfold BootFrame
    unfold ReportFrame at h'
    rw [h'])

theorem BootFrame.ite {u : Block} (h' : BootFrame s u) {c : Prop} {_ : Decidable c} : BootFrame s (if c then t else u) := by
  split
  · exact h
  · exact h'

theorem BootFrame.withStore (x : Store) : BootFrame s { t with store := x } := h.trans rfl
theorem BootFrame.withUpd (x : Update) : BootFrame s { t with upd := x } := h.trans rfl
theorem BootFrame.withMem {x : Mem} (hx : x.bytes = t.mem.bytes) : BootFrame s { t with mem := x } :=
  h.trans (by
    unfold BootFrame
    dsimp only
    rw [← hx])

theorem BootFrame.setNum (key v : Nat) : BootFrame s (setNum key v t) := h.report (.setNum (.refl t) ..)

theorem BootFrame.setStatus (key v notes alerts code : Nat) : BootFrame s (setStatus key v notes alerts code t) :=
  h.report (.setStatus (.refl t) ..)

theorem BootFrame.forEach {α : Type} {f : α → Block → Block} (l : List α) (hf : ∀ a b, BootFrame b (f a b)) :
    BootFrame s (forEach l f t) := forEach_induction (P := BootFrame s) (fun a _ _ hb => hb.trans (hf a _)) h

theorem BootFrame.pmapSet (page e : Nat) : BootFrame s (pmapSet page e t) := h.trans rfl

theorem BootFrame.setRecov (n : Nat) (b : Bool) : BootFrame s (setRecov n b t) := h.setStatus ..

theorem BootFrame.adoptNow : BootFrame s (adoptNow t) := h.trans rfl

theorem BootFrame.markUnwritten (key : Nat) : BootFrame s (markUnwritten key t) := h.trans rfl

theorem BootFrame.setEpoch (e : Nat) : BootFrame s (setEpoch e t) := by
  unfold Machine.setEpoch
  exact .markUnwritten (.setNum h ..) _

theorem BootFrame.setDecl (v : Nat) : BootFrame s (setDecl v t) := h.setStatus ..

theorem BootFrame.pendingBit : BootFrame s (pendingBit t) := h.setNum ..

theorem BootFrame.adoptOwn : BootFrame s (adoptOwn t).2 := by
  unfold Machine.adoptOwn
  dsimp only
  split
  · split
    · exact .pendingBit (.setDecl (.setEpoch h.adoptNow _) _)
    · exact h
  · split
    · split
      · exact .pendingBit (.setDecl (.setEpoch h.adoptNow _) _)
      · exact .pendingBit (h.setDecl _)
    · exact .pendingBit (h.setDecl _)

theorem BootFrame.stagedWrite : BootFrame s (stagedWrite t) := by
  unfold Machine.stagedWrite adoptMarks orphanCheck
  exact .ite h.pendingBit (.setRecov (.setRecov (.pendingBit h.adoptOwn) ..) ..)

/-- Staging the defaults changes objects and reports. -/
theorem BootFrame.stageDefaults : BootFrame s (stageDefaults t) := by
  unfold Machine.stageDefaults
  exact .stagedWrite (.forEach (.withStore h _) _ fun a b => .markUnwritten (.refl b) a)

theorem BootFrame.bootPage (fk : Nat) : BootFrame s (bootPage fk t) := by
  unfold Machine.bootPage
  refine .ite h ?_
  dsimp only
  split
  · refine .pmapSet (.withMem h ?_) ..
    rfl
  · exact .pmapSet h ..

theorem BootFrame.fixRec (r : Nat × Nat) : BootFrame s (fixRec t r) := by
  unfold Machine.fixRec
  dsimp only
  split
  · exact h.withMem rfl
  · exact h.withMem rfl
  · exact h.withMem rfl
  · exact h.withMem rfl
  · exact h.withMem rfl
  · exact h

end

/-- Memory that boots is that of `memReset` but for its page map and its repairs. -/
theorem bootMemory_frame (s : Block) : BootFrame { s with mem := memReset } (bootMemory s) := by
  have hfix : ∀ (l : List (Nat × Nat)) (u : Block), BootFrame { s with mem := memReset } u →
      BootFrame { s with mem := memReset } (l.foldl fixRec u) := by
    intro l
    induction l with
    | nil => exact fun _ hu => hu
    | cons r l ih => exact fun u hu => ih _ (hu.fixRec r)
  have hrecs := hfix (floorRecs s) _ (BootFrame.withUpd (.refl { s with mem := memReset }) { s.upd with recA := recNone, recB := recNone })
  unfold bootMemory
  dsimp only at hrecs ⊢
  generalize (floorRecs s).foldl fixRec _ = u at hrecs ⊢
  exact .setNum (.setNum (.setNum (.setNum (.setNum (.setNum (.forEach hrecs _ fun a b => .bootPage (.refl b) a) ..) ..) ..) ..)
    ..) ..

theorem lifeCount_congr {s t : Block} (h : t.fw = s.fw) : lifeCount t = lifeCount s := by
  unfold lifeCount effCounter devCounter paired
  rw [h]

/-- A wiped module holds no byte and no context, and counts the wipe. -/
theorem wipe_clears (s : Block) : (wipe s).mem.bytes = [] ∧ (wipe s).recov.contexts = [] ∧ (wipe s).sec.wiped = lifeCount s + 1 := by
  have hboot := bootMemory_frame (clearHalls s)
  have hfw : (bootMemory (clearHalls s)).fw = s.fw := hboot.fw
  have hbytes : (bootMemory (clearHalls s)).mem.bytes = [] := hboot.bytes
  have hlife : lifeCount (bootMemory (clearHalls s)) = lifeCount s := lifeCount_congr hfw
  unfold wipe
  dsimp only
  generalize bootMemory (clearHalls s) = b at hbytes hlife ⊢
  have hstage (u : Block) (x : Nat) := BootFrame.stageDefaults (.setNum (.refl u) 0x511000 x)
  refine ⟨(hstage _ _).bytes.trans hbytes, ?_, ?_⟩
  · rw [(hstage _ _).recov]
  · rw [(hstage _ _).sec, hlife]

theorem wipeEnd_wipes {s : Block} (h : (num s 0x720100).testBit 7 = true) : (wipeEnd s).mem.bytes = [] ∧
    (num (wipeEnd s) 0x720100).testBit 7 = false ∧ (wipeEnd s).recov.contexts = [] ∧ (wipeEnd s).sec.wiped = lifeCount s + 1 := by
  obtain ⟨hbytes, hctx, hwiped⟩ := wipe_clears s
  have hend : wipeEnd s = setNum 0x720100 (putBit (num (wipe s) 0x720100) 7 false) (wipe s) := by
    unfold wipeEnd
    rw [if_pos (by rw [bit_eq_testBit, h])]
  have hframe : ReportFrame (wipe s) (wipeEnd s) := by
    rw [hend]
    exact .setNum (.refl _) ..
  refine ⟨by rw [hframe.mem, hbytes], ?_, by rw [hframe.recov, hctx], by rw [hframe.sec, hwiped]⟩
  rw [hend, num_setNum_same]
  exact testBit_putBit_same ..

/-! ## The certificate chain -/

/-- The row of 0x7121 in the directory. -/
def chainObj : ObjDef := ob 0x712100 12 .wo 0 0 8192 false false

theorem objFind_chainObj : objFind chainObj.key = some chainObj := by decide +kernel

theorem clampDom_chain {v : Bytes} (h : v.length ≤ 8192) : clampDom chainObj v = v := by
  unfold clampDom chainObj ob
  simp only [List.take_of_length_le h]
  rfl

theorem objWriteWhole_chain {pl : Plane} {v : Bytes} {s : Block} (hmay : planeMay s pl 0x7121 = true) (hlen : v.length ≤ 8192) :
    objWriteWhole pl 0x712100 v s = (stOk, onFlash (.installCertificateChain .host v) (installChain v) s) := by
  have href : writeRefused s pl chainObj.key = none := by
    unfold writeRefused
    rw [objFind_chainObj]
    exact if_neg (by rw [show planeMay s pl (chainObj.key / 256) = true from hmay]; simp [chainObj, ob])
  have hdom : writeDom chainObj v s = onFlash (.installCertificateChain .host v) (installChain v) s := by
    unfold writeDom
    dsimp only
    rw [clampDom_chain hlen, if_pos rfl]
    rfl
  show objWriteWhole pl chainObj.key v s = _
  unfold objWriteWhole
  rw [href, objFind_chainObj]
  exact (if_neg (by decide)).trans (congrArg (Prod.mk stOk) hdom)

theorem dom_setSec (v k : Nat) (s : Block) : dom (setSec v s) k = dom s k := by
  unfold setSec notifyNum notify bumpNum
  dsimp only
  split
  · exact (dom_setNum ..).trans ((dom_setNum ..).trans (dom_setNum ..))
  · exact dom_setNum ..

/-- An installed chain is what 0x7002.00 holds. -/
theorem dom_installChain {v : Bytes} {s : Block} (hlife : lifeMay s = true) (hkey : s.sec.identity ≠ 0) (hlen : v.length ≤ 8192) :
    dom (installChain v s) 0x700200 = v := by
  have hchanged (b : Block) : dom (lifeChanged b) 0x700200 = dom b 0x700200 := by
    unfold lifeChanged checkArmed
    dsimp only
    split
    · exact (dom_setNum ..).trans (dom_setSec ..)
    · exact dom_setSec ..
  unfold installChain
  rw [if_neg (by rw [hlife]; simpa using hkey), hchanged, List.take_of_length_le hlen]
  exact mapGet_mapSet_same ..

/-! ## Records -/

section
variable {rec : Bytes} {s : Block} (hpower : pstate s ≠ 0)
include hpower

theorem doEnrol_takes (hcore : secWaits s = false) : doEnrol rec s =
    if enrolCheck rec s = 0 then takeOwner rec (setAuth (enrolCheck rec s) (renew s)) else setAuth (enrolCheck rec s) (renew s) := by
  unfold doEnrol enrol
  rw [if_neg hpower, if_neg (by rw [hcore]; simp)]
  exact ite_not ..

theorem doEnrol_waits (hcore : secWaits s = true) : doEnrol rec s = holdReq (.ownerEnrolment rec) s := by
  unfold doEnrol
  rw [if_neg hpower, if_pos hcore]

theorem doLifecycle_takes (i : Instr) (hcore : secWaits s = false) : doLifecycle i rec s = lifeRequest rec s := by
  unfold doLifecycle
  rw [if_neg hpower, if_neg (by rw [hcore]; simp)]

theorem doLifecycle_waits (i : Instr) (hcore : secWaits s = true) : doLifecycle i rec s = holdReq i s := by
  unfold doLifecycle
  rw [if_neg hpower, if_pos hcore]

end

theorem planeUp_of {pl : Plane} {s : Block} (halive : alive s = true) (hpower : pstate s ≠ 0) : planeUp s pl = true := by
  unfold planeUp
  rw [halive, Bool.true_and]
  cases pl with
  | portico => rfl
  | host => exact decide_eq_true hpower
  | debug => exact decide_eq_true hpower

/-- Settles O55: a record acts by its checks or waits for the core; a chain is stored; a wipe leaves memory without a byte. -/
theorem lifecycleRecordsTakeEffect : Obligations.LifecycleRecordsTakeEffect := by
  unfold Obligations.LifecycleRecordsTakeEffect
  intro s rec hpower
  refine ⟨fun hcore => ⟨effect_of_eq (doEnrol_takes hpower hcore), fun i hi => ?_⟩, fun i hi hcore => ?_,
    fun pl halive hproc hmay hlen hlife hkey => ?_, fun hwiping => wipeEnd_wipes hwiping⟩
  · obtain rfl | rfl := hi
    · exact effect_of_eq (doLifecycle_takes hpower _ hcore)
    · exact effect_of_eq (doLifecycle_takes hpower _ hcore)
  · obtain rfl | rfl | rfl := hi
    · exact effect_of_eq (doEnrol_waits hpower hcore)
    · exact effect_of_eq (doLifecycle_waits hpower _ hcore)
    · exact effect_of_eq (doLifecycle_waits hpower _ hcore)
  · have hdo : doInstall pl rec s.toBlock = installChain rec s.toBlock := by
      unfold doInstall
      rw [if_pos (planeUp_of halive hpower), objWriteWhole_chain hmay hlen]
      exact onFlash_now hproc
    exact ⟨_, effect_of_eq hdo, rfl, dom_installChain hlife hkey hlen⟩

end Sys2Proof.Machine
end

section
/-! SUPPORT. The debug access port (R454, R460); O58. -/

namespace Sys2Proof.Machine

section
variable {s : Block} {f : Block → Block} {level last : Nat}

theorem onTap_alive (h : alive s = true) : onTap f s = f s := if_pos h

theorem tapAt_below (h : alive s = true) (hlow : pstate s = 0 ∨ debugLevel s < level) :
    tapAt level last f s = asBypass last s := (onTap_alive h).trans (if_pos hlow)

theorem tapAt_allowed (h : alive s = true) (hp : pstate s ≠ 0) (hlevel : level ≤ debugLevel s) :
    tapAt level last f s = f s := (onTap_alive h).trans (if_neg (by omega))

theorem lastBit_lt (d : Bytes) : lastBit d < 2 := by
  unfold lastBit fld
  omega

/-- The bypass register of a fall-back and that of BYPASS with the same last bit. -/
theorem asBypass_lastBit (d : Bytes) (s : Block) : asBypass (lastBit d) s = asBypass (b2n (lastBit d == 1)) s := by
  have hbit : lastBit d = 0 ∨ lastBit d = 1 := by have := lastBit_lt d; omega
  obtain h | h := hbit <;> rw [h] <;> rfl

theorem asBypass_b2n (bit : Bool) (s : Block) : asBypass (b2n bit) s = tapShift 0xFF (leBytes 1 (b2n bit)) (zeros 1) s := by
  cases bit <;> rfl

theorem exec_bypass (h : alive s = true) (p : List Instr) (bit : Bool) :
    exec (.bypass bit) ⟨s, p⟩ = .next ⟨asBypass (b2n bit) s, p⟩ :=
  effect_of_eq (f := doBypass bit) (onTap_alive h)

/-! ## What goes on for a processor that runs again -/

theorem procs_answerReports (s : Block) : (answerReports s).fw.procs = s.fw.procs := by
  unfold answerReports
  exact forEach_proj (fun t : Block => t.fw.procs) (fun e _ t => congrArg Fw.procs fw_respond) _

theorem waiting_answerReports (s : Block) : (answerReports s).fw.waiting = s.fw.waiting := by
  unfold answerReports
  exact forEach_proj (fun t : Block => t.fw.waiting) (fun e _ t => congrArg Fw.waiting fw_respond) _

theorem procs_redoAll (h : s.fw.waiting = []) : (redoAll s).fw.procs = s.fw.procs := by
  unfold redoAll
  rw [h]
  rfl

theorem procs_goesOnFor (h : s.fw.waiting = []) (n : Nat) : (goesOnFor n s).fw.procs = s.fw.procs := by
  unfold goesOnFor
  split
  · rw [procs_redoAll ((waiting_answerReports s).trans h), procs_answerReports]
  · exact procs_redoAll h

theorem halted_resumeProc {n : Nat} (hthere : coreThere s n = true) (hhalt : (proc s n).halted = true) (hn : n ≠ 2)
    (hwait : s.fw.waiting = []) : (proc (resumeProc n s) n).halted = false := by
  have hprocs := procs_goesOnFor (s := setProc n { proc s n with halted := false } (tapShift 0x20 [] [] s)) hwait n
  have hrun : resumeProc n s = goesOnFor n (setProc n { proc s n with halted := false } (tapShift 0x20 [] [] s)) :=
    (if_pos ((Bool.and_eq_true ..).mpr ⟨hthere, hhalt⟩)).trans (if_neg hn)
  have hproc : proc (resumeProc n s) n = proc (setProc n { proc s n with halted := false } (tapShift 0x20 [] [] s)) n := by
    unfold proc
    rw [hrun, hprocs]
    rfl
  rw [hproc, proc_setProc_same]

theorem haltProc_there {n : Nat} (h : coreThere s n = true) :
    haltProc n s = tapShift 0x20 [] [] (setProc n { proc s n with halted := true } s) :=
  congrArg (tapShift 0x20 [] []) (if_pos h)

end

/-- Settles O58: by what the level and the power state allow, instruction by instruction. -/
theorem theDebugPortServesItsLevel : Obligations.TheDebugPortServesItsLevel := by
  unfold Obligations.TheDebugPortServesItsLevel
  rintro ⟨s, p⟩ (h : alive s = true)
  refine ⟨effect_of_eq (f := doIdcode) (onTap_alive h), fun bit => ?_, ?_, ?_, ?_, ?_⟩
  · rw [exec_bypass h, asBypass_b2n]
    rfl
  · rintro d i level hi hlow
    rw [exec_bypass h, ← asBypass_lastBit]
    obtain ⟨rfl, rfl | rfl⟩ | ⟨rfl, rfl | rfl⟩ := hi
    · exact effect_of_eq (f := doExtest d) (tapAt_below h hlow)
    · exact effect_of_eq (f := doSample d) (tapAt_below h hlow)
    · exact effect_of_eq (f := doDbgobj d) (tapAt_below h hlow)
    · exact effect_of_eq (f := doTapTok d) (tapAt_below h hlow)
  · intro d (hp : pstate s ≠ 0)
    refine ⟨?_, effect_of_eq (f := doDbgobj d) (tapAt_allowed h hp (Nat.zero_le _)), fun (hw : secWaits s = false) => ?_⟩
    · rintro (hopen : debugLevel s = 2) i ir (⟨rfl, rfl⟩ | ⟨rfl, rfl⟩)
      · exact ⟨_, effect_of_eq (f := doExtest d) (tapAt_allowed h hp (Nat.le_of_eq hopen.symm)), rfl, rfl, rfl, rfl, rfl⟩
      · exact ⟨_, effect_of_eq (f := doSample d) (tapAt_allowed h hp (Nat.le_of_eq hopen.symm)), rfl, rfl, rfl, rfl, rfl⟩
    · have htok : doTapTok d s = tapToken d s :=
        (tapAt_allowed h hp (Nat.zero_le _)).trans (if_neg (by rw [hw]; exact Bool.false_ne_true))
      exact ⟨_, effect_of_eq (f := doTapTok d) htok, rfl, rfl, rfl, rfl⟩
  · intro addr data (hhalls : 2 ≤ pstate s) (hopen : debugLevel s = 2)
    have hread : doDbgRead addr s = dbgRead addr s :=
      (if_neg (by omega)).trans (tapAt_allowed h (by omega) (by omega))
    have hwrite : doDbgWrite addr data s = dbgWrite addr data s := tapAt_allowed h (by omega) (by omega)
    refine ⟨effect_of_eq (f := doDbgRead addr) hread, fun a ha => ?_, fun hnone => ?_⟩
    · refine effect_of_eq (f := doDbgWrite addr data) (hwrite.trans ?_)
      unfold dbgWrite
      dsimp only
      rw [if_neg (by show ¬ (pstate s < 2 ∨ debugLevel s < 2); omega), ha]
      rfl
    · refine ⟨_, effect_of_eq (f := doDbgRead addr) hread, rfl, ?_⟩
      show (dbgRead addr s).sec.tapOut = zeros 8
      unfold dbgRead
      rw [if_neg (by omega), hnone]
      rfl
  · intro n hn (hp : pstate s ≠ 0) (hopen : debugLevel s = 2) (hthere : coreThere s n = true)
    have hproc (f : Block → Block) : onProc n (tapAt 2 0 f) ⟨s, p⟩ = .next ⟨f s, p⟩ :=
      (if_neg (by omega)).trans (effect_of_eq (f := tapAt 2 0 f) (tapAt_allowed h hp (Nat.le_of_eq hopen.symm)))
    refine ⟨⟨_, hproc (haltProc n), rfl, ?_⟩, hproc (stepProc n), fun hhalt hn2 hwait =>
      ⟨_, hproc (resumeProc n), rfl, halted_resumeProc hthere hhalt hn2 hwait⟩⟩
    show (proc (haltProc n s) n).halted = true ∧ ∀ m, m ≠ n → proc (haltProc n s) m = proc s m
    rw [haltProc_there hthere]
    exact ⟨congrArg Proc.halted (proc_setProc_same ..), fun m hm => proc_setProc_ne _ hm _⟩

end Sys2Proof.Machine
end

section
/-! SUPPORT. What the shutdowns, the boots and the resets leave of the power state, the slot and the latched bits (R467, R485). -/

namespace Sys2Proof.Machine

/-- The numbers of the power state and of the emergencies. -/
def powerKeys : List Nat := [0x401000, 0x402000]

/-- The numbers of the counters of the firmware are no numbers of the power state. -/
theorem counterKey_not_power : ∀ c ∈ List.range 5, 0x800201 + c ∉ powerKeys := by decide

/-- The power plane, the slot and the numbers of the power state are the same. -/
structure SamePower (s t : Block) : Prop where
  pwr : t.pwr = s.pwr
  slot : t.arc.slot = s.arc.slot
  num : ∀ k ∈ powerKeys, num t k = num s k

theorem SamePower.refl (s : Block) : SamePower s s := ⟨rfl, rfl, fun _ _ => rfl⟩

section
variable {s t : Block} (h : SamePower s t)
include h

theorem SamePower.trans {u : Block} (h' : SamePower t u) : SamePower s u :=
  ⟨h'.pwr.trans h.pwr, h'.slot.trans h.slot, fun k hk => (h'.num k hk).trans (h.num k hk)⟩

theorem SamePower.ite {u : Block} (h' : SamePower s u) {c : Prop} {_ : Decidable c} : SamePower s (if c then t else u) := by
  split
  · exact h
  · exact h'

/-- An update that keeps the power plane, the slot and the stored numbers. -/
theorem SamePower.of_nums {u : Block} (hpwr : u.pwr = t.pwr) (hslot : u.arc.slot = t.arc.slot) (hnums : u.store.nums = t.store.nums) :
    SamePower s u := h.trans ⟨hpwr, hslot, fun k _ => by unfold Machine.num; rw [hslot, hnums]⟩

theorem SamePower.setNum {key : Nat} (hkey : key ∉ powerKeys) (v : Nat) : SamePower s (setNum key v t) :=
  h.trans ⟨(ReportFrame.setNum (.refl t) ..).pwr, by rw [setNum_keeps_arc],
    fun k hk => num_setNum_ne key k v t (fun e => hkey (e ▸ hk))⟩

theorem SamePower.bumpNum {key : Nat} (hkey : key ∉ powerKeys) (w n : Nat) : SamePower s (bumpNum key w n t) := h.setNum hkey _

theorem SamePower.forEach {α : Type} {f : α → Block → Block} (l : List α) (hf : ∀ a ∈ l, ∀ b, SamePower b (f a b)) :
    SamePower s (forEach l f t) := forEach_induction (P := SamePower s) (fun a ha _ hb => hb.trans (hf a ha _)) h

theorem SamePower.withPortico (x : Portico) : SamePower s { t with portico := x } := h.of_nums rfl rfl rfl

theorem SamePower.withFw (x : Fw) : SamePower s { t with fw := x } := h.of_nums rfl rfl rfl

theorem SamePower.notify (key : Nat) (v : Bytes) : SamePower s (notify key v t) := by
  unfold Machine.notify
  dsimp only
  exact .bumpNum (.bumpNum (h.withPortico _) (by decide) ..) (by decide) ..

theorem SamePower.alert (code word : Nat) : SamePower s (alert code word t) := h.of_nums rfl rfl rfl

theorem SamePower.setStatus {key : Nat} (hkey : key ∉ powerKeys) (v notes alerts code : Nat) :
    SamePower s (setStatus key v notes alerts code t) := by
  have hset := h.setNum hkey v
  unfold Machine.setStatus
  exact .ite (.alert (.ite (hset.notify ..) hset) ..) (.ite (hset.notify ..) hset)

theorem SamePower.setFwBit (n : Nat) (b : Bool) : SamePower s (setFwBit n b t) := by
  have hset := h.setStatus (key := 0x801000) (by decide) (putBit (Machine.num t 0x801000) n b) 0x1A0 0 0
  unfold Machine.setFwBit
  exact .ite (hset.alert ..) hset

theorem SamePower.setDom (key : Nat) (v : Bytes) : SamePower s (setDom key v t) := h.of_nums rfl rfl rfl

theorem SamePower.setSec (v : Nat) : SamePower s (setSec v t) := by
  have hset := h.setNum (key := 0x720100) (by decide) v
  unfold Machine.setSec
  exact .ite (hset.notify ..) hset

theorem SamePower.clearHalls : SamePower s (clearHalls t) := h.of_nums rfl rfl rfl

theorem SamePower.withArc {x : Arcade} (hx : x.slot = t.arc.slot) : SamePower s { t with arc := x } := h.of_nums rfl hx rfl

theorem SamePower.resetArcade (tell : Bool) : SamePower s (resetArcade tell t) := by
  unfold Machine.resetArcade
  exact h.withArc rfl

/-! ## The unloading of a program -/

theorem SamePower.pmapSet (page e : Nat) : SamePower s (pmapSet page e t) := h.of_nums rfl rfl rfl

theorem SamePower.clearProgram : SamePower s (clearProgram t) := by
  have hpages : SamePower s (restoreFrames t) :=
    .forEach (h.of_nums (u := { t with mem := { t.mem with ownFrames := [] } }) rfl rfl rfl) _ fun _ _ b => .pmapSet (.refl b) ..
  exact hpages.of_nums rfl rfl rfl

theorem SamePower.countRestart (n : Nat) : SamePower s (countRestart n t) := by
  unfold Machine.countRestart
  split
  · exact h.bumpNum (by simp only [powerKeys, List.mem_cons, List.not_mem_nil, or_false]; omega) ..
  · exact .bumpNum (.setDom h ..) (by decide) ..

theorem SamePower.beginRestart (n : Nat) (staged : Bool) : SamePower s (beginRestart n staged t) :=
  .setFwBit (.setFwBit (.countRestart (.withFw h _) n) ..) ..

theorem SamePower.raiseCounter (c v : Nat) : SamePower s (raiseCounter c v t) := h.withFw _

theorem SamePower.commitActivation : SamePower s (commitActivation t) := by
  unfold Machine.commitActivation
  refine .alert (.setFwBit (.setFwBit (.forEach ?_ _ (fun c hc b => .setNum (.refl b) (counterKey_not_power c hc) _)) ..) ..) ..
  refine .setNum (.setNum (.withFw ?_ _) (by decide) _) (by decide) _
  refine .forEach ?_ _ (fun k _ b => .raiseCounter (.refl b) ..)
  exact .raiseCounter (.withFw h _) ..

theorem SamePower.commitIdle : SamePower s (commitIdle t) := .ite h.commitActivation h

theorem SamePower.activateNext : SamePower s (activateNext t) := by
  unfold Machine.activateNext
  refine .ite h ?_
  split
  · exact h.commitIdle
  · exact .ite (.setNum (.setFwBit (.withFw h _) ..) (by decide) _) (.ite (.withFw h _) (h.beginRestart ..))

theorem SamePower.activationIdle : SamePower s (activationIdle t) := by
  unfold Machine.activationIdle
  exact .ite (.activateNext (.withFw h _)) h.commitIdle

end

theorem samePower_unload (s : Block) : SamePower s (unload s) := by
  have hprog : SamePower s { clearProgram s with
      prog := progZero, bind := bindZero, recov := { (clearProgram s).recov with job := none } } :=
    .of_nums (.clearProgram (.refl s)) rfl rfl rfl
  unfold unload
  dsimp only
  generalize clearProgram s = c at hprog ⊢
  refine .activationIdle ?_
  exact .of_nums (.setDom hprog ..) rfl rfl rfl

/-! ## Rails -/

/-- Two states differ in the rails at most. -/
def OnlyRails (s t : Block) : Prop := t = { s with pwr := { s.pwr with rails := t.pwr.rails } }

theorem onlyRails_railDown {s t : Block} (h : OnlyRails s t) (n : Nat) : OnlyRails s (railDown n t) := by
  unfold railDown
  split
  · unfold OnlyRails at h ⊢
    rw [h]
  · exact h

theorem onlyRails_railUp {s t : Block} (h : OnlyRails s t) (n : Nat) : OnlyRails s (railUp n t) := by
  unfold railUp
  split
  · unfold OnlyRails at h ⊢
    rw [h]
  · exact h

theorem onlyRails_railsTo (n : Nat) (s : Block) : OnlyRails s (railsTo n s) := by
  unfold railsTo
  split
  · exact forEach_induction (P := OnlyRails s) (fun a _ _ hb => onlyRails_railUp hb a) rfl
  · exact forEach_induction (P := OnlyRails s) (fun a _ _ hb => onlyRails_railDown hb a) rfl

theorem rails_railsTo_zero (s : Block) : (railsTo 0 s).pwr.rails = 0 := by
  have hlast (b : Block) : (railDown 1 b).pwr.rails = 0 := by
    unfold railDown
    split
    · rfl
    · omega
  unfold railsTo
  split
  case isTrue h => exact Nat.le_zero.mp h
  case isFalse => exact (congrArg (·.pwr.rails) (forEach_append [6, 5, 4, 3, 2] [1] railDown s)).trans (hlast _)

theorem railsTo_zero (s : Block) : railsTo 0 s = { s with pwr := { s.pwr with rails := 0 } } := by
  have h : OnlyRails s (railsTo 0 s) := onlyRails_railsTo 0 s
  unfold OnlyRails at h
  rw [h, rails_railsTo_zero]

/-! ## Dormant -/

/-- The module is in Dormant: no rail is up, memory is lost and no program is loaded. -/
structure DarkNow (s : Block) : Prop where
  pstate : pstate s = 0
  rails : s.pwr.rails = 0
  bytes : s.mem.bytes = []
  loaded : s.prog.loaded = false

/-- The power plane in Dormant: the host and every other rail are off, and no transition is on. -/
def darkPower (p : Power) : Power := { p with hostRails := false, trans := none, startAfter := none, offsetPolls := 0, rails := 0 }

/-- The halls, the stacks, the arcade and the host site lose power. -/
def powerOff (dark : Option Dark) (u : Block) : Block :=
  { u with
    dark
    mem := { memReset with fix := u.mem.fix }, upd := updReset
    logs := { u.logs with cper := [] }
    recov := { u.recov with contexts := [], manifests := [], signWait := [] }
    portA := portOff u.portA, portB := portOff u.portB
    fw := { u.fw with order := [], activating := false, deferred := false, waitSbound := false, reverting := [], waiting := [], reports := [] }
    pwr := { u.pwr with hostRails := false, trans := none, startAfter := none, offsetPolls := 0 } }

/-- The words that a shutdown writes before those of the power state. -/
def darkWords (v : Block) : Block :=
  let v := setNum 0xA10005 (if fld (num v 0xA10005) 0 2 = 1 then setFld (num v 0xA10005) 0 2 2 else num v 0xA10005) v
  let v := setNum 0x607000 (num v 0x607000 &&& 0xFC) v
  setSec (putBit (setFld (num v 0x720100) 2 2 0) 7 false) v

/-- The last two words of a shutdown: the latched bits stay, and the power state is Dormant. -/
def dormantWords (v : Block) : Block :=
  let v := setNum 0x402000 (num v 0x402000 &&& 0xF800) v
  setNum 0x401000 (setFld (num v 0x401000) 0 5 0) v

theorem shutDown_eq (tell : Bool) (s : Block) : shutDown tell s =
    dormantWords (darkWords (railsTo 0 (powerOff (if pstate s = 0 then s.dark else some (darkOf s))
      (resetArcade tell (clearHalls (unload s)))))) := by
  unfold shutDown
  dsimp only
  generalize resetArcade tell (clearHalls (unload s)) = u
  generalize (if pstate s = 0 then s.dark else some (darkOf s)) = d
  unfold powerOff
  generalize railsTo 0 _ = v
  rfl

section
variable (s : Block)

theorem samePower_powerOff (dark : Option Dark) :
    SamePower { s with pwr := darkPower s.pwr } (railsTo 0 (powerOff dark s)) := by
  rw [railsTo_zero]
  exact .of_nums (.refl _) rfl rfl rfl

theorem samePower_darkWords : SamePower s (darkWords s) := .setSec (.setNum (.setNum (.refl s) (by decide) _) (by decide) _) _

theorem reportFrame_setSec (v : Nat) : ReportFrame s (setSec v s) := by
  have hset : ReportFrame s (setNum 0x720100 v s) := .setNum (.refl s) ..
  unfold setSec
  dsimp only
  split
  · exact hset.notify ..
  · exact hset

theorem reportFrame_darkWords : ReportFrame s (darkWords s) := by
  unfold darkWords
  exact .trans (.setNum (.setNum (.refl s) ..) ..) (reportFrame_setSec ..)

theorem reportFrame_dormantWords : ReportFrame s (dormantWords s) := .setNum (.setNum (.refl s) ..) ..

theorem num_dormantWords : num (dormantWords s) 0x401000 = setFld (num s 0x401000) 0 5 0 ∧
    num (dormantWords s) 0x402000 = num s 0x402000 &&& 0xF800 := by
  unfold dormantWords
  dsimp only
  rw [num_setNum_same, num_setNum_ne _ _ _ _ (by decide), num_setNum_ne _ _ _ _ (by decide), num_setNum_same]
  exact ⟨rfl, rfl⟩

/-- What a shutdown leaves: the numbers, the power plane, the slot and the memory. -/
theorem shutDown_leaves (tell : Bool) : num (shutDown tell s) 0x401000 = setFld (num s 0x401000) 0 5 0 ∧
    num (shutDown tell s) 0x402000 = num s 0x402000 &&& 0xF800 ∧ (shutDown tell s).pwr = darkPower s.pwr ∧
    (shutDown tell s).arc.slot = s.arc.slot ∧ (shutDown tell s).mem.bytes = [] := by
  have hreset := (samePower_unload s).clearHalls.resetArcade tell
  rw [shutDown_eq]
  generalize resetArcade tell (clearHalls (unload s)) = u at hreset ⊢
  generalize (if pstate s = 0 then s.dark else some (darkOf s)) = d
  have hoff := samePower_powerOff u d
  have hbytes : (railsTo 0 (powerOff d u)).mem.bytes = [] := by
    rw [railsTo_zero]
    rfl
  generalize railsTo 0 (powerOff d u) = v at hoff hbytes ⊢
  have hwords := hoff.trans (samePower_darkWords v)
  have hwordsMem := (reportFrame_darkWords v).mem
  generalize darkWords v = w at hwords hwordsMem ⊢
  have hlast := reportFrame_dormantWords w
  obtain ⟨hstate, hlatched⟩ := num_dormantWords w
  have hnum (k : Nat) (hk : k ∈ powerKeys) : num w k = num s k := (hwords.num k hk).trans (hreset.num k hk)
  refine ⟨?_, ?_, ?_, ?_, ?_⟩
  · rw [hstate, hnum _ (by decide)]
  · rw [hlatched, hnum _ (by decide)]
  · rw [hlast.pwr, hwords.pwr, ← hreset.pwr]
  · rw [hlast.arc, hwords.slot, ← hreset.slot]
  · rw [hlast.mem, hwordsMem, hbytes]

/-- A field that lies at the start of a written one. -/
theorem fld_setFld_start {x lo w v u : Nat} (h : u ≤ w) : fld (setFld x lo w v) lo u = v % 2 ^ u := by
  refine Nat.eq_of_testBit_eq fun i => ?_
  rw [testBit_fld, testBit_setFld, Nat.testBit_mod_two_pow]
  by_cases hi : i < u
  · rw [if_neg (by omega), if_pos (by omega), Nat.add_sub_cancel_left]
  · rw [decide_eq_false hi, Bool.false_and, Bool.false_and]

theorem fld_putBit_ne {x n l u : Nat} (b : Bool) (h : l + u ≤ n ∨ n + 1 ≤ l) : fld (putBit x n b) l u = fld x l u :=
  fld_setFld_ne h

theorem darkNow_shutDown (tell : Bool) : DarkNow (shutDown tell s) := by
  obtain ⟨hstate, -, hpwr, -, hbytes⟩ := shutDown_leaves s tell
  refine ⟨?_, ?_, hbytes, (cleared_shutDown tell s).prog⟩
  · unfold pstate
    rw [hstate]
    exact fld_setFld_start (by omega)
  · rw [hpwr]
    rfl

end

/-! ## Shutdowns with their latched bit -/

section
variable (latch : Nat) (s : Block)

/-- The end of a transition, before the answer to a mailbox request. -/
def transEnded (code : Nat) (s : Block) : Block :=
  let s := setNum 0x401000 (putBit (num s 0x401000) 5 false) (setResult code s)
  { s with pwr := { s.pwr with trans := none, transReq := (0, 0) } }

theorem endTrans_eq (code : Nat) : endTrans code s = if s.pwr.transReq.2 = 0 then transEnded code s
    else longDone 0x21 code (s.pwr.transReq.2 - 1) (setNum 0x607300 code (transEnded code s)) := by
  unfold endTrans transEnded
  dsimp only

/-- What an end of a transition leaves. -/
structure TransEnds (code : Nat) (s t : Block) : Prop where
  state : num t 0x401000 = putBit (num s 0x401000) 5 false
  latched : num t 0x402000 = num s 0x402000
  pwr : t.pwr = { s.pwr with trans := none, transReq := (0, 0) }
  mem : t.mem = s.mem
  prog : t.prog = s.prog

theorem transEnds_transEnded (code : Nat) : TransEnds code s (transEnded code s) := by
  have hreport : ReportFrame s (setNum 0x401000 (putBit (num s 0x401000) 5 false) (setResult code s)) :=
    .setNum (.setNum (.refl s) ..) ..
  have hstate := num_setNum_same 0x401000 (putBit (num s 0x401000) 5 false) (setResult code s)
  have hlatched : num (setNum 0x401000 (putBit (num s 0x401000) 5 false) (setResult code s)) 0x402000 =
      num s 0x402000 := (num_setNum_ne _ _ _ _ (by decide)).trans (num_setNum_ne _ _ _ _ (by decide))
  unfold transEnded
  dsimp only
  generalize setNum 0x401000 _ _ = t at hreport hstate hlatched ⊢
  refine ⟨hstate, hlatched, ?_, hreport.mem, hreport.prog⟩
  rw [hreport.pwr]

theorem reportFrame_longDone (typ status seq : Nat) : ReportFrame s (longDone typ status seq s) := .alert (.refl s) ..

theorem transEnds_endTrans (code : Nat) : TransEnds code s (endTrans code s) := by
  have h := transEnds_transEnded s code
  rw [endTrans_eq]
  generalize transEnded code s = t at h ⊢
  split
  · exact h
  · have hreport : ReportFrame t (longDone 0x21 code (s.pwr.transReq.2 - 1) (setNum 0x607300 code t)) :=
      .trans (.setNum (.refl t) ..) (reportFrame_longDone ..)
    have hnum (k : Nat) (hk : k ≠ 0x607300) : num (longDone 0x21 code (s.pwr.transReq.2 - 1) (setNum 0x607300 code t)) k = num t k :=
      (num_longDone ..).trans (num_setNum_ne _ _ _ _ hk)
    exact ⟨(hnum _ (by decide)).trans h.state, (hnum _ (by decide)).trans h.latched, hreport.pwr.trans h.pwr,
      hreport.mem.trans h.mem, hreport.prog.trans h.prog⟩

theorem num_setPwrBit_same (b : Bool) : num (setPwrBit latch b s) 0x402000 = putBit (num s 0x402000) latch b :=
  num_setStatus_same _ (by decide) ..

theorem num_setPwrBit_ne {k : Nat} (hk : k ≠ 0x402000) (h : k ∉ notifyKeys) (b : Bool) : num (setPwrBit latch b s) k = num s k :=
  num_setStatus_ne _ hk h ..

theorem reportFrame_setPwrBit (b : Bool) : ReportFrame s (setPwrBit latch b s) := .setStatus (.refl s) ..

/-- What stays of the power plane in a crash. -/
structure CrashKeeps (s t : Block) : Prop where
  aon : t.pwr.aon = s.pwr.aon
  inReset : t.pwr.inReset = s.pwr.inReset
  inputOk : t.pwr.inputOk = s.pwr.inputOk
  fatalDue : t.pwr.fatalDue = s.pwr.fatalDue
  crystal : t.pwr.crystal = s.pwr.crystal

theorem DarkNow.transEnds {t : Block} {code : Nat} (h : DarkNow s) (h' : TransEnds code s t) : DarkNow t :=
  ⟨((congrArg (fld · 0 3) h'.state).trans (fld_putBit_ne false (by omega))).trans h.pstate, (congrArg Power.rails h'.pwr).trans h.rails,
    (congrArg Mem.bytes h'.mem).trans h.bytes, (congrArg Prog.loaded h'.prog).trans h.loaded⟩

theorem DarkNow.report {t : Block} (h : DarkNow s) (h' : ReportFrame s t) (hstate : num t 0x401000 = num s 0x401000) : DarkNow t :=
  ⟨(congrArg (fld · 0 3) hstate).trans h.pstate, (congrArg Power.rails h'.pwr).trans h.rails,
    (congrArg Mem.bytes h'.mem).trans h.bytes, (congrArg Prog.loaded h'.prog).trans h.loaded⟩

/-- A crash leaves Dormant, the bits that were latched, and its own. -/
theorem crash_leaves : DarkNow (crash latch s) ∧ CrashKeeps s (crash latch s) ∧
    num (crash latch s) 0x402000 = putBit (num s 0x402000 &&& 0xF800) latch true := by
  have hdark := darkNow_shutDown s false
  obtain ⟨-, hlatched, hpwr, -⟩ := shutDown_leaves s false
  unfold crash enterDormant
  dsimp only
  generalize shutDown false s = d at hdark hlatched hpwr ⊢
  have hlose : DarkNow (loseChanges d) := hdark.report _ (t := loseChanges d) rfl rfl
  have hloseNum : num (loseChanges d) 0x402000 = num s 0x402000 &&& 0xF800 := hlatched
  have hlosePwr : (loseChanges d).pwr = darkPower s.pwr := hpwr
  generalize loseChanges d = e at hlose hloseNum hlosePwr ⊢
  have hbit := hlose.report _ (reportFrame_setPwrBit latch e true) (num_setPwrBit_ne latch e (by decide) (by decide) true)
  have hbitNum := num_setPwrBit_same latch e true
  have hbitPwr := (reportFrame_setPwrBit latch e true).pwr
  rw [hloseNum] at hbitNum
  rw [hlosePwr] at hbitPwr
  generalize setPwrBit latch true e = f at hbit hbitNum hbitPwr ⊢
  generalize hg : ({ f with pwr := { f.pwr with wakeAfter := false, standbyAfter := false } } : Block) = g
  have hgDark : DarkNow g := by
    rw [← hg]
    exact ⟨hbit.pstate, hbit.rails, hbit.bytes, hbit.loaded⟩
  have hgNum : num g 0x402000 = putBit (num s 0x402000 &&& 0xF800) latch true := by
    rw [← hg]
    exact hbitNum
  have hgKeeps : CrashKeeps s g := by
    rw [← hg]
    dsimp only
    rw [hbitPwr]
    exact ⟨rfl, rfl, rfl, rfl, rfl⟩
  clear hg
  split
  · have hends := transEnds_endTrans g 1
    refine ⟨hgDark.transEnds _ hends, ?_, hends.latched.trans hgNum⟩
    obtain ⟨haon, hreset, hinput, hfatal, hcrystal⟩ := hgKeeps
    constructor
    all_goals
      rw [hends.pwr]
      assumption
  · exact ⟨hgDark, hgKeeps, hgNum⟩

end

end Sys2Proof.Machine
end

section
/-! SUPPORT. A boot: the slot that it samples, the reset that it leaves, and no program (R431). -/

namespace Sys2Proof.Machine

/-- The module is out of reset in a slot, with no program. -/
structure OutOfReset (slot : Nat) (s : Block) : Prop where
  slot : s.arc.slot = slot
  inReset : s.pwr.inReset = false
  loaded : s.prog.loaded = false

section
variable {n : Nat} {s t : Block} (h : OutOfReset n s)
include h

theorem OutOfReset.of_fields (hslot : t.arc.slot = s.arc.slot) (hreset : t.pwr.inReset = s.pwr.inReset)
    (hprog : t.prog.loaded = s.prog.loaded) : OutOfReset n t := ⟨hslot.trans h.slot, hreset.trans h.inReset, hprog.trans h.loaded⟩

theorem OutOfReset.report (h' : ReportFrame s t) : OutOfReset n t := h.of_fields (by rw [h'.arc]) (by rw [h'.pwr]) (by rw [h'.prog])

theorem OutOfReset.record (h' : RecordFrame s t) : OutOfReset n t := h.of_fields (by rw [h'.eq]) (by rw [h'.eq]) (by rw [h'.eq])

theorem OutOfReset.boot (h' : BootFrame s t) : OutOfReset n t := h.of_fields (by rw [h'.eq]) (by rw [h'.eq]) (by rw [h'.eq])

theorem OutOfReset.setNum (key v : Nat) : OutOfReset n (setNum key v s) := h.report (.setNum (.refl s) ..)

theorem OutOfReset.ite (h' : OutOfReset n t) {c : Prop} {_ : Decidable c} : OutOfReset n (if c then s else t) := by
  split
  · exact h
  · exact h'

theorem OutOfReset.forEach {α : Type} {f : α → Block → Block} (l : List α) (hf : ∀ a b, OutOfReset n b → OutOfReset n (f a b)) :
    OutOfReset n (forEach l f s) := forEach_induction (P := OutOfReset n) (fun a _ b hb => hf a b hb) h

theorem OutOfReset.withStore (x : Store) : OutOfReset n { s with store := x } := h.of_fields rfl rfl rfl
theorem OutOfReset.withFw (x : Fw) : OutOfReset n { s with fw := x } := h.of_fields rfl rfl rfl
theorem OutOfReset.withRel (x : Rel) : OutOfReset n { s with rel := x } := h.of_fields rfl rfl rfl
theorem OutOfReset.withMem (x : Mem) : OutOfReset n { s with mem := x } := h.of_fields rfl rfl rfl

theorem OutOfReset.setFwBit (k : Nat) (b : Bool) : OutOfReset n (setFwBit k b s) := h.record (.setFwBit (.refl s) ..)

theorem OutOfReset.clearHalls : OutOfReset n (clearHalls s) := ⟨h.slot, h.inReset, rfl⟩

theorem OutOfReset.bootMemory : OutOfReset n (bootMemory s) := (h.withMem memReset).boot (bootMemory_frame s)

theorem OutOfReset.railsTo (k : Nat) : OutOfReset n (railsTo k s) := by
  have hrails : OnlyRails s (Machine.railsTo k s) := onlyRails_railsTo k s
  unfold OnlyRails at hrails
  exact h.of_fields (by rw [hrails]) (by rw [hrails]) (by rw [hrails])

/-! ## The firmware -/

theorem OutOfReset.loadSet (set : Nat) : OutOfReset n (loadSet set s) := h.forEach _ fun _ _ hb => hb.withFw _

theorem OutOfReset.selectFirmware : OutOfReset n (selectFirmware s).2 := by
  unfold Machine.selectFirmware
  dsimp only
  generalize hbase : Machine.setNum 0x800100 _ _ = u
  have hu : OutOfReset n u := by
    rw [← hbase]
    exact .setNum (.forEach (.withFw h _) _ fun a b hb => .setNum hb ..) ..
  split
  · exact .loadSet (.setNum (.withFw hu _) ..) _
  · split
    · exact .loadSet (.setFwBit (.setNum (.withFw hu _) ..) ..) _
    · exact .setFwBit (.setNum hu ..) ..

theorem OutOfReset.authCounters : OutOfReset n (authCounters s).2 := by
  have hlevel (b : Block) (hb : OutOfReset n b) : OutOfReset n (levelCounters b) := hb.forEach _ fun _ _ hc => hc.withFw _
  have hpair (d : Nat) : OutOfReset n (pairDevice d s) := h.withFw _
  unfold Machine.authCounters
  dsimp only
  split
  · exact h.withFw _
  split
  · exact hlevel _ h
  split
  · exact hlevel _ (hpair 1)
  split
  · exact hlevel _ (hpair 0)
  · exact h

/-! ## The halls, the links and the objects -/

theorem OutOfReset.compactFloor : OutOfReset n (compactFloor s) := .ite h (h.withRel _)

theorem OutOfReset.bootGuards : OutOfReset n (bootGuards s) := h.withRel _

theorem OutOfReset.withArc {x : Arcade} (hx : x.slot = s.arc.slot) : OutOfReset n { s with arc := x } := h.of_fields hx rfl rfl

theorem OutOfReset.resetArcade (tell : Bool) : OutOfReset n (resetArcade tell s) := by
  unfold Machine.resetArcade
  exact h.withArc rfl

theorem OutOfReset.setSec (v : Nat) : OutOfReset n (setSec v s) := h.report (reportFrame_setSec s v)

theorem OutOfReset.setStatus (key v notes alerts code : Nat) : OutOfReset n (setStatus key v notes alerts code s) :=
  h.report (.setStatus (.refl s) ..)

theorem OutOfReset.freshWords : OutOfReset n (freshWords s) := by
  unfold Machine.freshWords reportShape
  exact .setSec (.setNum (.setNum (.setNum (.setStatus (.setNum (.setNum (.setNum h ..) ..) ..) ..) ..) ..) ..) _

theorem OutOfReset.wipeDue : OutOfReset n (wipeDue s) := by
  unfold Machine.wipeDue
  refine .ite ?_ h
  have hmem := h.clearHalls.bootMemory
  unfold wipe
  dsimp only
  generalize Machine.bootMemory (Machine.clearHalls s) = u at hmem ⊢
  refine .boot ?_ (.stageDefaults (.setNum (.refl _) ..))
  exact hmem.of_fields rfl rfl rfl

theorem OutOfReset.restoreLost : OutOfReset n (restoreLost s) := by
  have hkeys : OutOfReset n (Machine.forEach s.store.lost restoreKey s) := h.forEach _ fun _ _ hb => hb.withStore _
  unfold Machine.restoreLost
  refine .ite h ?_
  dsimp only
  generalize Machine.forEach s.store.lost restoreKey s = u at hkeys ⊢
  have hnow := (hkeys.withStore { u.store with lost := [] }).boot (.adoptNow (.refl _))
  exact .setNum (.ite hnow (.boot hnow (.setEpoch (.refl _) _))) ..

theorem OutOfReset.bootRecord : OutOfReset n (bootRecord s) := by
  unfold Machine.bootRecord
  refine .ite ?_ h
  refine .record (h.of_fields (t := { s with pwr := { s.pwr with fatalDue := false } }) rfl rfl rfl) (.detectFatal (.refl _) ..)

end

/-! ## The links take their plan again -/

/-- Where no link is READY or UP, an unchanged plan changes links at most. -/
theorem applyPlan_links {s : Block} (h : NoneReady s) (l : Nat) :
    ∃ ls, applyPlan false l s = { s with arc := { s.arc with links := ls } } := by
  have hnot : ¬((link s l).state = 5 ∨ (link s l).state = 4) := fun e => e.elim (h l).2 (h l).1
  unfold applyPlan
  dsimp only
  rw [if_neg (c := (link s l).state = 5 ∨ (link s l).state = 4) hnot]
  split
  · exact ⟨_, rfl⟩
  split
  · split
    · exact ⟨_, rfl⟩
    · exact ⟨_, rfl⟩
  split
  · exact ⟨_, rfl⟩
  · exact ⟨_, rfl⟩

theorem OutOfReset.applyPlans {n : Nat} {s : Block} (h : OutOfReset n s) (hnone : NoneReady s) (l : List Nat) :
    OutOfReset n (Machine.forEach l (applyPlan false) s) := by
  refine (forEach_induction (P := fun t => NoneReady t ∧ OutOfReset n t) (fun a _ t ht => ⟨(applyPlan_none ht.1 a).1, ?_⟩)
    ⟨hnone, h⟩).2
  obtain ⟨ls, hls⟩ := applyPlan_links ht.1 a
  rw [hls]
  exact ht.2.of_fields rfl rfl rfl

/-! ## A boot -/

theorem outOfReset_bootHalls {n : Nat} {s : Block} (h : OutOfReset n s) : OutOfReset n (bootHalls s).2 := by
  have hselect := h.selectFirmware
  unfold bootHalls
  generalize selectFirmware s = p at hselect ⊢
  obtain ⟨ok, b⟩ := p
  dsimp only at hselect ⊢
  split
  · exact hselect
  have hclean (d : Option Dark) (x : Rel) : OutOfReset n { b with dark := d, rel := x } := hselect.of_fields rfl rfl rfl
  have hstart := (hclean none { b.rel with floorOld := [] }).bootMemory.compactFloor
  dsimp only
  generalize compactFloor _ = c at hstart ⊢
  have hhalls := hstart.clearHalls.bootGuards
  have hnone := noneReady_resetArcade false (bootGuards (clearHalls c))
  have harc := hhalls.resetArcade false
  generalize resetArcade false _ = d at hnone harc ⊢
  have hplans := harc.applyPlans hnone (List.range 18)
  generalize Machine.forEach _ _ d = e at hplans ⊢
  have hrails := (hplans.of_fields (t := { e with pwr := { e.pwr with hostRails := true, hcoreMv := 600 } }) rfl rfl rfl).railsTo 6
  generalize railsTo 6 _ = f at hrails ⊢
  have hwords : OutOfReset n (setNum 0x401000 (setFld (num (reportArcade (freshWords f)) 0x401000) 0 5 2) (reportArcade (freshWords f))) :=
    .setNum (.setStatus hrails.freshWords ..) ..
  generalize setNum 0x401000 _ _ = g at hwords ⊢
  exact .bootRecord (hwords.restoreLost.wipeDue.of_fields rfl rfl rfl)

theorem OutOfReset.loadFlash {n : Nat} {s : Block} (h : OutOfReset n s) : OutOfReset n (loadFlash s) := by
  have hstore (x : Store) := h.withStore x
  unfold Machine.loadFlash
  dsimp only
  exact .ite (.setNum (hstore _) ..) (.boot (hstore _) (.setEpoch (.refl _) _))

theorem outOfReset_coldReset (slot : Nat) (s : Block) : OutOfReset (slot % 128) (coldReset slot s) := by
  have hloaded := (cleared_shutDown false s).prog
  unfold coldReset enterDormant
  generalize shutDown false s = d at hloaded ⊢
  have hkeys : (resetKeys d).prog.loaded = false := hloaded
  generalize resetKeys d = b at hkeys ⊢
  dsimp only
  refine .setNum ?_ ..
  refine .report ?_ (reportFrame_setPwrBit ..)
  refine .setNum ?_ ..
  refine .setNum ?_ ..
  refine .withStore ?_ _
  refine .loadFlash ?_
  exact ⟨rfl, rfl, hkeys⟩

theorem outOfReset_coldBoot (slot : Nat) (s : Block) : OutOfReset (slot % 128) (coldBoot slot s) := by
  have hauth := (outOfReset_coldReset slot s).authCounters
  unfold coldBoot
  dsimp only
  generalize authCounters (coldReset slot s) = p at hauth ⊢
  obtain ⟨ok, b⟩ := p
  dsimp only at hauth ⊢
  refine .ite (hauth.setFwBit ..) (.ite (hauth.setNum ..) (outOfReset_bootHalls (hauth.setNum ..)))

/-! ## Wake and the latched bits -/

theorem testBit_latched (x : Nat) {n : Nat} (hn : Nat.testBit 0xF800 n = true) : (x &&& 0xF800).testBit n = x.testBit n := by
  rw [Nat.testBit_and, hn, Bool.and_true]

theorem beginTrans_leaves (target : Nat) (req : Nat × Nat) (s : Block) :
    (beginTrans target req s).pwr.trans = some (pstate s, target) ∧ (num (beginTrans target req s) 0x401000).testBit 5 = true ∧
    pstate (beginTrans target req s) = pstate s ∧ (beginTrans target req s).fw = s.fw := by
  have hnum : num (beginTrans target req s) 0x401000 = putBit (num s 0x401000) 5 true := num_setNum_same ..
  have hstate (x : Block) (hx : num x 0x401000 = putBit (num s 0x401000) 5 true) : pstate x = pstate s := by
    unfold pstate
    rw [hx]
    exact fld_putBit_ne true (by omega)
  have hreport : ReportFrame s (setNum 0x401000 (putBit (num s 0x401000) 5 true) (setResult 2 s)) := .setNum (.setNum (.refl s) ..) ..
  refine ⟨congrArg (fun x => some (x, target)) (hstate _ (num_setNum_same ..)), ?_, hstate _ hnum, hreport.fw⟩
  rw [hnum]
  exact testBit_putBit_same ..

theorem pstate_setTarget (target : Nat) (s : Block) : pstate (setTarget target s) = pstate s := by
  unfold pstate setTarget
  rw [num_setNum_same]
  exact fld_setFld_ne (by omega)

/-- From Dormant or Standby the way to Ready begins. -/
theorem powerGo_wakes {s : Block} (h : pstate s = 0 ∨ pstate s = 1) : (powerGo 2 (0, 0) s).pwr.trans = some (pstate s, 2) ∧
    (num (powerGo 2 (0, 0) s) 0x401000).testBit 5 = true ∧ pstate (powerGo 2 (0, 0) s) = pstate s ∧
    (powerGo 2 (0, 0) s).fw = s.fw := by
  have hstate := pstate_setTarget 2 s
  have hfw : (setTarget 2 s).fw = s.fw := (ReportFrame.setNum (.refl s) ..).fw
  have hgo : powerGo 2 (0, 0) s = beginTrans 2 (0, 0) (setTarget 2 s) := by
    unfold powerGo
    dsimp only
    rw [if_neg (by omega), if_neg (by omega)]
  rw [hgo, ← hstate, ← hfw]
  exact beginTrans_leaves ..

theorem doWake_begins {s : Block} {ns : Nat} (h : 1000 ≤ ns) (halive : alive s = true) (hwait : powerWaits s = false)
    (htrans : s.pwr.trans = none) (hfrom : (pstate s = 0 ∧ wakeOk s = true) ∨ pstate s = 1) : doWake ns s = powerGo 2 (0, 0) s := by
  unfold doWake
  rw [if_neg (by rw [halive]; simp; omega), if_neg (by rw [hwait]; exact Bool.false_ne_true), htrans]
  exact if_pos hfrom

theorem doInput_range {s : Block} {mv : Nat} (h : mv < 64000) (t : Block) (ht : t = doInput mv s) : t.pwr.inputMv = mv ∧
    t.pwr.inputOk = (decide (52000 < mv) || (s.pwr.inputOk && decide (41000 ≤ mv))) ∧
    (s.pwr.aon = false → (t.pwr.aon = decide (30000 < mv)) ∧ (30000 < mv → t.pwr.inReset = true ∧ t.clk.tick = 0)) := by
  unfold doInput at ht
  rw [if_neg (by omega)] at ht
  dsimp only at ht
  split at ht
  case isTrue hon =>
    generalize hb : ({ s with pwr := _, clk := _ } : Block) = b at ht
    have hreport : ReportFrame b t := ht ▸ .setNum (.refl b) ..
    rw [hreport.pwr, hreport.clk, ← hb]
    exact ⟨rfl, rfl, fun _ => ⟨(decide_eq_true hon.2).symm, fun _ => ⟨rfl, rfl⟩⟩⟩
  case isFalse hoff =>
    rw [ht]
    refine ⟨rfl, rfl, fun haon => ?_⟩
    have hlow : ¬ 30000 < mv := fun hmv => hoff ⟨by rw [haon]; rfl, hmv⟩
    exact ⟨haon.trans (decide_eq_false hlow).symm, fun hmv => absurd hmv hlow⟩

theorem DarkNow.all {s : Block} (h : DarkNow s) : Machine.pstate s = 0 ∧ s.pwr.rails = 0 ∧ s.mem.bytes = [] ∧ s.prog.loaded = false :=
  ⟨h.pstate, h.rails, h.bytes, h.loaded⟩

theorem testBit_crash_own (latch : Nat) (s : Block) : (num (crash latch s) 0x402000).testBit latch = true := by
  rw [(crash_leaves latch s).2.2]
  exact testBit_putBit_same ..

theorem testBit_crash_kept {latch n : Nat} (hn : Nat.testBit 0xF800 n = true) (hne : n ≠ latch) (s : Block) :
    (num (crash latch s) 0x402000).testBit n = (num s 0x402000).testBit n := by
  rw [(crash_leaves latch s).2.2, testBit_putBit_ne _ hne, testBit_latched _ hn]

/-- A trip outside reset is a crash with one more latched bit. -/
theorem trip_alive {s : Block} : DarkNow (setPwrBit 13 true (crash 12 s)) ∧
    (num (setPwrBit 13 true (crash 12 s)) 0x402000).testBit 12 = true ∧
    (num (setPwrBit 13 true (crash 12 s)) 0x402000).testBit 13 = true := by
  have hdark := (crash_leaves 12 s).1
  have hown := testBit_crash_own 12 s
  generalize crash 12 s = c at hdark hown ⊢
  refine ⟨hdark.report _ (reportFrame_setPwrBit 13 c true) (num_setPwrBit_ne 13 c (by decide) (by decide) true), ?_, ?_⟩
  · rw [num_setPwrBit_same, testBit_putBit_ne _ (by decide), hown]
  · rw [num_setPwrBit_same]
    exact testBit_putBit_same ..

/-- Settles O59: a crash is a shutdown that latches its bit; a boot ends out of reset, in the sampled slot, with no program. -/
theorem resetsAndFaultsOfPower : Obligations.ResetsAndFaultsOfPower := by
  unfold Obligations.ResetsAndFaultsOfPower
  rintro ⟨s, p⟩
  dsimp only
  refine ⟨fun ns h => ?_, fun ns h haon => ?_, fun pins haon hreset hinput => ?_, fun ns h => ?_, fun ns h halive hwait => ?_,
    fun ns h halive hwait htrans hfrom => ?_, fun mv h => ?_, fun lost haon => ?_, fun rail h => ?_, fun h => ?_,
    fun halive hpower => ?_, fun haon hreset => ?_, ?_, fun j o halive h => ?_, fun j o haon hreset h => ?_, fun j o hj ho => ?_⟩
  · exact effect_of_eq (f := doPrst ns) (if_pos (.inl h))
  · have hdo := effect_of_eq (f := doPrst ns) (s := ⟨s, p⟩) (if_neg (by rw [haon]; simp; omega))
    have hdark := darkNow_shutDown s true
    dsimp only at hdo
    generalize shutDown true s = d at hdo hdark
    exact ⟨_, hdo, rfl, ⟨hdark.pstate, hdark.rails, hdark.bytes, hdark.loaded⟩, rfl⟩
  · have hdo : exec (.coldBoot pins) ⟨s, p⟩ = .next ⟨coldBoot pins s, p⟩ :=
      effect_of_eq (f := doColdBoot pins) (if_pos (by rw [haon, hreset, hinput]; rfl))
    obtain ⟨hslot, hout, hloaded⟩ := outOfReset_coldBoot pins s
    refine ⟨hdo, ?_⟩
    generalize coldBoot pins s = c at hdo hslot hout hloaded
    exact ⟨_, hdo, rfl, hslot, hout, hloaded⟩
  · exact effect_of_eq (f := doWake ns) (if_pos (.inl h))
  · refine effect_of_eq (f := doWake ns) ((if_neg (by rw [halive]; simp; omega)).trans (if_pos hwait))
  · exact ⟨_, effect_of_eq (f := doWake ns) (doWake_begins h halive hwait htrans hfrom), rfl,
      (powerGo_wakes (hfrom.imp And.left id)).1, (powerGo_wakes (hfrom.imp And.left id)).2.1⟩
  · have hdo := effect_of_eq (f := doInput mv) (s := ⟨s, p⟩) rfl
    have hfacts := doInput_range (s := s) h _ rfl
    dsimp only at hdo
    generalize doInput mv s = t at hdo hfacts
    exact ⟨_, hdo, rfl, hfacts⟩
  · generalize hb : ({ s with pwr := { s.pwr with inputOk := false } } : Block) = b
    have hdo : exec (.brownout lost) ⟨s, p⟩ =
        .next ⟨if lost then { crash 12 b with pwr := { (crash 12 b).pwr with aon := false } } else crash 12 b, p⟩ :=
      effect_of_eq (f := doBrownout lost) ((if_neg (by rw [haon]; simp)).trans (by rw [hb]))
    have hb : b.pwr.inputOk = false ∧ b.pwr.aon = true := hb ▸ ⟨rfl, haon⟩
    obtain ⟨hdark, hkeeps, -⟩ := crash_leaves 12 b
    have hown := testBit_crash_own 12 b
    generalize crash 12 b = c at hdo hdark hkeeps hown
    refine ⟨_, hdo, rfl, ?_⟩
    have hinput := hkeeps.inputOk.trans hb.1
    cases lost with
    | false => exact ⟨hdark.all, hinput, hown, hkeeps.aon.trans hb.2⟩
    | true => exact ⟨⟨hdark.pstate, hdark.rails, hdark.bytes, hdark.loaded⟩, hinput, hown, rfl⟩
  · have hdo : exec (.railFault rail) ⟨s, p⟩ = .next ⟨crash 14 { s with pwr := { s.pwr with fatalDue := true } }, p⟩ :=
      effect_of_eq (f := doRailFault) (if_neg (by
        rintro ⟨hstate, htrans⟩
        obtain h | h := h
        · exact h hstate
        · rw [Option.isNone_iff_eq_none.mp htrans] at h
          exact Bool.false_ne_true h))
    obtain ⟨hdark, hkeeps, -⟩ := crash_leaves 14 { s with pwr := { s.pwr with fatalDue := true } }
    have hown := testBit_crash_own 14 { s with pwr := { s.pwr with fatalDue := true } }
    generalize crash 14 _ = c at hdo hdark hkeeps hown
    exact ⟨_, hdo, rfl, hdark.all, hkeeps.fatalDue, hown⟩
  · have hdo : exec .hostFault ⟨s, p⟩ = .next ⟨setPwrBit 15 true { s with pwr := { s.pwr with hostRails := false } }, p⟩ :=
      effect_of_eq (f := doHostFault) (if_pos h)
    generalize hb : ({ s with pwr := { s.pwr with hostRails := false } } : Block) = b at hdo
    have hreport := reportFrame_setPwrBit 15 b true
    have hbit := num_setPwrBit_same 15 b true
    have hstate : pstate (setPwrBit 15 true b) = pstate b :=
      congrArg (fld · 0 3) (num_setPwrBit_ne 15 b (by decide) (by decide) true)
    generalize setPwrBit 15 true b = c at hdo hreport hbit hstate
    refine ⟨_, hdo, rfl, ?_⟩
    dsimp only
    rw [hreport.pwr, hreport.mem, hbit, hstate, ← hb]
    exact ⟨rfl, testBit_putBit_same .., rfl, rfl⟩
  · generalize hb : setPwrBit 11 true { s with pwr := { s.pwr with crystal := false } } = b
    have hbit : (num b 0x402000).testBit 11 = true := by
      rw [← hb, num_setPwrBit_same]
      exact testBit_putBit_same ..
    have hcrystal : b.pwr.crystal = false := by rw [← hb, (reportFrame_setPwrBit ..).pwr]
    have hstate : pstate b = pstate s := by
      rw [← hb]
      exact congrArg (fld · 0 3) (num_setPwrBit_ne 11 _ (by decide) (by decide) true)
    have hdo : exec .clockFault ⟨s, p⟩ = .next ⟨crash 12 b, p⟩ := by
      refine effect_of_eq (f := doClockFault) ((if_neg (by rw [halive]; simp)).trans ?_)
      dsimp only
      rw [hb, if_neg (by rw [hstate]; exact hpower)]
    obtain ⟨hdark, hkeeps, -⟩ := crash_leaves 12 b
    have hown := testBit_crash_own 12 b
    have hkept := testBit_crash_kept (latch := 12) (n := 11) (by decide) (by decide) b
    generalize crash 12 b = c at hdo hdark hkeeps hown hkept
    exact ⟨_, hdo, rfl, hdark.all, hkeeps.crystal.trans hcrystal, hkept.trans hbit, hown⟩
  · exact effect_of_eq (f := doClockFault) ((if_pos (by unfold alive; rw [hreset]; simp)).trans (if_pos haon))
  · have hdo := effect_of_eq (f := doCrystal) (s := ⟨s, p⟩) rfl
    have hreport := reportFrame_setPwrBit 11 { s with pwr := { s.pwr with crystal := true } } false
    have hbit := num_setPwrBit_same 11 { s with pwr := { s.pwr with crystal := true } } false
    unfold doCrystal at hdo
    dsimp only at hdo
    generalize setPwrBit 11 false _ = c at hdo hreport hbit
    refine ⟨_, hdo, rfl, ?_⟩
    dsimp only
    rw [hreport.pwr, hbit]
    exact ⟨rfl, testBit_putBit_same ..⟩
  · have hdo : exec (.thermalTrip j o) ⟨s, p⟩ = .next ⟨setPwrBit 13 true (crash 12
        { s with pwr := { s.pwr with hotJunction := if j < 850 then 0 else j } }), p⟩ := by
      unfold alive at halive
      rw [Bool.and_eq_true, Bool.not_eq_true'] at halive
      refine effect_of_eq (f := doTrip j o) ((if_neg ?_).trans (if_neg ?_))
      · rw [halive.1]
        simp
        omega
      · show ¬ s.pwr.inReset = true
        rw [halive.2]
        exact Bool.false_ne_true
    have htrip := trip_alive (s := { s with pwr := { s.pwr with hotJunction := if j < 850 then 0 else j } })
    generalize setPwrBit 13 true _ = c at hdo htrip
    exact ⟨_, hdo, rfl, htrip.1.all, htrip.2⟩
  · generalize hb : ({ s with pwr := { s.pwr with hotJunction := if j < 850 then 0 else j } } : Block) = b
    have hdo : exec (.thermalTrip j o) ⟨s, p⟩ =
        .next ⟨setNum 0x402000 (putBit (putBit (num b 0x402000) 12 true) 13 true) b, p⟩ := by
      refine effect_of_eq (f := doTrip j o) ((if_neg ?_).trans ?_)
      · rw [haon]
        simp
        omega
      · dsimp only
        refine (if_pos hreset).trans ?_
        rw [hb]
    have hreport : ReportFrame b (setNum 0x402000 (putBit (putBit (num b 0x402000) 12 true) 13 true) b) := .setNum (.refl b) ..
    have hbits := num_setNum_same 0x402000 (putBit (putBit (num b 0x402000) 12 true) 13 true) b
    generalize setNum 0x402000 _ b = c at hdo hreport hbits
    refine ⟨_, hdo, rfl, ?_⟩
    dsimp only
    rw [hreport.pwr, hbits, testBit_putBit_ne _ (by decide), testBit_putBit_same, testBit_putBit_same, ← hb]
    exact ⟨hreset, rfl, rfl⟩
  · exact effect_of_eq (f := doTrip j o) (if_pos (.inr ⟨hj, ho⟩))

end Sys2Proof.Machine
end

section
/-! SUPPORT. Emergencies, clock steps and the ends of power transitions (R457, R477, R478); O60. -/

namespace Sys2Proof.Machine

/-! ## The emergency bits -/

theorem and_emergency (x : Nat) : x &&& 0x7C = 4 * (x / 4 % 32) := by
  refine Nat.eq_of_testBit_eq fun i => ?_
  rw [Nat.testBit_and, show (0x7C : Nat) = 2 ^ 2 * (2 ^ 5 - 1) from rfl, show 4 * (x / 4 % 32) = 2 ^ 2 * (x / 2 ^ 2 % 2 ^ 5) from rfl,
    Nat.testBit_two_pow_mul, Nat.testBit_two_pow_mul, Nat.testBit_two_pow_sub_one, Nat.testBit_mod_two_pow, Nat.testBit_div_two_pow]
  by_cases h : 2 ≤ i
  · rw [Nat.sub_add_cancel h]
    simp [h, Bool.and_comm]
  · simp [h]

theorem emergencies_replaced {x b : Nat} (hb : b &&& 0x7C = b) : (x - (x &&& 0x7C) + b) &&& 0x7C = b := by
  rw [and_emergency] at hb ⊢
  rw [and_emergency]
  omega

theorem emergencies_idem (s : Block) : emergencies s &&& 0x7C = emergencies s := by
  unfold emergencies
  rw [Nat.and_assoc, Nat.and_self]

theorem emergencies_or (s : Block) {b : Nat} (hb : b &&& 0x7C = b) : (emergencies s ||| b) &&& 0x7C = emergencies s ||| b := by
  rw [Nat.and_or_distrib_right, emergencies_idem, hb]

/-- A bit that rises is left when the common bits are taken away. -/
theorem rises_of_bit {b old k : Nat} (hb : b.testBit k = true) (hold : old.testBit k = false) : b - (b &&& old) ≠ 0 := by
  have hle : b &&& old ≤ b := Nat.and_le_left
  have hne : b &&& old ≠ b := fun h => by
    rw [← h, Nat.testBit_and, hold, Bool.and_false] at hb
    exact Bool.false_ne_true hb
  omega

theorem emergencies_congr {s t : Block} (h : num t 0x402000 = num s 0x402000) : emergencies t = emergencies s := by
  unfold emergencies
  rw [h]

theorem emergencies_setPwrBit_zero (b : Bool) (s : Block) : emergencies (setPwrBit 0 b s) = emergencies s := by
  refine Nat.eq_of_testBit_eq fun i => ?_
  unfold emergencies
  rw [num_setPwrBit_same, Nat.testBit_and, Nat.testBit_and]
  by_cases h : i = 0
  · rw [h]
    simp
  · rw [testBit_putBit_ne _ h]

/-! ## Steps of the clock -/

section
variable {s t : Block} (h : SamePower s t)
include h

theorem SamePower.emergencies : emergencies t = emergencies s := emergencies_congr (h.num _ (by decide))

theorem SamePower.clockStep : clockStep t = clockStep s := by
  unfold Machine.clockStep
  rw [h.num _ (by decide)]

theorem SamePower.pstate : pstate t = pstate s := by
  unfold Machine.pstate
  rw [h.num _ (by decide)]

theorem SamePower.withLogs (x : Logs) : SamePower s { t with logs := x } := h.of_nums rfl rfl rfl

theorem SamePower.withRel (x : Rel) : SamePower s { t with rel := x } := h.of_nums rfl rfl rfl

theorem SamePower.detect (code loc : Nat) (inj : Bool) (tag addr : Nat) (extra : Bytes) :
    SamePower s (detect code loc inj tag addr extra t) := by
  unfold Machine.detect detectAt putEvent
  dsimp only
  refine .ite ?_ (h.withLogs _)
  split
  · exact h.bumpNum (by decide) ..
  · exact h.bumpNum (by decide) ..

theorem SamePower.deferActivation : SamePower s (deferActivation t) := by
  unfold Machine.deferActivation
  exact .ite (.setNum (.setFwBit (.withFw h _) ..) (by decide) _) h

theorem SamePower.sweepStop : SamePower s (sweepStop t) := by
  unfold Machine.sweepStop setRelBit
  exact .ite (.setStatus (.withRel h _) (by decide) ..) h

theorem SamePower.checkArmed : SamePower s (checkArmed t) := by
  unfold Machine.checkArmed
  exact .ite (.setNum h (by decide) _) h

end

/-- The clock of a module whose halls run takes its next lower step, in Curbed; the emergencies stay. -/
theorem stepDown_leaves (inj : Bool) (s : Block) : emergencies (stepDown inj s) = emergencies s ∧ (stepDown inj s).pwr = s.pwr ∧
    (halls s = true → clockStep s < 2 → clockStep (stepDown inj s) = clockStep s + 1 ∧ pstate (stepDown inj s) = 4) := by
  unfold stepDown
  split
  case isTrue hstay =>
    refine ⟨rfl, rfl, fun hhalls hstep => ?_⟩
    rw [hhalls] at hstay
    simp at hstay
    omega
  case isFalse =>
    generalize hc : setNum 0x401000 (setFld (setFld (num s 0x401000) 3 2 (clockStep s + 1)) 0 3 4) s = c
    have hnum : num c 0x401000 = setFld (setFld (num s 0x401000) 3 2 (clockStep s + 1)) 0 3 4 := by
      rw [← hc]
      exact num_setNum_same ..
    have hother : num c 0x402000 = num s 0x402000 := by
      rw [← hc]
      exact num_setNum_ne _ _ _ _ (by decide)
    have hreport : ReportFrame s c := hc ▸ .setNum (.refl s) ..
    have hbit := num_setPwrBit_ne 0 c (k := 0x401000) (by decide) (by decide) true
    have hemer := emergencies_setPwrBit_zero true c
    have hpwr := (reportFrame_setPwrBit 0 c true).pwr
    dsimp only
    generalize setPwrBit 0 true c = d at hbit hemer hpwr ⊢
    have hrest (w : Nat) : SamePower d (checkArmed (sweepStop (alert 0xC w (deferActivation (detect 0x18 (domLoc 10) inj 0 0 [] d))))) :=
      .checkArmed (.sweepStop (.alert (.deferActivation (.detect (.refl d) ..)) ..))
    have hlast := hrest (num (deferActivation (detect 0x18 (domLoc 10) inj 0 0 [] d)) 0x402000)
    generalize checkArmed _ = e at hlast
    refine ⟨?_, ?_, fun _ hstep => ⟨?_, ?_⟩⟩
    · rw [hlast.emergencies, hemer, emergencies_congr hother]
    · rw [hlast.pwr, hpwr, hreport.pwr]
    · rw [hlast.clockStep]
      show fld (num d 0x401000) 3 2 = clockStep s + 1
      rw [hbit, hnum, fld_setFld_ne (by omega), fld_setFld_same]
      exact Nat.mod_eq_of_lt (by omega)
    · rw [hlast.pstate]
      unfold pstate
      rw [hbit, hnum]
      exact fld_setFld_same ..

/-- Setting the emergencies sets them, and steps the clock where one rises. -/
theorem setEmergencies_leaves (inj : Bool) {bits : Nat} (hbits : bits &&& 0x7C = bits) (s : Block) :
    emergencies (setEmergencies inj bits s) = bits ∧ (setEmergencies inj bits s).pwr = s.pwr ∧
    (bits - (bits &&& emergencies s) ≠ 0 → s.pwr.trans ≠ some (1, 2) → halls s = true → clockStep s < 2 →
      clockStep (setEmergencies inj bits s) = clockStep s + 1 ∧ pstate (setEmergencies inj bits s) = 4) := by
  unfold setEmergencies
  dsimp only
  generalize hb : setPwrBits (num s 0x402000 - emergencies s + bits) s = b
  have hbit : num b 0x402000 = num s 0x402000 - emergencies s + bits := by
    rw [← hb]
    exact num_setStatus_same _ (by decide) ..
  have hother : num b 0x401000 = num s 0x401000 := by
    rw [← hb]
    exact num_setStatus_ne _ (by decide) (by decide) ..
  have hpwr : b.pwr = s.pwr := by
    rw [← hb]
    exact (ReportFrame.setStatus (.refl s) ..).pwr
  have hemer : emergencies b = bits := by
    unfold emergencies at hbit ⊢
    rw [hbit]
    exact emergencies_replaced hbits
  have hclock : clockStep b = clockStep s := congrArg (fld · 3 2) hother
  have hstate : pstate b = pstate s := congrArg (fld · 0 3) hother
  split
  case isTrue =>
    obtain ⟨hsame, hpwr', hsteps⟩ := stepDown_leaves inj b
    refine ⟨hsame.trans hemer, hpwr'.trans hpwr, fun _ _ hhalls hstep => ?_⟩
    rw [hclock] at hsteps
    exact hsteps (by unfold halls at hhalls ⊢; rw [hstate]; exact hhalls) hstep
  case isFalse hno =>
    exact ⟨hemer, hpwr, fun hrise htrans => absurd ⟨hrise, by rw [hpwr]; exact htrans⟩ hno⟩

/-! ## The power core: sensors and steps up -/

theorem readingBits_emergency (s : Block) (r : SensorF) : readingBits s r &&& 0x7C = readingBits s r := by
  have hle (b : Bool) : b2n b ≤ 1 := by cases b <;> decide
  rw [and_emergency]
  unfold readingBits
  have h2 := hle (decide (1000 * num s 0x410002 < r.inputMa))
  have h3 := hle (decide (num s 0x410001 < r.avgPowerW))
  have h4 := hle (decide (10 * (num s 0x410003 : Int) < coreJunction s r))
  have h5 := hle (decide (10 * (num s 0x410004 : Int) < inletOf r))
  have h6 := hle (decide (r.inputMv < num s 0x410005))
  omega

/-- Two states agree on what arms an injection and on every number. -/
structure SameNums (s t : Block) : Prop where
  nums : t.store.nums = s.store.nums
  slot : t.arc.slot = s.arc.slot
  inject : t.rel.inject = s.rel.inject

section
variable {s t : Block} (h : SameNums s t)
include h

theorem SameNums.num (k : Nat) : num t k = num s k := by
  unfold Machine.num
  rw [h.nums, h.slot]

theorem SameNums.injects (code loc : Nat) : injects t code loc = injects s code loc := by
  unfold Machine.injects armed
  rw [h.num, h.inject]

theorem SameNums.readingBits (hpolls : t.pwr.offsetPolls = s.pwr.offsetPolls) (r : SensorF) : readingBits t r = readingBits s r := by
  unfold Machine.readingBits coreJunction
  rw [h.num, h.num, h.num, h.num, h.num, hpolls]

end

theorem sameNums_noteMirror (key old : Nat) (s : Block) :
    SameNums s (noteMirror key old s) ∧ (noteMirror key old s).pwr = s.pwr := by
  unfold noteMirror
  split
  · exact ⟨⟨rfl, rfl, rfl⟩, rfl⟩
  · exact ⟨⟨rfl, rfl, rfl⟩, rfl⟩

theorem pollInject_none {s : Block} (h : injects s 0x18 (domLoc 10) = false) : pollInject s = s := by
  unfold pollInject
  rw [inject_none h]
  rfl

/-- A poll that no injection meets sets the emergencies of its readings. -/
theorem doSensorPoll_reads {r : SensorF} {s : Block} (hstate : pstate s ≠ 0) (hcore : procRuns s 1 = true)
    (hinj : injects s 0x18 (domLoc 10) = false) (hpolls : s.pwr.offsetPolls = 0) : ∃ b inj, doSensorPoll r s =
      setEmergencies inj (readingBits s r) b ∧ b.pwr.readings = r ∧ b.pwr.inputMv = r.inputMv ∧ b.pwr.trans = s.pwr.trans ∧
      SameNums s b := by
  generalize hu : ({ s with pwr := { s.pwr with
    hotJunction := if s.pwr.hotJunction = 0 ∨ maxJunction r < 850 then 0 else maxJunction r, inputMv := r.inputMv } } : Block) = u
  have hsu : SameNums s u ∧ u.pwr.inputMv = r.inputMv ∧ u.pwr.trans = s.pwr.trans ∧ u.pwr.offsetPolls = 0 := by
    rw [← hu]
    exact ⟨⟨rfl, rfl, rfl⟩, rfl, rfl, hpolls⟩
  have hguard : ¬ (pstate u = 0 ∨ (!procRuns u 1) = true) := by
    rw [← hu]
    rintro (h | h)
    · exact hstate h
    · rw [Bool.not_eq_true'] at h
      exact Bool.false_ne_true (h.symm.trans hcore)
  obtain ⟨hnote, hnotePwr⟩ := sameNums_noteMirror 0x403003 (readNum u 0x403003) u
  have hpoll : doSensorPoll r s = (fun m => setEmergencies (injectedHeat m) (readingBits m r)
      { m with pwr := { m.pwr with offsetPolls := m.pwr.offsetPolls - 1 } })
      (pollInject { noteMirror 0x403003 (readNum u 0x403003) u with
        pwr := { (noteMirror 0x403003 (readNum u 0x403003) u).pwr with readings := r } }) := by
    unfold doSensorPoll
    dsimp only
    rw [hu]
    exact if_neg hguard
  generalize noteMirror 0x403003 (readNum u 0x403003) u = n at hnote hnotePwr hpoll
  generalize hm : ({ n with pwr := { n.pwr with readings := r } } : Block) = m at hpoll
  have hsm : SameNums s m := by
    rw [← hm]
    exact ⟨hnote.nums.trans hsu.1.nums, hnote.slot.trans hsu.1.slot, hnote.inject.trans hsu.1.inject⟩
  have hmPwr : m.pwr = { u.pwr with readings := r } := by rw [← hm, ← hnotePwr]
  have hmPolls : m.pwr.offsetPolls = 0 := by
    rw [hmPwr]
    exact hsu.2.2.2
  rw [pollInject_none ((hsm.injects ..).trans hinj)] at hpoll
  dsimp only at hpoll
  rw [hsm.readingBits (hmPolls.trans hpolls.symm)] at hpoll
  refine ⟨_, _, hpoll, ?_, ?_, ?_, hsm.nums, hsm.slot, hsm.inject⟩
  · rw [hmPwr]
  · rw [hmPwr]
    exact hsu.2.1
  · rw [hmPwr]
    exact hsu.2.2.1

/-- The end of Curbed: the clock runs at full speed, in another state. -/
theorem leaveCurbed_leaves {s : Block} (hdefer : s.fw.deferred = false) :
    clockStep (leaveCurbed s) = clockStep s ∧ pstate (leaveCurbed s) ≠ 4 := by
  generalize hc : (if stepRunning s then 3 else 2) = c
  have hmode : c < 4 := by
    rw [← hc]
    split <;> decide
  have hpst : num (setPstate c s) 0x401000 = setFld (num s 0x401000) 0 3 c := num_setNum_same ..
  have hbit := num_setPwrBit_ne 0 (setPstate c s) (k := 0x401000) (by decide) (by decide) false
  have hfw : (setPwrBit 0 false (setPstate c s)).fw.deferred = false := by
    rw [(reportFrame_setPwrBit ..).fw, show (setPstate c s).fw = s.fw from (ReportFrame.setNum (.refl s) ..).fw, hdefer]
  have hcurbed : leaveCurbed s = commitIdle (undefer (setPwrBit 0 false (setPstate c s))) := by
    unfold leaveCurbed
    rw [hc]
  rw [hcurbed]
  generalize setPwrBit 0 false (setPstate c s) = b at hbit hfw ⊢
  have hlast : SamePower b (commitIdle (undefer b)) := by
    rw [show undefer b = b from if_neg (by rw [hfw]; exact Bool.false_ne_true)]
    exact .commitIdle (.refl b)
  rw [hlast.clockStep, hlast.pstate]
  unfold clockStep pstate
  rw [hbit, hpst, fld_setFld_ne (by omega), fld_setFld_same]
  exact ⟨rfl, by rw [Nat.mod_eq_of_lt (by omega)]; omega⟩

theorem doStepUp_leaves {s : Block} (hstate : pstate s = 4) (hstep : clockStep s ≠ 0) (hcore : procRuns s 1 = true)
    (hclear : marginsClear s = true) (hdefer : s.fw.deferred = false) :
    clockStep (doStepUp s) = clockStep s - 1 ∧ (pstate (doStepUp s) = 4 ↔ 1 < clockStep s) := by
  generalize hb : setNum 0x401000 (setFld (num s 0x401000) 3 2 (clockStep s - 1)) s = b
  have hnum : num b 0x401000 = setFld (num s 0x401000) 3 2 (clockStep s - 1) := by
    rw [← hb]
    exact num_setNum_same ..
  have hfw : b.fw = s.fw := hb ▸ (ReportFrame.setNum (.refl s) ..).fw
  have hup : doStepUp s = (fun t => if clockStep s - 1 = 0 then leaveCurbed t else t)
      (alert 0xC (num (detect 0x18 (domLoc 10) false 0 0 [] b) 0x402000) (detect 0x18 (domLoc 10) false 0 0 [] b)) := by
    unfold doStepUp
    rw [if_neg (by rw [hcore, hclear]; simp [hstate, hstep])]
    dsimp only
    rw [hb]
  have hreport (w : Nat) : ReportFrame b (alert 0xC w (detect 0x18 (domLoc 10) false 0 0 [] b)) := .alert (.detect (.refl b) ..) ..
  have hpower (w : Nat) : SamePower b (alert 0xC w (detect 0x18 (domLoc 10) false 0 0 [] b)) := .alert (.detect (.refl b) ..) ..
  generalize num (detect 0x18 (domLoc 10) false 0 0 [] b) 0x402000 = w at hup
  have hreport := hreport w
  have hpower := hpower w
  generalize alert 0xC w _ = d at hup hreport hpower
  have hlow : clockStep s < 4 := Nat.mod_lt _ (by decide)
  have hclock : clockStep d = clockStep s - 1 := by
    rw [hpower.clockStep]
    show fld (num b 0x401000) 3 2 = clockStep s - 1
    rw [hnum, fld_setFld_same]
    exact Nat.mod_eq_of_lt (by omega)
  have hcurbed : pstate d = 4 := by
    rw [hpower.pstate]
    unfold pstate at hstate ⊢
    rw [hnum, fld_setFld_ne (by omega), hstate]
  rw [hup]
  dsimp only
  split
  case isTrue hzero =>
    obtain ⟨hsame, hleft⟩ := leaveCurbed_leaves (s := d) (by rw [hreport.fw, hfw, hdefer])
    exact ⟨hsame.trans hclock, fun h => absurd h hleft, fun h => by omega⟩
  case isFalse hzero => exact ⟨hclock, fun _ => by omega, fun _ => hcurbed⟩

/-! ## The ends of transitions -/

theorem fw_transEnded (code : Nat) (s : Block) : (transEnded code s).fw = s.fw := by
  have hreport : ReportFrame s (setNum 0x401000 (putBit (num s 0x401000) 5 false) (setResult code s)) :=
    .setNum (.setNum (.refl s) ..) ..
  exact hreport.fw

theorem fw_endTrans (code : Nat) (s : Block) : (endTrans code s).fw = s.fw := by
  have hended := fw_transEnded code s
  rw [endTrans_eq]
  generalize transEnded code s = t at hended ⊢
  split
  · exact hended
  · rw [(reportFrame_longDone ..).fw, (ReportFrame.setNum (.refl t) ..).fw, hended]

theorem num_endTrans_asked {code : Nat} {s : Block} (h : s.pwr.transReq.2 ≠ 0) : num (endTrans code s) 0x607300 = code := by
  rw [endTrans_eq, if_neg h, num_longDone]
  exact num_setNum_same ..

theorem redoAll_none {s : Block} (h : s.fw.waiting = []) : redoAll s = { s with fw := { s.fw with waiting := [] } } := by
  unfold redoAll
  rw [h]
  rfl

theorem linksRest_keep (l : List Nat) (s : Block) : (forEach l (fun l s => modLink l linkRest s) s).fw = s.fw ∧
    (forEach l (fun l s => modLink l linkRest s) s).pwr = s.pwr :=
  ⟨forEach_proj (f := fun l s => modLink l linkRest s) Block.fw (fun _ _ _ => rfl) s,
    forEach_proj (f := fun l s => modLink l linkRest s) Block.pwr (fun _ _ _ => rfl) s⟩

/-- What an entry into Standby leaves. -/
theorem enterStandby_leaves (s : Block) : pstate (enterStandby s) = 1 ∧ (enterStandby s).fw = s.fw ∧
    (enterStandby s).pwr.startAfter = s.pwr.startAfter ∧ (enterStandby s).pwr.transReq = s.pwr.transReq := by
  have hlinks := linksRest_keep (List.range 18) s
  unfold enterStandby
  generalize forEach (List.range 18) (fun l s => modLink l linkRest s) s = u at hlinks ⊢
  dsimp only
  generalize hv : ({ u with portA := _, portB := _, gals := _, arc := _, pwr := _ } : Block) = v
  have hvFw : v.fw = u.fw := by rw [← hv]
  have hvPwr : v.pwr = { u.pwr with offsetPolls := 0 } := by rw [← hv]
  clear hv
  have hrails : OnlyRails v (railsTo 4 v) := onlyRails_railsTo 4 v
  unfold OnlyRails at hrails
  generalize railsTo 4 v = w at hrails ⊢
  have hwFw : w.fw = v.fw := by rw [hrails]
  have hwPwr : w.pwr.startAfter = v.pwr.startAfter ∧ w.pwr.transReq = v.pwr.transReq := by
    rw [hrails]
    exact ⟨rfl, rfl⟩
  have hx : ReportFrame w (setNum 0x402000 (putBit (num w 0x402000) 0 false) w) := .setNum (.refl w) ..
  generalize setNum 0x402000 _ w = x at hx ⊢
  have hy : ReportFrame x (setNum 0x401000 (setFld (num x 0x401000) 0 5 1) x) := .setNum (.refl x) ..
  have hyNum := num_setNum_same 0x401000 (setFld (num x 0x401000) 0 5 1) x
  generalize setNum 0x401000 _ x = y at hy hyNum ⊢
  have hz : SamePower y (checkArmed (reportArcade y)) := .checkArmed (.setStatus (.refl y) (by decide) ..)
  have hzFw : (checkArmed (reportArcade y)).fw = y.fw := by
    unfold checkArmed
    split
    · exact (ReportFrame.setNum (.setStatus (.refl y) ..) ..).fw
    · exact (ReportFrame.setStatus (.refl y) ..).fw
  generalize checkArmed (reportArcade y) = z at hz hzFw ⊢
  refine ⟨?_, ?_, ?_, ?_⟩
  · rw [hz.pstate]
    unfold pstate
    rw [hyNum]
    exact fld_setFld_start (by omega)
  · rw [hzFw, hy.fw, hx.fw, hwFw, hvFw, hlinks.1]
  · rw [hz.pwr, hy.pwr, hx.pwr, hwPwr.1, hvPwr, ← hlinks.2]
  · rw [hz.pwr, hy.pwr, hx.pwr, hwPwr.2, hvPwr, ← hlinks.2]

/-- What the end of a transition to Standby leaves, with no command held. -/
theorem restDone_leaves {s : Block} (hwait : s.fw.waiting = []) :
    (s.pwr.startAfter = none → pstate (redoAll (restDone s)) = 1 ∧ (redoAll (restDone s)).pwr.trans = none ∧
      (s.pwr.transReq.2 ≠ 0 → num (redoAll (restDone s)) 0x607300 = 0)) ∧
    (s.pwr.startAfter ≠ none → pstate (redoAll (restDone s)) = 1 ∧ (redoAll (restDone s)).pwr.trans = some (1, 2)) := by
  obtain ⟨hstate, hfw, hstart, hreq⟩ := enterStandby_leaves s
  unfold restDone
  generalize enterStandby s = b at hstate hfw hstart hreq ⊢
  have hends := transEnds_endTrans b 0
  have hendFw := fw_endTrans 0 b
  have hasked := num_endTrans_asked (code := 0) (s := b)
  have hendState : pstate (endTrans 0 b) = 1 :=
    ((congrArg (fld · 0 3) hends.state).trans (fld_putBit_ne false (by omega))).trans hstate
  generalize endTrans 0 b = e at hends hendFw hasked hendState ⊢
  dsimp only
  have heStart : e.pwr.startAfter = s.pwr.startAfter := by rw [hends.pwr, ← hstart]
  refine ⟨fun hnone => ?_, fun hsome => ?_⟩
  · rw [heStart, hnone, if_neg (by simp), redoAll_none (by rw [hendFw, hfw, hwait])]
    refine ⟨hendState, ?_, fun h => hasked (by rw [hreq]; exact h)⟩
    show e.pwr.trans = none
    rw [hends.pwr]
  · rw [heStart, if_pos (Option.isSome_iff_ne_none.mpr hsome)]
    obtain ⟨hgoTrans, -, hgoState, hgoFw⟩ := powerGo_wakes (.inr hendState)
    rw [hendState] at hgoTrans hgoState
    generalize powerGo 2 (0, 0) e = g at hgoState hgoTrans hgoFw ⊢
    rw [redoAll_none (by rw [hgoFw, hendFw, hfw, hwait])]
    exact ⟨hgoState, hgoTrans⟩

theorem forEach_nil {α σ : Type} (f : α → σ → σ) (s : σ) : forEach [] f s = s := rfl

theorem sleepDone_leaves {s : Block} (hwait : s.fw.waiting = []) (hwake : s.pwr.wakeAfter = false) :
    pstate (sleepDone s) = 0 ∧ (sleepDone s).pwr.trans = none := by
  generalize hb : ({ s with pwr := { s.pwr with wakeAfter := false } } : Block) = b
  have hsleep : sleepDone s = endTrans 0 (enterDormant b) := by
    unfold sleepDone
    rw [hwait, hwake]
    simp only [Bool.false_and, Bool.false_eq_true, if_false]
    rw [hb]
    exact forEach_nil ..
  have hdark := darkNow_shutDown b false
  rw [hsleep]
  unfold enterDormant
  generalize shutDown false b = d at hdark ⊢
  have hends := transEnds_endTrans d 0
  refine ⟨(hdark.transEnds _ hends).pstate, ?_⟩
  rw [hends.pwr]

theorem doTransDone_ends {s : Block} {src target : Nat} (htrans : s.pwr.trans = some (src, target))
    (hcore : pstate s = 0 ∨ procRuns s 1 = true) : doTransDone s = if target = 0 then sleepDone s
      else if target = 1 then redoAll (restDone s)
      else if src = 0 then redoAll (wakeDone s) else redoAll (leaveStandby s) := by
  unfold doTransDone
  rw [htrans]
  dsimp only
  rw [if_neg (by
    rintro ⟨hstate, hstop⟩
    obtain h | h := hcore
    · exact hstate h
    · rw [h] at hstop
      exact Bool.false_ne_true hstop)]
  by_cases h1 : target = 1
  · rw [if_pos h1, if_pos h1]
  · rw [if_neg h1, if_neg h1]
    by_cases hsrc : src = 0
    · rw [if_pos hsrc, if_pos hsrc]
    · rw [if_neg hsrc, if_neg hsrc]

/-- Settles O60: by what a step of the clock, the setting of the emergencies and the end of a transition leave. -/
theorem emergenciesClockStepsAndTransitions : Obligations.EmergenciesClockStepsAndTransitions := by
  unfold Obligations.EmergenciesClockStepsAndTransitions
  rintro ⟨s, p⟩
  dsimp only
  have hlimit {bits : Nat} (hbits : bits &&& 0x7C = bits) (k : Nat) (hk : bits.testBit k = true) :
      emergencies (setEmergencies false (emergencies s ||| bits) s) = emergencies s ||| bits ∧
        ((num s 0x402000).testBit k = false → s.pwr.trans ≠ some (1, 2) → halls s = true → clockStep s < 2 →
          clockStep (setEmergencies false (emergencies s ||| bits) s) = clockStep s + 1 ∧
            pstate (setEmergencies false (emergencies s ||| bits) s) = 4) := by
    obtain ⟨hset, -, hsteps⟩ := setEmergencies_leaves false (emergencies_or s hbits) s
    refine ⟨hset, fun hclear => hsteps (rises_of_bit (k := k) ?_ ?_)⟩
    · rw [Nat.testBit_or, hk, Bool.or_true]
    · unfold emergencies
      rw [Nat.testBit_and, hclear, Bool.false_and]
  refine ⟨fun amps hstate => ⟨fun h => ?_, fun h => ?_⟩, fun sensor temp hstate => ⟨fun h => ?_, fun h => ?_⟩,
    fun r hstate hcore hinj hpolls => ?_, fun hstate hstep he => ?_, fun hstate hstep hcore hclear hdefer => ?_,
    fun src target htrans hcore => ⟨?_, fun htarget hwait hwake => ?_, fun htarget hwait => ⟨fun hstart => ?_, fun hstart => ?_⟩⟩,
    fun mv => ?_, rfl⟩
  · have hdo := effect_of_eq (f := doECurrent amps) (s := ⟨s, p⟩) (if_neg (by dsimp only; omega))
    obtain ⟨hset, hsteps⟩ := hlimit (bits := 4) (by decide) 2 (by decide)
    generalize setEmergencies false (emergencies s ||| 4) s = t at hdo hset hsteps
    exact ⟨_, hdo, rfl, hset, hsteps⟩
  · exact effect_of_eq (f := doECurrent amps) (if_pos (.inr h))
  · have hdo := effect_of_eq (f := doEJunction temp) (s := ⟨s, p⟩) (if_neg (by dsimp only; omega))
    obtain ⟨hset, hsteps⟩ := hlimit (bits := 16) (by decide) 4 (by decide)
    generalize setEmergencies false (emergencies s ||| 16) s = t at hdo hset hsteps
    exact ⟨_, hdo, rfl, hset, hsteps⟩
  · exact effect_of_eq (f := doEJunction temp) (if_pos (.inr h))
  · obtain ⟨b, inj, hdo, hread, hinput, htrans, hnums⟩ := doSensorPoll_reads (r := r) hstate hcore hinj hpolls
    have hdo := effect_of_eq (f := doSensorPoll r) (s := ⟨s, p⟩) hdo
    obtain ⟨hset, hpwr, hsteps⟩ := setEmergencies_leaves inj (readingBits_emergency s r) b
    have hhalls : halls b = halls s := by unfold halls pstate; rw [hnums.num]
    have hclock : clockStep b = clockStep s := by unfold clockStep; rw [hnums.num]
    rw [htrans, hhalls, hclock, emergencies_congr (hnums.num _)] at hsteps
    generalize setEmergencies inj (readingBits s r) b = t at hdo hset hpwr hsteps
    refine ⟨_, hdo, rfl, hset, ?_, ?_, fun hrise => ?_⟩
    · exact (congrArg Power.readings hpwr).trans hread
    · exact (congrArg Power.inputMv hpwr).trans hinput
    · obtain ⟨k, hk, hold⟩ := hrise
      exact hsteps (rises_of_bit hk hold)
  · have hdo := effect_of_eq (f := doStepTimer) (s := ⟨s, p⟩) (if_pos ⟨hstate, he⟩)
    generalize (_ && injectedHeat s) = inj at hdo
    obtain ⟨-, -, hsteps⟩ := stepDown_leaves inj s
    generalize stepDown inj s = t at hdo hsteps
    exact ⟨_, hdo, rfl, hsteps (by unfold halls; rw [hstate]; rfl) hstep⟩
  · have hdo := effect_of_eq (f := doStepUp) (s := ⟨s, p⟩) rfl
    have hup := doStepUp_leaves hstate hstep hcore hclear hdefer
    dsimp only at hdo
    generalize doStepUp s = t at hdo hup
    exact ⟨_, hdo, rfl, hup⟩
  · exact effect_of_eq (f := doTransDone) (doTransDone_ends htrans hcore)
  · rw [if_pos htarget]
    exact sleepDone_leaves hwait hwake
  · rw [if_neg (by omega), if_pos htarget]
    exact (restDone_leaves hwait).1 hstart
  · rw [if_neg (by omega), if_pos htarget]
    exact (restDone_leaves hwait).2 hstart
  · refine effect_of_eq (f := doHostPower mv) ?_
    unfold doHostPower
    by_cases h : procRuns s 1 = true ∧ s.pwr.hostRails = true ∧ 600 ≤ mv ∧ mv ≤ 1100 ∧ mv % 5 = 0
    · rw [if_pos h, if_pos (by simpa [and_assoc] using h)]
    · rw [if_neg h, if_neg (by simpa [and_assoc] using h)]

end Sys2Proof.Machine
end

section
/-! SUPPORT. The portico: how a frame arrives and is served, and segmented transfers (R415 to R418); O56. -/

namespace Sys2Proof.Machine

/-! ## Frames -/

section
variable {f : FrameF} {s : Block} {p : Block → Served × Block}

theorem arrive_reset (h : alive s = false) : arrive f s = s := if_pos (by rw [h]; rfl)

theorem arrive_bad (h : alive s = true) (hbad : f.etherType ≠ 0x88B5 ∨ f.tagged = true ∨ f.fcsOk = false) :
    arrive f s = bumpNum 0x340104 32 1 s := by
  have hgood : frameGood f = false := by
    unfold frameGood
    obtain h | h | h := hbad
    · rw [beq_false_of_ne h, Bool.false_and, Bool.false_and]
    · rw [h, Bool.not_true, Bool.and_false, Bool.false_and]
    · rw [h, Bool.and_false]
  unfold arrive
  rw [if_neg (by rw [h]; simp), if_pos (by rw [hgood]; rfl)]

section
variable (h : alive s = true) (hether : f.etherType = 0x88B5) (htag : f.tagged = false) (hfcs : f.fcsOk = true)
include h hether htag hfcs

theorem arrive_good : arrive f s = if !(frameMine f) then s
    else if f.waits then queueFrame f (bumpNum 0x340101 32 1 (plcaHear s))
    else serveSvc f (serveQueue (bumpNum 0x340101 32 1 (plcaHear s))) := by
  have hgood : frameGood f = true := by
    unfold frameGood
    rw [hether, htag, hfcs]
    rfl
  unfold arrive
  rw [if_neg (by rw [h]; simp), if_neg (by rw [hgood]; simp)]

theorem arrive_other (hmac : f.dst ≠ Config.macAddress) (hall : f.dst ≠ 2 ^ 48 - 1) : arrive f s = s := by
  rw [arrive_good h hether htag hfcs]
  refine if_pos ?_
  unfold frameMine
  rw [beq_false_of_ne hmac, beq_false_of_ne hall]
  rfl

theorem arrive_mine (hmine : f.dst = Config.macAddress ∨ f.dst = 2 ^ 48 - 1) : arrive f s =
    if f.waits then queueFrame f (bumpNum 0x340101 32 1 (plcaHear s))
    else serveSvc f (serveQueue (bumpNum 0x340101 32 1 (plcaHear s))) := by
  rw [arrive_good h hether htag hfcs]
  refine if_neg ?_
  unfold frameMine
  obtain h | h := hmine
  · rw [beq_iff_eq.mpr h]
    simp
  · rw [beq_iff_eq.mpr h]
    simp

end

theorem serveFrame_kept {o : OutFrame} (h : kept s f.src f.seq = some o) : serveFrame f p s = sendFrame o s := by
  unfold serveFrame
  rw [h]

theorem serveFrame_unanswered (h : kept s f.src f.seq = none)
    (hno : porticoAnswers s (if f.svc = 8 then 0x1F00 else f.index) = false) : serveFrame f p s = s := by
  unfold serveFrame
  rw [h]
  exact if_pos (by rw [show svcDigest = 8 from rfl, hno]; rfl)

theorem serveFrame_new (h : kept s f.src f.seq = none)
    (hyes : porticoAnswers s (if f.svc = 8 then 0x1F00 else f.index) = true) : serveFrame f p s =
    (fun r => sendFrame (respFrame f.svc f r.1) (keepFrame f.src f.seq (respFrame f.svc f r.1) r.2))
      (if f.ver ≠ 1 then (servedStatus 2 f, s) else if 1024 < f.len then (servedStatus 4 f, s) else p s) := by
  unfold serveFrame
  rw [h]
  exact if_neg (by rw [show svcDigest = 8 from rfl, hyes]; simp)

theorem serveSvc_notify (h : f.svc = 7) : serveSvc f s = s := by
  simp only [serveSvc, h]

theorem serveSvc_unknown (h : f.svc = 0 ∨ 9 ≤ f.svc) : serveSvc f s = serveFrame f (porticoType f) s := by
  unfold serveSvc
  split
  case h_9 => rfl
  all_goals omega

theorem onSvc_arrives {svc : Nat} (h : f.svc = svc ∨ f.svc = 0 ∨ f.svc = 7 ∨ 9 ≤ f.svc) : onSvc svc f s = arrive f s := by
  unfold onSvc
  rw [if_pos (by rw [show svcDigest = 8 from rfl]; omega)]

end

/-- The service of each row of frames. -/
def rowService (f : FrameF) (i : Instr) (svc : Nat) (own : Block → Served × Block) : Prop :=
  (i = .porticoRead f ∧ svc = 1 ∧ own = porticoGet f) ∨ (i = .porticoWrite f ∧ svc = 2 ∧ own = porticoPut f) ∨
    (i = .segmentStart f ∧ svc = 3 ∧ own = porticoStart f) ∨ (i = .segment f ∧ svc = 4 ∧ own = porticoSegment f) ∨
    (i = .segmentEnd f ∧ svc = 5 ∧ own = porticoEnd f) ∨ (i = .segmentAbort f ∧ svc = 6 ∧ own = porticoAbort f) ∨
    (i = .porticoDigestQuery f ∧ svc = 8 ∧ own = porticoDigest f)

section
variable {f : FrameF} {i : Instr} {svc : Nat} {own : Block → Served × Block} (h : rowService f i svc own)
include h

theorem exec_rowService (s : State) : exec i s = .next { s with toBlock := onSvc svc f s.toBlock } := by
  obtain ⟨rfl, rfl, -⟩ | ⟨rfl, rfl, -⟩ | ⟨rfl, rfl, -⟩ | ⟨rfl, rfl, -⟩ | ⟨rfl, rfl, -⟩ | ⟨rfl, rfl, -⟩ | ⟨rfl, rfl, -⟩ := h
  · exact effect_of_eq (f := doPorticoRead f) rfl
  · exact effect_of_eq (f := doPorticoWrite f) rfl
  · exact effect_of_eq (f := doSegmentStart f) rfl
  · exact effect_of_eq (f := doSegment f) rfl
  · exact effect_of_eq (f := doSegmentEnd f) rfl
  · exact effect_of_eq (f := doSegmentAbort f) rfl
  · exact effect_of_eq (f := doPorticoDigest f) rfl

theorem serveSvc_rowService (hsvc : f.svc = svc) (b : Block) : serveSvc f b = serveFrame f own b := by
  unfold serveSvc
  rw [hsvc]
  obtain ⟨-, rfl, rfl⟩ | ⟨-, rfl, rfl⟩ | ⟨-, rfl, rfl⟩ | ⟨-, rfl, rfl⟩ | ⟨-, rfl, rfl⟩ | ⟨-, rfl, rfl⟩ | ⟨-, rfl, rfl⟩ := h
  all_goals rfl

theorem rowService_not_notify : svc ≠ 7 := by
  obtain ⟨-, rfl, -⟩ | ⟨-, rfl, -⟩ | ⟨-, rfl, -⟩ | ⟨-, rfl, -⟩ | ⟨-, rfl, -⟩ | ⟨-, rfl, -⟩ | ⟨-, rfl, -⟩ := h
  all_goals decide

end

/-! ## Transfers -/

section
variable {f : FrameF} {b : Block}

theorem porticoStart_download (hnone : b.portico.xfers = []) (hlen : f.len = 4) (hdata : 4 ≤ f.data.length)
    (hobj : (objValue b (f.index * 256 + f.sub)).isSome = true) :
    ∃ x, (porticoStart f b).2.portico.xfers = [x] ∧ x.id = b.portico.nextXfer ∧ x.download = true ∧
      x.total = leAt f.data 0 4 ∧ x.next = 0 ∧ x.data = [] ∧ (porticoStart f b).1.status = 0 := by
  obtain ⟨v, hv⟩ := Option.isSome_iff_exists.mp hobj
  unfold porticoStart openXfer
  dsimp only
  rw [hnone, hv, hlen, if_neg (by simp), if_neg (by simp; omega)]
  exact ⟨_, rfl, rfl, rfl, rfl, rfl, rfl, rfl⟩

/-- The marks of an upload's segment: bit 1 on the last one, and then bit 2 where the object changed. -/
theorem uploadFlags (last next : Nat) (changed : Bool) : b2n (decide (last ≤ next)) * 2 + b2n (decide (last ≤ next) && changed) * 4 =
    if last ≤ next then 2 + (if changed then 4 else 0) else 0 := by
  by_cases h : last ≤ next
  · rw [if_pos h, decide_eq_true h]
    cases changed <;> rfl
  · rw [if_neg h, decide_eq_false h]
    rfl

variable {x : Xfer} (hopen : b.portico.xfers = [x])
include hopen

theorem xferOf_one (hid : x.id = f.xfer) (hsrc : x.src = f.src) : xferOf b f = some x := by
  unfold xferOf
  rw [hopen]
  exact List.find?_cons_of_pos (by simp [hid, hsrc])

theorem xfers_putXfer_one {y : Xfer} (hid : y.id = x.id) : (putXfer y b).portico.xfers = [y] := by
  unfold putXfer
  simp [hopen, hid]

theorem dropXfer_one : dropXfer x.id b = { b with portico := { b.portico with xfers := [] } } := by
  unfold dropXfer
  simp [hopen]

variable (hid : x.id = f.xfer) (hsrc : x.src = f.src)
include hid hsrc

theorem porticoSegment_in (hdown : x.download = true) (hnext : f.offset = x.next) (hlen : f.len ≤ f.data.length)
    (htotal : x.next + f.len ≤ x.total) : (porticoSegment f b).2.portico.xfers =
      [{ x with next := x.next + f.len, data := x.data ++ f.data.take f.len }] := by
  unfold porticoSegment segmentIn
  rw [xferOf_one hopen hid hsrc]
  dsimp only
  rw [if_pos hdown, if_neg (by omega)]
  exact xfers_putXfer_one hopen rfl

/-- The bytes that an upload reads. -/
def uploadBytes (x : Xfer) (b : Block) : Bytes := if x.live then (objValue b (x.index * 256 + x.sub)).getD [] else x.data

theorem porticoSegment_out (hup : x.download = false) (hnext : f.offset = x.next) :
    (porticoSegment f b).1.data = (((uploadBytes x b).take x.total).drop x.next).take f.len ∧
    (porticoSegment f b).1.flags = (if min x.total (uploadBytes x b).length ≤
        x.next + ((((uploadBytes x b).take x.total).drop x.next).take f.len).length then
      2 + (if x.dirty || uploadBytes x b != x.data then 4 else 0) else 0) ∧
    (porticoSegment f b).2.portico.xfers = [{ x with
      next := x.next + ((((uploadBytes x b).take x.total).drop x.next).take f.len).length
      dirty := x.dirty || uploadBytes x b != x.data }] := by
  unfold porticoSegment segmentOut
  rw [xferOf_one hopen hid hsrc]
  dsimp only
  rw [if_neg (by rw [hup]; simp), if_neg (by omega)]
  refine ⟨rfl, uploadFlags .., xfers_putXfer_one hopen rfl⟩

theorem porticoEnd_whole (hdown : x.download = true) (hall : x.next = x.total) :
    porticoEnd f b = (fun r => (servedStatus r.1 f, r.2)) (objWriteWhole .portico (x.index * 256 + x.sub) x.data
      { b with portico := { b.portico with xfers := [] } }) := by
  unfold porticoEnd
  rw [xferOf_one hopen hid hsrc]
  dsimp only
  rw [if_neg (by rw [hdown]; simp), if_neg (by omega), dropXfer_one hopen]

theorem xfers_porticoAbort : (porticoAbort f b).2.portico.xfers = [] := by
  unfold porticoAbort
  rw [xferOf_one hopen hid hsrc]
  dsimp only
  rw [dropXfer_one hopen]

end

/-- Settles O56: an arriving frame is discarded, kept waiting or served; a transfer is one entry that each segment moves on. -/
theorem aPorticoFrameIsServedOnceAndTransfersStage : Obligations.APorticoFrameIsServedOnceAndTransfersStage := by
  unfold Obligations.APorticoFrameIsServedOnceAndTransfersStage
  refine ⟨fun s f i svc own p hrow hserve => ?_, fun b => ⟨fun hnone => ?_, fun hok => if_pos hok, ?_⟩, fun f b =>
    ⟨rfl, fun hlen => if_neg (by omega), rfl, porticoStart_download, fun x hopen hid hsrc =>
      ⟨porticoSegment_in hopen hid hsrc, fun hup hnext hcopy => ?_, fun hup hnext => ?_, porticoEnd_whole hopen hid hsrc,
        xfers_porticoAbort hopen hid hsrc⟩, fun s xfer halive => effect_of_eq (f := doSegmentTimeout xfer) (if_pos halive)⟩⟩
  · have hexec := exec_rowService (show rowService f i svc own from hrow) s
    have hrun {t : Block} (ht : arrive f s.toBlock = t) : exec i s = .next { s with toBlock := t } := by
      have honly : f.svc = svc ∨ f.svc = 0 ∨ f.svc = 7 ∨ 9 ≤ f.svc := hserve.imp And.left And.left
      rw [hexec, onSvc_arrives honly, ht]
    have hserves (b : Block) (h7 : f.svc ≠ 7) : serveSvc f b = serveFrame f p b := by
      obtain ⟨hsvc, rfl⟩ | ⟨hsvc, rfl⟩ := hserve
      · exact serveSvc_rowService hrow hsvc b
      · exact serveSvc_unknown (by omega)
    refine ⟨fun halive => hrun (arrive_reset halive), fun halive => ⟨fun hbad => hrun (arrive_bad halive hbad),
      fun hether htag hfcs => ⟨fun hmac hall => hrun (arrive_other halive hether htag hfcs hmac hall), fun hmine => ?_⟩⟩⟩
    have harrive := arrive_mine halive hether htag hfcs hmine
    dsimp only
    generalize bumpNum 0x340101 32 1 (plcaHear s.toBlock) = b at harrive ⊢
    refine ⟨fun hwaits => ?_, fun hwaits => ?_⟩
    · rw [if_pos hwaits] at harrive
      exact ⟨fun hfull => hrun (harrive.trans (if_pos hfull)), fun hroom => hrun (harrive.trans (if_neg (by omega)))⟩
    · rw [if_neg (by rw [hwaits]; simp)] at harrive
      refine ⟨fun h7 => hrun (harrive.trans (serveSvc_notify h7)), fun h7 => ?_⟩
      rw [hserves _ h7] at harrive
      exact ⟨fun o hkept => hrun (harrive.trans (serveFrame_kept hkept)), fun hkept =>
        ⟨fun hno => hrun (harrive.trans (serveFrame_unanswered hkept hno)),
          fun hyes => hrun (harrive.trans (serveFrame_new hkept hyes))⟩⟩
  · unfold serveQueue
    rw [hnone, forEach_nil, ← hnone]
  · refine ⟨bit (Config.freeWord b.freeCtr) 0, fun hlost => ?_⟩
    unfold plcaHear fresh
    exact if_neg (by rw [hlost]; simp)
  · obtain ⟨hdata, -, -⟩ := porticoSegment_out hopen hid hsrc hup hnext
    rw [hdata]
    unfold uploadBytes
    rw [if_neg (by rw [hcopy]; simp)]
  · exact (porticoSegment_out hopen hid hsrc hup hnext).2

end Sys2Proof.Machine
end

section
/-! SUPPORT. The drain, the watchdog and the advance of a step (R210 to R212). -/

namespace Sys2Proof.Machine

/-! ## Open groups that are discarded -/

/-- Faults change the log and raise bits of the step status; what is discarded leaves the landing. -/
structure DiscardFrame (s t : Block) : Prop where
  eq : t = { s with arr := t.arr, logs := t.logs, bnd := { s.bnd with bits := t.bnd.bits } }
  bits : ∀ n, s.bnd.bits.testBit n = true → t.bnd.bits.testBit n = true

theorem DiscardFrame.refl (s : Block) : DiscardFrame s s := ⟨rfl, fun _ h => h⟩

section
variable {s t : Block} (h : DiscardFrame s t)
include h

theorem DiscardFrame.trans {u : Block} (h' : DiscardFrame t u) : DiscardFrame s u :=
  ⟨by rw [h'.eq, h.eq], fun n hn => h'.bits n (h.bits n hn)⟩

theorem DiscardFrame.ite {u : Block} (h' : DiscardFrame s u) {c : Prop} {_ : Decidable c} : DiscardFrame s (if c then t else u) := by
  split
  · exact h
  · exact h'

theorem DiscardFrame.withArr (x : Arrays) : DiscardFrame s { t with arr := x } := h.trans ⟨rfl, fun _ h => h⟩

theorem DiscardFrame.withLogs (x : Logs) : DiscardFrame s { t with logs := x } := h.trans ⟨rfl, fun _ h => h⟩

theorem DiscardFrame.stepBit (k : Nat) : DiscardFrame s (stepBit k t) := by
  refine h.trans ⟨rfl, fun n hn => ?_⟩
  show (putBit t.bnd.bits k true).testBit n = true
  by_cases hk : n = k
  · rw [hk]
    exact testBit_putBit_same ..
  · rw [testBit_putBit_ne _ hk, hn]

theorem DiscardFrame.logFault (kind : LogKind) (g p d tag : Nat) : DiscardFrame s (logFault kind g p d tag t) := by
  have hlog : DiscardFrame s { t with logs := { t.logs with log := t.logs.log ++ [{ kind, gal := g, place := p, detail := d, tag }] } } :=
    h.withLogs _
  unfold Machine.logFault
  exact .ite (.stepBit (.ite (hlog.stepBit 1) hlog) 3) (.ite (hlog.stepBit 1) hlog)

theorem DiscardFrame.openFault (key : Nat) : DiscardFrame s (openFault key t) := .stepBit (h.logFault ..) 4

theorem DiscardFrame.forEach {α : Type} {f : α → Block → Block} (l : List α) (hf : ∀ a b, DiscardFrame b (f a b)) :
    DiscardFrame s (forEach l f t) := forEach_induction (P := DiscardFrame s) (fun a _ _ hb => hb.trans (hf a _)) h

end

theorem testBit_openFault (key : Nat) (s : Block) : (openFault key s).bnd.bits.testBit 4 = true := testBit_stepBit 4 _

/-- What the discarding does with one entry of the table of groups. -/
def discardEntry (e : Nat × Option Group) (s : Block) : Block :=
  match e.2 with
  | some g => if g.closeAt.isNone then openFault e.1 (setLgroup (e.1 / 64) (e.1 % 64) none s) else s
  | none => s

theorem discardFrame_entry (e : Nat × Option Group) (s : Block) : DiscardFrame s (discardEntry e s) := by
  unfold discardEntry
  split
  · exact .ite (.openFault (.withArr (.refl s) _) _) (.refl s)
  · exact .refl s

theorem discardFrame_discardOpen (s : Block) : DiscardFrame s (discardOpen s) := by
  unfold discardOpen
  exact .forEach (.forEach (.withArr (.refl s) _) _ fun key b => .openFault (.refl b) key) _ discardFrame_entry

/-- A list with an open group leaves bit 4 of the step status. -/
theorem testBit_discardEntries {l : List (Nat × Option Group)} (h : ∃ e ∈ l, ∃ g, e.2 = some g ∧ g.closeAt = none) (s : Block) :
    (forEach l discardEntry s).bnd.bits.testBit 4 = true := by
  obtain ⟨e, he, g, hg, hopen⟩ := h
  obtain ⟨l₁, l₂, rfl⟩ := List.append_of_mem he
  rw [forEach_append, forEach_cons]
  generalize forEach l₁ discardEntry s = b
  refine (DiscardFrame.forEach (.refl _) l₂ discardFrame_entry).bits 4 ?_
  unfold discardEntry
  rw [hg]
  dsimp only
  rw [hopen]
  exact testBit_openFault ..

theorem arr_openFault (key : Nat) (s : Block) : (openFault key s).arr = s.arr :=
  (MemFrame.logFault (.refl s) .program (arrGal (key / 64)) key 0x109 0).arr

theorem testBit_discardOpen {s : Block} (h : ∃ e ∈ s.arr.groups, ∃ g, e.2 = some g ∧ g.closeAt = none) :
    (discardOpen s).bnd.bits.testBit 4 = true := by
  unfold discardOpen
  dsimp only
  have harr : (forEach (dropUnopened s.arr.held).2 openFault { s with arr := { s.arr with held := (dropUnopened s.arr.held).1 } }).arr =
      { s.arr with held := (dropUnopened s.arr.held).1 } := forEach_proj Block.arr (fun key _ b => arr_openFault key b) _
  generalize forEach (dropUnopened s.arr.held).2 openFault _ = b at harr ⊢
  rw [show b.arr.groups = s.arr.groups by rw [harr]]
  exact testBit_discardEntries h b

/-! ## The watchdog (R210) -/

/-- The module whose descriptors the watchdog has cancelled, before the open groups go. -/
def cancelled (s : Block) : Block :=
  stepBit 6 { s with
    freeze := none
    queues := { s.queues with descs := [], cancelled := s.queues.cancelled + s.queues.descs.length }
    colls := { s.colls with colls := [] }
    prog := { s.prog with issuing := false }
    bnd := { s.bnd with phase := .actions, next := 0, wait := .nothing, resume := false
                        sboundTick := if s.bnd.phase = .draining then s.bnd.sboundTick else s.clk.tick } }

theorem doWatchdog_cancels {s : Block} (hwaits : s.freeze.isSome = true ∨ (s.bnd.phase = .draining ∧ s.queues.descs ≠ []))
    (hstarted : s.prog.started = true) (hrebuild : rebuilding s = false) : doWatchdog s = discardOpen (cancelled s) := by
  have hgo : (s.freeze.isSome || (s.bnd.phase == .draining && !s.queues.descs.isEmpty)) = true := by
    obtain h | ⟨hphase, hdescs⟩ := hwaits
    · rw [h, Bool.true_or]
    · rw [hphase, List.isEmpty_eq_false_iff.mpr hdescs]
      simp
  unfold doWatchdog cancelled
  dsimp only
  rw [if_neg (by rw [hgo, hstarted, hrebuild]; simp)]
  by_cases h : s.bnd.phase = .draining
  · rw [if_pos h, if_pos h]
  · rw [if_neg h, if_neg h]

/-! ## The advance (R212) -/

theorem and_failBits (x : Nat) : (x &&& 0x7E0) = 0 ↔ ∀ k, 5 ≤ k → k ≤ 10 → x.testBit k = false := by
  have hmask (k : Nat) : Nat.testBit 0x7E0 k = decide (5 ≤ k ∧ k ≤ 10) := by
    rw [show (0x7E0 : Nat) = 2 ^ 5 * (2 ^ 6 - 1) from rfl, Nat.testBit_two_pow_mul, Nat.testBit_two_pow_sub_one]
    rw [← Bool.decide_and]
    exact decide_eq_decide.mpr (by omega)
  constructor
  · intro h k h5 h10
    have hbit := congrArg (Nat.testBit · k) h
    simpa [hmask, h5, h10] using hbit
  · refine fun h => Nat.eq_of_testBit_eq fun k => ?_
    rw [Nat.testBit_and, hmask, Nat.zero_testBit]
    by_cases hk : 5 ≤ k ∧ k ≤ 10
    · rw [h k hk.1 hk.2, Bool.false_and]
    · rw [decide_eq_false hk, Bool.and_false]

theorem bnd_setNum (key v : Nat) (s : Block) : (setNum key v s).bnd = s.bnd := (ReportFrame.setNum (.refl s) ..).bnd

theorem advance_takePage (cset i : Nat) (s : Block) : (takePage cset i s).bnd.advance = s.bnd.advance := by
  unfold takePage mapAway
  dsimp only
  split <;> rfl

theorem advance_takePages (cset : Nat) (ps : List Nat) (s : Block) : (takePages cset ps s).bnd.advance = s.bnd.advance := by
  unfold takePages countReserve
  split
  · rfl
  · rw [bnd_setNum]
    exact forEach_proj (f := takePage cset) (fun t : Block => t.bnd.advance) (fun i _ t => advance_takePage cset i t) s

theorem bnd_setCsetWord (i w : Nat) (s : Block) : (setCsetWord i w s).bnd = s.bnd := rfl

theorem advance_revokeDec (d : CDec) (s : Block) : (revokeDec d s).bnd.advance = s.bnd.advance := by
  unfold revokeDec
  split
  · rfl
  · dsimp only
    generalize hb : setCsetWord d.cset _ s = b
    have hset : b.bnd = s.bnd := hb ▸ bnd_setCsetWord ..
    clear hb
    split
    · rw [hset]
    · have hlast (x : Nat) : (setNum 0x234205 x (takePages d.cset d.freed
          { b with bnd := { b.bnd with sinceDown := mapSet 0 b.bnd.sinceDown d.cset d.down0 } })).bnd.advance = s.bnd.advance := by
        rw [bnd_setNum, advance_takePages, hset]
      split
      · exact hlast _
      · exact hlast _

theorem advance_revokeClean (s : Block) : (revokeClean s).bnd.advance = s.bnd.advance := by
  have hrevoke : (forEach s.bnd.decs revokeDec s).bnd.advance = s.bnd.advance :=
    forEach_proj (fun t : Block => t.bnd.advance) (fun d _ t => advance_revokeDec d t) s
  unfold revokeClean
  split
  · rfl
  · dsimp only
    rw [(ReportFrame.setNum (.refl _) ..).bnd]
    exact hrevoke

theorem advance_actAdvance {b : Block} (hreplay : b.recov.replay = false) :
    (actAdvance b).bnd.advance = true ↔ ∀ k, 5 ≤ k → k ≤ 10 → b.bnd.bits.testBit k = false := by
  rw [← and_failBits]
  have hadv : (actAdvance b).bnd.advance = (b.bnd.bits &&& 0x7E0 == 0) := by
    unfold actAdvance
    rw [hreplay]
    simp only [Bool.not_false, Bool.and_true]
    split
    · rfl
    · rw [advance_revokeClean]
  rw [hadv, beq_iff_eq]

end Sys2Proof.Machine
end

section
/-! SUPPORT. What the completion of a boundary leaves of a park request and of UNDER_CONN (R211); O30. -/

namespace Sys2Proof.Machine

/-! ## A park request and the bit of an under-connected module stay -/

/-- A pending park and bit 10 of the step status are the same. -/
structure SameEnd (s t : Block) : Prop where
  park : t.recov.parkPending = s.recov.parkPending
  under : t.bnd.bits.testBit 10 = s.bnd.bits.testBit 10

theorem SameEnd.refl (s : Block) : SameEnd s s := ⟨rfl, rfl⟩

section
variable {s t : Block} (h : SameEnd s t)
include h

theorem SameEnd.trans {u : Block} (h' : SameEnd t u) : SameEnd s u := ⟨h'.park.trans h.park, h'.under.trans h.under⟩

theorem SameEnd.ite {u : Block} (h' : SameEnd s u) {c : Prop} {_ : Decidable c} : SameEnd s (if c then t else u) := by
  split
  · exact h
  · exact h'

theorem SameEnd.record {u : Block} (h' : RecordFrame t u) : SameEnd s u := h.trans ⟨by rw [h'.eq], by rw [h'.bnd]⟩

theorem SameEnd.report {u : Block} (h' : ReportFrame t u) : SameEnd s u := h.record h'.toRecord

theorem SameEnd.setStatus (key v notes alerts code : Nat) : SameEnd s (setStatus key v notes alerts code t) :=
  h.report (.setStatus (.refl t) ..)

theorem SameEnd.setNum (key v : Nat) : SameEnd s (setNum key v t) := h.report (.setNum (.refl t) ..)

theorem SameEnd.setDom (key : Nat) (v : Bytes) : SameEnd s (setDom key v t) := h.trans ⟨rfl, rfl⟩

theorem SameEnd.withArc (x : Arcade) : SameEnd s { t with arc := x } := h.trans ⟨rfl, rfl⟩
theorem SameEnd.withMem (x : Mem) : SameEnd s { t with mem := x } := h.trans ⟨rfl, rfl⟩
theorem SameEnd.withUpd (x : Update) : SameEnd s { t with upd := x } := h.trans ⟨rfl, rfl⟩
theorem SameEnd.withRel (x : Rel) : SameEnd s { t with rel := x } := h.trans ⟨rfl, rfl⟩
theorem SameEnd.withFreeCtr (x : Nat) : SameEnd s { t with freeCtr := x } := h.trans ⟨rfl, rfl⟩

theorem SameEnd.withRecov {x : Recov} (hx : x.parkPending = t.recov.parkPending) : SameEnd s { t with recov := x } := h.trans ⟨hx, rfl⟩

theorem SameEnd.withBnd {x : Boundary} (hx : x.bits = t.bnd.bits) : SameEnd s { t with bnd := x } :=
  h.trans ⟨rfl, congrArg (Nat.testBit · 10) hx⟩

theorem SameEnd.withPortA (x : Vport) : SameEnd s { t with portA := x } := h.trans ⟨rfl, rfl⟩
theorem SameEnd.withPortB (x : Vport) : SameEnd s { t with portB := x } := h.trans ⟨rfl, rfl⟩

theorem SameEnd.stepBit {n : Nat} (hn : n ≠ 10) : SameEnd s (stepBit n t) :=
  h.trans ⟨rfl, testBit_putBit_ne true (Ne.symm hn)⟩

theorem SameEnd.forEach {α : Type} {f : α → Block → Block} (l : List α) (hf : ∀ a b, SameEnd b (f a b)) :
    SameEnd s (forEach l f t) := forEach_induction (P := SameEnd s) (fun a _ _ hb => hb.trans (hf a _)) h

/-! ## Packets that are sent -/

theorem SameEnd.failDesc (desc : Nat) : SameEnd s (failDesc desc t) := h.trans ⟨rfl, rfl⟩

theorem SameEnd.failPull : SameEnd s (failPull t) := h.trans ⟨rfl, rfl⟩

theorem SameEnd.descFail : SameEnd s (descFail t) := .stepBit (h.stepBit (by decide)) (by decide)

theorem SameEnd.enqueue (again : Bool) (l desc : Nat) (p : Packet) : SameEnd s (enqueue again l desc p t) := h.trans ⟨rfl, rfl⟩

theorem SameEnd.losePacket (desc : Nat) (p : Packet) : SameEnd s (losePacket desc p t) := by
  have hset : SameEnd s (if (p.src == t.arc.slot && phOp p.header == 4 && leAt p.data 0 1 == 0x20) = true then
      setRecov 5 true t else t) := .ite (.setStatus h ..) h
  unfold Machine.losePacket loseDesc
  dsimp only
  refine .ite ?_ (.ite (.failDesc ?_ _) (.descFail ?_))
  all_goals exact .ite (.failPull hset) hset

theorem SameEnd.reportArcade : SameEnd s (reportArcade t) := h.setStatus ..

theorem SameEnd.launch (again : Bool) (desc : Nat) (p : Packet) : SameEnd s (launch again desc p t) := by
  unfold Machine.launch
  split
  case h_1 => exact h.losePacket ..
  case h_2 l det _ =>
    have hdet (u : Block) (a : List Nat) (hu : SameEnd s u) :
        SameEnd s (if det then Machine.reportArcade { u with arc := { u.arc with detours := a } } else u) :=
      .ite (.reportArcade (.withArc hu _)) hu
    have hkeep (c : Bool) (u : Block) (a : List Nat) (hu : SameEnd s u) :
        SameEnd s (if c then { u with arc := { u.arc with retaining := a } } else u) := .ite (.withArc hu _) hu
    dsimp only
    refine .ite (.ite ?_ (.enqueue ?_ ..)) (.enqueue ?_ ..)
    · refine .withArc ?_ _
      exact hdet _ _ (hkeep _ _ _ (.withArc h _))
    · refine .withArc ?_ _
      exact hdet _ _ (hkeep _ _ _ (.withArc h _))
    · exact hdet _ _ (hkeep _ _ _ (.withArc h _))

theorem SameEnd.sendPacket (desc : Nat) (p : Packet) : SameEnd s (sendPacket desc p t) := by
  have hseq (a : List (Nat × Nat)) : SameEnd s { t with arc := { t.arc with txSeq := a } } := h.withArc _
  unfold Machine.sendPacket
  dsimp only
  exact .ite (.withArc (hseq _) _) (.ite (.withArc (hseq _) _) (.launch (hseq _) ..))

theorem SameEnd.sendCtrl (dst vc cepoch : Nat) (data : Bytes) : SameEnd s (sendCtrl dst vc cepoch data t) := by
  unfold Machine.sendCtrl sendCtrlFor
  exact .ite h (h.sendPacket ..)

theorem SameEnd.sendContext (c : Bytes) : SameEnd s (sendContext c t) := by
  unfold Machine.sendContext sendContextTo
  dsimp only
  refine .withRecov (.forEach (.setStatus h ..) _ fun a b => .forEach (.refl b) _ fun i u => .sendCtrl (.refl u) ..) ?_
  rfl

end

/-! ## The loss word that a manifest reads -/

section
variable {s t : Block} (h : SameEnd s t)
include h

theorem SameEnd.logFault (kind : LogKind) (g p d tag : Nat) : SameEnd s (logFault kind g p d tag t) := by
  have hlog : SameEnd s { t with logs := { t.logs with log := t.logs.log ++ [{ kind, gal := g, place := p, detail := d, tag }] } } :=
    h.trans ⟨rfl, rfl⟩
  have hfirst := hlog.stepBit (n := 1) (by decide)
  unfold Machine.logFault
  exact .ite (.stepBit (.ite hfirst hlog) (by decide)) (.ite hfirst hlog)

theorem SameEnd.inject (code loc : Nat) : SameEnd s (inject code loc t).2 := by
  unfold Machine.inject
  split
  · exact (h.withRel _).setNum ..
  · exact h

theorem SameEnd.detect (code loc : Nat) (inj : Bool) (tag addr : Nat) (extra : Bytes) :
    SameEnd s (detect code loc inj tag addr extra t) := h.report (.detect (.refl t) ..)

theorem SameEnd.translate (hall page : Nat) : SameEnd s (translate hall page t).2 := by
  unfold Machine.translate
  dsimp only
  split
  · exact h
  · exact .withMem (.ite (.setStatus (.detect (h.inject ..) ..) ..) (h.inject ..)) _

theorem SameEnd.setPoison (k : Nat) (b : Bool) : SameEnd s (setPoison k b t) := h.withMem _

theorem SameEnd.rowEvent (uncorr : Bool) (k : Nat) : SameEnd s (rowEvent uncorr k t) := by
  have hbump (key : Nat) : SameEnd s (bumpNum key 64 1 t) := h.setNum ..
  have hfails (k : Nat) (u : Block) (hu : SameEnd s u) : SameEnd s (rowFails k u) := hu.withMem _
  unfold Machine.rowEvent
  dsimp only
  split
  · exact hfails _ _ (hbump _)
  · split
    · exact hfails _ _ (.withMem (hbump _) _)
    · exact .withMem (hbump _) _

theorem SameEnd.decodeSec (fk off addr : Nat) : SameEnd s (decodeSec fk off addr t).2 := by
  unfold Machine.decodeSec
  dsimp only
  split
  · exact h
  split
  · exact h.withMem _
  · refine SameEnd.ite (.setPoison (.detect ?_ ..) ..) (.detect ?_ ..)
    all_goals exact .ite (h.withMem _) (.rowEvent (h.withMem _) ..)

theorem SameEnd.writeSecAt (fk off addr : Nat) (new : List (Option Byte)) (pois : Bool) :
    SameEnd s (writeSecAt fk off addr new pois t) := by
  unfold Machine.writeSecAt
  dsimp only
  exact .setPoison (.withMem (.inject (.inject (.ite h (h.decodeSec ..)) ..) ..) _) ..

theorem SameEnd.readSecAt (fk off addr : Nat) : SameEnd s (readSecAt fk off addr t).2.2.2 := h.decodeSec ..

theorem SameEnd.readSec (e page off : Nat) : SameEnd s (readSec e page off t).2.2 := by
  unfold Machine.readSec
  have hfirst := h.readSecAt (peHere e) off (page * 2 ^ 20 + off)
  dsimp only
  generalize Machine.readSecAt (peHere e) off (page * 2 ^ 20 + off) t = r at hfirst ⊢
  obtain ⟨d, p, bad, u⟩ := r
  have hsecond := hfirst.readSecAt (peThere e) off (page * 2 ^ 20 + off)
  dsimp only at hfirst hsecond ⊢
  generalize Machine.readSecAt (peThere e) off (page * 2 ^ 20 + off) u = r at hsecond ⊢
  obtain ⟨d2, p2, bad2, v⟩ := r
  dsimp only at hsecond ⊢
  split
  · exact hfirst
  split
  · split
    · exact hsecond.writeSecAt ..
    · split
      · exact hsecond.inject ..
      · refine .detect (.setPoison (.setPoison (.ite (hsecond.inject ..) (.rowEvent (.rowEvent (hsecond.inject ..) ..) ..)) ..) ..) ..
  · split
    · split
      · exact hsecond
      · exact hsecond.writeSecAt ..
    · exact hfirst

end

theorem sameEnd_foldl {α β : Type} {f : β × Block → α → β × Block} (hf : ∀ acc a, SameEnd acc.2 (f acc a).2) (l : List α)
    (acc : β × Block) : SameEnd acc.2 (l.foldl f acc).2 := by
  induction l generalizing acc with
  | nil => exact .refl _
  | cons a l ih => exact (hf acc a).trans (ih _)

theorem sameEnd_readPiece (hall : Nat) (acc : List (Byte × Bool) × Block) (pc : Nat × Nat × Nat × Nat) :
    SameEnd acc.2 (readPiece hall acc pc).2 := by
  obtain ⟨l, s⟩ := acc
  obtain ⟨page, off, len, done⟩ := pc
  have hfold : ∀ e acc o, SameEnd acc.2 (readFold e page acc o).2 := fun e acc o => .readSec (.refl _) ..
  have hlost : ∀ acc o, SameEnd acc.2 (lostFold acc o).2 := fun acc o => .withFreeCtr (.refl acc.2) _
  have hpage : SameEnd s (pageFaults (translate hall page s).1 page (translate hall page s).2) := by
    unfold pageFaults
    exact .ite (.logFault (.translate (.refl s) ..) ..) (.ite (.logFault (.translate (.refl s) ..) ..) (.translate (.refl s) ..))
  unfold readPiece
  dsimp only
  refine hpage.trans ?_
  split
  · exact sameEnd_foldl (hfold _) _ (_, _)
  · exact sameEnd_foldl hlost _ (_, _)

theorem sameEnd_memRead (hall a n : Nat) (s : Block) : SameEnd s (memRead hall a n s).2 :=
  sameEnd_foldl (fun acc pc => sameEnd_readPiece hall acc pc) _ (_, _)

/-! ## The completion of a boundary -/

section
variable {s t : Block} (h : SameEnd s t)
include h

theorem SameEnd.settleEta (adv : Bool) : SameEnd s (settleEta adv t) := by
  unfold Machine.settleEta
  exact .ite (.setNum (.withUpd h _) ..) (.withUpd h _)

theorem SameEnd.keepManifest (m : Bytes) : SameEnd s (keepManifest m t) := by
  have htouch (key : Nat) : SameEnd s (touch key true t) := h.trans ⟨rfl, rfl⟩
  unfold Machine.keepManifest
  refine .withRecov (htouch _) ?_
  rfl

theorem SameEnd.writeManifest : SameEnd s (writeManifest t) := by
  have hloss : SameEnd s (lossWord t).2 := by
    unfold lossWord
    split
    · exact h
    · exact h.trans (sameEnd_memRead ..)
  have htrim (m : Bytes) : SameEnd s (trimBuffer (Machine.keepManifest m (lossWord t).2)) :=
    .record (hloss.keepManifest m) (.trimBuffer (.refl _))
  unfold Machine.writeManifest
  dsimp only
  exact .ite (.setDom (htrim _) ..) (htrim _)

theorem SameEnd.writeContext : SameEnd s (writeContext t) := by
  have hkeep (slot : Nat) (c : Bytes) : SameEnd s (keepContext slot c t) := h.withRecov rfl
  unfold Machine.writeContext
  refine .ite h ?_
  dsimp only
  refine .withBnd (.sendContext (hkeep ..) _) ?_
  rfl

end

/-- Issue from the next cycle on. -/
theorem goIssue_leaves (s : Block) : (goIssue s).prog.issuing = true ∧ (goIssue s).bnd.phase = .none ∧
    (goIssue s).bnd.underConnWait = false ∧ (goIssue s).clk.nextIssue = (goIssue s).clk.fcyc + 1 := by
  have hactive (b : Block) : ReportFrame b (enterActive b) := by
    unfold enterActive
    split
    · exact .refl b
    · exact .setNum (.refl b) ..
  unfold goIssue
  generalize hb : ({ s with bnd := _, prog := _, clk := _ } : Block) = b
  have hreport := hactive b
  rw [hreport.prog, hreport.bnd, hreport.clk, ← hb]
  exact ⟨rfl, rfl, rfl, rfl⟩

section
variable {s t : Block} (h : SameEnd s t)
include h

theorem SameEnd.vstErr (p n : Nat) : SameEnd s (vstErr p n t) := by
  unfold Machine.vstErr modPort
  exact .ite (h.withPortA _) (h.withPortB _)

theorem SameEnd.tokCapOne (key : Nat) : SameEnd s (tokCapOne key t) := by
  have htok (x : Tokens) : SameEnd s { t with tok := x } := h.trans ⟨rfl, rfl⟩
  unfold Machine.tokCapOne
  exact .ite h (.logFault (htok _) ..)

theorem SameEnd.withFw (x : Fw) : SameEnd s { t with fw := x } := h.trans ⟨rfl, rfl⟩

theorem SameEnd.setFwBit (n : Nat) (b : Bool) : SameEnd s (setFwBit n b t) := h.record (.setFwBit (.refl t) ..)

theorem SameEnd.beginRestart (n : Nat) (staged : Bool) : SameEnd s (beginRestart n staged t) := by
  have hproc (p : Proc) : SameEnd s (setProc n p t) := h.withFw _
  unfold Machine.beginRestart reportProcs countRestart
  exact .setFwBit (.setFwBit (.ite (.setNum (hproc _) ..) (.setNum (.setDom (hproc _) ..) ..)) ..) ..

theorem SameEnd.raiseCounter (c v : Nat) : SameEnd s (raiseCounter c v t) := h.withFw _

theorem SameEnd.longDone (typ status seq : Nat) : SameEnd s (longDone typ status seq t) := h.report (reportFrame_longDone ..)

theorem SameEnd.commitActivation : SameEnd s (commitActivation t) := by
  unfold Machine.commitActivation
  refine .longDone (.setFwBit (.setFwBit (.forEach ?_ _ (fun k b => .setNum (.refl b) ..)) ..) ..) ..
  refine .setNum (.setNum (.withFw ?_ _) ..) ..
  refine .forEach ?_ _ (fun k b => .raiseCounter (.refl b) ..)
  exact .raiseCounter (.withFw h _) ..

theorem SameEnd.sboundHook (adv : Bool) : SameEnd s (sboundHook adv t) := by
  unfold Machine.sboundHook
  exact .ite (.beginRestart (.withFw h _) ..) (.ite h.commitActivation h)

end

theorem park_closeStep (s : Block) : (closeStep s).recov.parkPending = s.recov.parkPending := by
  have hcap : SameEnd s (tokCap s) := .forEach (.refl s) _ fun key b => .tokCapOne (.refl b) key
  have hbells : SameEnd s (staleBells (tokCap s)) := .forEach hcap _ fun b u => .vstErr (.refl u) ..
  exact hbells.park

/-- The completion of a boundary, from the state whose manifest and context are written. -/
def boundEnds (adv halted replay : Bool) (status : Nat) (s : Block) : Block :=
  let under := bit s.bnd.bits 10
  let s := sboundHook adv (closeStep { s with bnd := { s.bnd with attempt := if adv then 0 else s.bnd.attempt + 1 } })
  let s := alert 0xB status s
  let s := if halted then alert 4 status s else s
  if replay ∨ s.recov.parkPending then goParked s
  else if halted then goStop s
  else if under then { s with bnd := { s.bnd with phase := .none, wait := .nothing, next := 0, underConnWait := true } }
  else goIssue (openEta s)

/-- With no halt, no replay, no park request and enough links the run list issues. -/
theorem boundEnds_issues {adv : Bool} {status : Nat} {s : Block} (hpark : s.recov.parkPending = false)
    (hunder : s.bnd.bits.testBit 10 = false) : ∃ b, boundEnds adv false false status s = goIssue b := by
  generalize hc : ({ s with bnd := { s.bnd with attempt := if adv then 0 else s.bnd.attempt + 1 } } : Block) = c
  have hc' : c.recov.parkPending = false := hc ▸ hpark
  have hend : (alert 0xB status (sboundHook adv (closeStep c))).recov.parkPending = false :=
    ((SameEnd.sboundHook (.refl (closeStep c)) adv).park.trans (park_closeStep c)).trans hc'
  refine ⟨openEta (alert 0xB status (sboundHook adv (closeStep c))), ?_⟩
  unfold boundEnds
  dsimp only
  rw [hc, if_neg (c := false = true) Bool.false_ne_true, if_neg (by rw [hend]; simp), if_neg (c := false = true) Bool.false_ne_true,
    if_neg (by rw [bit_eq_testBit, hunder]; simp)]

/-- The failed boundaries in a row that 0x6000.05 counts at the end of this one. -/
def boundFails (s : Block) : Nat := if s.bnd.advance then 0 else satN 16 (num s 0x600005 + 1)

/-- The step does not go on: a lost program word, a split, or the retry limit. -/
def boundHalts (s : Block) : Bool :=
  !s.recov.replay && (bit s.bnd.bits 17 || bit s.bnd.bits 18 || (!s.bnd.advance && decide (numS s 0x602100 ≤ boundFails s)))

/-- The step status that a boundary reports. -/
def boundStatus (s : Block) : Nat := fld s.bnd.bits 1 10 * 2 + b2n s.bnd.advance + b2n (boundHalts s) * 2 ^ 11

/-- The words of the step and of its collectives that a boundary reports. -/
def boundWords (s : Block) : Block :=
  let s' := setNum 0x600002 (boundStatus s) s
  let s' := setNum 0x600005 (if s.recov.replay then num s' 0x600005 else boundFails s) (setNum 0x600004 s'.clk.heldCycles s')
  setNum 0x605200 s'.colls.bits (setNum 0x604003 s'.colls.pulls (setNum 0x604002 s'.colls.reuses s'))

theorem completeBound_eq (s : Block) (hreplay : s.recov.replay = false) : completeBound s =
    boundEnds s.bnd.advance (boundHalts s) false (boundStatus s)
      (writeContext (writeManifest (settleEta s.bnd.advance (boundWords s)))) := by
  unfold completeBound boundEnds boundWords boundStatus boundHalts boundFails
  simp only [hreplay, Bool.false_eq_true, if_false, Bool.not_false, Bool.true_and, false_or]

theorem sameEnd_boundWords (s : Block) : SameEnd s (boundWords s) := by
  unfold boundWords
  exact .setNum (.setNum (.setNum (.setNum (.setNum (.setNum (.refl s) ..) ..) ..) ..) ..) ..

/-- A boundary that ends with enough links, no park request, no lost word and no split, below the retry limit, issues. -/
theorem completeBound_issues {s : Block} (hreplay : s.recov.replay = false) (hpark : s.recov.parkPending = false)
    (hunder : s.bnd.bits.testBit 10 = false) (hword : s.bnd.bits.testBit 17 = false) (hsplit : s.bnd.bits.testBit 18 = false)
    (hgo : s.bnd.advance = true ∨ satN 16 (num s 0x600005 + 1) < numS s 0x602100) : ∃ b, completeBound s = goIssue b := by
  have hhalts : boundHalts s = false := by
    unfold boundHalts boundFails
    rw [hreplay, bit_eq_testBit, bit_eq_testBit, hword, hsplit]
    obtain h | h := hgo
    · rw [h]
      rfl
    · cases s.bnd.advance with
      | true => rfl
      | false => simpa using h
  rw [completeBound_eq s hreplay, hhalts]
  have hsame := (sameEnd_boundWords s).settleEta s.bnd.advance |>.writeManifest.writeContext
  generalize writeContext _ = c at hsame ⊢
  exact boundEnds_issues (hsame.park.trans hpark) (hsame.under.trans hunder)

/-- One turn of the actions. -/
def boundTick (s : Block) : Block := if s.bnd.phase = .actions ∧ procRuns s 2 then boundStep s else s

theorem boundGo_eq (s : Block) : boundGo s = iter boundTick 40 s := rfl

theorem iter_succ {σ : Type} (f : σ → σ) (n : Nat) (s : σ) : iter f (n + 1) s = iter f n (f s) := rfl

theorem boundGo_completes {s : Block} (hphase : s.bnd.phase = .actions) (hnext : s.bnd.next = 12) (hcore : procRuns s 2 = true)
    (hend : (completeBound s).bnd.phase ≠ .actions) : boundGo s = completeBound s := by
  have hstep : boundStep s = completeBound s := by
    simp only [boundStep, hnext]
  have htick : boundTick s = completeBound s := (if_pos ⟨hphase, hcore⟩).trans hstep
  have hstay : boundTick (completeBound s) = completeBound s := if_neg fun h => hend h.1
  rw [boundGo_eq, show (40 : Nat) = 39 + 1 from rfl, iter_succ, htick]
  exact iter_fixed hstay 39

/-! ## Waits that end -/

theorem bnd_reportPrec (status : Nat) (s : Block) : (reportPrec status s).bnd = s.bnd := by
  have hset : ReportFrame s (setNum 0x234202 status (setNum 0x234201 (stepNo s) s)) := .setNum (.setNum (.refl s) ..) ..
  unfold reportPrec
  dsimp only
  split
  · exact hset.bnd
  · exact (ReportFrame.alert (hset.notify ..) ..).bnd

theorem testBit_failVote (s : Block) : (failVote s).bnd.bits.testBit 9 = true := by
  unfold failVote
  rw [bnd_reportPrec]
  exact testBit_stepBit 9 _

theorem bits_keepPrecision (old s : Block) : (keepPrecision old s).bnd.bits = s.bnd.bits := by
  have hset (v : Bytes) (x : Nat) : (setNum 0x235002 x (setDom 0x234100 v s)).bnd.bits = s.bnd.bits := by
    rw [bnd_setNum]
    rfl
  unfold keepPrecision
  split
  · rfl
  · exact hset ..

theorem testBit_lostVote (s : Block) : (lostVote s).bnd.bits.testBit 9 = true := by
  unfold lostVote
  dsimp only
  rw [bits_keepPrecision]
  exact testBit_failVote _

/-- The end of the wait for the agreement raises bit 18 at most. -/
theorem checkSplit_leaves (s : Block) : (checkSplit s).bnd.agreed = s.bnd.agreed ∧
    ∀ n, n ≠ 18 → (checkSplit s).bnd.bits.testBit n = s.bnd.bits.testBit n := by
  have hdecl (v : Nat) : (setDecl v s).bnd = s.bnd := (ReportFrame.setStatus (.refl s) ..).bnd
  unfold checkSplit noteBit
  split
  · refine ⟨?_, fun n hn => ?_⟩
    · dsimp only
      rw [hdecl]
    · dsimp only
      rw [hdecl, testBit_putBit_ne _ hn]
  · exact ⟨rfl, fun _ _ => rfl⟩

theorem decideAgree_refuses {s : Block} (hgroup : agreeGroup s = true) (hmissing : ∃ m ∈ agreePeers s, agreeBy s m = none) :
    (decideAgree s).bnd.agreed = false ∧ (decideAgree s).bnd.bits.testBit 7 = true := by
  obtain ⟨m, hm, hnone⟩ := hmissing
  have hpeers (f : Option AgreeF → Bool) (hf : f none = false) : ((agreePeers s).map (agreeBy s)).all f = false :=
    List.all_eq_false.mpr ⟨none, List.mem_map.mpr ⟨m, hm, hnone⟩, by rw [hf]; exact Bool.false_ne_true⟩
  have hpending (b : Block) : (pendingBit b).bnd = b.bnd := bnd_setNum ..
  unfold decideAgree
  dsimp only
  rw [hpeers _ rfl]
  simp only [hgroup, Bool.not_true, Bool.or_false, Bool.and_false, Bool.false_eq_true, if_false, hpending]
  have hafter (c : Prop) [Decidable c] (b : Block) (hb : b.bnd.agreed = false) :
      (if c then checkSplit (stepBit 7 b) else stepBit 7 b).bnd.agreed = false ∧
        (if c then checkSplit (stepBit 7 b) else stepBit 7 b).bnd.bits.testBit 7 = true := by
    obtain ⟨hagreed, hbits⟩ := checkSplit_leaves (stepBit 7 b)
    split
    · exact ⟨hagreed.trans hb, (hbits 7 (by decide)).trans (testBit_stepBit 7 b)⟩
    · exact ⟨hb, testBit_stepBit 7 b⟩
  have hdecl (v : Nat) (b : Block) (hb : b.bnd.agreed = false) : (setDecl v b).bnd.agreed = false := by
    rw [show (setDecl v b).bnd = b.bnd from (ReportFrame.setStatus (.refl b) ..).bnd, hb]
  exact hafter _ _ (hdecl _ _ rfl)

/-- Settles O30: the watchdog discards what is open; a completion that neither halts nor parks issues; a wait that ends goes on. -/
theorem boundariesEndTheStep : Obligations.BoundariesEndTheStep := by
  unfold Obligations.BoundariesEndTheStep
  refine ⟨fun s hwaits hstarted hrebuild => ?_, fun s hphase => ⟨fun hquiet hdescs => ?_, fun hbusy => ?_⟩,
    fun b hreplay => advance_actAdvance hreplay, fun s hphase hnext hcore hreplay hpark hunder hword hsplit hgo => ?_,
    fun s hcore => ⟨fun hphase hwait => ⟨testBit_lostVote _, ?_⟩, fun hphase hwait => ⟨decideAgree_refuses, ?_⟩, fun hunder => ⟨?_, ?_⟩⟩⟩
  · have hexec : exec .watchdogAbort s = .next { s with toBlock := discardOpen (cancelled s.toBlock) } :=
      effect_of_eq (f := doWatchdog) (doWatchdog_cancels hwaits hstarted hrebuild)
    have hframe := discardFrame_discardOpen (cancelled s.toBlock)
    have hopen := testBit_discardOpen (s := cancelled s.toBlock)
    have hwatch := hframe.bits 6 (testBit_stepBit 6 _)
    have heq := hframe.eq
    generalize discardOpen (cancelled s.toBlock) = t at hexec heq hopen hwatch
    refine ⟨_, hexec, rfl, ?_⟩
    dsimp only
    refine ⟨?_, ?_, ?_, ?_, ?_, ?_, ?_, ?_, hwatch, hopen⟩
    all_goals
      rw [heq]
      rfl
  · refine effect_of_eq (f := doBoundary) ?_
    unfold doBoundary
    rw [hphase]
    dsimp only
    exact if_pos (by rw [hquiet, hdescs]; rfl)
  · refine effect_of_eq (f := doBoundary) ?_
    unfold doBoundary
    rw [hphase]
    dsimp only
    refine if_neg ?_
    rw [Bool.and_eq_true, List.isEmpty_iff]
    rintro ⟨hquiet, hdescs⟩
    obtain h | h := hbusy
    · exact Bool.false_ne_true (h.symm.trans hquiet)
    · exact h hdescs
  · obtain ⟨b, hb⟩ := completeBound_issues hreplay hpark hunder hword hsplit hgo
    obtain ⟨hissue, hdone, -, hcycle⟩ := goIssue_leaves b
    have hgoes : boundGo s.toBlock = goIssue b :=
      (boundGo_completes hphase hnext hcore (by rw [hb, hdone]; nofun)).trans hb
    have hexec : exec .boundaryActions s = .next { s with toBlock := goIssue b } := by
      refine effect_of_eq (f := doBoundary) ?_
      unfold doBoundary
      rw [hphase]
      exact hgoes
    generalize goIssue b = t at hexec hissue hdone hcycle
    exact ⟨_, hexec, rfl, hissue, hdone, hcycle⟩
  · exact effect_of_eq (f := doVoteTimeout) (if_pos ⟨hphase, hwait, hcore⟩)
  · exact effect_of_eq (f := doAgreeTimeout) (if_pos ⟨hphase, hwait, hcore⟩)
  · refine effect_of_eq (f := doConnRetry) ?_
    exact if_pos (by rw [hunder, hcore]; rfl)
  · dsimp only
    intro hlinks hpark
    have hexec : exec .connectivityRetry s = _ := effect_of_eq (f := doConnRetry) (if_pos (by rw [hunder, hcore]; rfl))
    dsimp only at hexec
    rw [if_neg (by rw [hlinks]; exact Bool.false_ne_true), if_neg (by rw [hpark]; exact Bool.false_ne_true)] at hexec
    generalize openEta _ = b at hexec
    obtain ⟨hissue, -, hwait, hcycle⟩ := goIssue_leaves b
    generalize goIssue b = t at hexec hissue hwait hcycle
    exact ⟨_, hexec, rfl, hissue, hwait, hcycle⟩

end Sys2Proof.Machine
end

section
/-! SUPPORT. A frame that the page map names but no group has (R247); O33. -/

namespace Sys2Proof.Machine

/-- An entry whose location A names frame 16383 of group 63: a group has frames 0 to 8319. -/
def wideEntry : Nat := 63 * 2 ^ 22 + 16383 * 2 ^ 8 + 1

/-- Page 0 lies in that frame, which waits to migrate. -/
def wideFrame : State := { State.reset with
  mem := { State.reset.mem with pmap := [(0, wideEntry + 1)], fix := { State.reset.mem.fix with migrate := [540543] } } }

theorem wideFrame_waits : waitingFrame wideFrame.toBlock 0 = some 540543 := by decide +kernel

theorem wideFrame_here : peHere (pmapEntry wideFrame.toBlock 0) = 540543 := by decide +kernel

theorem wideFrame_picks : reservePick wideFrame.toBlock (540543 / 8320) = some 540672 := by decide +kernel

theorem wideFrame_moves : peHere (pmapEntry (moveFrame 540543 wideFrame.toBlock) 0) = 8192 := by decide +kernel

/-- Refutes O33: frame numbers run through all 14 bits of an entry's field, so a page can lie in a frame whose number counts as
group 64; its reserve frame 540672 does not fit the entry's group field, and after the migration the page names frame 8192 of
group 0. -/
theorem not_memoryRepairs : ¬ Obligations.MemoryRepairs := by
  unfold Obligations.MemoryRepairs
  rintro ⟨hmigrate, -⟩
  have hcore : procRuns wideFrame.toBlock 2 = true := by decide +kernel
  have hphase : wideFrame.bnd.phase ≠ .actions := by decide +kernel
  obtain ⟨hexec, t, hnext, -, -, hmoved⟩ := hmigrate wideFrame 0 540543 (by omega) hphase hcore wideFrame_waits
  have hmoves := wideFrame_moves
  generalize moveFrame 540543 wideFrame.toBlock = m at hexec hmoves
  rw [hexec] at hnext
  have ht : m = t.toBlock := congrArg State.toBlock (Host.Outcome.next.inj hnext)
  have hhere := hmoved 540672 wideFrame_picks wideFrame_here
  rw [← ht, hmoves] at hhere
  omega

end Sys2Proof.Machine
end

section
/-! SUPPORT. Targeted sentinels and margin sweeps (R342 to R347); O34. -/

namespace Sys2Proof.Machine

/-! ## Targeted sentinels -/

section
variable {s : Block} {gal : Nat} {r : SuiteResult} {t : Target}

/-- The module whose targeted sentinel is at work. -/
def atSentinel (gal : Nat) (t : Target) (s : Block) : Block :=
  suitesAtWork gal t.alcs (spoilLandings gal t.alcs { s with rel := { s.rel with targets := s.rel.targets.erase t } })

theorem targetedHit_unarmed (h : armed s = false) : targetedHit t s = (false, s) := by
  unfold targetedHit
  dsimp only
  exact if_neg (by rw [h]; simp)

theorem doTargeted_unarmed (hfind : s.rel.targets.find? (fun t => t.gal == gal && sentinelMay s t && runsOn t r) = some t)
    (harm : armed s = false) : doTargeted gal r s = match suiteEvent gal r with
      | some (code, loc) => hardFault gal r (detect code loc false 0 0 [] (atSentinel gal t s))
      | none => if fencePends (atSentinel gal t s) t.loc then atSentinel gal t s else marginalEvent gal (atSentinel gal t s) := by
  have harmed : armed (atSentinel gal t s) = false := harm
  unfold doTargeted
  rw [hfind]
  dsimp only
  rw [show suitesAtWork gal t.alcs (spoilLandings gal t.alcs { s with rel := { s.rel with targets := s.rel.targets.erase t } }) =
    atSentinel gal t s from rfl, targetedHit_unarmed harmed]
  cases suiteEvent gal r with
  | none => rfl
  | some e => rfl

theorem exec_sentinel {s : State} {fails : Option Suite} {unit : Nat} {badCols : List Nat} (hgal : gal < 50) {b : Block}
    (h : doTargeted gal (SuiteResult.of fails unit badCols) s.toBlock = b) :
    exec (.targetedSentinel gal fails unit badCols) s = .next { s with toBlock := b } :=
  (if_neg (by omega)).trans (effect_of_eq (f := doTargeted gal (SuiteResult.of fails unit badCols)) h)

theorem sentinel_atWork {a : Nat} (ha : a ∈ t.alcs) : ∃ w ∈ (atSentinel gal t s).rel.sentinels,
    w.gal = gal ∧ w.suite = 0 ∧ w.unit = a ∧ w.stop = cyc s + suiteLen 0 :=
  ⟨_, List.mem_append_right _ (List.mem_map.mpr ⟨a, ha, rfl⟩), rfl, rfl, rfl, rfl⟩

end

/-! ## The galleries that a sweep makes unfit -/

section
variable {s t : Block}

theorem galFit_congr {g : Nat} (hrel : floorRecs t = floorRecs s) (hunfit : g ∈ t.rel.sweepUnfit ↔ g ∈ s.rel.sweepUnfit) :
    galFit t g = galFit s g := by
  unfold galFit galFenced fencedArrs arrFenced
  rw [hrel, show t.rel.sweepUnfit.contains g = s.rel.sweepUnfit.contains g by
    rw [Bool.eq_iff_iff, List.contains_iff_mem, List.contains_iff_mem, hunfit]]

theorem boundPhys_congr (h : t.bind = s.bind) : boundPhys t = boundPhys s := by
  unfold boundPhys
  rw [h]

theorem hallFree_congr {hall : Nat} (hrel : floorRecs t = floorRecs s) (hbind : t.bind = s.bind)
    (hunfit : ∀ g, galHall g = hall → (g ∈ t.rel.sweepUnfit ↔ g ∈ s.rel.sweepUnfit)) : hallFree t hall = hallFree s hall := by
  unfold hallFree
  rw [boundPhys_congr hbind]
  rw [Bool.eq_iff_iff, List.any_eq_true, List.any_eq_true]
  refine exists_congr fun g => and_congr_right fun hg => ?_
  obtain ⟨i, hi, rfl⟩ := List.mem_map.mp hg
  have hall' : galHall (i + 25 * hall) = hall := by
    have := List.mem_range.mp hi
    unfold galHall
    omega
  rw [galFit_congr hrel (hunfit _ hall')]

/-- The gallery of a hall that is due for a sweep. -/
def dueGal (s : Block) (hall : Nat) : Option Nat := (sweepOrder s).find? (fun g => galHall g == hall && (boundPhys s).contains g)

/-- What a sweep that falls due changes: the unfit galleries, by the one of its hall. -/
structure SweepDue (hall : Nat) (s t : Block) : Prop where
  eq : t = { s with rel := { s.rel with sweepUnfit := t.rel.sweepUnfit } }
  kept : ∀ u ∈ s.rel.sweepUnfit, u ∈ t.rel.sweepUnfit
  new : ∀ u ∈ t.rel.sweepUnfit, u ∈ s.rel.sweepUnfit ∨ (galHall u = hall ∧ u ∈ boundPhys s)
  due : hallFree s hall = true → (∀ u ∈ s.rel.sweepUnfit, galHall u ≠ hall) → ∀ g, dueGal s hall = some g → g ∈ t.rel.sweepUnfit

theorem sweepDue_spec (hall : Nat) (s : Block) : SweepDue hall s (sweepDue hall s) := by
  unfold sweepDue
  split
  case isTrue hno =>
    refine ⟨rfl, fun _ h => h, fun _ h => .inl h, fun hfree hunfit => ?_⟩
    obtain h | h := hno
    · rw [hfree] at h
      exact absurd h Bool.false_ne_true
    · obtain ⟨u, hu, hhall⟩ := List.any_eq_true.mp h
      exact absurd (beq_iff_eq.mp hhall) (hunfit u hu)
  case isFalse =>
    split
    case h_1 hnone => exact ⟨rfl, fun _ h => h, fun _ h => .inl h, fun _ _ g hg => by
      unfold dueGal at hg
      rw [hnone] at hg
      exact absurd hg nofun⟩
    case h_2 g hg =>
      have hprop := List.find?_some hg
      rw [Bool.and_eq_true, beq_iff_eq, List.contains_iff_mem] at hprop
      refine ⟨rfl, fun u hu => (mem_setAdd ..).mpr (.inl hu), fun u hu => ?_, fun _ _ g' hg' => ?_⟩
      · obtain h | rfl := (mem_setAdd ..).mp hu
        · exact .inl h
        · exact .inr hprop
      · unfold dueGal at hg'
        rw [hg] at hg'
        exact (mem_setAdd ..).mpr (.inr (Option.some.inj hg').symm)

theorem find?_congr_mem {l : List Nat} {p q : Nat → Bool} (h : ∀ a ∈ l, p a = q a) : l.find? p = l.find? q := by
  induction l with
  | nil => rfl
  | cons a l ih =>
    rw [List.find?_cons, List.find?_cons, h a List.mem_cons_self, ih fun b hb => h b (List.mem_cons_of_mem a hb)]

theorem sweepPick_congr (hbind : t.bind = s.bind) (hswept : t.rel.sweptUpTo = s.rel.sweptUpTo)
    (hunfit : ∀ g, g ∉ boundPhys s → (g ∈ t.rel.sweepUnfit ↔ g ∈ s.rel.sweepUnfit)) : sweepPick t = sweepPick s := by
  have hfind : ((sweepOrder s).filter (fun g => !((boundPhys s).contains g))).find? (fun g => t.rel.sweepUnfit.contains g) =
      ((sweepOrder s).filter (fun g => !((boundPhys s).contains g))).find? (fun g => s.rel.sweepUnfit.contains g) := by
    refine find?_congr_mem fun g hg => ?_
    have hfree : g ∉ boundPhys s := by simpa using (List.mem_filter.mp hg).2
    rw [Bool.eq_iff_iff, List.contains_iff_mem, List.contains_iff_mem, hunfit g hfree]
  have horder : sweepOrder t = sweepOrder s := by
    unfold sweepOrder
    rw [hswept]
  unfold sweepPick
  rw [horder, boundPhys_congr hbind]
  dsimp only
  rw [hfind]

theorem sweepPick_free {g : Nat} (h : sweepPick s = some g) : g ∉ boundPhys s := by
  have hmem : g ∈ (sweepOrder s).filter (fun g => !((boundPhys s).contains g)) := by
    unfold sweepPick at h
    dsimp only at h
    split at h
    case h_1 hfind => exact Option.some.inj h ▸ List.mem_of_find?_eq_some hfind
    case h_2 => exact List.mem_of_head? h
  simpa using (List.mem_filter.mp hmem).2

/-- Where every unfit gallery is bound, the first unbound one is picked. -/
theorem sweepPick_first (h : ∀ u ∈ s.rel.sweepUnfit, u ∈ boundPhys s) :
    sweepPick s = (sweepOrder s).find? (fun g => !((boundPhys s).contains g)) := by
  have hnone : ((sweepOrder s).filter (fun g => !((boundPhys s).contains g))).find? (fun g => s.rel.sweepUnfit.contains g) = none := by
    refine List.find?_eq_none.mpr fun g hg hunfit => ?_
    have hfree : g ∉ boundPhys s := by simpa using (List.mem_filter.mp hg).2
    exact hfree (h g (List.contains_iff_mem.mp hunfit))
  unfold sweepPick
  dsimp only
  rw [hnone]
  exact List.head?_filter

/-! ## A margin sweep starts -/

/-- Galleries fall due for a sweep in both halls. -/
structure SweepsDue (s t : Block) : Prop where
  eq : t = { s with rel := { s.rel with sweepUnfit := t.rel.sweepUnfit } }
  new : ∀ u ∈ t.rel.sweepUnfit, u ∈ s.rel.sweepUnfit ∨ u ∈ boundPhys s
  kept : ∀ u ∈ s.rel.sweepUnfit, u ∈ t.rel.sweepUnfit
  due : ∀ h g, h < 2 → hallFree s h = true → (∀ u ∈ s.rel.sweepUnfit, galHall u ≠ h) → dueGal s h = some g →
    g ∈ t.rel.sweepUnfit

theorem sweepsDue_spec (s : Block) : SweepsDue s (sweepDue 1 (sweepDue 0 s)) := by
  have h0 := sweepDue_spec 0 s
  have h1 := sweepDue_spec 1 (sweepDue 0 s)
  generalize sweepDue 0 s = t at h0 h1
  generalize sweepDue 1 t = u at h1
  have hbind : t.bind = s.bind := by rw [h0.eq]
  have hswept : t.rel.sweptUpTo = s.rel.sweptUpTo := by rw [h0.eq]
  have hrecs : floorRecs t = floorRecs s := by rw [h0.eq]; rfl
  have hhall : ∀ g, galHall g = 1 → (g ∈ t.rel.sweepUnfit ↔ g ∈ s.rel.sweepUnfit) := fun g hg =>
    ⟨fun hmem => (h0.new g hmem).resolve_right fun h => by omega, h0.kept g⟩
  refine ⟨?_, fun g hg => ?_, fun g hg => h1.kept g (h0.kept g hg), fun h g hlt hfree hunfit hdue => ?_⟩
  · calc u = { t with rel := { t.rel with sweepUnfit := u.rel.sweepUnfit } } := h1.eq
      _ = { s with rel := { s.rel with sweepUnfit := u.rel.sweepUnfit } } := by rw [h0.eq]
  · obtain h | ⟨-, h⟩ := h1.new g hg
    · exact (h0.new g h).imp_right And.right
    · exact .inr (boundPhys_congr hbind ▸ h)
  · obtain rfl | rfl : h = 0 ∨ h = 1 := by omega
    · exact h1.kept g (h0.due hfree hunfit g hdue)
    · refine h1.due ((hallFree_congr hrecs hbind hhall).trans hfree) (fun u hu hg => hunfit u ((hhall u hg).mp hu) hg) g ?_
      rw [← hdue]
      unfold dueGal sweepOrder
      rw [hswept, boundPhys_congr hbind]

theorem SweepsDue.sweepPick (h : SweepsDue s t) : sweepPick t = Machine.sweepPick s :=
  sweepPick_congr (by rw [h.eq]) (by rw [h.eq]) fun g hfree => ⟨fun hg => (h.new g hg).resolve_right hfree, h.kept g⟩

theorem doMarginSweep_eq (hon : numF s 0x522001 ≠ 0) (hnone : s.rel.sweep = none) (hsched : procRuns s 2 = true)
    (hpower : procRuns s 1 = true) (hdormant : pstate s ≠ 4) (hhalls : halls s = true)
    (ht : sweepDue 1 (sweepDue 0 (setRelBit 5 (!(hallFree s 0) || !(hallFree s 1)) s)) = t) :
    doMarginSweep s = match sweepPick t with
      | none => t
      | some g => setRelBit 6 true (sweepAt { (default : Sweep) with gal := g } 0 false t) := by
  subst ht
  unfold doMarginSweep
  exact if_neg (by simp [*])

theorem reportFrame_setRelBit (n : Nat) (b : Bool) (s : Block) : ReportFrame s (setRelBit n b s) := (ReportFrame.refl s).setStatus ..

theorem num_setRelBit (n : Nat) (b : Bool) (s : Block) :
    num (setRelBit n b s) 0x502000 = putBit (num s 0x502000) n b := num_setStatus_same _ (by decide) ..

theorem logs_setRelBit (n : Nat) (b : Bool) (s : Block) : (setRelBit n b s).logs = s.logs := logs_setStatus ..

/-- What the two status bits and the galleries that fall due leave for the sweep's choice. -/
theorem marginSweep_due (b : Bool) (ht : SweepsDue (setRelBit 5 b s) t) :
    sweepPick t = sweepPick s ∧ t.rel = { s.rel with sweepUnfit := t.rel.sweepUnfit } ∧ num t 0x502000 = putBit (num s 0x502000) 5 b ∧
    ∀ h g, h < 2 → hallFree s h = true → (∀ u ∈ s.rel.sweepUnfit, galHall u ≠ h) → dueGal s h = some g → g ∈ t.rel.sweepUnfit := by
  have hframe := reportFrame_setRelBit 5 b s
  have hnum := num_setRelBit 5 b s
  generalize setRelBit 5 b s = s1 at ht hframe hnum
  have hrecs : floorRecs s1 = floorRecs s := by unfold floorRecs; rw [hframe.rel]
  refine ⟨ht.sweepPick.trans (sweepPick_congr hframe.bind (by rw [hframe.rel]) fun g _ => by rw [hframe.rel]), ?_, ?_, ?_⟩
  · rw [ht.eq, ← hframe.rel]
  · rw [← hnum, ht.eq]
    rfl
  · intro h g hlt hfree hunfit hdue
    refine ht.due h g hlt ?_ (by rwa [hframe.rel]) ?_
    · rwa [hallFree_congr hrecs hframe.bind fun g _ => by rw [hframe.rel]]
    · rw [← hdue]
      unfold dueGal sweepOrder
      rw [hframe.rel, boundPhys_congr hframe.bind]

/-! ## A point of a margin sweep -/

theorem sweepEnd_leaves (w : Sweep) (flags : Nat) (s : Block) : (sweepEnd w flags s).rel.sweep = none ∧
    (sweepEnd w flags s).rel.sweptUpTo = (w.gal + 1) % 50 ∧
    ∃ p, (sweepEnd w flags s).logs.cper.getLast? = some p ∧ p.code = 0xF2 ∧ p.loc = locOf 3 w.gal 0 0 0 0 := by
  unfold sweepEnd
  dsimp only
  rw [(reportFrame_setRelBit ..).rel, logs_setRelBit]
  exact ⟨rfl, rfl, _, getLast?_makeCper .., rfl, rfl⟩

variable {w : Sweep} {r : SuiteResult}

theorem doSweepPoint_passes (hsweep : s.rel.sweep = some w) (hpower : procRuns s 1 = true)
    (hinj : injects s 0x16 (locOf 3 w.gal 0 0 0 0) = false) (hpoint : w.point < 3) :
    ∃ v, (doSweepPoint .pass s).rel.sweep = some v ∧ v.gal = w.gal ∧ v.point = w.point + 1 ∧ v.failed = w.failed := by
  unfold doSweepPoint
  rw [hsweep]
  dsimp only
  rw [hpower, inject_none hinj]
  dsimp only
  rw [if_neg (by decide), if_neg (by simp), if_pos hpoint]
  exact ⟨_, rfl, rfl, rfl, rfl⟩

theorem doSweepPoint_fails (hsweep : s.rel.sweep = some w) (hpower : procRuns s 1 = true)
    (hinj : injects s 0x16 (locOf 3 w.gal 0 0 0 0) = false) (hpoint : w.point = 0) (hr : r ≠ .pass) :
    ∃ t, doSweepPoint r s = sweepEnd w 2 t := by
  have hok : (r == .pass) = false := beq_false_of_ne hr
  unfold doSweepPoint
  rw [hsweep]
  dsimp only
  rw [hpower, inject_none hinj]
  dsimp only
  rw [if_neg (by decide), if_pos (by rw [hok, hpoint]; rfl)]
  exact ⟨_, rfl⟩

end

/-- Settles O34: a sentinel's fate follows from its suite's result; a sweep picks its gallery by the order, as the galleries
that it makes unfit are bound ones. -/
theorem sentinelsAndSweepsClassify : Obligations.SentinelsAndSweepsClassify := by
  refine ⟨?_, ?_, fun s w hsweep hpower hinj => ⟨fun hpoint => ?_, fun r hpoint hr => ?_⟩⟩
  · intro s gal fails unit badCols t hgal r hfind harm b
    refine ⟨fun a => sentinel_atWork, fun hr => ?_, fun code loc hev => ?_⟩
    · refine exec_sentinel hgal ((doTargeted_unarmed hfind harm).trans ?_)
      rw [hr]
      rfl
    · refine exec_sentinel hgal ((doTargeted_unarmed hfind harm).trans ?_)
      rw [hev]
      rfl
  · intro s hon hnone hsched hpower hdormant hhalls due
    generalize hb : (!(hallFree s.toBlock 0) || !(hallFree s.toBlock 1)) = blocked
    have hdue := sweepsDue_spec (setRelBit 5 blocked s.toBlock)
    have hdo := doMarginSweep_eq hon hnone hsched hpower hdormant hhalls (by rw [hb])
    generalize sweepDue 1 (sweepDue 0 (setRelBit 5 blocked s.toBlock)) = t at hdue hdo
    obtain ⟨hpick, hrel, hbits, hunfit⟩ := marginSweep_due blocked hdue
    have hfive : (num t 0x502000).testBit 5 = blocked := by rw [hbits, testBit_putBit_same]
    rw [hpick] at hdo
    cases hp : sweepPick s.toBlock with
    | none =>
      rw [hp] at hdo
      exact ⟨_, effect_of_eq hdo, rfl, hfive, hunfit, fun _ => (congrArg Rel.sweep hrel).trans hnone, nofun, fun h => hp ▸ sweepPick_first h⟩
    | some g =>
      rw [hp] at hdo
      have hsix := reportFrame_setRelBit 6 true (sweepAt { (default : Sweep) with gal := g } 0 false t)
      have hnum := num_setRelBit 6 true (sweepAt { (default : Sweep) with gal := g } 0 false t)
      dsimp only at hdo
      generalize setRelBit 6 true (sweepAt { (default : Sweep) with gal := g } 0 false t) = u at hdo hsix hnum
      have hguard : guardOf t g = guardOf s.toBlock g := by unfold guardOf; rw [hrel]
      refine ⟨_, effect_of_eq hdo, rfl, ?_, ?_, nofun, fun g' hg' => ?_, fun h => hp ▸ sweepPick_first h⟩
      · rw [hnum, testBit_putBit_ne _ (by decide)]
        exact hfive
      · intro h g' hlt hfree hall hd
        rw [hsix.rel]
        exact hunfit h g' hlt hfree hall hd
      · obtain rfl := Option.some.inj hg'
        refine ⟨sweepPick_free hp, ?_, ?_⟩
        · rw [hnum, testBit_putBit_same]
        · rw [hsix.rel, ← hguard]
          rfl
  · exact ⟨_, effect_of_eq rfl, rfl, doSweepPoint_passes hsweep hpower hinj hpoint⟩
  · obtain ⟨t, ht⟩ := doSweepPoint_fails hsweep hpower hinj hpoint hr
    exact ⟨_, effect_of_eq ht, rfl, sweepEnd_leaves w 2 t⟩

end Sys2Proof.Machine
end

section
/-! SUPPORT. What the security core writes to flash and signs (R349, R356, R372, R404); O35. -/

namespace Sys2Proof.Machine

section
variable {s : Block}

theorem doFloorWrite_oldest {r : Nat × Nat} {rest : List (Nat × Nat)} (hwait : s.rel.floorWait = r :: rest)
    (hrun : procRuns s 0 = true) :
    doFloorWrite s = { s with rel := { s.rel with floorMap := s.rel.floorMap ++ [r], floorWait := rest } } := by
  unfold doFloorWrite
  rw [hwait]
  exact if_pos hrun

theorem doPersist_first {k : Nat} {rest : List Nat} (hwait : s.store.unwritten = k :: rest) (hpower : pstate s ≠ 0)
    (hrun : procRuns s 0 = true) : doPersist s =
      { (if k = 0x1F0002 then writeEpoch s else writeFlash k s) with
        store := { (if k = 0x1F0002 then writeEpoch s else writeFlash k s).store with
          unwritten := setDel (if k = 0x1F0002 then writeEpoch s else writeFlash k s).store.unwritten k } } := by
  unfold doPersist
  rw [hwait]
  exact if_neg (by simp [*])

theorem writeFlash_num {k : Nat} {o : ObjDef} (ho : objFind k = some o) (htyp : typSize o.typ ≠ 0) : writeFlash k s =
    { s with store := { s.store with flashN := mapSet (numDflt s.arc.slot k) s.store.flashN k (num s k) } } := by
  unfold writeFlash
  rw [ho]
  dsimp only
  rw [if_pos (decide_eq_true htyp)]

theorem writeFlash_dom {k : Nat} {o : ObjDef} (ho : objFind k = some o) (htyp : typSize o.typ = 0) : writeFlash k s =
    { s with store := { s.store with flashD := mapSet (domDflt k) s.store.flashD k (dom s k) } } := by
  unfold writeFlash
  rw [ho]
  dsimp only
  rw [if_neg (by simpa using htyp)]

/-- A write of one object changes flash alone. -/
theorem writeFlash_values (k : Nat) (s : Block) :
    (writeFlash k s).store.nums = s.store.nums ∧ (writeFlash k s).store.doms = s.store.doms := by
  unfold writeFlash
  cases objFind k with
  | none => exact ⟨rfl, rfl⟩
  | some o =>
    dsimp only
    split <;> exact ⟨rfl, rfl⟩

theorem not_mem_setDel (l : List Nat) (n : Nat) : n ∉ setDel l n := by simp [setDel]

theorem doSign_oldest {i : Nat} {rest : List Nat} (hwait : s.recov.signWait = i :: rest) (hpower : pstate s ≠ 0)
    (hrun : procRuns s 0 = true) : doSign s = { s with recov := { s.recov with
      manifests := if signMode s = 0
        then setNth s.recov.manifests i (signManifest s (nth s.recov.manifests i [])) else s.recov.manifests
      signWait := rest } } := by
  unfold doSign
  rw [hwait]
  exact if_neg (by simp [*])

theorem length_slice (b : Bytes) (off n : Nat) : (slice b off n).length = n := by
  simp only [slice, List.length_append, List.length_replicate, List.length_take]
  omega

theorem slice_self (b : Bytes) : slice b 0 b.length = b := by simp [slice]

theorem notify_sends (key : Nat) (v : Bytes) (s : Block) : ∃ f, (notify key v s).portico.out = s.portico.out ++ [f] ∧ f.svc = 7 ∧
    f.index = key / 256 ∧ f.sub = key % 256 ∧ f.data.take 8 = slice v 0 8 := by
  unfold notify bumpNum
  dsimp only
  rw [setNum_keeps_portico, setNum_keeps_portico]
  refine ⟨_, rfl, rfl, rfl, rfl, ?_⟩
  dsimp only
  rw [List.append_assoc, List.append_assoc, List.take_left' (length_slice ..)]

theorem notifyNum_sends (key : Nat) (s : Block) : ∃ f, (notifyNum key s).portico.out = s.portico.out ++ [f] ∧ f.svc = 7 ∧
    f.index = key / 256 ∧ f.sub = key % 256 ∧ f.data.take 8 = leBytes 8 (num s key) := by
  obtain ⟨f, hout, hsvc, hindex, hsub, hdata⟩ := notify_sends key (leBytes 8 (num s key)) s
  refine ⟨f, hout, hsvc, hindex, hsub, hdata.trans ?_⟩
  simpa only [length_leBytes] using slice_self (leBytes 8 (num s key))

theorem doCperNotify_due (h : s.logs.cperDue = true) :
    doCperNotify s = notifyNum 0x540101 { s with logs := { s.logs with cperDue := false } } := if_pos h

end

/-- Settles O35: each event of the security core acts on the first entry of its list, where the core runs. -/
theorem theSecurityCoreWritesFlash : Obligations.TheSecurityCoreWritesFlash := by
  refine ⟨fun s r rest hwait hrun => effect_of_eq (doFloorWrite_oldest hwait hrun), fun s k rest hwait hpower hrun => ?_,
    fun s i rest hwait hpower hrun => effect_of_eq (doSign_oldest hwait hpower hrun), fun s hdue => ?_⟩
  · have hexec := effect_of_eq (doPersist_first hwait hpower hrun)
    have hepoch : k = 0x1F0002 → (if k = 0x1F0002 then writeEpoch s.toBlock else writeFlash k s.toBlock) = writeEpoch s.toBlock :=
      fun hk => if_pos hk
    have hflash : k ≠ 0x1F0002 → (if k = 0x1F0002 then writeEpoch s.toBlock else writeFlash k s.toBlock) = writeFlash k s.toBlock :=
      fun hk => if_neg hk
    generalize (if k = 0x1F0002 then writeEpoch s.toBlock else writeFlash k s.toBlock) = t at hexec hepoch hflash
    have hvalues : t.store.nums = s.store.nums ∧ t.store.doms = s.store.doms := by
      by_cases hk : k = 0x1F0002
      · rw [hepoch hk]
        exact ⟨rfl, rfl⟩
      · rw [hflash hk]
        exact writeFlash_values k s.toBlock
    refine ⟨_, hexec, rfl, (not_mem_setDel _ k : k ∉ setDel t.store.unwritten k), hvalues.1, hvalues.2, fun hk => ?_,
      fun o hk ho htyp => ?_, fun o hk ho htyp => ?_⟩
    · rw [hepoch hk, hk]
      exact ⟨rfl, rfl⟩
    · rw [hflash hk, writeFlash_num ho htyp]
      exact mapGet_mapSet_same ..
    · rw [hflash hk, writeFlash_dom ho htyp]
      exact mapGet_mapSet_same ..
  · refine ⟨_, effect_of_eq (doCperNotify_due hdue), rfl, ?_, ?_⟩
    · dsimp only
      rw [logs_notifyNum]
    · exact notifyNum_sends 0x540101 { s.toBlock with logs := { s.logs with cperDue := false } }

end Sys2Proof.Machine
end

section
/-! SUPPORT. How restarts of processors and activations end (R432 to R439); O38. -/

namespace Sys2Proof.Machine

/-! ## A restarted processor -/

section
variable (n : Nat) (s : Block)

/-- The state in which a restarted processor, other than the scheduler core, runs again. -/
def upAgain : Block :=
  let s := noteImage n (reportProcs (setProc n { proc s n with running := true, fails := 0 } s))
  let s := if n = 0 then logLatched n (flushFatal s) else s
  if 3 ≤ n then testGallery (n - 3) s else s

theorem restartOk_eq (h : n ≠ 2) : restartOk n s =
    if (upAgain n s).fw.activating && (upAgain n s).fw.order.head? == some n && (proc (upAgain n s) n).staged then activated (upAgain n s)
    else if (upAgain n s).fw.reverting.head? == some n then reverted (upAgain n s)
    else upAgain n s := by
  have hpair : (n = 0 ∨ n = 2) ↔ n = 0 := or_iff_left h
  unfold restartOk upAgain
  simp only [if_neg h, hpair]
  by_cases h0 : n = 0
  · simp only [if_pos h0]
  · simp only [if_neg h0]

theorem fw_noteImage : (noteImage n s).fw = { s.fw with loaded := (noteImage n s).fw.loaded } := by
  unfold noteImage
  dsimp only
  split <;> rfl

theorem fw_logLatched : (logLatched n s).fw = s.fw :=
  forEach_proj Block.fw (fun _ _ t => (ReportFrame.detect (.refl t) ..).fw) _

theorem fw_testGallery (g : Nat) : (testGallery g s).fw = s.fw := by
  unfold testGallery
  split <;> rfl

theorem logs_testGallery (g : Nat) : (testGallery g s).logs = s.logs := by
  unfold testGallery
  split <;> rfl

theorem fw_upAgain : (upAgain n s).fw =
    { (setProc n { proc s n with running := true, fails := 0 } s).fw with loaded := (upAgain n s).fw.loaded } := by
  have hnote := fw_noteImage n (reportProcs (setProc n { proc s n with running := true, fails := 0 } s))
  rw [fw_reportProcs] at hnote
  unfold upAgain
  dsimp only
  generalize noteImage n (reportProcs (setProc n { proc s n with running := true, fails := 0 } s)) = t at hnote ⊢
  have hlogged : (if n = 0 then logLatched n (flushFatal t) else t).fw = t.fw := by
    split
    · exact fw_logLatched n (flushFatal t)
    · rfl
  generalize (if n = 0 then logLatched n (flushFatal t) else t) = u at hlogged ⊢
  have htested : (if 3 ≤ n then testGallery (n - 3) u else u).fw = u.fw := by
    split
    · exact fw_testGallery ..
    · rfl
  rw [htested, hlogged]
  exact hnote

theorem proc_upAgain : proc (upAgain n s) n = { proc s n with running := true, fails := 0 } := by
  unfold proc
  rw [fw_upAgain]
  exact proc_setProc_same ..

end

/-! ## The restarts of a reversion -/

section
variable {n : Nat} {s : Block}

theorem fw_beginRestart (staged : Bool) : (beginRestart n staged s).fw =
    (setProc n { proc s n with running := false, halted := false, hold100 := false, staged } s).fw := by
  unfold beginRestart
  rw [fw_reportProcs, fw_countRestart]

theorem fw_revertNext_nil (h : s.fw.reverting = []) : (revertNext s).fw = { s.fw with activating := false } := by
  unfold revertNext longDone
  rw [h]
  dsimp only
  rw [(ReportFrame.alert (.refl _) ..).fw, setNum_keeps_fw, fw_setFwBit, fw_setFwBit]

theorem fw_revertNext_cons {m : Nat} {rest : List Nat} (h : s.fw.reverting = m :: rest) : (revertNext s).fw =
    (setProc m { proc s m with running := false, halted := false, hold100 := false, staged := false } s).fw := by
  unfold revertNext
  rw [h]
  exact fw_beginRestart false

theorem revertNext_order (s : Block) : (revertNext s).fw.order = s.fw.order ∧ (revertNext s).fw.reverting = s.fw.reverting := by
  cases h : s.fw.reverting with
  | nil =>
    rw [fw_revertNext_nil h]
    exact ⟨rfl, h⟩
  | cons m rest =>
    rw [fw_revertNext_cons h]
    exact ⟨rfl, h⟩

/-- The head of a reversion restarts on the previous set. -/
theorem revertNext_head {m : Nat} (h : s.fw.reverting.head? = some m) : (revertNext s).fw.activating = s.fw.activating ∧
    (proc (revertNext s) m).running = false ∧ (proc (revertNext s) m).staged = false := by
  obtain ⟨rest, hrest⟩ := List.head?_eq_some_iff.mp h
  have hfw := fw_revertNext_cons hrest
  rw [proc_congr hfw, proc_setProc_same, hfw]
  exact ⟨rfl, rfl, rfl⟩

/-- A reversion with nothing to restart has ended. -/
theorem revertNext_ends (h : s.fw.reverting = []) : (revertNext s).fw.activating = false ∧ num (revertNext s) 0x802100 = 8 := by
  rw [fw_revertNext_nil h]
  refine ⟨rfl, ?_⟩
  unfold revertNext longDone
  rw [h]
  dsimp only
  rw [num_alert, num_setNum_same]

/-- A reversion begins with the last processor of the activation's order that runs the new image. -/
theorem revertActivation_leaves (s : Block) : (revertActivation s).fw.order = [] ∧
    (revertActivation s).fw.reverting = ((range' 3 50 ++ [2, 0, 1]).filter (fun m => (proc s m).staged && !(proc s m).held)).reverse ∧
    (∀ m, (revertActivation s).fw.reverting.head? = some m →
      (proc (revertActivation s) m).running = false ∧ (proc (revertActivation s) m).staged = false) ∧
    ((revertActivation s).fw.reverting = [] → (revertActivation s).fw.activating = false ∧ num (revertActivation s) 0x802100 = 8) := by
  unfold revertActivation
  dsimp only
  generalize ((range' 3 50 ++ [2, 0, 1]).filter (fun m => (proc s m).staged && !(proc s m).held)).reverse = l
  generalize hb : ({ s with fw := { s.fw with deferred := false, waitSbound := false, order := [], reverting := l } } : Block) = b
  have hnone : b.fw.order = [] := by rw [← hb]
  have hlist : b.fw.reverting = l := by rw [← hb]
  obtain ⟨horder, hrev⟩ := revertNext_order b
  rw [horder, hrev]
  exact ⟨hnone, hlist, fun m hm => (revertNext_head hm).2, revertNext_ends⟩

/-- The next restart of a reversion, or its end. -/
theorem reverted_leaves {rest : List Nat} (h : s.fw.reverting = n :: rest) : (reverted s).fw.reverting = rest ∧
    (rest = [] → (reverted s).fw.activating = false ∧ num (reverted s) 0x802100 = 8) ∧
    (∀ m, rest.head? = some m → (reverted s).fw.activating = s.fw.activating ∧ (proc (reverted s) m).running = false ∧
      (proc (reverted s) m).staged = false) := by
  unfold reverted
  generalize hb : ({ s with fw := { s.fw with reverting := s.fw.reverting.drop 1 } } : Block) = b
  have hlist : b.fw.reverting = rest := by rw [← hb, h]; rfl
  have hact : b.fw.activating = s.fw.activating := by rw [← hb]
  rw [← hlist, ← hact]
  exact ⟨(revertNext_order b).2, revertNext_ends, fun m => revertNext_head⟩

/-! ## Restarts that succeed -/

/-- Outside an activation a restarted processor runs, with no failure counted. -/
theorem restartOk_runs (hn : n ≠ 2) (hact : s.fw.activating = false) (hrev : s.fw.reverting = []) :
    (proc (restartOk n s) n).running = true ∧ (proc (restartOk n s) n).fails = 0 := by
  rw [restartOk_eq n s hn, if_neg (by rw [fw_upAgain]; simp [setProc, hact]), if_neg (by rw [fw_upAgain]; simp [setProc, hrev]),
    proc_upAgain]
  exact ⟨rfl, rfl⟩

/-- In a reversion the restarted processor at its head makes way for the next. -/
theorem restartOk_reverts {rest : List Nat} (hn : n ≠ 2) (horder : s.fw.order = []) (hrev : s.fw.reverting = n :: rest) :
    restartOk n s = reverted (upAgain n s) := by
  rw [restartOk_eq n s hn, if_neg (by rw [fw_upAgain]; simp [setProc, horder]), if_pos (by rw [fw_upAgain]; simp [setProc, hrev])]

/-! ## Restarts that fail -/

variable {g : Nat}

/-- A core that fails its restart counts the failure and restarts again. -/
theorem restartFails_again (hn : n < 3) (hfails : (proc s n).fails + 1 < 3) (m : Nat) : proc (restartFails n false s) m =
    if m = n then { proc s n with fails := (proc s n).fails + 1 } else proc s m := by
  unfold restartFails
  dsimp only
  rw [if_neg (by omega), if_pos hfails, proc_congr ((fw_reportProcs _).trans (fw_countRestart _))]
  split
  case isTrue h => rw [h, proc_setProc_same]
  case isFalse h => exact proc_setProc_ne _ h _

/-- Its third failure in a row, outside an activation, is answered by a warm reset. -/
theorem restartFails_resets (hn : n < 3) (hfails : 3 ≤ (proc s n).fails + 1) (hact : s.fw.activating = false) :
    restartFails n false s = warmReset s := by
  unfold restartFails
  dsimp only
  rw [if_neg (by omega), if_neg (by omega), hact, Bool.false_and]
  exact if_neg Bool.false_ne_true

/-- The event of a failed restart test, with its gallery tested. -/
def tested (g : Nat) (s : Block) : Block := testGallery g (detect 0x17 (locOf 3 g 0 0 0 0) false 0 0 [] s)

theorem fw_tested : (tested g s).fw = s.fw := (fw_testGallery ..).trans (ReportFrame.detect (.refl s) ..).fw

theorem queueOf_gallery (h : g < 50) : queueOf (locOf 3 g 0 0 0 0) = g := by
  have hloc : locOf 3 g 0 0 0 0 = 3 * 2 ^ 60 + g * 2 ^ 54 := by
    unfold locOf
    simp only [Nat.shiftLeft_eq]
    omega
  have hdom : fld (3 * 2 ^ 60 + g * 2 ^ 54) 60 4 = 3 := by
    unfold fld
    rw [Nat.shiftRight_eq_div_pow]
    omega
  have hgal : fld (3 * 2 ^ 60 + g * 2 ^ 54) 54 6 = g := by
    unfold fld
    rw [Nat.shiftRight_eq_div_pow]
    omega
  rw [hloc]
  unfold queueOf
  dsimp only
  rw [hdom, if_pos (by decide), hgal]

theorem queue_tested (hg : g < 50) (h : (mapGet [] s.logs.queues g).length < 256) : ∃ e : ErrEntry,
    mapGet [] (tested g s).logs.queues g = mapGet [] s.logs.queues g ++ [e] ∧
      e.detector = 0x17 ∧ e.loc = locOf 3 g 0 0 0 0 ∧ e.injected = false := by
  have hevent := queue_detect 0x17 (locOf 3 g 0 0 0 0) 0 0 false [] (s := s) (by rwa [queueOf_gallery hg])
  rw [queueOf_gallery hg] at hevent
  unfold tested
  rwa [logs_testGallery]

/-- Outside an activation a gallery core that fails its restart test is held for 100 ms, and for good at its third failure
in a row. -/
theorem restartFails_gallery (hact : s.fw.activating = false) : restartFails (3 + g) false s =
    if (proc s (3 + g)).fails + 1 < 3 then
      setProc (3 + g) { proc s (3 + g) with fails := (proc s (3 + g)).fails + 1, hold100 := true } (tested g s)
    else reportProcs (fenceGal 2 g 2
      (setProc (3 + g) { proc s (3 + g) with fails := (proc s (3 + g)).fails + 1, held := true } (tested g s))) := by
  unfold restartFails gccFails
  dsimp only
  rw [hact, if_pos (by omega), Nat.add_sub_cancel_left]
  rfl

/-! ## The fence of a gallery -/

theorem fld_kind {kind a b : Nat} (hk : kind < 256) (ha : a < 256) (hb : b < 2 ^ 48) :
    fld (kind <<< 56 + a <<< 48 + b) 56 8 = kind := by
  unfold fld
  rw [Nat.shiftLeft_eq, Nat.shiftLeft_eq, Nat.shiftRight_eq_div_pow]
  omega

theorem rel_setRelBit (i : Nat) (b : Bool) (s : Block) : (setRelBit i b s).rel = s.rel := (reportFrame_setRelBit i b s).rel

/-- A record of the floor map waits for flash, and nothing else of the reliability state, the event queues and the
processors changes. -/
theorem floorRec_leaves (loc kind detail : Nat) (s : Block) : ∃ info, (kind < 256 → recKind info = kind) ∧
    (floorRec loc kind detail s).rel = { s.rel with floorWait := s.rel.floorWait ++ [(loc, info)] } ∧
    (floorRec loc kind detail s).logs = s.logs ∧ (floorRec loc kind detail s).fw = s.fw := by
  refine ⟨kind <<< 56 + (detail % 256) <<< 48 + stepNo s % 2 ^ 48,
    fun hk => fld_kind hk (Nat.mod_lt _ (by decide)) (Nat.mod_lt _ (by decide)), ?_⟩
  unfold floorRec
  dsimp only
  generalize kind <<< 56 + (detail % 256) <<< 48 + stepNo s % 2 ^ 48 = info
  generalize hb : ({ s with rel := { s.rel with floorWait := s.rel.floorWait ++ [(loc, info)] } } : Block) = b
  have htrim := RecordFrame.trimBuffer (.refl b)
  have hlogs := logs_trimBuffer b
  generalize trimBuffer b = t at htrim hlogs ⊢
  have hrel : t.rel = { s.rel with floorWait := s.rel.floorWait ++ [(loc, info)] } := htrim.rel.trans (by rw [← hb])
  have hlogs' : t.logs = s.logs := hlogs.trans (by rw [← hb])
  have hfw : t.fw = s.fw := htrim.fw.trans (by rw [← hb])
  split
  · rw [rel_setRelBit, logs_setRelBit, (reportFrame_setRelBit ..).fw]
    exact ⟨hrel, hlogs', hfw⟩
  · exact ⟨hrel, hlogs', hfw⟩

/-- A fence has its record, and leaves the event queues and the processors. -/
theorem fenceRec_leaves (flags loc kind detail : Nat) (s : Block) : (kind < 256 → floorHas (fenceRec flags loc kind detail s) kind loc = true) ∧
    (fenceRec flags loc kind detail s).logs.queues = s.logs.queues ∧ (fenceRec flags loc kind detail s).fw = s.fw := by
  obtain ⟨info, hkind, hrel, hlogs, hfw⟩ := floorRec_leaves loc kind detail s
  unfold fenceRec
  dsimp only
  generalize floorRec loc kind detail s = t at hrel hlogs hfw
  have haction : RecordFrame t (actionCper 0xF0 (flags + 8) kind loc t) := .cperNow (.refl t) ..
  have hqueues : (actionCper 0xF0 (flags + 8) kind loc t).logs.queues = t.logs.queues := queues_makeCper ..
  generalize actionCper 0xF0 (flags + 8) kind loc t = u at haction hqueues
  rw [logs_setRelBit, (reportFrame_setRelBit ..).fw]
  refine ⟨fun hk => ?_, hqueues.trans (congrArg Logs.queues hlogs), haction.fw.trans hfw⟩
  unfold floorHas floorRecs
  rw [rel_setRelBit]
  dsimp only
  rw [haction.rel, hrel]
  simp [hkind hk]

theorem fenceGal_leaves (flags g reason : Nat) (s : Block) : floorHas (fenceGal flags g reason s) 0x06 (locOf 3 g 0 0 0 0) = true ∧
    (fenceGal flags g reason s).logs.queues = s.logs.queues ∧ (fenceGal flags g reason s).fw = s.fw := by
  unfold fenceGal
  split
  case isTrue h => exact ⟨h, rfl, rfl⟩
  case isFalse =>
    obtain ⟨hhas, hqueues, hfw⟩ := fenceRec_leaves flags (locOf 3 g 0 0 0 0) 0x06 reason s
    generalize fenceRec flags (locOf 3 g 0 0 0 0) 0x06 reason s = t at hhas hqueues hfw
    unfold reportShape
    rw [setNum_keeps_logs, setNum_keeps_fw]
    refine ⟨?_, hqueues, hfw⟩
    unfold floorHas floorRecs
    rw [setNum_keeps_rel]
    exact hhas (by decide)

/-! ## The commands -/

/-- A restart ends: the processor goes on, or has failed. -/
theorem doRestartDone_eq (hrestart : procRestarts s n = true) (hinj : 3 ≤ n → injects s 0x17 (locOf 3 (n - 3) 0 0 0 0) = false)
    (ok : Bool) : doRestartDone n ok s = if ok then afterRestart n s else restartFails n false s := by
  have hhit : (if 3 ≤ n then inject 0x17 (locOf 3 (n - 3) 0 0 0 0) s else (false, s)) = (false, s) := by
    split
    case isTrue h => exact inject_none (hinj h)
    case isFalse => rfl
  unfold doRestartDone
  dsimp only
  rw [hrestart, hhit]
  dsimp only
  cases ok
  · rfl
  · rfl

theorem doActivationNext_eq {rest : List Nat} (horder : s.fw.order = n :: rest) (hact : s.fw.activating = true)
    (hrestart : procRestarts s n = true) (hstaged : (proc s n).staged = true) (ok : Bool) :
    doActivationNext ok s = if ok then afterRestart n s else revertActivation s := by
  unfold doActivationNext
  rw [horder]
  dsimp only
  rw [hact, hrestart, hstaged]
  exact if_neg (by decide)

theorem running_of_restarts (h : procRestarts s n = true) : (proc s n).running = false := by
  unfold procRestarts at h
  cases hrun : (proc s n).running with
  | false => rfl
  | true => rw [hrun] at h; exact absurd h Bool.false_ne_true

/-- What a failed restart test of a gallery core leaves. -/
theorem restartFails_gallery_leaves (hg : g < 50) (hrun : (proc s (3 + g)).running = false) (hact : s.fw.activating = false) :
    let t := restartFails (3 + g) false s
    (proc t (3 + g)).running = false ∧ (proc t (3 + g)).fails = (proc s (3 + g)).fails + 1 ∧
    ((mapGet [] s.logs.queues g).length < 256 → ∃ e : ErrEntry,
      mapGet [] t.logs.queues g = mapGet [] s.logs.queues g ++ [e] ∧
      e.detector = 0x17 ∧ e.loc = locOf 3 g 0 0 0 0 ∧ e.injected = false) ∧
    ((proc s (3 + g)).fails + 1 < 3 → (proc t (3 + g)).hold100 = true) ∧
    (3 ≤ (proc s (3 + g)).fails + 1 → (proc t (3 + g)).held = true ∧ floorHas t 0x06 (locOf 3 g 0 0 0 0) = true) := by
  intro t
  have ht : t = _ := restartFails_gallery hact
  have hqueue := queue_tested (s := s) hg
  by_cases hfails : (proc s (3 + g)).fails + 1 < 3
  · rw [if_pos hfails] at ht
    rw [ht, proc_setProc_same]
    exact ⟨hrun, rfl, hqueue, fun _ => rfl, fun h => by omega⟩
  · rw [if_neg hfails] at ht
    obtain ⟨hhas, hqueues, hfw⟩ := fenceGal_leaves 2 g 2
      (setProc (3 + g) { proc s (3 + g) with fails := (proc s (3 + g)).fails + 1, held := true } (tested g s))
    have hproc := proc_setProc_same (n := 3 + g) (tested g s) { proc s (3 + g) with fails := (proc s (3 + g)).fails + 1, held := true }
    generalize fenceGal 2 g 2 (setProc (3 + g) { proc s (3 + g) with fails := (proc s (3 + g)).fails + 1, held := true } (tested g s)) = u
      at ht hhas hqueues hfw
    have hframe := RecordFrame.setFwBit (.setFwBit (.refl u) 1 (anyRestarting u)) 7 (u.fw.procs.any (fun e => decide (3 ≤ e.1) && e.2.held))
    have hlogs : t.logs.queues = (tested g s).logs.queues := by
      rw [ht]
      unfold reportProcs
      rw [logs_setFwBit, logs_setFwBit, hqueues]
      rfl
    have hprocs : proc t (3 + g) = { proc s (3 + g) with fails := (proc s (3 + g)).fails + 1, held := true } := by
      rw [ht, proc_congr (fw_reportProcs u), proc_congr hfw, hproc]
    have hfloor : floorHas t 0x06 (locOf 3 g 0 0 0 0) = true := by
      rw [ht]
      unfold floorHas floorRecs reportProcs
      rw [hframe.rel]
      exact hhas
    rw [hprocs, hlogs]
    exact ⟨hrun, rfl, hqueue, fun h => absurd h hfails, fun _ => ⟨rfl, hfloor⟩⟩

/-- After its 100 ms the core restarts. -/
theorem doGccHold_restarts (hhold : (proc s (3 + g)).hold100 = true) (hheld : (proc s (3 + g)).held = false) :
    doGccHold g s = beginRestart (3 + g) (proc s (3 + g)).staged s := by
  unfold doGccHold
  dsimp only
  rw [hhold, hheld]
  rfl

end

/-- Settles O38: what `restartOk` and `restartFails` leave of the processors, and one step of a reversion at a time. -/
theorem restartsAndActivationsEnd : Obligations.RestartsAndActivationsEnd := by
  refine ⟨fun b n => rfl, fun b n _ hn => restartOk_runs hn, fun s n hn hrestart => ⟨?_, fun hfails => ?_, fun hfails hact => ?_⟩,
    fun s g hg hrestart hinj hact => ⟨?_, ?_⟩, fun s g hg hhold hheld => ?_, fun s n rest horder hact hrestart hstaged => ⟨?_, ?_⟩,
    fun b n rest hn hsched hact horder hrev => ?_⟩
  · exact (onProc_there (by omega) _ s).trans (effect_of_eq (f := doRestartDone n true) (doRestartDone_eq hrestart (by omega) true))
  · have hproc := restartFails_again hn hfails
    refine ⟨_, (onProc_there (by omega) _ s).trans
      (effect_of_eq (f := doRestartDone n false) (doRestartDone_eq hrestart (by omega) false)), rfl, ?_, ?_, fun m hm => ?_⟩
    · exact (congrArg Proc.running ((hproc n).trans (if_pos rfl))).trans (running_of_restarts hrestart)
    · exact congrArg Proc.fails ((hproc n).trans (if_pos rfl))
    · exact (hproc m).trans (if_neg hm)
  · exact (onProc_there (by omega) _ s).trans (effect_of_eq (f := doRestartDone n false)
      ((doRestartDone_eq hrestart (by omega) false).trans (restartFails_resets hn hfails hact)))
  · refine (onProc_there (by omega) _ s).trans (effect_of_eq (f := doRestartDone (3 + g) true)
      ((doRestartDone_eq hrestart (fun _ => by rwa [Nat.add_sub_cancel_left]) true).trans ?_))
    rw [if_pos rfl]
    unfold afterRestart goesOnFor
    rw [if_neg (by omega), if_neg (by omega)]
  · exact ⟨_, (onProc_there (by omega) _ s).trans (effect_of_eq (f := doRestartDone (3 + g) false)
      (doRestartDone_eq hrestart (fun _ => by rwa [Nat.add_sub_cancel_left]) false)), rfl,
      restartFails_gallery_leaves hg (running_of_restarts hrestart) hact⟩
  · have hcount := num_beginRestart (n := 3 + g) s.toBlock (proc s.toBlock (3 + g)).staged
    have hproc := (proc_beginRestart (n := 3 + g) s.toBlock (proc s.toBlock (3 + g)).staged (3 + g)).trans (if_pos rfl)
    have hkey : restartKey (3 + g) = 0x803004 := if_neg (by omega)
    rw [hkey] at hcount
    exact ⟨_, (onGallery_there hg _ s).trans (effect_of_eq (f := doGccHold g) (doGccHold_restarts hhold hheld)), rfl,
      congrArg Proc.hold100 hproc, congrArg Proc.running hproc, hcount⟩
  · exact effect_of_eq (f := doActivationNext true) (doActivationNext_eq horder hact hrestart hstaged true)
  · exact ⟨_, effect_of_eq (f := doActivationNext false) (doActivationNext_eq horder hact hrestart hstaged false), rfl,
      revertActivation_leaves s.toBlock⟩
  · intro t
    have ht : t = reverted (upAgain n b) := restartOk_reverts hsched horder hrev
    have hrev' : (upAgain n b).fw.reverting = n :: rest := by rw [fw_upAgain]; exact hrev
    have hact' : (upAgain n b).fw.activating = true := by rw [fw_upAgain]; exact hact
    obtain ⟨hrest, hend, hnext⟩ := reverted_leaves hrev'
    rw [ht]
    exact ⟨hrest, hend, fun m hm => hact' ▸ hnext m hm⟩

end Sys2Proof.Machine
end

section
/-! SUPPORT. Memory-side operations on the elements of one sector (R238, R239, R241). -/

namespace Sys2Proof.Machine

/-! ## Numbers of bytes -/

theorem leNat_leBytes_mod (n x : Nat) : leNat (leBytes n x) = x % 256 ^ n := by
  induction n generalizing x with
  | zero => exact (Nat.mod_one x).symm
  | succ n ih => rw [leBytes, leNat, ih, BitVec.toNat_ofNat, show 256 ^ (n + 1) = 256 * 256 ^ n from Nat.pow_succ', Nat.mod_mul]

theorem leNat_lt (b : Bytes) : leNat b < 256 ^ b.length := by
  induction b with
  | nil => exact Nat.one_pos
  | cons a b ih =>
    have ha := a.isLt
    rw [leNat, List.length_cons, Nat.pow_succ']
    omega

theorem leAt_lt (b : Bytes) (off n : Nat) : leAt b off n < 256 ^ n := by
  have h := leNat_lt (slice b off n)
  rwa [length_slice] at h

theorem leAt_drop (b : Bytes) (k off n : Nat) : leAt (b.drop k) off n = leAt b (k + off) n := by
  unfold leAt slice
  rw [List.drop_drop]

theorem leAt_zero {b : Bytes} {n : Nat} (h : n ≤ b.length) : leAt b 0 n = leNat (b.take n) := by
  unfold leAt slice
  dsimp only
  rw [List.drop_zero, List.length_take, Nat.min_eq_left h, Nat.sub_self, List.replicate_zero, List.append_nil]

theorem leAt_append_left {a b : Bytes} {n : Nat} (h : a.length = n) : leAt (a ++ b) 0 n = leNat a := by
  rw [leAt_zero (by simp [h]), List.take_left' h]

theorem leAt_append_right {a b : Bytes} {k : Nat} (h : a.length = k) (off n : Nat) : leAt (a ++ b) (k + off) n = leAt b off n := by
  rw [← leAt_drop, List.drop_left' h]

/-! ## Bytes with poison -/

theorem plain_take (l : List (Byte × Bool)) (n : Nat) : plain (l.take n) = (plain l).take n := List.map_take

theorem plain_drop (l : List (Byte × Bool)) (n : Nat) : plain (l.drop n) = (plain l).drop n := List.map_drop

theorem plain_append (a b : List (Byte × Bool)) : plain (a ++ b) = plain a ++ plain b := List.map_append

theorem plain_mark (b : Bytes) (p : Bool) : plain (b.map (fun x => (x, p))) = b := by
  unfold plain
  rw [List.map_map]
  exact List.map_id _

theorem length_plain (l : List (Byte × Bool)) : (plain l).length = l.length := List.length_map ..

/-- Bytes that all carry the same mark. -/
def Marked (p : Bool) (l : List (Byte × Bool)) : Prop := ∀ x ∈ l, x.2 = p

theorem marked_map (b : Bytes) (p : Bool) : Marked p (b.map (fun x => (x, p))) := by
  intro x hx
  obtain ⟨y, -, rfl⟩ := List.mem_map.mp hx
  rfl

theorem Marked.anyPoison {p : Bool} {l : List (Byte × Bool)} (h : Marked p l) (hlen : 0 < l.length) : anyPoison l = p := by
  obtain ⟨x, hx⟩ := List.exists_mem_of_length_pos hlen
  unfold Machine.anyPoison
  cases p with
  | true => exact List.any_eq_true.mpr ⟨x, hx, h x hx⟩
  | false => exact List.any_eq_false.mpr fun y hy => by rw [h y hy]; decide

theorem Marked.take {p : Bool} {l : List (Byte × Bool)} (h : Marked p l) (n : Nat) : Marked p (l.take n) :=
  fun x hx => h x (List.mem_of_mem_take hx)

theorem Marked.drop {p : Bool} {l : List (Byte × Bool)} (h : Marked p l) (n : Nat) : Marked p (l.drop n) :=
  fun x hx => h x (List.mem_of_mem_drop hx)

theorem marked_withPoison {d : Bytes} {mask : List Bool} (hlen : d.length = 32) : Marked (mask.getD 0 false) (withPoison d mask 32) := by
  intro x hx
  obtain ⟨i, hi, rfl⟩ := List.mem_mapIdx.mp hx
  rw [show i / 32 = 0 by omega]

/-! ## The elements of a command -/

section
variable (mop t : Nat)

theorem mtypeBytes_pos : 0 < mtypeBytes t := by
  unfold mtypeBytes
  split
  · decide
  · split <;> decide

theorem length_memElems (k : Nat) (old src : List (Byte × Bool)) : (memElems mop t k old src).1.length = k * mtypeBytes t := by
  induction k generalizing old src with
  | zero => rw [Nat.zero_mul]; rfl
  | succ k ih =>
    rw [memElems]
    dsimp only
    rw [List.length_append, List.length_map, length_leBytes, ih, Nat.succ_mul, Nat.add_comm]

/-- The flags of the elements, in their order. -/
theorem memElems_flags (k : Nat) {old src : List (Byte × Bool)} (hold : old.length = k * mtypeBytes t)
    (hsrc : src.length = k * mtypeBytes t) : (memElems mop t k old src).2 =
      (List.range k).map (fun i => (memElem mop t (leAt (plain old) (mtypeBytes t * i) (mtypeBytes t))
        (leAt (plain src) (mtypeBytes t * i) (mtypeBytes t))).2) := by
  induction k generalizing old src with
  | zero => rfl
  | succ k ih =>
    rw [Nat.succ_mul] at hold hsrc
    rw [memElems, List.range_succ_eq_map, List.map_cons, List.map_map, Nat.mul_zero, leAt_zero (by rw [length_plain]; omega),
      leAt_zero (by rw [length_plain]; omega)]
    dsimp only
    rw [plain_take, plain_take, ih (by rw [List.length_drop]; omega) (by rw [List.length_drop]; omega)]
    refine congrArg (List.cons _) (List.map_congr_left fun i _ => ?_)
    rw [plain_drop, plain_drop, leAt_drop, leAt_drop, Function.comp_apply, Nat.mul_succ, Nat.add_comm]

/-- Element `i` of the result is the function of the operands' elements `i`. -/
theorem leAt_memElems {k i : Nat} (hi : i < k) {old src : List (Byte × Bool)} (hold : old.length = k * mtypeBytes t)
    (hsrc : src.length = k * mtypeBytes t) : leAt (plain (memElems mop t k old src).1) (mtypeBytes t * i) (mtypeBytes t) =
      (memElem mop t (leAt (plain old) (mtypeBytes t * i) (mtypeBytes t))
        (leAt (plain src) (mtypeBytes t * i) (mtypeBytes t))).1 % 256 ^ mtypeBytes t := by
  induction k generalizing i old src with
  | zero => exact absurd hi (Nat.not_lt_zero i)
  | succ k ih =>
    rw [Nat.succ_mul] at hold hsrc
    rw [memElems]
    dsimp only
    rw [plain_append, plain_mark]
    cases i with
    | zero =>
      rw [Nat.mul_zero, leAt_append_left (length_leBytes ..), leNat_leBytes_mod, leAt_zero (by rw [length_plain]; omega),
        leAt_zero (by rw [length_plain]; omega), plain_take, plain_take]
    | succ i =>
      rw [Nat.mul_succ, Nat.add_comm (mtypeBytes t * i), leAt_append_right (length_leBytes ..),
        ih (Nat.lt_of_succ_lt_succ hi) (by rw [List.length_drop]; omega) (by rw [List.length_drop]; omega), plain_drop, plain_drop,
        leAt_drop, leAt_drop]

/-- The result is poisoned where an operand is. -/
theorem marked_memElems {p q : Bool} (k : Nat) {old src : List (Byte × Bool)} (hold : old.length = k * mtypeBytes t)
    (hsrc : src.length = k * mtypeBytes t) (hp : Marked p old) (hq : Marked q src) : Marked (p || q) (memElems mop t k old src).1 := by
  induction k generalizing old src with
  | zero => exact fun x hx => absurd hx List.not_mem_nil
  | succ k ih =>
    have hpos := mtypeBytes_pos t
    rw [Nat.succ_mul] at hold hsrc
    rw [memElems]
    dsimp only
    rw [(hp.take _).anyPoison (by rw [List.length_take]; omega), (hq.take _).anyPoison (by rw [List.length_take]; omega)]
    intro x hx
    obtain h | h := List.mem_append.mp hx
    · exact marked_map _ _ x h
    · exact ih (by rw [List.length_drop]; omega) (by rw [List.length_drop]; omega) (hp.drop _) (hq.drop _) x h

end

/-! ## The functions of the elements -/

section
variable {w : Nat}

theorem signed_emod (w x : Nat) : signed w x % ((2 ^ w : Nat) : Int) = (x : Int) % ((2 ^ w : Nat) : Int) := by
  unfold signed
  dsimp only
  split
  · rw [Int.natCast_emod, Int.emod_emod_of_dvd _ (Int.dvd_refl _)]
  · rw [Int.sub_emod_right, Int.natCast_emod, Int.emod_emod_of_dvd _ (Int.dvd_refl _)]

theorem unsigned_signed_add (w a b : Nat) : unsigned w (signed w a + signed w b) = (a + b) % 2 ^ w := by
  unfold unsigned
  rw [Int.add_emod, signed_emod, signed_emod, ← Int.add_emod, ← Int.natCast_add, ← Int.natCast_emod, Int.toNat_natCast]

theorem unsigned_lt (w : Nat) (z : Int) : unsigned w z < 2 ^ w := by
  have hpos : (0 : Int) < ((2 ^ w : Nat) : Int) := Int.natCast_pos.mpr (Nat.two_pow_pos w)
  have h0 := Int.emod_nonneg z (Int.ne_of_gt hpos)
  have h1 := Int.emod_lt_of_pos z hpos
  unfold unsigned
  omega

/-- A value that fits in the width is what its bits read as. -/
theorem signed_unsigned {z : Int} (hw : 0 < w) (hlo : -((2 ^ (w - 1) : Nat) : Int) ≤ z) (hhi : z < ((2 ^ (w - 1) : Nat) : Int)) :
    signed w (unsigned w z) = z := by
  have htwo : 2 ^ w = 2 * 2 ^ (w - 1) := by rw [← Nat.pow_succ', Nat.succ_eq_add_one, Nat.sub_add_cancel hw]
  have hlt := unsigned_lt w z
  unfold signed
  dsimp only
  rw [Nat.mod_eq_of_lt hlt]
  unfold unsigned at hlt ⊢
  rw [htwo] at hlt ⊢
  generalize 2 ^ (w - 1) = m at *
  by_cases hneg : 0 ≤ z
  · rw [Int.emod_eq_of_lt hneg (by omega), if_pos (by omega)]
    omega
  · have hmod : z % ((2 * m : Nat) : Int) = z + ((2 * m : Nat) : Int) := by
      rw [← Int.add_emod_right]
      exact Int.emod_eq_of_lt (by omega) (by omega)
    rw [hmod, if_neg (by omega)]
    omega

theorem signed_bounds (hw : 0 < w) (x : Nat) : -((2 ^ (w - 1) : Nat) : Int) ≤ signed w x ∧ signed w x < ((2 ^ (w - 1) : Nat) : Int) := by
  have htwo : 2 ^ w = 2 * 2 ^ (w - 1) := by rw [← Nat.pow_succ', Nat.succ_eq_add_one, Nat.sub_add_cancel hw]
  have hlt := Nat.mod_lt x (Nat.two_pow_pos w)
  unfold signed
  dsimp only
  rw [htwo] at hlt ⊢
  generalize 2 ^ (w - 1) = m at *
  split <;> omega

theorem signed_unsigned_max (hw : 0 < w) (a b : Nat) :
    signed w (unsigned w (max (signed w a) (signed w b))) = max (signed w a) (signed w b) := by
  have ha := signed_bounds hw a
  have hb := signed_bounds hw b
  exact signed_unsigned hw (by omega) (by omega)

end

section
variable {t a b : Nat}

theorem memElem_xor (t a b : Nat) : memElem 3 t a b = (a ^^^ b, 0) := by
  unfold memElem
  exact if_pos rfl

theorem memElem_addInt (h : t = 2 ∨ t = 3) : (memElem 1 t a b).1 = (a + b) % 2 ^ (8 * mtypeBytes t) := by
  unfold memElem
  dsimp only
  rw [if_neg (by decide), if_neg (by omega), if_pos h, if_pos rfl]
  exact unsigned_signed_add ..

theorem memElem_maxInt (h : t = 2 ∨ t = 3) : (memElem 2 t a b).1 =
    unsigned (8 * mtypeBytes t) (max (signed (8 * mtypeBytes t) a) (signed (8 * mtypeBytes t) b)) := by
  unfold memElem
  dsimp only
  rw [if_neg (by decide), if_neg (by omega), if_pos h, if_neg (by decide)]

/-- A sum of G64 elements that fits. -/
theorem memElem_addG64 (ha : a ≠ 2 ^ 63) (hb : b ≠ 2 ^ 63) (hlo : -(2 ^ 63) < signed 64 a + signed 64 b)
    (hhi : signed 64 a + signed 64 b < 2 ^ 63) : (memElem 1 4 a b).1 = unsigned 64 (signed 64 a + signed 64 b) := by
  have hnan : ¬ (a = g64Nan ∨ b = g64Nan) := not_or.mpr ⟨ha, hb⟩
  unfold memElem g64Add
  dsimp only
  rw [if_neg (by decide), if_pos rfl, if_pos rfl, if_neg hnan, if_neg (by omega)]

theorem memElem_maxG64 (ha : a ≠ 2 ^ 63) (hb : b ≠ 2 ^ 63) : (memElem 2 4 a b).1 = unsigned 64 (max (signed 64 a) (signed 64 b)) := by
  have hnan : ¬ (a = g64Nan ∨ b = g64Nan) := not_or.mpr ⟨ha, hb⟩
  unfold memElem
  dsimp only
  rw [if_neg (by decide), if_pos rfl, if_neg (by decide), if_neg hnan]

end

end Sys2Proof.Machine
end

section
/-! SUPPORT. One memory-side operation on a whole sector of a plain page (R238, R239). -/

namespace Sys2Proof.Machine

section
variable {s : Block} {a : Nat} (h : plainSector s a)
include h

/-- The page-map caches are no part of what makes a sector plain. -/
theorem plainSector_withCaches (ca cb : List Nat) (n : Nat) : plainSector (withCaches ca cb n s) a := h

/-- An injection that is not armed leaves the sector of an operation as it is. -/
theorem adderInject_sector (t : Nat) (data : List (Byte × Bool)) (ca cb : List Nat) (n : Nat) :
    (pieces (a % 2 ^ 39) 32).foldl (adderInject t) (data, withCaches ca cb n s) = (data, withCaches ca cb n s) := by
  obtain ⟨halign, ha, huse, -, -, harm, -⟩ := h
  rw [pieces_sector halign ha, List.foldl_cons, List.foldl_nil]
  unfold adderInject
  dsimp only
  split
  · rfl
  · rw [pieceSecs_sector (by omega), List.foldl_cons, List.foldl_nil, inject_none (injects_unarmed (s := withCaches ca cb n s) harm ..)]
    rfl

/-- Every byte of the sector is live. -/
theorem live_sector {o : Nat} (ho : o < 32) : peUsable (pmapEntry s ((a + o) % 2 ^ 39 / 2 ^ 20)) = true := by
  obtain ⟨halign, ha, huse, -⟩ := h
  rwa [show (a + o) % 2 ^ 39 / 2 ^ 20 = a / 2 ^ 20 by omega]

end

theorem elems_sector {t : Nat} : 32 / mtypeBytes t * mtypeBytes t = 32 := by
  unfold mtypeBytes
  split
  · rfl
  · split <;> rfl

/-- The elements of the sector, and their flags, that an operation leaves. -/
def sectorElems (mop t : Nat) (s : Block) (a : Nat) (src : List (Byte × Bool)) : List (Byte × Bool) × List Nat :=
  memElems mop t (32 / mtypeBytes t) ((secBytes s (sectorOf s a)).map (fun b => (b, s.mem.poison.contains (sectorOf s a)))) src

section
variable {s : Block} {a t : Nat} {src : List (Byte × Bool)} (hsrc : src.length = 32) (mop : Nat)

theorem length_sectorOperand : ((secBytes s (sectorOf s a)).map (fun b => (b, s.mem.poison.contains (sectorOf s a)))).length =
    32 / mtypeBytes t * mtypeBytes t := by
  rw [List.length_map, length_secBytes, elems_sector]

include hsrc

theorem sectorElems_flags : (sectorElems mop t s a src).2 = (List.range (32 / mtypeBytes t)).map (fun i =>
    (memElem mop t (leAt (secBytes s (sectorOf s a)) (mtypeBytes t * i) (mtypeBytes t))
      (leAt (plain src) (mtypeBytes t * i) (mtypeBytes t))).2) := by
  unfold sectorElems
  rw [memElems_flags mop t _ length_sectorOperand (hsrc.trans elems_sector.symm), plain_mark]

theorem leAt_sectorElems {i : Nat} (hi : i < 32 / mtypeBytes t) :
    leAt (plain (sectorElems mop t s a src).1) (mtypeBytes t * i) (mtypeBytes t) =
      (memElem mop t (leAt (secBytes s (sectorOf s a)) (mtypeBytes t * i) (mtypeBytes t))
        (leAt (plain src) (mtypeBytes t * i) (mtypeBytes t))).1 % 256 ^ mtypeBytes t := by
  unfold sectorElems
  rw [leAt_memElems mop t hi length_sectorOperand (hsrc.trans elems_sector.symm), plain_mark]

theorem anyPoison_sectorElems {q : Bool} (hq : Marked q src) :
    anyPoison (sectorElems mop t s a src).1 = (s.mem.poison.contains (sectorOf s a) || q) :=
  (marked_memElems mop t _ length_sectorOperand (hsrc.trans elems_sector.symm) (marked_map _ _) hq).anyPoison
    (by rw [length_memElems, elems_sector]; decide)

/-- In a live sector every element gives its flags. -/
theorem sectorElems_live (h : plainSector s a) : (sectorElems mop t s a src).2.mapIdx (fun i x =>
    if peUsable (pmapEntry s ((a + i * mtypeBytes t) % 2 ^ 39 / 2 ^ 20)) = true ∧
      peUsable (pmapEntry s ((a + ((i + 1) * mtypeBytes t - 1)) % 2 ^ 39 / 2 ^ 20)) = true then x else 0) =
    (sectorElems mop t s a src).2 := by
  have hlen : (sectorElems mop t s a src).2.length = 32 / mtypeBytes t := by
    rw [sectorElems_flags hsrc, List.length_map, List.length_range]
  refine List.ext_getElem (List.length_mapIdx ..) fun i _ hi => ?_
  have hpos := mtypeBytes_pos t
  have hin : (i + 1) * mtypeBytes t ≤ 32 := by
    have hle := Nat.mul_le_mul_right (mtypeBytes t) (show i + 1 ≤ 32 / mtypeBytes t by omega)
    rwa [elems_sector] at hle
  rw [Nat.succ_mul] at hin
  rw [List.getElem_mapIdx, if_pos]
  rw [Nat.succ_mul]
  exact ⟨live_sector h (by omega), live_sector h (by omega)⟩

end

/-- An operation on a plain sector puts its elements there and collects their flags; the page-map caches and the cache
slots' tags may move. -/
theorem memRmw_sector {s : Block} {a : Nat} (h : plainSector s a) {t : Nat} (ht : t ≤ 4) {src : List (Byte × Bool)}
    (hsrc : src.length = 32) (hall tag mop : Nat) : ∃ ca cb n c, memRmw hall tag mop t a src s =
      memFlags tag ((sectorElems mop t s a src).2.foldl (· ||| ·) 0) { withCaches ca cb n s with
        colls := c
        mem := { (withCaches ca cb n s).mem with
          bytes := cellsPut s.mem.bytes (sectorOf s a * 32) ((plain (sectorElems mop t s a src).1).map some)
          symErr := mapSet 0 s.mem.symErr (sectorOf s a) 0
          poison := setPut s.mem.poison (sectorOf s a) (anyPoison (sectorElems mop t s a src).1) } } := by
  have hlen : (sectorElems mop t s a src).1.length = 32 := (length_memElems ..).trans elems_sector
  obtain ⟨ra, rb, rn, hread⟩ := memRead_sector h hall
  obtain ⟨ca, cb, n, c, hwrite⟩ := memWrite_sector (plainSector_withCaches h ra rb rn) hlen hall
  refine ⟨ca, cb, n, c, ?_⟩
  have hread' : memRead hall a (32 / mtypeBytes t * mtypeBytes t) s = _ := (congrArg (memRead hall a · s) elems_sector).trans hread
  have hlogs : ({ withCaches ra rb rn s with logs := { (withCaches ra rb rn s).logs with log := s.logs.log } } : Block) =
    withCaches ra rb rn s := rfl
  have helems : memElems mop t (32 / mtypeBytes t)
      ((secBytes s (sectorOf s a)).map (fun b => (b, s.mem.poison.contains (sectorOf s a)))) src = sectorElems mop t s a src := rfl
  unfold memRmw
  dsimp only
  rw [if_neg (by omega), hsrc, hread']
  dsimp only
  rw [hlogs, helems, elems_sector, adderInject_sector h]
  dsimp only
  rw [hwrite]
  exact congrArg (fun fl : List Nat => memFlags tag (fl.foldl (· ||| ·) 0) _)
    (sectorElems_live hsrc mop (plainSector_withCaches h ra rb rn))

/-! ## The sector after an operation -/

section
variable (tag fl : Nat) (s : Block)

theorem mem_memFlags : (memFlags tag fl s).mem.bytes = s.mem.bytes ∧ (memFlags tag fl s).mem.poison = s.mem.poison := by
  unfold memFlags
  split <;> exact ⟨rfl, rfl⟩

theorem secBytes_memFlags (k : Nat) : secBytes (memFlags tag fl s) k = secBytes s k := by
  unfold secBytes
  rw [(mem_memFlags tag fl s).1]

end

/-- What an operation does to the elements, the poison and the flags of its sector, and to the other sectors. -/
theorem doMemOp_sector {f : MemOpF} {s : Block} (h : plainSector s f.addr) (ht : f.mtype ≤ 4) (hdata : f.data.length = 32) (mop : Nat) :
    let t := doMemOp mop f s
    let sk := sectorOf s f.addr
    let w := mtypeBytes f.mtype
    (∀ k, k < 32 / w → leAt (secBytes t sk) (w * k) w =
      (memElem mop f.mtype (leAt (secBytes s sk) (w * k) w) (leAt f.data (w * k) w)).1 % 256 ^ w) ∧
    t.mem.poison.contains sk = (s.mem.poison.contains sk || f.poison.getD 0 false) ∧
    (∀ k, k ≠ sk → secBytes t k = secBytes s k ∧ t.mem.poison.contains k = s.mem.poison.contains k) ∧
    (f.tag = 0 → t.mem.flags0 = s.mem.flags0 ||| ((List.range (32 / w)).map (fun k =>
      (memElem mop f.mtype (leAt (secBytes s sk) (w * k) w) (leAt f.data (w * k) w)).2)).foldl (· ||| ·) 0) := by
  intro t sk w
  have hsrc : (withPoison f.data f.poison 32).length = 32 := (length_withPoison ..).trans hdata
  obtain ⟨ca, cb, n, c, hrmw⟩ := memRmw_sector h ht hsrc 0 f.tag mop
  have helem := fun k => leAt_sectorElems (s := s) (a := f.addr) (t := f.mtype) hsrc mop (i := k)
  have hflags := sectorElems_flags (s := s) (a := f.addr) (t := f.mtype) hsrc mop
  have hpois := anyPoison_sectorElems (s := s) (a := f.addr) (t := f.mtype) hsrc mop (marked_withPoison hdata)
  have hlen : (plain (sectorElems mop f.mtype s f.addr (withPoison f.data f.poison 32)).1).length = 32 :=
    (length_plain _).trans ((length_memElems ..).trans elems_sector)
  rw [plain_withPoison] at helem hflags
  change t = _ at hrmw
  generalize sectorElems mop f.mtype s f.addr (withPoison f.data f.poison 32) = r at hrmw helem hflags hpois hlen
  obtain ⟨hbytes, hpoison⟩ := mem_memFlags f.tag (r.2.foldl (· ||| ·) 0) { withCaches ca cb n s with
        colls := c
        mem := { (withCaches ca cb n s).mem with
          bytes := cellsPut s.mem.bytes (sk * 32) ((plain r.1).map some)
          symErr := mapSet 0 s.mem.symErr sk 0
          poison := setPut s.mem.poison sk (anyPoison r.1) } }
  rw [← hrmw] at hbytes hpoison
  have hsector : secBytes t sk = plain r.1 := by
    unfold secBytes
    rw [hbytes]
    exact secBytes_cellsPut_same hlen sk
  refine ⟨fun k hk => hsector ▸ helem k hk, ?_, fun k hk => ⟨?_, ?_⟩, fun htag => ?_⟩
  · rw [hpoison, ← hpois]
    exact contains_setPut_same ..
  · unfold secBytes
    rw [hbytes]
    exact secBytes_cellsPut_ne hlen hk
  · rw [hpoison]
    exact contains_setPut_ne _ _ hk
  · rw [hrmw, htag, ← hflags]
    rfl

/-- What an element of the result reads as. -/
theorem memElem_reads {mop t a b : Nat} (ha : a < 256 ^ mtypeBytes t) (hb : b < 256 ^ mtypeBytes t) :
    let r := (memElem mop t a b).1 % 256 ^ mtypeBytes t
    r = (memElem mop t a b).1 % 2 ^ (8 * mtypeBytes t) ∧
    (mop = 3 → r = a ^^^ b) ∧
    ((t = 2 ∨ t = 3) →
      (mop = 1 → r = (a + b) % 2 ^ (8 * mtypeBytes t)) ∧
      (mop = 2 → signed (8 * mtypeBytes t) r = max (signed (8 * mtypeBytes t) a) (signed (8 * mtypeBytes t) b))) ∧
    (t = 4 → a ≠ 2 ^ 63 → b ≠ 2 ^ 63 →
      (mop = 1 → -(2 ^ 63) < signed 64 a + signed 64 b → signed 64 a + signed 64 b < 2 ^ 63 →
        signed 64 r = signed 64 a + signed 64 b) ∧
      (mop = 2 → signed 64 r = max (signed 64 a) (signed 64 b))) := by
  have hpow : 256 ^ mtypeBytes t = 2 ^ (8 * mtypeBytes t) := by rw [Nat.pow_mul]
  have hbits : 0 < 8 * mtypeBytes t := Nat.mul_pos (by decide) (mtypeBytes_pos t)
  intro r
  have hr : r = (memElem mop t a b).1 % 2 ^ (8 * mtypeBytes t) := by rw [← hpow]
  rw [hpow] at ha hb
  refine ⟨hr, fun hmop => ?_, fun ht => ⟨fun hmop => ?_, fun hmop => ?_⟩, fun ht hna hnb => ⟨fun hmop hlo hhi => ?_, fun hmop => ?_⟩⟩
  · rw [hr, hmop, memElem_xor]
    exact Nat.mod_eq_of_lt (Nat.xor_lt_two_pow ha hb)
  · rw [hr, hmop, memElem_addInt ht, Nat.mod_mod]
  · rw [hr, hmop, memElem_maxInt ht, Nat.mod_eq_of_lt (unsigned_lt ..), signed_unsigned_max hbits]
  · subst ht
    rw [hr, hmop, memElem_addG64 hna hnb hlo hhi, show 8 * mtypeBytes 4 = 64 from rfl, Nat.mod_eq_of_lt (unsigned_lt ..)]
    exact signed_unsigned (by decide) (by omega) (by omega)
  · subst ht
    rw [hr, hmop, memElem_maxG64 hna hnb, show 8 * mtypeBytes 4 = 64 from rfl, Nat.mod_eq_of_lt (unsigned_lt ..),
      signed_unsigned_max (by decide)]

/-- The command of an operation performs it. -/
theorem exec_memOp {f : MemOpF} {s : State} {i : Instr} {mop : Nat}
    (h : (mop = 1 ∧ i = .add f) ∨ (mop = 2 ∧ i = .max f) ∨ (mop = 3 ∧ i = .xor f)) :
    exec i s = .next { s with toBlock := doMemOp mop f s.toBlock } := by
  obtain ⟨rfl, rfl⟩ | ⟨rfl, rfl⟩ | ⟨rfl, rfl⟩ := h
  · exact effect_of_eq rfl
  · exact effect_of_eq rfl
  · exact effect_of_eq rfl

end Sys2Proof.Machine
end

section
/-! SUPPORT. The passes of the parameter update (R314 to R320); O31. -/

namespace Sys2Proof.Machine

/-! ## A pass as a command -/

section
variable (d : DescF) (s : Block)

/-- How a pass ends: its queued descriptor is performed, and a failure with none queued shows at once. -/
def endPass (queued : List Desc) (r : Bool × Block) : Block :=
  let c := { r.2 with queues := { r.2.queues with descs := takePass d r.1 r.2.queues.descs } }
  if r.1 || hasPass d queued then c else descFail c

theorem doPass_first : doPass false d s = endPass d s.queues.descs (runPass1 d.ctx (dXdesc d) d.slot.loff s) := rfl

theorem doPass_second : doPass true d s = endPass d s.queues.descs (runPass2 d.ctx (dXdesc d) d.slot.loff s) := rfl

/-- A pass that fails keeps memory and the step's other bits; DESC_FAIL shows where no descriptor is queued. -/
theorem endPass_failed (q : List Desc) : (endPass d q (false, s)).bnd.bits.testBit 3 = s.bnd.bits.testBit 3 ∧
    (endPass d q (false, s)).mem = s.mem ∧ (hasPass d q = false → (endPass d q (false, s)).bnd.bits.testBit 5 = true) := by
  unfold endPass
  dsimp only
  rw [Bool.false_or]
  cases hasPass d q with
  | true => exact ⟨rfl, rfl, nofun⟩
  | false =>
    refine ⟨?_, rfl, fun _ => testBit_descFail _⟩
    rw [if_neg Bool.false_ne_true, descFail_eq]
    exact (testBit_putBit_ne _ (by decide)).trans (testBit_putBit_ne _ (by decide))

end

section
variable {x : SlotCtx} {xdn loff : Nat} {s : Block}

theorem runPass1_none {b : Block} (h : passOf x xdn loff s = (none, b)) : runPass1 x xdn loff s = (false, b) := by
  unfold runPass1
  rw [h]

theorem runPass2_none {b : Block} (h : passOf x xdn loff s = (none, b)) : runPass2 x xdn loff s = (false, b) := by
  unfold runPass2
  rw [h]

/-- A pass under a side job tag performs nothing. -/
theorem passOf_side (h : x.tag ≠ 0) : passOf x xdn loff s = (none, stepBit 3 s) := by
  unfold passOf
  exact if_pos h

/-- Limb `i` of the sum of pass 1, or NaN in the first where the sum does not fit. -/
def normLimb (a : Acc1) (i : Nat) : Nat := if (a.nf ∨ 2 ^ 288 ≤ a.acc) ∧ i = 0 then 2 ^ 63 else a.acc / 2 ^ (48 * i) % 2 ^ 48

theorem normLimb_eq (a : Acc1) (i : Nat) :
    (if (a.nf || decide (2 ^ 288 ≤ a.acc)) && i == 0 then g64Nan else fld a.acc (48 * i) 48) = normLimb a i := by
  unfold fld g64Nan normLimb
  rw [Nat.shiftRight_eq_div_pow]
  refine ite_of_iff ?_
  rw [Bool.and_eq_true, Bool.or_eq_true, decide_eq_true_iff, beq_iff_eq]

variable {p : PassRun} (h : passOf x xdn loff s = (some p, s))
include h

/-- Pass 1 runs over its rows; poison fails it, and otherwise the norm vector takes its sum. -/
theorem runPass1_some {a : Acc1} {b : Block}
    (hrows : (List.range p.rows).foldl (pass1Row p) ({ acc := 0, nf := false, bad := false, flags := 0 }, logName p s) = (a, b)) :
    runPass1 x xdn loff s = if a.bad then (false, memFlags 0 a.flags b) else
      (true, memRmw (p.stack / 4) 0 1 4 (ubNorm p.blk) (((List.range 6).flatMap (fun i => leBytes 8 (normLimb a i))).map (fun b => (b, false)))
        (memFlags 0 a.flags b)) := by
  unfold runPass1
  rw [h]
  dsimp only
  rw [hrows]
  simp only [normLimb_eq]

variable (x xdn loff) (s)
omit h

/-- The state in which pass 2 of a descriptor starts: the update log names it. -/
def pass2Start (p : PassRun) (xdn loff : Nat) (s : Block) : Block :=
  logMod p.stack p.upd (fun e => { e with descs := e.descs ++ [{ xdesc := xdn, loff := loff, pages := [] }] }) (logName p s)

/-- The rows of pass 2 with a given c, with what stood at its start `b`. -/
def pass2With (p : PassRun) (b : Block) (c : Nat) (x : Block) : Bool × Block :=
  pass2Rows p { wdesc := wcDesc b p.blk, seed := turnSeed b (tdTseed (wcDesc b p.blk)), h := hyperOf b (ubHset p.blk), c
                eta := x.upd.eta, counts := true } x

/-- The norm vector that pass 2 reads, or none where it is poisoned. -/
def normRead (n : List (Byte × Bool)) : Option (List Nat) :=
  if anyPoison n then none else some ((List.range 6).map (fun i => leAt (plain n) (8 * i) 8))

variable {x xdn loff} {s}
include h

/-- Pass 2 takes c = 1 for an early block and the norm vector's clip factor for a late one. -/
theorem runPass2_some : runPass2 x xdn loff s =
    if ubEarly p.blk then pass2With p (pass2Start p xdn loff s) 0x3F800000 (pass2Start p xdn loff s)
    else match clipFactor (normRead (engineRead p (ubNorm p.blk) 48 (pass2Start p xdn loff s)).1)
        (nth (hyperOf (pass2Start p xdn loff s) (ubHset p.blk)) 3 0) with
      | none => (true, logMod p.stack p.upd (fun e => { e with nf := true })
          (engineRead p (ubNorm p.blk) 48 (pass2Start p xdn loff s)).2)
      | some c => pass2With p (pass2Start p xdn loff s) c.1
          (memFlags 0 c.2 (engineRead p (ubNorm p.blk) 48 (pass2Start p xdn loff s)).2) := by
  unfold runPass2
  rw [h]
  rfl

theorem runPass2_early (hearly : ubEarly p.blk = true) : runPass2 x xdn loff s =
    pass2With p (pass2Start p xdn loff s) 0x3F800000 (pass2Start p xdn loff s) :=
  (runPass2_some h).trans (if_pos hearly)

/-- A late block whose norm vector is non-finite writes nothing and is logged as non-finite. -/
theorem runPass2_nonfinite (hlate : ubEarly p.blk = false)
    (hclip : clipFactor (normRead (engineRead p (ubNorm p.blk) 48 (pass2Start p xdn loff s)).1)
      (nth (hyperOf (pass2Start p xdn loff s) (ubHset p.blk)) 3 0) = none) : runPass2 x xdn loff s =
    (true, logMod p.stack p.upd (fun e => { e with nf := true }) (engineRead p (ubNorm p.blk) 48 (pass2Start p xdn loff s)).2) := by
  rw [runPass2_some h, if_neg (by rw [hlate]; decide), hclip]

theorem runPass2_late (hlate : ubEarly p.blk = false) {c fl : Nat}
    (hclip : clipFactor (normRead (engineRead p (ubNorm p.blk) 48 (pass2Start p xdn loff s)).1)
      (nth (hyperOf (pass2Start p xdn loff s) (ubHset p.blk)) 3 0) = some (c, fl)) : runPass2 x xdn loff s =
    pass2With p (pass2Start p xdn loff s) c (memFlags 0 fl (engineRead p (ubNorm p.blk) 48 (pass2Start p xdn loff s)).2) := by
  rw [runPass2_some h, if_neg (by rw [hlate]; decide), hclip]

end

/-! ## The elements of pass 1 -/

theorem f32Dy_exp {x : Nat} : -149 ≤ (f32Dy x).2 := by
  unfold f32Dy wfVal
  dsimp only
  by_cases hinf : fld x (wfMb .fp32) (wfEb .fp32) = 2 ^ wfEb .fp32 - 1
  · rw [if_pos hinf]
    by_cases hnan : fld x 0 (wfMb .fp32) = 0
    · rw [if_pos hnan]
      exact (by decide : (-149 : Int) ≤ 0)
    · rw [if_neg hnan]
      exact (by decide : (-149 : Int) ≤ 0)
  · rw [if_neg hinf]
    by_cases hzero : fld x (wfMb .fp32) (wfEb .fp32) = 0
    · rw [if_pos hzero]
      exact (by decide : (-149 : Int) ≤ 0)
    · rw [if_neg hzero]
      have hbias : wfBias .fp32 = 127 := rfl
      have hmant : wfMb .fp32 = 23 := rfl
      dsimp only
      rw [hbias, hmant]
      rw [hmant] at hzero
      omega

/-- The square of a finite value, in units of 2^-200. -/
theorem squareFix_eq (x : Nat) : squareFix x = (f32Dy x).1 ^ 2 * 2 ^ (2 * ((f32Dy x).2 + 149)).toNat / 2 ^ 98 := by
  have he := f32Dy_exp (x := x)
  unfold squareFix
  generalize f32Dy x = d at he
  obtain ⟨m, e⟩ := d
  dsimp only at he ⊢
  rw [Nat.pow_two]
  split
  case isTrue hk =>
    rw [show (2 * (e + 149)).toNat = (2 * e + 200).toNat + 98 by omega, Nat.pow_add, ← Nat.mul_assoc, Nat.mul_div_cancel _ (by decide),
      Nat.shiftLeft_eq]
  case isFalse hk =>
    have hsum : 2 ^ 98 = 2 ^ (-(2 * e + 200)).toNat * 2 ^ (2 * (e + 149)).toNat := by
      rw [← Nat.pow_add]
      congr 1
      omega
    rw [hsum, Nat.mul_div_mul_right _ _ (Nat.two_pow_pos _), Nat.shiftRight_eq_div_pow]

theorem engineHit_unarmed {s : Block} (h : armed s = false) (stack : Nat) : engineHit stack s = (false, s) := by
  unfold engineHit
  dsimp only
  rw [inject_none (injects_unarmed h ..)]
  rfl

section
variable {p : PassRun} {g w m : List (Byte × Bool)} {fz : List (Bool × Bool)} {a : Acc1} {s : Block} {j : Nat}

theorem pass1Elem_frozen (hfz : nth fz j (false, false) = (true, false)) : pass1Elem p g fz (a, s) j = (a, s) := by
  unfold pass1Elem
  rw [hfz]
  rfl

/-- A finite element below 2^44 adds its square. -/
theorem pass1Elem_adds (harm : armed s = false) (hfz : nth fz j (false, false) = (false, false))
    (hpois : anyPoison ((g.drop (j * p.size)).take p.size) = false) {v : Nat × Nat}
    (hv : gradF32 (xdMtype p.xd) p.anchor (leNat (plain ((g.drop (j * p.size)).take p.size))) = v) (hfin : f32Bad v.1 = false)
    (hsmall : (f32Dy v.1).1 * 2 ^ ((f32Dy v.1).2 + 149).toNat < 2 ^ 193) : pass1Elem p g fz (a, s) j =
      ({ a with acc := a.acc + (f32Dy v.1).1 ^ 2 * 2 ^ (2 * ((f32Dy v.1).2 + 149)).toNat / 2 ^ 98, flags := a.flags ||| v.2 }, s) := by
  have hbelow : ¬ ((f32Dy v.1).1 ≠ 0 ∧ 44 ≤ (ilog2 (f32Dy v.1).1 : Int) + (f32Dy v.1).2) := by
    rintro ⟨hm, hbig⟩
    have he := f32Dy_exp (x := v.1)
    generalize f32Dy v.1 = d at *
    have hlow : 2 ^ (ilog2 d.1 + (d.2 + 149).toNat) ≤ d.1 * 2 ^ (d.2 + 149).toNat := by
      rw [Nat.pow_add]
      exact Nat.mul_le_mul_right _ (Nat.log2_self_le hm)
    have hexp := (Nat.pow_lt_pow_iff_right (by decide)).mp (Nat.lt_of_le_of_lt hlow hsmall)
    omega
  unfold pass1Elem
  dsimp only
  rw [hfz, engineHit_unarmed harm, hpois, hv]
  dsimp only
  rw [hfin, if_neg (by decide), if_neg (by decide), if_neg (by decide), if_neg (by simpa using hbelow), squareFix_eq]

/-! ## The elements of pass 2 -/

variable {h : List Nat} {c eta : Nat} {a : Acc2} (hg : anyPoison ((g.drop (j * p.size)).take p.size) = false)
  (hw : anyPoison ((w.drop (4 * j)).take 4) = false) (hm : anyPoison ((m.drop (2 * j)).take 2) = false)
include hg hw hm

theorem pass2Elem_frozen (hfz : nth fz j (false, false) = (true, false)) : pass2Elem p h c eta g w m fz (a, s) j =
    ({ a with els := a.els ++ [(leNat (plain ((w.drop (4 * j)).take 4)), leNat (plain ((m.drop (2 * j)).take 2)), false)] }, s) := by
  unfold pass2Elem
  dsimp only
  rw [hfz, hg, hw, hm]
  rfl

theorem pass2Elem_becomes (harm : armed s = false) (hfz : nth fz j (false, false) = (false, false)) {u : Nat × Nat}
    (hu : gradF32 (xdMtype p.xd) p.anchor (leNat (plain ((g.drop (j * p.size)).take p.size))) = u) {r : Nat × Nat × Nat × Bool}
    (hr : pass2Arith h c eta u.1 (leNat (plain ((w.drop (4 * j)).take 4))) (leNat (plain ((m.drop (2 * j)).take 2))) = r) :
    pass2Elem p h c eta g w m fz (a, s) j =
      ({ a with els := a.els ++ [(r.1, r.2.1, false)], flags := a.flags ||| u.2 ||| r.2.2.1, nf := a.nf || r.2.2.2 }, s) := by
  unfold pass2Elem
  dsimp only
  rw [hfz, hg, hw, hm, engineHit_unarmed harm, hu, hr]
  rfl

end

/-! ## The commands of the passes -/

section
variable {d : DescF} {s : State} {r : Bool × Block}

theorem exec_updatePass1 (h : runPass1 d.ctx (dXdesc d) d.slot.loff s.toBlock = r) :
    exec (.updatePass1 d) s = .next { s with toBlock := endPass d s.queues.descs r } :=
  effect_of_eq (f := doPass false d) ((doPass_first ..).trans (congrArg _ h))

theorem exec_updatePass2 (h : runPass2 d.ctx (dXdesc d) d.slot.loff s.toBlock = r) :
    exec (.updatePass2 d) s = .next { s with toBlock := endPass d s.queues.descs r } :=
  effect_of_eq (f := doPass true d) ((doPass_second ..).trans (congrArg _ h))

/-- A pass that performs nothing fails. -/
theorem exec_noPass {i : Instr} {b : Block} (hi : i = .updatePass1 d ∨ i = .updatePass2 d)
    (h : passOf d.ctx (dXdesc d) d.slot.loff s.toBlock = (none, b)) :
    exec i s = .next { s with toBlock := endPass d s.queues.descs (false, b) } := by
  obtain rfl | rfl := hi
  · exact exec_updatePass1 (runPass1_none h)
  · exact exec_updatePass2 (runPass2_none h)

end

/-- Settles O31: a sector's operation element by element, and the passes by the definitions of their ends, rows and
elements. -/
theorem updatePassesAndMemorySideOperations : Obligations.UpdatePassesAndMemorySideOperations := by
  refine ⟨fun f s i mop hop ht hdata hplain => ?_, fun d s i hi => ⟨fun b => exec_noPass hi, fun htag => ?_⟩,
    fun d s p hpass => ⟨?_, ?_⟩, ?_, ?_⟩
  · obtain ⟨helem, hpois, hother, hflags⟩ := doMemOp_sector hplain ht hdata mop
    refine ⟨_, exec_memOp hop, rfl, fun k hk => ?_, hpois, hother, hflags⟩
    have hread := memElem_reads (mop := mop) (t := f.mtype) (leAt_lt (secBytes s.toBlock (sectorOf s.toBlock f.addr)) (mtypeBytes f.mtype * k) _)
      (leAt_lt f.data (mtypeBytes f.mtype * k) _)
    rw [← helem k hk] at hread
    exact hread
  · obtain ⟨hside, hmem, hfail⟩ := endPass_failed d (stepBit 3 s.toBlock) s.queues.descs
    exact ⟨_, exec_noPass hi (passOf_side htag), rfl, hside.trans (testBit_stepBit 3 _), hmem, hfail⟩
  · intro r limb
    have hrun := runPass1_some hpass (rfl : (List.range p.rows).foldl (pass1Row p)
      ({ acc := 0, nf := false, bad := false, flags := 0 }, logName p s.toBlock) = (r.1, r.2))
    exact ⟨fun hbad => exec_updatePass1 (hrun.trans (if_pos hbad)),
      fun hbad => exec_updatePass1 (hrun.trans (if_neg (by rw [hbad]; decide)))⟩
  · intro b h rows
    refine ⟨fun hearly => exec_updatePass2 (runPass2_early hpass hearly), ?_⟩
    intro hlate n v
    exact ⟨fun hclip => exec_updatePass2 (runPass2_nonfinite hpass hlate hclip),
      fun c fl hclip => exec_updatePass2 (runPass2_late hpass hlate hclip)⟩
  · intro p g fz a s j harm raw v
    exact ⟨pass1Elem_frozen, fun hfz hpois hfin hsmall => pass1Elem_adds harm hfz hpois rfl hfin hsmall⟩
  · intro p h c eta g w m fz a s j harm gr wr mr wv mv hg hw hm
    refine ⟨pass2Elem_frozen hg hw hm, fun hfz => ?_⟩
    intro x mf cg t bad u d w' m' r
    have hr : r = _ := congrArg Prod.fst (pass2Elem_becomes (a := a) hg hw hm harm hfz rfl rfl)
    rw [hr]
    exact ⟨rfl, rfl, rfl⟩

end Sys2Proof.Machine
end
